-- ==== Sys2Proof/Word.lean ====
section
/-! DEFINITION. The word types of the part: 32-bit register and memory words, bytes. -/

namespace Sys2Proof

/-- A 32-bit word: a register, a memory word, the data part of an engine register (R15, R447). -/
abbrev Word := BitVec 32

/-- A byte of memory. -/
abbrev Byte := BitVec 8

end Sys2Proof
end

