-- ==== Sys2Proof/Syntax.lean ====
section
/-! DEFINITION. The commands the block takes: one constructor per row of spec/opcode_table.json. -/

namespace Sys2Proof

/-- Who performs an access (R26–R32, R52): an engine, a DMA channel, the maintenance port, the host port,
the boot ROM or a cluster supervisor. -/
inductive Agent where
  | engine (n : Nat)
  | dma (ch : Nat)
  | mnt
  | host
  | boot
  | supervisor (cl : Nat)
  deriving DecidableEq, Repr

/-- An edge of a ball input as its sampler sees it (R133, R134, R823): the instant, in fine steps, at which the ball last crossed
its threshold before the run of agreeing samples began; the error of its measurement, up to 2 fine steps either way (2 stands for
0); the ball's levels at the samples of the run, bit 0 the first. -/
structure BallEdge where
  t : Nat
  err : Fin 5
  lv : BitVec 8
  deriving DecidableEq, Repr

/-- Edges of V and W that qualify in one fc. -/
structure VWEdges where
  v : Option BallEdge
  w : Option BallEdge
  deriving DecidableEq, Repr

/-- A trip source by its code, the level a TRIP ball goes to (R194), and the fine step of the fc in which the source has asserted for
2.0 ns (R193). -/
structure TripLevel where
  code : Fin 80
  high : Bool
  fine : Fin 64
  deriving DecidableEq, Repr

/-- An edge of SDCnn, rising where `up`, with the level of SDDnn at it (R237). -/
structure SdEdge where
  x : Bool
  up : Bool
  deriving DecidableEq, Repr

/-- A word written to FBnn_CTL, and the level of B in the fc of the write (R305). -/
structure SwrqWord where
  v : Word
  lb : Bool
  deriving DecidableEq, Repr

/-- The voltage at an analog input ball and V(VREF) with it (R202, R206, R225), in nanovolts, both as 32-bit signed numbers; what a
converter's or a comparator's own errors add (R203's table) is in `v` (log entry 24). -/
structure Volts where
  v : BitVec 32
  vref : BitVec 32
  deriving DecidableEq, Repr

/-- The header of a KSP request (spec/21): source address and port, TYPE, FLAGS, SESSION, SEQ; `good`: MAGIC, VER, STATUS, the
reserved fields and the message's length are as the tables give them (R717). -/
structure KspHead where
  ip : Nat
  port : Nat
  typ : Nat
  flags : Nat
  sess : Nat
  seq : Nat
  good : Bool
  deriving DecidableEq, Repr

/-- A general register G0–G31 (R445), a register of a short form (G8–G15, R469), a tag field, an accumulator, a lane register. -/
abbrev Reg := Fin 32
abbrev ShortReg := Fin 8
abbrev TagNo := Fin 16
abbrev AccNo := Fin 2
abbrev LaneReg := Fin 8

/-- A part of a head-drive lane's waveforms: a descriptor, a point's duration, a point's level (R263–R265). -/
inductive WavePart where
  | desc (k : Fin 8)
  | dur (k : Fin 1024)
  | lvl (k : Fin 1024)
  deriving DecidableEq, Repr

/-- Where stored bits flip of themselves: a granule by its address / 32, a patch microword, a patch nanoword of an engine. -/
inductive BitErr where
  | granule (g : BitVec 27)
  | micro (e : Fin 256) (i : Fin 64)
  | nano (e : Fin 256) (i : Fin 32)
  deriving DecidableEq, Repr

/-- The commands, one per row; the comment before each names the row's rule. -/
inductive Instr where
  /-- R11. -/
  | registerWrite (ag : Agent) (a v : Word)
  /-- R40. -/
  | absentRead (ag : Agent) (a : Word)
  /-- R13. -/
  | rcRead (ag : Agent) (a : Word)
  /-- R105. -/
  | tbLoRead (ag : Agent)
  /-- R110. -/
  | lclkEdge (w : Fin 16)
  /-- R111. -/
  | tbLctLoRead (ag : Agent)
  /-- R775. -/
  | pwLtblRead (ag : Agent)
  /-- R16. -/
  | luAloRead (ag : Agent) (n : Fin 32)
  /-- R16. -/
  | fgLstlRead (ag : Agent) (n : Fin 16)
  /-- R16. -/
  | bootSerlRead (ag : Agent)
  /-- R16. -/
  | bootTstlRead (ag : Agent)
  /-- R16. -/
  | spJobLenlRead (ag : Agent) (j : Fin 256)
  /-- R710. -/
  | glOfslRead (ag : Agent) (n : Fin 8)
  /-- R112. -/
  | ccMatch (n : Fin 1024)
  /-- R122. -/
  | ccLateMatch (n : Fin 1024)
  /-- R127. -/
  | ccStart (n : Fin 1024)
  /-- R127. -/
  | ccStop (n : Fin 1024)
  /-- R118. -/
  | ccStagedWrite (ag : Agent) (n : Fin 1024) (fine : Bool) (v : Word)
  /-- R118. -/
  | ccCmphCommit (ag : Agent) (n : Fin 1024) (v : Word)
  /-- R120. -/
  | ccCmplRead (ag : Agent) (n : Fin 1024)
  /-- R137. -/
  | cpRiseQualified (n : Fin 128) (x : BallEdge)
  /-- R136. -/
  | cpPairReady (n : Fin 128) (x : BallEdge)
  /-- R144. -/
  | cpArm (n : Fin 128)
  /-- R144. -/
  | cpStop (n : Fin 128)
  /-- R139. -/
  | cpRiseRead (ag : Agent) (n : Fin 128)
  /-- R149. -/
  | egCarrierStart (n : Fin 96)
  /-- R153. -/
  | egCentre (n : Fin 96)
  /-- R158. -/
  | egPulseEdge (n : Fin 96)
  /-- R152. -/
  | egLateCarrier (n : Fin 96)
  /-- R826. -/
  | egCmphCommit (ag : Agent) (n : Fin 96) (v : Word)
  /-- R167. -/
  | egStart (n : Fin 96)
  /-- R169. -/
  | egFollowerStart (n : Fin 96)
  /-- R181. -/
  | egStop (n : Fin 96)
  /-- R181. -/
  | egEnClearWrite (ag : Agent) (n : Fin 96) (v : Word)
  /-- R179. -/
  | egLoad (n : Fin 96)
  /-- R182. -/
  | egClear (n : Fin 96)
  /-- R175. -/
  | egShadowWrite (ag : Agent) (n : Fin 96) (k : Fin 7) (v : Word)
  /-- R178. -/
  | egHoldRelease (ag : Agent) (n : Fin 96) (v : Word)
  /-- R165. -/
  | egRunDone (n : Fin 96)
  /-- R190. -/
  | egSafeDeadTime (n : Fin 96) (out : Fin 2)
  /-- R192. -/
  | egPostForceIdle (n : Fin 96)
  /-- R193. -/
  | tripSourceAssert (x : TripLevel)
  /-- R196. -/
  | tgTripSync (g : Fin 32)
  /-- R196. -/
  | tgSoftwareTrip (ag : Agent) (g : Fin 32) (v : Word)
  /-- R201. -/
  | tgTripAction (g : Fin 32)
  /-- R198. -/
  | tgRelease (ag : Agent) (g : Fin 32) (v : Word)
  /-- R205. -/
  | adStart (n : Fin 32)
  /-- R214. -/
  | adSoftwareStart (ag : Agent) (n : Fin 32) (v : Word)
  /-- R205. -/
  | adConversionEnd (n : Fin 32) (x : Volts)
  /-- R213. -/
  | adStop (n : Fin 32)
  /-- R215. -/
  | adEnClearWrite (ag : Agent) (n : Fin 32) (v : Word)
  /-- R220. -/
  | adFlush (n : Fin 32)
  /-- R220. -/
  | adFlushWrite (ag : Agent) (n : Fin 32) (v : Word)
  /-- R219. -/
  | adFifoRead (ag : Agent) (n : Fin 32)
  /-- R224. -/
  | acOutputChange (n : Fin 64) (x : Volts)
  /-- R231. -/
  | acAssert (n : Fin 64)
  /-- R231. -/
  | acDeassert (n : Fin 64)
  /-- R227. -/
  | acRamp (n : Fin 64)
  /-- R230. -/
  | acBlank (n : Fin 64)
  /-- R230. -/
  | acBlankEnd (n : Fin 64)
  /-- R240. -/
  | sdResult (n : Fin 32) (x : SdEdge)
  /-- R243. -/
  | sdSync (n : Fin 32)
  /-- R244. -/
  | sdClockLoss (n : Fin 32)
  /-- R244. -/
  | sdClockLossEnd (n : Fin 32) (x : SdEdge)
  /-- R245. -/
  | sdEnable (ag : Agent) (n : Fin 32) (v : Word)
  /-- R241. -/
  | sdResRead (ag : Agent) (n : Fin 32)
  /-- R266. -/
  | hlHedgerowStart (n : Fin 16)
  /-- R266. -/
  | hlFireStart (n : Fin 16)
  /-- R266. -/
  | hlSoftwareStart (ag : Agent) (n : Fin 16) (v : Word)
  /-- R273. -/
  | hlWaveformStart (n : Fin 16)
  /-- R273. -/
  | hlWaveformEnd (n : Fin 16)
  /-- R274. -/
  | hlAbort (n : Fin 16)
  /-- R274. -/
  | hlAbortWrite (ag : Agent) (n : Fin 16) (v : Word)
  /-- R261. -/
  | hlConverterResult (n : Fin 16) (i v : Volts)
  /-- R276. -/
  | hlUpdate (n : Fin 16)
  /-- R275. -/
  | hlPeriodStart (n : Fin 16)
  /-- R279. -/
  | hlEnable (ag : Agent) (n : Fin 16) (v : Word)
  /-- R265. -/
  | hlWaveformWrite (ag : Agent) (n : Fin 16) (part : WavePart) (v : Word)
  /-- R291. -/
  | fbQuadCount (n : Fin 24) (onA : Bool) (x : BallEdge) (y : Option BallEdge)
  /-- R294. -/
  | fbHallChange (n : Fin 24) (xu : Option BallEdge) (vw : VWEdges)
  /-- R300. -/
  | fbIndex (n : Fin 24) (x : BallEdge)
  /-- R301. -/
  | fbArm (n : Fin 24)
  /-- R301. -/
  | fbArmWrite (ag : Agent) (n : Fin 24) (v : Word)
  /-- R302. -/
  | fbReq (n : Fin 24) (lb : Bool)
  /-- R302. -/
  | fbSwrq (ag : Agent) (n : Fin 24) (w : SwrqWord)
  /-- R302. -/
  | fbPeriodicRequest (n : Fin 24) (lb : Bool)
  /-- R304. -/
  | fbSsiFrameEnd (n : Fin 24) (bs : BitVec 35)
  /-- R308. -/
  | fbFrameEnd (n : Fin 24)
  /-- R308. -/
  | fbResponseTimeout (n : Fin 24)
  /-- R308. -/
  | fbGapTimeout (n : Fin 24)
  /-- R314. -/
  | fbGoodFrame (n : Fin 24)
  /-- R311. -/
  | fbBadFrame (n : Fin 24)
  /-- R319. -/
  | fbSpeedDecay (n : Fin 24)
  /-- R320. -/
  | fbZeroSpeed (n : Fin 24)
  /-- R321. -/
  | fbWindowSpeed (n : Fin 24)
  /-- R324. -/
  | fbPosWrite (ag : Agent) (n : Fin 24) (v : Word)
  /-- R326. -/
  | fbPosRead (ag : Agent) (n : Fin 24)
  /-- R325. -/
  | fbLatch (n : Fin 24)
  /-- R327. -/
  | fbCmpCrossing (n : Fin 24) (k : Fin 8)
  /-- R330. -/
  | fbCmpLate (n : Fin 24) (k : Fin 8)
  /-- R328. -/
  | fbCmpValWrite (ag : Agent) (n : Fin 24) (k : Fin 8) (v : Word)
  /-- R340. -/
  | fbEnable (ag : Agent) (n : Fin 24) (v : Word)
  /-- R337. -/
  | emuEnable (ag : Agent) (m : Fin 8) (v : Word)
  /-- R333. -/
  | emuResync (m : Fin 8)
  /-- R333. -/
  | emuResyncWrite (ag : Agent) (m : Fin 8) (v : Word)
  /-- R334. -/
  | emuEdge (m : Fin 8)
  /-- R333. -/
  | emuWposWrite (ag : Agent) (m : Fin 8) (v : Word)
  /-- R344. -/
  | fgArm (n : Fin 16)
  /-- R344. -/
  | fgArmWrite (ag : Agent) (n : Fin 16) (v : Word)
  /-- R344. -/
  | fgStop (n : Fin 16)
  /-- R344. -/
  | fgStopWrite (ag : Agent) (n : Fin 16) (v : Word)
  /-- R345. -/
  | fgEnable (ag : Agent) (n : Fin 16) (v : Word)
  /-- R347. -/
  | fgIssue (n : Fin 16)
  /-- R350. -/
  | fgShot (n : Fin 16)
  /-- R353. -/
  | fgPassEnd (n : Fin 16)
  /-- R365. -/
  | faQueueCells
  /-- R367. -/
  | faCellDepart (n : Fin 8)
  /-- R360. -/
  | faAdv (h : Fin 64)
  /-- R360. -/
  | faWcolWrite (ag : Agent) (h : Fin 64) (v : Word)
  /-- R386. -/
  | evDelivery (n : Fin 2048)
  /-- R383. -/
  | evSoftwareRaise (ag : Agent) (n : Fin 2048) (v : Word)
  /-- R391. -/
  | evSrcWrite (ag : Agent) (n : Fin 2048) (v : Word)
  /-- R392. -/
  | evDstWrite (ag : Agent) (n : Fin 2048) (k : Fin 8) (v : Word)
  /-- R66. -/
  | laneTrigger (n : Fin 96)
  /-- R83. -/
  | laneHeldRunStart (n : Fin 96)
  /-- R73. -/
  | lawOutputTransfer (n : Fin 96)
  /-- R86. -/
  | luKswap (ag : Agent) (n : Fin 96) (v : Word)
  /-- R85. -/
  | llClrs (ag : Agent) (n : Fin 96) (v : Word)
  /-- R85. -/
  | luStateWrite (ag : Agent) (u : Fin 32) (k : Fin 8) (v : Word)
  /-- R85. -/
  | luDeferredWrite (n : Fin 96)
  /-- R87. -/
  | laneEngineDelivery (n : Fin 96)
  /-- R92. -/
  | laneCommitArrival (n : Fin 96)
  /-- R92. -/
  | laneEngineDutyTransfer (n : Fin 96)
  /-- R471. -/
  | cbeq (e : Fin 256) (ra rb : Reg) (ofs : BitVec 15)
  /-- R471. -/
  | cbne (e : Fin 256) (ra rb : Reg) (ofs : BitVec 15)
  /-- R471. -/
  | cblt (e : Fin 256) (ra rb : Reg) (ofs : BitVec 15)
  /-- R471. -/
  | cbge (e : Fin 256) (ra rb : Reg) (ofs : BitVec 15)
  /-- R471. -/
  | cbltu (e : Fin 256) (ra rb : Reg) (ofs : BitVec 15)
  /-- R471. -/
  | cbgeu (e : Fin 256) (ra rb : Reg) (ofs : BitVec 15)
  /-- R466. -/
  | jal (e : Fin 256) (rd : Reg) (ofs : BitVec 20)
  /-- R466. -/
  | jalr (e : Fin 256) (rd ra : Reg)
  /-- R455. -/
  | add (e : Fin 256) (rd ra rb : Reg)
  /-- R455. -/
  | sub (e : Fin 256) (rd ra rb : Reg)
  /-- R455. -/
  | min (e : Fin 256) (rd ra rb : Reg)
  /-- R455. -/
  | max (e : Fin 256) (rd ra rb : Reg)
  /-- R455. -/
  | neg (e : Fin 256) (rd ra : Reg)
  /-- R455. -/
  | abs (e : Fin 256) (rd ra : Reg)
  /-- R455. -/
  | and (e : Fin 256) (rd ra rb : Reg)
  /-- R455. -/
  | or (e : Fin 256) (rd ra rb : Reg)
  /-- R455. -/
  | xor (e : Fin 256) (rd ra rb : Reg)
  /-- R455. -/
  | andn (e : Fin 256) (rd ra rb : Reg)
  /-- R455. -/
  | not (e : Fin 256) (rd ra : Reg)
  /-- R467. -/
  | sll (e : Fin 256) (rd ra rb : Reg)
  /-- R467. -/
  | srl (e : Fin 256) (rd ra rb : Reg)
  /-- R467. -/
  | sra (e : Fin 256) (rd ra rb : Reg)
  /-- R467. -/
  | ror (e : Fin 256) (rd ra rb : Reg)
  /-- R455. -/
  | clz (e : Fin 256) (rd ra : Reg)
  /-- R455. -/
  | sextb (e : Fin 256) (rd ra : Reg)
  /-- R455. -/
  | sexth (e : Fin 256) (rd ra : Reg)
  /-- R455. -/
  | zextb (e : Fin 256) (rd ra : Reg)
  /-- R455. -/
  | zexth (e : Fin 256) (rd ra : Reg)
  /-- R471. -/
  | cmpeq (e : Fin 256) (rd ra rb : Reg)
  /-- R471. -/
  | cmplt (e : Fin 256) (rd ra rb : Reg)
  /-- R471. -/
  | cmpltu (e : Fin 256) (rd ra rb : Reg)
  /-- R455. -/
  | mov (e : Fin 256) (rd ra : Reg)
  /-- R455. -/
  | gett (e : Fin 256) (rd ra : Reg)
  /-- R455. -/
  | sett (e : Fin 256) (rd ra : Reg) (t : TagNo)
  /-- R455. -/
  | chkt (e : Fin 256) (ra : Reg) (t : TagNo)
  /-- R475. -/
  | cvt (e : Fin 256) (rd ra : Reg) (t : TagNo)
  /-- R456. -/
  | addi (e : Fin 256) (rd ra : Reg) (imm : BitVec 11)
  /-- R456. -/
  | andi (e : Fin 256) (rd ra : Reg) (imm : BitVec 11)
  /-- R456. -/
  | ori (e : Fin 256) (rd ra : Reg) (imm : BitVec 11)
  /-- R456. -/
  | xori (e : Fin 256) (rd ra : Reg) (imm : BitVec 11)
  /-- R467. -/
  | shi (e : Fin 256) (rd ra : Reg) (imm : BitVec 11)
  /-- R467. -/
  | lil (e : Fin 256) (rd : Reg) (t : TagNo) (imm : BitVec 16)
  /-- R467. -/
  | lih (e : Fin 256) (rd : Reg) (imm : BitVec 16)
  /-- R457. -/
  | mul (e : Fin 256) (rd ra rb : Reg)
  /-- R469. -/
  | mulh (e : Fin 256) (rd ra rb : Reg)
  /-- R472. -/
  | div (e : Fin 256) (rd ra rb : Reg) (stop : Option Nat)
  /-- R472. -/
  | rem (e : Fin 256) (rd ra rb : Reg) (stop : Option Nat)
  /-- R473. -/
  | sqrt (e : Fin 256) (rd ra : Reg) (stop : Option Nat)
  /-- R474. -/
  | fadd (e : Fin 256) (rd ra rb : Reg)
  /-- R474. -/
  | fsub (e : Fin 256) (rd ra rb : Reg)
  /-- R474. -/
  | fmul (e : Fin 256) (rd ra rb : Reg)
  /-- R474. -/
  | fmin (e : Fin 256) (rd ra rb : Reg)
  /-- R474. -/
  | fmax (e : Fin 256) (rd ra rb : Reg)
  /-- R474. -/
  | fneg (e : Fin 256) (rd ra : Reg)
  /-- R474. -/
  | fabs (e : Fin 256) (rd ra : Reg)
  /-- R476. -/
  | mac (e : Fin 256) (acc : AccNo) (ra rb : Reg)
  /-- R476. -/
  | msu (e : Fin 256) (acc : AccNo) (ra rb : Reg)
  /-- R476. -/
  | macz (e : Fin 256) (acc : AccNo) (ra rb : Reg)
  /-- R477. -/
  | rda (e : Fin 256) (rd : Reg) (acc : AccNo) (t : TagNo)
  /-- R469. -/
  | clra (e : Fin 256) (acc : AccNo)
  /-- R485. -/
  | clarke (e : Fin 256) (rd ra rb : Reg) (stop : Option Nat)
  /-- R485. -/
  | park (e : Fin 256) (rd ra rb : Reg) (stop : Option Nat)
  /-- R485. -/
  | ipark (e : Fin 256) (rd ra rb : Reg) (stop : Option Nat)
  /-- R485. -/
  | sincos (e : Fin 256) (rd ra : Reg) (stop : Option Nat)
  /-- R485. -/
  | atan2 (e : Fin 256) (rd ra rb : Reg) (stop : Option Nat)
  /-- R485. -/
  | mtx3 (e : Fin 256) (rd ra rb : Reg) (stop : Option Nat)
  /-- R486. -/
  | ldm (e : Fin 256) (ra rb : Reg) (stop : Option Nat)
  /-- R486. -/
  | stm (e : Fin 256) (ra rb : Reg) (stop : Option Nat)
  /-- R510. -/
  | saveg (e : Fin 256) (ra rb : Reg) (stop : Option Nat)
  /-- R511. -/
  | loadg (e : Fin 256) (ra rb : Reg) (stop : Option Nat)
  /-- R487. -/
  | bcopy (e : Fin 256) (rd ra rb : Reg) (stop : Option Nat)
  /-- R488. -/
  | vmac (e : Fin 256) (rd ra rb : Reg) (t : TagNo) (stop : Option Nat)
  /-- R489. -/
  | firq (e : Fin 256) (rd ra rb : Reg) (t : TagNo) (stop : Option Nat)
  /-- R89. -/
  | rdl (e : Fin 256) (rd : Reg) (k : LaneReg)
  /-- R91. -/
  | wrl (e : Fin 256) (k : LaneReg) (ra : Reg)
  /-- R531. -/
  | csrr (e : Fin 256) (rd : Reg) (csr : BitVec 11)
  /-- R531. -/
  | csrw (e : Fin 256) (csr : BitVec 11) (ra : Reg)
  /-- R531. -/
  | csrs (e : Fin 256) (rd ra : Reg) (csr : BitVec 11)
  /-- R531. -/
  | csrc (e : Fin 256) (rd ra : Reg) (csr : BitVec 11)
  /-- R469. -/
  | nop (e : Fin 256)
  /-- R824. -/
  | wait (e : Fin 256)
  /-- R442. -/
  | drain (e : Fin 256)
  /-- R523. -/
  | eret (e : Fin 256)
  /-- R520. -/
  | brk (e : Fin 256)
  /-- R520. -/
  | sys (e : Fin 256) (code : BitVec 9)
  /-- R427. -/
  | dinv (e : Fin 256) (ra : Reg)
  /-- R427. -/
  | dinva (e : Fin 256)
  /-- R427. -/
  | iinv (e : Fin 256) (ra : Reg)
  /-- R427. -/
  | iinva (e : Fin 256)
  /-- R478. -/
  | evr (e : Fin 256) (ra : Reg)
  /-- R459. -/
  | lb (e : Fin 256) (rd ra : Reg) (t : TagNo) (imm : BitVec 11)
  /-- R459. -/
  | lbu (e : Fin 256) (rd ra : Reg) (t : TagNo) (imm : BitVec 11)
  /-- R459. -/
  | lh (e : Fin 256) (rd ra : Reg) (t : TagNo) (imm : BitVec 11)
  /-- R459. -/
  | lhu (e : Fin 256) (rd ra : Reg) (t : TagNo) (imm : BitVec 11)
  /-- R459. -/
  | lw (e : Fin 256) (rd ra : Reg) (t : TagNo) (imm : BitVec 11)
  /-- R460. -/
  | sb (e : Fin 256) (rs ra : Reg) (t : TagNo) (imm : BitVec 11)
  /-- R460. -/
  | sh (e : Fin 256) (rs ra : Reg) (t : TagNo) (imm : BitVec 11)
  /-- R460. -/
  | sw (e : Fin 256) (rs ra : Reg) (t : TagNo) (imm : BitVec 11)
  /-- R469. -/
  | movS (e : Fin 256) (rd ra : Reg)
  /-- R469. -/
  | addS (e : Fin 256) (rd ra rb : ShortReg)
  /-- R469. -/
  | subS (e : Fin 256) (rd ra rb : ShortReg)
  /-- R469. -/
  | andS (e : Fin 256) (rd ra rb : ShortReg)
  /-- R469. -/
  | orS (e : Fin 256) (rd ra rb : ShortReg)
  /-- R456. -/
  | addiS (e : Fin 256) (rd : ShortReg) (imm : BitVec 8)
  /-- R469. -/
  | lis (e : Fin 256) (rd : ShortReg) (imm : BitVec 8)
  /-- R469. -/
  | lwS (e : Fin 256) (rd ra : ShortReg) (u : Fin 32)
  /-- R469. -/
  | swS (e : Fin 256) (rs ra : ShortReg) (u : Fin 32)
  /-- R469. -/
  | cbz (e : Fin 256) (ra : ShortReg) (ofs : BitVec 8)
  /-- R469. -/
  | cbnz (e : Fin 256) (ra : ShortReg) (ofs : BitVec 8)
  /-- R469. -/
  | shiS (e : Fin 256) (rd : ShortReg) (kind : Fin 4) (imm : Fin 32)
  /-- R466. -/
  | bS (e : Fin 256) (ofs : BitVec 11)
  /-- R476. -/
  | macS (e : Fin 256) (acc : AccNo) (ra rb : ShortReg)
  /-- R476. -/
  | msuS (e : Fin 256) (acc : AccNo) (ra rb : ShortReg)
  /-- R469. -/
  | mulS (e : Fin 256) (rd ra rb : ShortReg)
  /-- R469. -/
  | xorS (e : Fin 256) (rd ra rb : ShortReg)
  /-- R469. -/
  | minS (e : Fin 256) (rd ra rb : ShortReg)
  /-- R469. -/
  | maxS (e : Fin 256) (rd ra rb : ShortReg)
  /-- R469. -/
  | jrS (e : Fin 256) (ra : Reg)
  /-- R469. -/
  | nopS (e : Fin 256)
  /-- R469. -/
  | waitS (e : Fin 256)
  /-- R469. -/
  | drainS (e : Fin 256)
  /-- R469. -/
  | brkS (e : Fin 256)
  /-- R469. -/
  | eretS (e : Fin 256)
  /-- R469. -/
  | rdlS (e : Fin 256) (rd : Reg) (k : LaneReg)
  /-- R469. -/
  | wrlS (e : Fin 256) (k : LaneReg) (ra : Reg)
  /-- R465. -/
  | sopReserved (e : Fin 256) (long : Bool)
  /-- R439. -/
  | fabricLoadResult (e : Fin 256) (idx : Nat) (err : Fin 3)
  /-- R439. -/
  | fabricStoreWritten (e : Fin 256) (idx : Nat)
  /-- R503. -/
  | taskActivation (e : Fin 256) (k : Fin 64)
  /-- R500. -/
  | taskFirstIssue (e : Fin 256)
  /-- R503. -/
  | tactWrite (e : Fin 256) (k : Fin 64)
  /-- R532. -/
  | timelRead (e : Fin 256)
  /-- R506. -/
  | deadlineExpiry (e : Fin 256) (k : Fin 64)
  /-- R520. -/
  | serrReturn (e : Fin 256) (k : Fin 64) (addr : Word) (second : Bool)
  /-- R521. -/
  | exceptionEntry (e : Fin 256)
  /-- R496. -/
  | tcmdPark (e : Fin 256)
  /-- R496. -/
  | tcmdRestart (e : Fin 256)
  /-- R542. -/
  | matchParityFail (e : Fin 256) (k : Fin 16)
  /-- R567. -/
  | scrubRead (d : Fin 2)
  /-- R568. -/
  | scrubWriteback (d : Fin 2)
  /-- R571. -/
  | icEdge (d : Fin 2) (n : Fin 1024)
  /-- R572. -/
  | icSoftwareEdge (ag : Agent) (d : Fin 2) (n : Fin 1024) (v : Word)
  /-- R574. -/
  | icBatchTimer (d : Fin 2) (n : Fin 1024)
  /-- R579. -/
  | icDelivery (d : Fin 2) (set : Fin 64)
  /-- R576. -/
  | icClr (ag : Agent) (d : Fin 2) (n : Fin 1024) (v : Word)
  /-- R583. -/
  | icGdisWrite (ag : Agent) (d : Fin 2) (v : Word)
  /-- R588. -/
  | icTargetWrite (ag : Agent) (d : Fin 2) (set : Fin 64) (k : Fin 8) (v : Word)
  /-- R606. -/
  | dmaRun (n : Fin 64)
  /-- R606. -/
  | dmaRunWrite (ag : Agent) (n : Fin 64) (v : Word)
  /-- R606. -/
  | dmaHalt (n : Fin 64)
  /-- R606. -/
  | dmaHaltWrite (ag : Agent) (n : Fin 64) (v : Word)
  /-- R606. -/
  | dmaAbort (ag : Agent) (n : Fin 64) (v : Word)
  /-- R611. -/
  | dmaDescriptorFetch (n : Fin 64)
  /-- R594. -/
  | dmaElement (n : Fin 64)
  /-- R604. -/
  | dmaPaceResume (n : Fin 64)
  /-- R605. -/
  | dmaPaceTimeout (n : Fin 64)
  /-- R608. -/
  | dmaHandback (n : Fin 64)
  /-- R621. -/
  | cvStart (ag : Agent) (n : Fin 32) (v : Word)
  /-- R619. -/
  | cvData (ag : Agent) (n : Fin 32) (v : Word)
  /-- R620. -/
  | cvEnd (ag : Agent) (n : Fin 32) (v : Word)
  /-- R623. -/
  | cvRunWrite (ag : Agent) (n : Fin 32) (v : Word)
  /-- R617. -/
  | cvClientMessage (n : Fin 24)
  /-- R632. -/
  | powerOnReset (rail : Fin 10)
  /-- R632. -/
  | rstNAssert (ns : Nat)
  /-- R761. -/
  | twinReset
  /-- R638. -/
  | bootSequence (sel : Fin 4) (ospi ospi2 : Option (List Nat))
  /-- R663. -/
  | mntStatus
  /-- R663. -/
  | mntRead (a : Word)
  /-- R663. -/
  | mntWrite (a v : Word)
  /-- R661. -/
  | mntRetry
  /-- R645. -/
  | mntEnrol (slot : Fin 4) (hash : List Nat)
  /-- R672. -/
  | flProg (ag : Agent)
  /-- R680. -/
  | flErase (ag : Agent)
  /-- R672. -/
  | flBlank (ag : Agent)
  /-- R685. -/
  | flSwapbb (ag : Agent)
  /-- R685. -/
  | flSwapimg (ag : Agent)
  /-- R686. -/
  | flSelinit (ag : Agent)
  /-- R673. -/
  | flUndefinedOp (ag : Agent) (op : BitVec 4)
  /-- R677. -/
  | flCommandEnd (npul : BitVec 8) (fail : Option Nat)
  /-- R678. -/
  | flBrownoutCut (k : Fin 4) (npul : BitVec 8)
  /-- R700. -/
  | glEnable (ag : Agent) (n : Fin 8) (v : Word)
  /-- R700. -/
  | glResync (ag : Agent) (n : Fin 8) (v : Word)
  /-- R700. -/
  | glTrainDone (n : Fin 8)
  /-- R700. -/
  | glCodewordLock (n : Fin 8)
  /-- R700. -/
  | glCellLock (n : Fin 8)
  /-- R700. -/
  | glLossOfLock (n : Fin 8)
  /-- R697. -/
  | glCellAccept (n : Fin 8) (head : Word) (crc : BitVec 16) (payload : BitVec 256) (check : BitVec 16) (rs : Fin 4) (arrive : Nat)
  /-- R701. -/
  | glCellSlot (n : Fin 8) (fine : Fin 64)
  /-- R708. -/
  | glSyncDue (n : Fin 8)
  /-- R711. -/
  | glSyncTimeout (n : Fin 8)
  /-- R706. -/
  | glTxCommit (ag : Agent) (n : Fin 8) (v : Word)
  /-- R705. -/
  | glRxsRead (ag : Agent) (n : Fin 8)
  /-- R713. -/
  | hpLinkChange (seven up : Bool)
  /-- R714. -/
  | hpArpRequest (mac : BitVec 48) (ip target : Word)
  /-- R714. -/
  | hpIcmpEcho (mac : BitVec 48) (ip : Word) (data : List Nat)
  /-- R715. -/
  | hpFrameDiscard (why : Fin 4)
  /-- R718. -/
  | kspHello (h : KspHead)
  /-- R723. -/
  | kspWrite (h : KspHead) (job : BitVec 16) (off : BitVec 64) (len : Word) (data : List Nat)
  /-- R725. -/
  | kspWriteDone (sess seq : Word)
  /-- R726. -/
  | kspCommit (h : KspHead) (job : BitVec 16) (len : BitVec 64)
  /-- R726. -/
  | kspCommitDone (sess seq : Word)
  /-- R728. -/
  | kspJobcmd (h : KspHead) (data : List Nat)
  /-- R717. -/
  | kspReadstat (h : KspHead) (job : BitVec 16)
  /-- R731. -/
  | kspCfgwriteErase (h : KspHead) (target : BitVec 8) (len off : Word)
  /-- R731. -/
  | kspCfgwriteProgram (h : KspHead) (target : BitVec 8) (len off : Word) (data : List Nat)
  /-- R731. -/
  | kspCfgswap (h : KspHead) (target : BitVec 8)
  /-- R665. -/
  | kspAttest (h : KspHead) (nonce : List Nat)
  /-- R732. -/
  | kspReset (h : KspHead) (magic : Word)
  /-- R718. -/
  | sessionTimeout (num : Word)
  /-- R729. -/
  | mailboxReply (ag : Agent) (v : Word)
  /-- R730. -/
  | mailboxTimeout
  /-- R733. -/
  | spDriveLinkUp (n : Fin 2) (gen width : Fin 8)
  /-- R733. -/
  | spDriveReady (n : Fin 2) (ok : Bool) (cap : Word) (lba4k : Bool)
  /-- R733. -/
  | spReinit (ag : Agent) (n : Fin 2) (v : Word)
  /-- R735. -/
  | nvmeCompletion (id : Nat) (ok : Bool)
  /-- R735. -/
  | nvmeTimeout (id : Nat)
  /-- R741. -/
  | spHealthPoll (n : Fin 2) (cw pused : BitVec 8) (temp : BitVec 16)
  /-- R738. -/
  | spBlockArrival (ch : Fin 64) (blk data : Nat)
  /-- R737. -/
  | spJobStateWrite (ag : Agent) (j : Fin 256) (v : Word)
  /-- R742. -/
  | heartbeatStore (ag : Agent) (cl : Fin 32) (k : Fin 8) (v : Word)
  /-- R743. -/
  | engineDeclaredDead (cl : Fin 32) (k : Fin 8)
  /-- R750. -/
  | spareTasksBegin (cl : Fin 32)
  /-- R753. -/
  | isolationReset (e : Fin 256)
  /-- R747. -/
  | checkpointSnapshot (e : Fin 256) (k : Fin 64)
  /-- R749. -/
  | checkpointRecordWrite (cl : Fin 32)
  /-- R762. -/
  | sporelineLaneState (n : Fin 96)
  /-- R758. -/
  | pairHeartbeatDue
  /-- R758. -/
  | epochCellDue
  /-- R759. -/
  | partnerDead
  /-- R765. -/
  | permitGained
  /-- R766. -/
  | permitInRise
  /-- R767. -/
  | takingWithdraw
  /-- R761. -/
  | pvTrst (ag : Agent) (v : Word)
  /-- R763. -/
  | pvResend (ag : Agent) (v : Word)
  /-- R769. -/
  | pllLock (k : Fin 7)
  /-- R771. -/
  | refclkLoss
  /-- R771. -/
  | lanePllUnlock (k : Fin 7)
  /-- R772. -/
  | lclkQualify (ok : Bool)
  /-- R773. -/
  | crystalLoss
  /-- R777. -/
  | dozeEntry (r : Fin 8)
  /-- R779. -/
  | dozeWake (r : Fin 8)
  /-- R779. -/
  | regionAwake (r : Fin 8)
  /-- R782. -/
  | sleepRequest (ag : Agent) (v : Word)
  /-- R785. -/
  | wakeEvent (k : Fin 5)
  /-- R786. -/
  | watchdogKick (ag : Agent) (v : Word)
  /-- R788. -/
  | watchdogHalf
  /-- R787. -/
  | watchdogExpiry
  /-- R790. -/
  | brownoutWarn (rail : Fin 10)
  /-- R791. -/
  | thermalConversion (k : Fin 16) (v : BitVec 16)
  /-- R817. -/
  | tapReset
  /-- R818. -/
  | tapBypass
  /-- R818. -/
  | tapIdcode
  /-- R818. -/
  | tapSamplePreload (cells : List (Nat × Nat))
  /-- R818. -/
  | tapExtest
  /-- R818. -/
  | tapClamp
  /-- R818. -/
  | tapHighz
  /-- R733. -/
  | pcieLinkDown (n : Fin 2)
  /-- R765. -/
  | takeoverEnginesIssue
  /-- R237. -/
  | sdBitSample (n : Fin 32) (x : SdEdge)
  /-- R308. -/
  | fbStartBit (n : Fin 24) (data : BitVec 24) (par stop : BitVec 3)
  /-- R304. -/
  | fbSsiPauseEnd (n : Fin 24)
  /-- R194. -/
  | tripSourceDeassert (x : TripLevel)
  /-- R559. -/
  | memoryBitError (at_ : BitErr) (flips : List Nat)
  deriving DecidableEq, Repr

end Sys2Proof
end

