-- ==== Sys2Proof/Decode.lean ====
section
/-! DEFINITION. The words of the table: the table gives no row any bits, so no word spells a command. -/

namespace Sys2Proof

/-- The command a word of `nbits` bits spells: none, for no row of spec/opcode_table.json has bits. -/
def decodeTableWord (_nbits _w : Nat) : Option Instr := none

end Sys2Proof
end

