-- ==== Sys2Proof/Config.lean ====
section
/-! DEFINITION. What one silicon part or one environment fixes and the spec leaves open: opaque constants
without a body, so that no proof can learn a value of them. -/

namespace Sys2Proof.Config

/-- FREE VALUE (DESIGN CHOICE, log entry 3): the n-th value the spec leaves open at run time; the step
reads and advances the counter `Block.freeCount`. -/
opaque freeValue : Nat → Nat

/-- The verdict of SM2 verification (spec/18): public key, message, signature.  The scheme is named by the spec and defined
outside it (log entry 4). -/
opaque sm2Verify : List Nat → List Nat → List Nat → Bool

/-- The SM3 digest of a byte string, as 32 bytes: named by the spec, its tables lie outside it. -/
opaque sm3 : List Nat → List Nat

/-- The SM2 signature the device key makes over a byte string (R665), 64 bytes. -/
opaque sm2Sign : List Nat → List Nat

/-- FREE VALUE (log entry 5): which of the results within the error bound of R485 a transform gives: the instruction, the
output, the operand words. -/
opaque approx : Nat → Nat → Nat → Nat → Nat

/-- FREE VALUE (log entry 6): how many of an instruction's microsteps the dispatch ROM puts before its element bodies, within R479
(R533). -/
opaque prologue : Nat → Nat

/-- FREE VALUE (log entry 6): at which element of a VMAC of so many elements its boundaries fall one microstep later (R479). -/
opaque vmacStep : Nat → Nat

/-- FREE VALUE (log entry 7): an instruction's entry microaddress (R533). -/
opaque microEntry : Nat → Nat

/-- FREE VALUE (log entry 7): the ROM microword at a microaddress. -/
opaque romMicro : Nat → Nat

/-- FREE VALUE (log entry 8): the intermediate word, and its tag above bit 31, with which an instruction is left before an
element: the instruction, the element, the operand words (R483, R484). -/
opaque midWord : Nat → Nat → List Nat → Nat

end Sys2Proof.Config
end

