-- ==== Sys2Proof/Machine/Assoc.lean ====
section
/-! DEFINITION. Sparse maps keyed by a number: a list of pairs, keys strictly rising, holding no pair
whose value is the map's default.  Equal maps are therefore equal lists. -/

namespace Sys2Proof.Machine

/-- A sparse map from numbers: see `Assoc.Canon` for its one form. -/
abbrev Assoc (β : Type) := List (Nat × β)

/-- The value listed for `k`, if any. -/
def Assoc.find? {β : Type} : Assoc β → Nat → Option β
  | [], _ => none
  | (a, v) :: t, k => if a = k then some v else Assoc.find? t k

/-- The value at `k`; an unlisted key holds `d`. -/
def Assoc.getD {β : Type} (m : Assoc β) (d : β) (k : Nat) : β :=
  match m.find? k with
  | some v => v
  | none => d

/-- List `v` at `k`, in key order, in place of what was listed there. -/
def Assoc.insert {β : Type} : Assoc β → Nat → β → Assoc β
  | [], k, v => [(k, v)]
  | (a, w) :: t, k, v =>
    if k < a then (k, v) :: (a, w) :: t
    else if k = a then (k, v) :: t
    else (a, w) :: Assoc.insert t k v

/-- Remove what is listed at `k`. -/
def Assoc.erase {β : Type} : Assoc β → Nat → Assoc β
  | [], _ => []
  | (a, w) :: t, k => if k = a then Assoc.erase t k else (a, w) :: Assoc.erase t k

/-- Make the map hold `v` at `k`, its default being `d` there. -/
def Assoc.setD {β : Type} [DecidableEq β] (m : Assoc β) (d : β) (k : Nat) (v : β) : Assoc β :=
  if v = d then m.erase k else m.insert k v

/-- The keys rise strictly. -/
def Assoc.Sorted {β : Type} : Assoc β → Bool
  | [] => true
  | [_] => true
  | (a, _) :: (b, w) :: t => a < b && Assoc.Sorted ((b, w) :: t)

/-- No listed value equals the default of its key. -/
def Assoc.NoDefault {β : Type} [DecidableEq β] (d : Nat → β) : Assoc β → Bool
  | [] => true
  | (a, v) :: t => !(v = d a) && Assoc.NoDefault d t

/-- The canonical form: keys strictly rising, no entry equal to its default. -/
def Assoc.Canon {β : Type} [DecidableEq β] (d : Nat → β) (m : Assoc β) : Bool :=
  Assoc.Sorted m && Assoc.NoDefault d m

end Sys2Proof.Machine
end

