-- ==== Sys2Proof/Machine/Regs.lean ====
section
/-! DEFINITION. The software-visible registers by the names the spec gives them: the address of
every register (`R`) and the place of every named field (`F`), one line per line of the register
tables of spec/01–23.  `n` is the unit instance, `k` the index within a repeated register. -/

namespace Sys2Proof.Machine

/-- A field of a 32-bit register: the register's package address and its bits `hi`..`lo` (R44, R49). -/
structure Fld where
  addr : Nat
  hi : Nat
  lo : Nat
  deriving DecidableEq, Repr

namespace R

/-- Base address of PRES. -/
def basePRES : Nat := 0x40000000
def PRES_ID : Nat := basePRES + 0x0
def PRES_DIES : Nat := basePRES + 0x4
def PRES_CORE : Nat := basePRES + 0x8
def PRES_TIME : Nat := basePRES + 0xC
def PRES_EDGE : Nat := basePRES + 0x10
def PRES_ANALOG : Nat := basePRES + 0x14
def PRES_MOTION : Nat := basePRES + 0x18
def PRES_SUPPORT : Nat := basePRES + 0x1C
def PRES_LINK : Nat := basePRES + 0x20
/-- Base address of LL. -/
def baseLL (n : Nat) : Nat := 0x40400000 + n * 0x40
def LL_CFG (n : Nat) : Nat := baseLL n + 0x0
def LL_SRC (n k : Nat) : Nat := baseLL n + 0x4 + k * 0x4
def LL_OUT (n : Nat) : Nat := baseLL n + 0x14
def LL_CTL (n : Nat) : Nat := baseLL n + 0x18
def LL_STAT (n : Nat) : Nat := baseLL n + 0x1C
def LL_LAST (n : Nat) : Nat := baseLL n + 0x20
def LL_MON (n k : Nat) : Nat := baseLL n + 0x24 + k * 0x4
/-- Base address of LU. -/
def baseLU (n : Nat) : Nat := 0x40408000 + n * 0x100
def LU_P (n k : Nat) : Nat := baseLU n + 0x0 + k * 0x4
def LU_CFG (n : Nat) : Nat := baseLU n + 0x40
def LU_K (n k : Nat) : Nat := baseLU n + 0x80 + k * 0x4
def LU_S (n k : Nat) : Nat := baseLU n + 0xC0 + k * 0x4
def LU_FLAG (n : Nat) : Nat := baseLU n + 0xE0
def LU_ALO (n : Nat) : Nat := baseLU n + 0xE8
def LU_AHI (n : Nat) : Nat := baseLU n + 0xEC
/-- Base address of TB. -/
def baseTB : Nat := 0x40100000
def TB_LO : Nat := baseTB + 0x0
def TB_HI : Nat := baseTB + 0x4
def TB_LCT_LO : Nat := baseTB + 0x10
def TB_LCT_HI : Nat := baseTB + 0x14
def TB_LCL_LO : Nat := baseTB + 0x18
def TB_LCL_HI : Nat := baseTB + 0x1C
/-- Base address of CC. -/
def baseCC (n : Nat) : Nat := 0x40110000 + n * 0x20
def CC_CTL (n : Nat) : Nat := baseCC n + 0x0
def CC_STAT (n : Nat) : Nat := baseCC n + 0x4
def CC_MISS (n : Nat) : Nat := baseCC n + 0x8
def CC_CMPF (n : Nat) : Nat := baseCC n + 0xC
def CC_CMPL (n : Nat) : Nat := baseCC n + 0x10
def CC_CMPH (n : Nat) : Nat := baseCC n + 0x14
def CC_IVL (n : Nat) : Nat := baseCC n + 0x18
/-- Base address of CP. -/
def baseCP (n : Nat) : Nat := 0x40120000 + n * 0x20
def CP_CTL (n : Nat) : Nat := baseCP n + 0x0
def CP_STAT (n : Nat) : Nat := baseCP n + 0x4
def CP_RISE (n : Nat) : Nat := baseCP n + 0x8
def CP_RISEH (n : Nat) : Nat := baseCP n + 0xC
def CP_FALL (n : Nat) : Nat := baseCP n + 0x10
def CP_FALLH (n : Nat) : Nat := baseCP n + 0x14
def CP_FINE (n : Nat) : Nat := baseCP n + 0x18
def CP_WIDTH (n : Nat) : Nat := baseCP n + 0x1C
/-- Base address of EG. -/
def baseEG (n : Nat) : Nat := 0x40200000 + n * 0x80
def EG_CFG (n : Nat) : Nat := baseEG n + 0x0
def EG_CTL (n : Nat) : Nat := baseEG n + 0x4
def EG_STAT (n : Nat) : Nat := baseEG n + 0x8
def EG_CMPF (n : Nat) : Nat := baseEG n + 0xC
def EG_CMPL (n : Nat) : Nat := baseEG n + 0x10
def EG_CMPH (n : Nat) : Nat := baseEG n + 0x14
def EG_IVL (n : Nat) : Nat := baseEG n + 0x18
def EG_IVLA (n : Nat) : Nat := baseEG n + 0x1C
def EG_RISE (n : Nat) : Nat := baseEG n + 0x20
def EG_FALL (n : Nat) : Nat := baseEG n + 0x24
def EG_DUTY (n : Nat) : Nat := baseEG n + 0x28
def EG_DT (n : Nat) : Nat := baseEG n + 0x2C
def EG_PHS (n : Nat) : Nat := baseEG n + 0x30
def EG_CTR (n : Nat) : Nat := baseEG n + 0x34
def EG_CNT (n : Nat) : Nat := baseEG n + 0x38
def EG_MISS (n : Nat) : Nat := baseEG n + 0x3C
def EG_ERISE (n : Nat) : Nat := baseEG n + 0x40
def EG_EFALL (n : Nat) : Nat := baseEG n + 0x44
def EG_CTRT (n : Nat) : Nat := baseEG n + 0x48
def EG_SAFE (n : Nat) : Nat := baseEG n + 0x4C
/-- Base address of TG. -/
def baseTG (n : Nat) : Nat := 0x40208000 + n * 0x40
def TG_CTL (n : Nat) : Nat := baseTG n + 0x0
def TG_STAT (n : Nat) : Nat := baseTG n + 0x4
def TG_CNT (n : Nat) : Nat := baseTG n + 0x8
def TG_FIRST (n : Nat) : Nat := baseTG n + 0xC
def TG_TTICK (n : Nat) : Nat := baseTG n + 0x10
def TG_ACLO (n : Nat) : Nat := baseTG n + 0x14
def TG_ACHI (n : Nat) : Nat := baseTG n + 0x18
def TG_BALL (n : Nat) : Nat := baseTG n + 0x1C
def TG_MEG (n k : Nat) : Nat := baseTG n + 0x20 + k * 0x4
def TG_MHL (n : Nat) : Nat := baseTG n + 0x2C
/-- Base address of AD. -/
def baseAD (n : Nat) : Nat := 0x40300000 + n * 0x100
def AD_CFG (n : Nat) : Nat := baseAD n + 0x0
def AD_CTL (n : Nat) : Nat := baseAD n + 0x4
def AD_STAT (n : Nat) : Nat := baseAD n + 0x8
def AD_FIFO (n : Nat) : Nat := baseAD n + 0xC
def AD_LAST (n : Nat) : Nat := baseAD n + 0x10
def AD_TICK (n : Nat) : Nat := baseAD n + 0x14
def AD_SEQ (n k : Nat) : Nat := baseAD n + 0x40 + k * 0x4
/-- Base address of AC. -/
def baseAC (n : Nat) : Nat := 0x40320000 + n * 0x40
def AC_CFG (n : Nat) : Nat := baseAC n + 0x0
def AC_CTL (n : Nat) : Nat := baseAC n + 0x4
def AC_REF (n : Nat) : Nat := baseAC n + 0x8
def AC_RSTEP (n : Nat) : Nat := baseAC n + 0xC
def AC_RLIM (n : Nat) : Nat := baseAC n + 0x10
def AC_BLK (n : Nat) : Nat := baseAC n + 0x14
def AC_STAT (n : Nat) : Nat := baseAC n + 0x18
def AC_CNT (n : Nat) : Nat := baseAC n + 0x1C
/-- Base address of SD. -/
def baseSD (n : Nat) : Nat := 0x40340000 + n * 0x40
def SD_CFG (n : Nat) : Nat := baseSD n + 0x0
def SD_CTL (n : Nat) : Nat := baseSD n + 0x4
def SD_CLK (n : Nat) : Nat := baseSD n + 0x8
def SD_RES (n : Nat) : Nat := baseSD n + 0xC
def SD_TICK (n : Nat) : Nat := baseSD n + 0x10
def SD_STAT (n : Nat) : Nat := baseSD n + 0x14
/-- Base address of HL. -/
def baseHL (n : Nat) : Nat := 0x40500000 + n * 0x100
def HL_CFG (n : Nat) : Nat := baseHL n + 0x0
def HL_CTL (n : Nat) : Nat := baseHL n + 0x4
def HL_STAT (n : Nat) : Nat := baseHL n + 0x8
def HL_CNT (n : Nat) : Nat := baseHL n + 0xC
def HL_LAW (n : Nat) : Nat := baseHL n + 0x10
def HL_DLIM (n : Nat) : Nat := baseHL n + 0x14
def HL_BUS (n : Nat) : Nat := baseHL n + 0x18
def HL_TIMING (n : Nat) : Nat := baseHL n + 0x1C
def HL_REST (n : Nat) : Nat := baseHL n + 0x20
def HL_PROT (n : Nat) : Nat := baseHL n + 0x24
def HL_PLIM (n : Nat) : Nat := baseHL n + 0x28
def HL_TRK (n : Nat) : Nat := baseHL n + 0x2C
def HL_MON0 (n : Nat) : Nat := baseHL n + 0x30
def HL_MON1 (n : Nat) : Nat := baseHL n + 0x34
def HL_MON2 (n : Nat) : Nat := baseHL n + 0x38
def HL_WST (n : Nat) : Nat := baseHL n + 0x3C
def HL_WF (n k : Nat) : Nat := baseHL n + 0x40 + k * 0x4
def HL_EDRV (n : Nat) : Nat := baseHL n + 0x60
def HL_EREC (n : Nat) : Nat := baseHL n + 0x64
/-- Base address of HLPT. -/
def baseHLPT (n : Nat) : Nat := 0x40580000 + n * 0x2000
def HLPT_DUR (n k : Nat) : Nat := baseHLPT n + 0x0 + k * 0x8
def HLPT_LVL (n k : Nat) : Nat := baseHLPT n + 0x4 + k * 0x8
/-- Base address of FB. -/
def baseFB (n : Nat) : Nat := 0x40600000 + n * 0x200
def FB_CFG (n : Nat) : Nat := baseFB n + 0x0
def FB_CTL (n : Nat) : Nat := baseFB n + 0x4
def FB_STAT (n : Nat) : Nat := baseFB n + 0x8
def FB_ERR (n : Nat) : Nat := baseFB n + 0xC
def FB_POS (n : Nat) : Nat := baseFB n + 0x10
def FB_FRAC (n : Nat) : Nat := baseFB n + 0x14
def FB_PTICK (n : Nat) : Nat := baseFB n + 0x18
def FB_SPD (n : Nat) : Nat := baseFB n + 0x1C
def FB_WCNT (n : Nat) : Nat := baseFB n + 0x20
def FB_PER (n : Nat) : Nat := baseFB n + 0x24
def FB_SPDC (n : Nat) : Nat := baseFB n + 0x28
def FB_ZTO (n : Nat) : Nat := baseFB n + 0x2C
def FB_IDXV (n : Nat) : Nat := baseFB n + 0x30
def FB_IDXL (n : Nat) : Nat := baseFB n + 0x34
def FB_LAT (n : Nat) : Nat := baseFB n + 0x38
def FB_LATF (n : Nat) : Nat := baseFB n + 0x3C
def FB_LTICK (n : Nat) : Nat := baseFB n + 0x40
def FB_HALL (n : Nat) : Nat := baseFB n + 0x44
def FB_SSI (n : Nat) : Nat := baseFB n + 0x48
def FB_FRM (n : Nat) : Nat := baseFB n + 0x4C
def FB_BT (n : Nat) : Nat := baseFB n + 0x50
def FB_TMO (n : Nat) : Nat := baseFB n + 0x54
def FB_REQP (n : Nat) : Nat := baseFB n + 0x58
def FB_CRC (n : Nat) : Nat := baseFB n + 0x5C
def FB_RQB (n k : Nat) : Nat := baseFB n + 0x80 + k * 0x4
def FB_RSB (n k : Nat) : Nat := baseFB n + 0x90 + k * 0x4
def FB_CMP_CTL (n k : Nat) : Nat := baseFB n + 0x100 + k * 0x10
def FB_CMP_VAL (n k : Nat) : Nat := baseFB n + 0x104 + k * 0x10
def FB_CMP_VALF (n k : Nat) : Nat := baseFB n + 0x108 + k * 0x10
def FB_CMP_STEP (n k : Nat) : Nat := baseFB n + 0x10C + k * 0x10
/-- Base address of EMU. -/
def baseEMU (n : Nat) : Nat := 0x40680000 + n * 0x40
def EMU_CFG (n : Nat) : Nat := baseEMU n + 0x0
def EMU_CTL (n : Nat) : Nat := baseEMU n + 0x4
def EMU_RATIO (n : Nat) : Nat := baseEMU n + 0x8
def EMU_MSP (n : Nat) : Nat := baseEMU n + 0xC
def EMU_OFS (n : Nat) : Nat := baseEMU n + 0x10
def EMU_ZPOS (n : Nat) : Nat := baseEMU n + 0x14
def EMU_ZPER (n : Nat) : Nat := baseEMU n + 0x18
def EMU_WPOS (n : Nat) : Nat := baseEMU n + 0x1C
def EMU_WPOSF (n : Nat) : Nat := baseEMU n + 0x20
def EMU_OUT (n : Nat) : Nat := baseEMU n + 0x24
def EMU_STAT (n : Nat) : Nat := baseEMU n + 0x28
/-- Base address of FG. -/
def baseFG (n : Nat) : Nat := 0x40700000 + n * 0x80
def FG_CFG (n : Nat) : Nat := baseFG n + 0x0
def FG_CTL (n : Nat) : Nat := baseFG n + 0x4
def FG_STAT (n : Nat) : Nat := baseFG n + 0x8
def FG_LEAD (n : Nat) : Nat := baseFG n + 0xC
def FG_PITCH (n : Nat) : Nat := baseFG n + 0x10
def FG_XSF (n : Nat) : Nat := baseFG n + 0x14
def FG_XSC (n : Nat) : Nat := baseFG n + 0x18
def FG_NCOL (n : Nat) : Nat := baseFG n + 0x1C
def FG_PASS (n : Nat) : Nat := baseFG n + 0x20
def FG_BOFS (n : Nat) : Nat := baseFG n + 0x24
def FG_FIDX (n : Nat) : Nat := baseFG n + 0x28
def FG_NXC (n : Nat) : Nat := baseFG n + 0x2C
def FG_NXF (n : Nat) : Nat := baseFG n + 0x30
def FG_LSTL (n : Nat) : Nat := baseFG n + 0x34
def FG_LSTH (n : Nat) : Nat := baseFG n + 0x38
def FG_LSTF (n : Nat) : Nat := baseFG n + 0x3C
def FG_CNT (n : Nat) : Nat := baseFG n + 0x40
def FG_PNUM (n : Nat) : Nat := baseFG n + 0x44
def FG_WSEL (n : Nat) : Nat := baseFG n + 0x48
/-- Base address of HC. -/
def baseHC (n : Nat) : Nat := 0x40710000 + n * 0x40
def HC_CFG (n : Nat) : Nat := baseHC n + 0x0
def HC_BASE (n : Nat) : Nat := baseHC n + 0x4
def HC_NSLOT (n : Nat) : Nat := baseHC n + 0x8
def HC_CSH (n : Nat) : Nat := baseHC n + 0xC
def HC_FOFS (n : Nat) : Nat := baseHC n + 0x10
def HC_WCOL (n : Nat) : Nat := baseHC n + 0x14
def HC_RCOL (n : Nat) : Nat := baseHC n + 0x18
def HC_WINC (n : Nat) : Nat := baseHC n + 0x1C
def HC_STAT (n : Nat) : Nat := baseHC n + 0x20
/-- Base address of LQ. -/
def baseLQ (n : Nat) : Nat := 0x40708000 + n * 0x10
def LQ_MRG (n : Nat) : Nat := baseLQ n + 0x0
def LQ_STAT (n : Nat) : Nat := baseLQ n + 0x4
/-- Base address of FA. -/
def baseFA : Nat := 0x40708100
def FA_ESRC : Nat := baseFA + 0x0
/-- Base address of EV. -/
def baseEV (n : Nat) : Nat := (if n < 1024 then 0x50000000 else 0x51000000) + (n % 1024) * 0x40
def EV_CTL (n : Nat) : Nat := baseEV n + 0x0
def EV_SW (n : Nat) : Nat := baseEV n + 0x4
def EV_SRC (n : Nat) : Nat := baseEV n + 0x8
def EV_STAT (n : Nat) : Nat := baseEV n + 0xC
def EV_CNT (n : Nat) : Nat := baseEV n + 0x10
def EV_DST (n k : Nat) : Nat := baseEV n + 0x20 + k * 0x4
/-- Base address of UC. -/
def baseUC (n : Nat) : Nat := (if n < 128 then 0x50480000 else 0x51480000) + (n % 128) * 0x1000
def UC_ID (n : Nat) : Nat := baseUC n + 0x0
def UC_STAT (n : Nat) : Nat := baseUC n + 0x4
def UC_MATCH (n k : Nat) : Nat := baseUC n + 0x40 + k * 0x4
/-- Base address of SUM. -/
def baseSUM (n : Nat) : Nat := 0x50600000 + n * 0x1000000
def SUM_RG_MEC (n k : Nat) : Nat := baseSUM n + 0x0 + k * 0x20
def SUM_RG_MUA (n k : Nat) : Nat := baseSUM n + 0x4 + k * 0x20
def SUM_RG_MCA (n k : Nat) : Nat := baseSUM n + 0x8 + k * 0x20
def SUM_DS_MEC (n : Nat) : Nat := baseSUM n + 0x100
def SUM_DS_MUA (n : Nat) : Nat := baseSUM n + 0x104
def SUM_DS_MCA (n : Nat) : Nat := baseSUM n + 0x108
def SUM_SCR_CTL (n : Nat) : Nat := baseSUM n + 0x200
def SUM_SCR_STAT (n : Nat) : Nat := baseSUM n + 0x204
def SUM_SCR_POS (n : Nat) : Nat := baseSUM n + 0x208
/-- Base address of IC. -/
def baseIC (n : Nat) : Nat := 0x50100000 + n * 0x1000000
def IC_CTL (n : Nat) : Nat := baseIC n + 0x0
def IC_STAT (n : Nat) : Nat := baseIC n + 0x4
def IC_EMSKL (n k : Nat) : Nat := baseIC n + 0x100 + k * 0x8
def IC_EMSKH (n k : Nat) : Nat := baseIC n + 0x104 + k * 0x8
def IC_SET_T (n s k : Nat) : Nat := baseIC n + 0x1000 + s * 0x40 + k * 4
def IC_SET_CTL (n k : Nat) : Nat := baseIC n + 0x1020 + k * 0x40
def IC_SET_LAST (n k : Nat) : Nat := baseIC n + 0x1024 + k * 0x40
def IC_SRC_CFG (n k : Nat) : Nat := baseIC n + 0x2000 + k * 0x10
def IC_SRC_STAT (n k : Nat) : Nat := baseIC n + 0x2004 + k * 0x10
def IC_SRC_CMD (n k : Nat) : Nat := baseIC n + 0x2008 + k * 0x10
/-- Base address of DM. -/
def baseDM (n : Nat) : Nat := (if n < 32 then 0x50200000 else 0x51200000) + (n % 32) * 0x40
def DM_CFG (n : Nat) : Nat := baseDM n + 0x0
def DM_CTL (n : Nat) : Nat := baseDM n + 0x4
def DM_STAT (n : Nat) : Nat := baseDM n + 0x8
def DM_RBASE (n : Nat) : Nat := baseDM n + 0xC
def DM_RLEN (n : Nat) : Nat := baseDM n + 0x10
def DM_IDX (n : Nat) : Nat := baseDM n + 0x14
def DM_PROG (n : Nat) : Nat := baseDM n + 0x18
def DM_PACE (n : Nat) : Nat := baseDM n + 0x1C
def DM_PTMO (n : Nat) : Nat := baseDM n + 0x20
def DM_CNT (n : Nat) : Nat := baseDM n + 0x24
/-- Base address of CV. -/
def baseCV (n : Nat) : Nat := (if n < 8 then 0x50300000 + n * 0x40 else if n < 16 then 0x51300000 + (n - 8) * 0x40 else 0x40800000 + (n - 16) * 0x40)
def CV_CFG (n : Nat) : Nat := baseCV n + 0x0
def CV_POLY (n : Nat) : Nat := baseCV n + 0x4
def CV_INIT (n : Nat) : Nat := baseCV n + 0x8
def CV_XOR (n : Nat) : Nat := baseCV n + 0xC
def CV_CTL (n : Nat) : Nat := baseCV n + 0x10
def CV_DATA (n : Nat) : Nat := baseCV n + 0x14
def CV_RUN (n : Nat) : Nat := baseCV n + 0x18
def CV_RES (n : Nat) : Nat := baseCV n + 0x1C
def CV_EXP (n : Nat) : Nat := baseCV n + 0x20
def CV_ALV (n : Nat) : Nat := baseCV n + 0x24
def CV_STAT (n : Nat) : Nat := baseCV n + 0x28
/-- Base address of BOOT. -/
def baseBOOT : Nat := 0x40010000
def BOOT_STATUS : Nat := baseBOOT + 0x0
def BOOT_INFO : Nat := baseBOOT + 0x4
def BOOT_RESET : Nat := baseBOOT + 0x8
def BOOT_KEYS : Nat := baseBOOT + 0xC
def BOOT_SERL : Nat := baseBOOT + 0x10
def BOOT_SERH : Nat := baseBOOT + 0x14
def BOOT_IMGVER : Nat := baseBOOT + 0x18
def BOOT_TSTL : Nat := baseBOOT + 0x1C
def BOOT_TSTH : Nat := baseBOOT + 0x20
def BOOT_MINVER : Nat := baseBOOT + 0x24
def BOOT_HASH (k : Nat) : Nat := baseBOOT + 0x40 + k * 0x4
def BOOT_IDK (k : Nat) : Nat := baseBOOT + 0x80 + k * 0x4
/-- Base address of FL. -/
def baseFL : Nat := 0x60000000
def FL_CMD : Nat := baseFL + 0x0
def FL_ADDR : Nat := baseFL + 0x4
def FL_STAT : Nat := baseFL + 0x8
def FL_PROT : Nat := baseFL + 0xC
def FL_SEL : Nat := baseFL + 0x10
def FL_PINTA : Nat := baseFL + 0x14
def FL_DATA (k : Nat) : Nat := baseFL + 0x20 + k * 0x4
def FL_SST (k : Nat) : Nat := baseFL + 0x100 + k * 0x4
/-- Base address of GL. -/
def baseGL (n : Nat) : Nat := 0x40900000 + n * 0x100
def GL_CFG (n : Nat) : Nat := baseGL n + 0x0
def GL_CTL (n : Nat) : Nat := baseGL n + 0x4
def GL_STAT (n : Nat) : Nat := baseGL n + 0x8
def GL_ERR0 (n : Nat) : Nat := baseGL n + 0xC
def GL_ERR1 (n : Nat) : Nat := baseGL n + 0x10
def GL_CORR (n : Nat) : Nat := baseGL n + 0x14
def GL_DLY (n : Nat) : Nat := baseGL n + 0x18
def GL_OFSL (n : Nat) : Nat := baseGL n + 0x1C
def GL_OFSH (n : Nat) : Nat := baseGL n + 0x20
def GL_SNUM (n : Nat) : Nat := baseGL n + 0x24
def GL_TXW (n k : Nat) : Nat := baseGL n + 0x40 + k * 0x4
def GL_TXH (n : Nat) : Nat := baseGL n + 0x60
def GL_RXW (n k : Nat) : Nat := baseGL n + 0x80 + k * 0x4
def GL_RXH (n : Nat) : Nat := baseGL n + 0xA0
def GL_RXS (n : Nat) : Nat := baseGL n + 0xA4
/-- Base address of HP. -/
def baseHP : Nat := 0x40A00000
def HP_CFG : Nat := baseHP + 0x0
def HP_STAT : Nat := baseHP + 0x4
def HP_CNT0 : Nat := baseHP + 0x8
def HP_MACL : Nat := baseHP + 0x10
def HP_MACH : Nat := baseHP + 0x14
def HP_IPA : Nat := baseHP + 0x18
def HP_ACLA : Nat := baseHP + 0x1C
def HP_ACLM : Nat := baseHP + 0x20
def HP_WBUF : Nat := baseHP + 0x24
def HP_WBSZ : Nat := baseHP + 0x28
def HP_MBCFG : Nat := baseHP + 0x2C
def HP_MBS : Nat := baseHP + 0x30
def HP_MBRC : Nat := baseHP + 0x34
def HP_MBD (k : Nat) : Nat := baseHP + 0x100 + k * 0x4
def HP_MBR (k : Nat) : Nat := baseHP + 0x200 + k * 0x4
/-- Base address of SP. -/
def baseSP : Nat := 0x40B00000
def SP_CFG : Nat := baseSP + 0x0
def SP_RB (k : Nat) : Nat := baseSP + 0x8 + k * 0x4
/-- Base address of PE. -/
def basePE (n : Nat) : Nat := 0x40B00040 + n * 0x20
def PE_STAT (n : Nat) : Nat := basePE n + 0x0
def PE_CAP (n : Nat) : Nat := basePE n + 0x4
def PE_CTL (n : Nat) : Nat := basePE n + 0x8
def PE_CNT (n : Nat) : Nat := basePE n + 0xC
def PE_HLTH (n : Nat) : Nat := basePE n + 0x10
/-- Base address of JOB. -/
def baseJOB (n : Nat) : Nat := 0x40B10000 + n * 0x100
def JOB_CTL (n : Nat) : Nat := baseJOB n + 0x0
def JOB_LENL (n : Nat) : Nat := baseJOB n + 0x4
def JOB_LENH (n : Nat) : Nat := baseJOB n + 0x8
def JOB_XS (n k : Nat) : Nat := baseJOB n + 0x10 + k * 0x8
def JOB_XL (n k : Nat) : Nat := baseJOB n + 0x14 + k * 0x8
/-- Base address of CL. -/
def baseCL (n : Nat) : Nat := (if n < 16 then 0x50400000 else 0x51400000) + (n % 16) * 0x1000
def CL_CFG (n : Nat) : Nat := baseCL n + 0x0
def CL_HBW (n : Nat) : Nat := baseCL n + 0x4
def CL_CKP (n : Nat) : Nat := baseCL n + 0x8
def CL_CKB (n : Nat) : Nat := baseCL n + 0xC
def CL_STAT (n : Nat) : Nat := baseCL n + 0x10
def CL_DTICK (n : Nat) : Nat := baseCL n + 0x14
def CL_HB (n k : Nat) : Nat := baseCL n + 0x100 + k * 0x4
/-- Base address of PV. -/
def basePV : Nat := 0x40C00000
def PV_CFG : Nat := basePV + 0x0
def PV_CKCL : Nat := basePV + 0x4
def PV_STAT : Nat := basePV + 0x8
def PV_EPOCH : Nat := basePV + 0xC
def PV_PDTICK : Nat := basePV + 0x10
def PV_CNT : Nat := basePV + 0x14
def PV_CTL : Nat := basePV + 0x18
/-- Base address of PW. -/
def basePW : Nat := 0x40D00000
def PW_CTL : Nat := basePW + 0x0
def PW_STAT : Nat := basePW + 0x4
def PW_DOZE : Nat := basePW + 0x8
def PW_RGSTAT : Nat := basePW + 0xC
def PW_PLL : Nat := basePW + 0x10
def PW_BOR : Nat := basePW + 0x14
def PW_WDT_CTL : Nat := basePW + 0x20
def PW_WDT_TO : Nat := basePW + 0x24
def PW_WDT_KICK : Nat := basePW + 0x28
def PW_WDT_CNT : Nat := basePW + 0x2C
def PW_WAKE : Nat := basePW + 0x40
def PW_WKTL : Nat := basePW + 0x44
def PW_WKTH : Nat := basePW + 0x48
def PW_LTBL : Nat := basePW + 0x50
def PW_LTBH : Nat := basePW + 0x54
def PW_LSTAT : Nat := basePW + 0x58
def PW_TS (k : Nat) : Nat := basePW + 0x100 + k * 0x10
def PW_TS_THR (k : Nat) : Nat := basePW + 0x104 + k * 0x10

end R

namespace F

def PRES_ID_FAMILY : Fld := ⟨R.PRES_ID, 31, 16⟩
def PRES_ID_STEP : Fld := ⟨R.PRES_ID, 15, 8⟩
def PRES_ID_VARIANT : Fld := ⟨R.PRES_ID, 7, 0⟩
def PRES_DIES_SPOOL : Fld := ⟨R.PRES_DIES, 9, 9⟩
def PRES_DIES_PAIR : Fld := ⟨R.PRES_DIES, 8, 8⟩
def PRES_DIES_UF_D1 : Fld := ⟨R.PRES_DIES, 7, 6⟩
def PRES_DIES_UF_D0 : Fld := ⟨R.PRES_DIES, 5, 4⟩
def PRES_DIES_DIES : Fld := ⟨R.PRES_DIES, 3, 0⟩
def PRES_CORE_REGIONS : Fld := ⟨R.PRES_CORE, 31, 24⟩
def PRES_CORE_CLUSTERS : Fld := ⟨R.PRES_CORE, 23, 16⟩
def PRES_CORE_ENGINES : Fld := ⟨R.PRES_CORE, 15, 0⟩
def PRES_TIME_CP : Fld := ⟨R.PRES_TIME, 31, 16⟩
def PRES_TIME_CC : Fld := ⟨R.PRES_TIME, 15, 0⟩
def PRES_EDGE_LU : Fld := ⟨R.PRES_EDGE, 23, 16⟩
def PRES_EDGE_LL : Fld := ⟨R.PRES_EDGE, 15, 8⟩
def PRES_EDGE_EG : Fld := ⟨R.PRES_EDGE, 7, 0⟩
def PRES_ANALOG_SD : Fld := ⟨R.PRES_ANALOG, 23, 16⟩
def PRES_ANALOG_AC : Fld := ⟨R.PRES_ANALOG, 15, 8⟩
def PRES_ANALOG_AD : Fld := ⟨R.PRES_ANALOG, 7, 0⟩
def PRES_MOTION_EMU : Fld := ⟨R.PRES_MOTION, 31, 24⟩
def PRES_MOTION_FG : Fld := ⟨R.PRES_MOTION, 23, 16⟩
def PRES_MOTION_FB : Fld := ⟨R.PRES_MOTION, 15, 8⟩
def PRES_MOTION_HL : Fld := ⟨R.PRES_MOTION, 7, 0⟩
def PRES_SUPPORT_CVC : Fld := ⟨R.PRES_SUPPORT, 31, 24⟩
def PRES_SUPPORT_CVR : Fld := ⟨R.PRES_SUPPORT, 23, 16⟩
def PRES_SUPPORT_EV : Fld := ⟨R.PRES_SUPPORT, 15, 0⟩
def PRES_LINK_FLASH : Fld := ⟨R.PRES_LINK, 31, 16⟩
def PRES_LINK_PE : Fld := ⟨R.PRES_LINK, 11, 10⟩
def PRES_LINK_DMD : Fld := ⟨R.PRES_LINK, 9, 8⟩
def PRES_LINK_SL : Fld := ⟨R.PRES_LINK, 7, 0⟩
def LL_CFG_EN (n : Nat) : Fld := ⟨R.LL_CFG n, 31, 31⟩
def LL_CFG_LAW (n : Nat) : Fld := ⟨R.LL_CFG n, 30, 30⟩
def LL_CFG_ENG (n : Nat) : Fld := ⟨R.LL_CFG n, 29, 22⟩
def LL_CFG_TASK (n : Nat) : Fld := ⟨R.LL_CFG n, 21, 16⟩
def LL_CFG_LU (n : Nat) : Fld := ⟨R.LL_CFG n, 15, 11⟩
def LL_CFG_TRIG (n : Nat) : Fld := ⟨R.LL_CFG n, 10, 8⟩
def LL_CFG_CMT (n : Nat) : Fld := ⟨R.LL_CFG n, 7, 6⟩
def LL_CFG_BIP (n : Nat) : Fld := ⟨R.LL_CFG n, 5, 5⟩
def LL_SRC_KIND (n k : Nat) : Fld := ⟨R.LL_SRC n k, 31, 30⟩
def LL_SRC_UNIT (n k : Nat) : Fld := ⟨R.LL_SRC n k, 28, 24⟩
def LL_SRC_FMT (n k : Nat) : Fld := ⟨R.LL_SRC n k, 23, 22⟩
def LL_SRC_SHIFT (n k : Nat) : Fld := ⟨R.LL_SRC n k, 21, 16⟩
def LL_SRC_OFS (n k : Nat) : Fld := ⟨R.LL_SRC n k, 15, 0⟩
def LL_OUT_V2 (n : Nat) : Fld := ⟨R.LL_OUT n, 31, 31⟩
def LL_OUT_EG2 (n : Nat) : Fld := ⟨R.LL_OUT n, 30, 24⟩
def LL_OUT_V1 (n : Nat) : Fld := ⟨R.LL_OUT n, 23, 23⟩
def LL_OUT_EG1 (n : Nat) : Fld := ⟨R.LL_OUT n, 22, 16⟩
def LL_OUT_V0 (n : Nat) : Fld := ⟨R.LL_OUT n, 15, 15⟩
def LL_OUT_EG0 (n : Nat) : Fld := ⟨R.LL_OUT n, 14, 8⟩
def LL_CTL_CLRS (n : Nat) : Fld := ⟨R.LL_CTL n, 3, 3⟩
def LL_CTL_KSWAP (n : Nat) : Fld := ⟨R.LL_CTL n, 2, 2⟩
def LL_CTL_M (n : Nat) : Fld := ⟨R.LL_CTL n, 1, 1⟩
def LL_CTL_RUN (n : Nat) : Fld := ⟨R.LL_CTL n, 0, 0⟩
def LL_STAT_OVR (n : Nat) : Fld := ⟨R.LL_STAT n, 31, 24⟩
def LL_STAT_TSKIP (n : Nat) : Fld := ⟨R.LL_STAT n, 23, 16⟩
def LL_STAT_SEQ (n : Nat) : Fld := ⟨R.LL_STAT n, 15, 0⟩
def LL_LAST_TICK (n : Nat) : Fld := ⟨R.LL_LAST n, 31, 0⟩
def LL_MON_VAL (n k : Nat) : Fld := ⟨R.LL_MON n k, 31, 0⟩
def LU_P_STEP (n k : Nat) : Fld := ⟨R.LU_P n k, 31, 0⟩
def LU_CFG_LEN (n : Nat) : Fld := ⟨R.LU_CFG n, 4, 0⟩
def LU_K_K (n k : Nat) : Fld := ⟨R.LU_K n k, 31, 0⟩
def LU_S_S (n k : Nat) : Fld := ⟨R.LU_S n k, 31, 0⟩
def LU_FLAG_BADOP (n : Nat) : Fld := ⟨R.LU_FLAG n, 9, 9⟩
def LU_FLAG_SAT (n : Nat) : Fld := ⟨R.LU_FLAG n, 8, 8⟩
def LU_FLAG_SLOT (n : Nat) : Fld := ⟨R.LU_FLAG n, 7, 0⟩
def LU_ALO_A (n : Nat) : Fld := ⟨R.LU_ALO n, 31, 0⟩
def LU_AHI_A (n : Nat) : Fld := ⟨R.LU_AHI n, 31, 0⟩
def TB_LO_TICK : Fld := ⟨R.TB_LO, 31, 0⟩
def TB_HI_TICK : Fld := ⟨R.TB_HI, 31, 0⟩
def TB_LCT_LO_TICK : Fld := ⟨R.TB_LCT_LO, 31, 0⟩
def TB_LCT_HI_TICK : Fld := ⟨R.TB_LCT_HI, 31, 0⟩
def TB_LCL_LO_LTB : Fld := ⟨R.TB_LCL_LO, 31, 0⟩
def TB_LCL_HI_LTB : Fld := ⟨R.TB_LCL_HI, 15, 0⟩
def CC_CTL_SKIP (n : Nat) : Fld := ⟨R.CC_CTL n, 2, 2⟩
def CC_CTL_AA (n : Nat) : Fld := ⟨R.CC_CTL n, 1, 1⟩
def CC_CTL_EN (n : Nat) : Fld := ⟨R.CC_CTL n, 0, 0⟩
def CC_STAT_STG (n : Nat) : Fld := ⟨R.CC_STAT n, 3, 3⟩
def CC_STAT_WCOL (n : Nat) : Fld := ⟨R.CC_STAT n, 2, 2⟩
def CC_STAT_IVLERR (n : Nat) : Fld := ⟨R.CC_STAT n, 1, 1⟩
def CC_STAT_LATE (n : Nat) : Fld := ⟨R.CC_STAT n, 0, 0⟩
def CC_MISS_MISS (n : Nat) : Fld := ⟨R.CC_MISS n, 15, 0⟩
def CC_CMPF_FINE (n : Nat) : Fld := ⟨R.CC_CMPF n, 5, 0⟩
def CC_CMPL_TICK (n : Nat) : Fld := ⟨R.CC_CMPL n, 31, 0⟩
def CC_CMPH_TICK (n : Nat) : Fld := ⟨R.CC_CMPH n, 31, 0⟩
def CC_IVL_IVL (n : Nat) : Fld := ⟨R.CC_IVL n, 31, 0⟩
def CP_CTL_PIN (n : Nat) : Fld := ⟨R.CP_CTL n, 23, 16⟩
def CP_CTL_FILT (n : Nat) : Fld := ⟨R.CP_CTL n, 6, 4⟩
def CP_CTL_ONE (n : Nat) : Fld := ⟨R.CP_CTL n, 2, 2⟩
def CP_CTL_INV (n : Nat) : Fld := ⟨R.CP_CTL n, 1, 1⟩
def CP_CTL_EN (n : Nat) : Fld := ⟨R.CP_CTL n, 0, 0⟩
def CP_STAT_OPEN (n : Nat) : Fld := ⟨R.CP_STAT n, 2, 2⟩
def CP_STAT_OVR (n : Nat) : Fld := ⟨R.CP_STAT n, 1, 1⟩
def CP_STAT_NEW (n : Nat) : Fld := ⟨R.CP_STAT n, 0, 0⟩
def CP_RISE_TICK (n : Nat) : Fld := ⟨R.CP_RISE n, 31, 0⟩
def CP_RISEH_TICK (n : Nat) : Fld := ⟨R.CP_RISEH n, 31, 0⟩
def CP_FALL_TICK (n : Nat) : Fld := ⟨R.CP_FALL n, 31, 0⟩
def CP_FALLH_TICK (n : Nat) : Fld := ⟨R.CP_FALLH n, 31, 0⟩
def CP_FINE_FALLF (n : Nat) : Fld := ⟨R.CP_FINE n, 13, 8⟩
def CP_FINE_RISEF (n : Nat) : Fld := ⟨R.CP_FINE n, 5, 0⟩
def CP_WIDTH_WIDTH (n : Nat) : Fld := ⟨R.CP_WIDTH n, 31, 0⟩
def EG_CFG_DRV (n : Nat) : Fld := ⟨R.EG_CFG n, 31, 31⟩
def EG_CFG_REF (n : Nat) : Fld := ⟨R.EG_CFG n, 30, 24⟩
def EG_CFG_CSRC (n : Nat) : Fld := ⟨R.EG_CFG n, 23, 23⟩
def EG_CFG_RUNM (n : Nat) : Fld := ⟨R.EG_CFG n, 22, 21⟩
def EG_CFG_ALN (n : Nat) : Fld := ⟨R.EG_CFG n, 20, 20⟩
def EG_CFG_DSRC (n : Nat) : Fld := ⟨R.EG_CFG n, 19, 19⟩
def EG_CFG_UPD (n : Nat) : Fld := ⟨R.EG_CFG n, 18, 18⟩
def EG_CFG_DTX (n : Nat) : Fld := ⟨R.EG_CFG n, 17, 17⟩
def EG_CFG_CTRA (n : Nat) : Fld := ⟨R.EG_CFG n, 16, 16⟩
def EG_CFG_SKIP (n : Nat) : Fld := ⟨R.EG_CFG n, 15, 15⟩
def EG_CFG_OUTL (n : Nat) : Fld := ⟨R.EG_CFG n, 14, 13⟩
def EG_CFG_POLL (n : Nat) : Fld := ⟨R.EG_CFG n, 12, 12⟩
def EG_CFG_POLH (n : Nat) : Fld := ⟨R.EG_CFG n, 11, 11⟩
def EG_CFG_MINW (n : Nat) : Fld := ⟨R.EG_CFG n, 7, 4⟩
def EG_CTL_HOLD (n : Nat) : Fld := ⟨R.EG_CTL n, 1, 1⟩
def EG_CTL_EN (n : Nat) : Fld := ⟨R.EG_CTL n, 0, 0⟩
def EG_STAT_SAFE (n : Nat) : Fld := ⟨R.EG_STAT n, 8, 8⟩
def EG_STAT_TRIP (n : Nat) : Fld := ⟨R.EG_STAT n, 7, 7⟩
def EG_STAT_WCOL (n : Nat) : Fld := ⟨R.EG_STAT n, 6, 6⟩
def EG_STAT_RTRG (n : Nat) : Fld := ⟨R.EG_STAT n, 5, 5⟩
def EG_STAT_CFGERR (n : Nat) : Fld := ⟨R.EG_STAT n, 4, 4⟩
def EG_STAT_PHSERR (n : Nat) : Fld := ⟨R.EG_STAT n, 3, 3⟩
def EG_STAT_LEDGE (n : Nat) : Fld := ⟨R.EG_STAT n, 2, 2⟩
def EG_STAT_IVLERR (n : Nat) : Fld := ⟨R.EG_STAT n, 1, 1⟩
def EG_STAT_LATE (n : Nat) : Fld := ⟨R.EG_STAT n, 0, 0⟩
def EG_CMPF_FINE (n : Nat) : Fld := ⟨R.EG_CMPF n, 5, 0⟩
def EG_CMPL_TICK (n : Nat) : Fld := ⟨R.EG_CMPL n, 31, 0⟩
def EG_CMPH_TICK (n : Nat) : Fld := ⟨R.EG_CMPH n, 31, 0⟩
def EG_IVL_IVL (n : Nat) : Fld := ⟨R.EG_IVL n, 31, 0⟩
def EG_IVLA_IVL (n : Nat) : Fld := ⟨R.EG_IVLA n, 31, 0⟩
def EG_RISE_RISE (n : Nat) : Fld := ⟨R.EG_RISE n, 31, 0⟩
def EG_FALL_FALL (n : Nat) : Fld := ⟨R.EG_FALL n, 31, 0⟩
def EG_DUTY_D (n : Nat) : Fld := ⟨R.EG_DUTY n, 31, 0⟩
def EG_DT_DTF (n : Nat) : Fld := ⟨R.EG_DT n, 31, 16⟩
def EG_DT_DTR (n : Nat) : Fld := ⟨R.EG_DT n, 15, 0⟩
def EG_PHS_PHS (n : Nat) : Fld := ⟨R.EG_PHS n, 31, 0⟩
def EG_CTR_CTR (n : Nat) : Fld := ⟨R.EG_CTR n, 31, 0⟩
def EG_CNT_REM (n : Nat) : Fld := ⟨R.EG_CNT n, 31, 16⟩
def EG_CNT_CNT (n : Nat) : Fld := ⟨R.EG_CNT n, 15, 0⟩
def EG_MISS_SHORT (n : Nat) : Fld := ⟨R.EG_MISS n, 23, 16⟩
def EG_MISS_MISS (n : Nat) : Fld := ⟨R.EG_MISS n, 15, 0⟩
def EG_ERISE_R (n : Nat) : Fld := ⟨R.EG_ERISE n, 31, 0⟩
def EG_EFALL_F (n : Nat) : Fld := ⟨R.EG_EFALL n, 31, 0⟩
def EG_CTRT_TICK (n : Nat) : Fld := ⟨R.EG_CTRT n, 31, 0⟩
def EG_SAFE_SL (n : Nat) : Fld := ⟨R.EG_SAFE n, 3, 2⟩
def EG_SAFE_SH (n : Nat) : Fld := ⟨R.EG_SAFE n, 1, 0⟩
def TG_CTL_REL (n : Nat) : Fld := ⟨R.TG_CTL n, 3, 3⟩
def TG_CTL_SWT (n : Nat) : Fld := ⟨R.TG_CTL n, 2, 2⟩
def TG_CTL_LOCK (n : Nat) : Fld := ⟨R.TG_CTL n, 1, 1⟩
def TG_CTL_EN (n : Nat) : Fld := ⟨R.TG_CTL n, 0, 0⟩
def TG_STAT_ASRT (n : Nat) : Fld := ⟨R.TG_STAT n, 2, 2⟩
def TG_STAT_RREF (n : Nat) : Fld := ⟨R.TG_STAT n, 1, 1⟩
def TG_STAT_TRIPPED (n : Nat) : Fld := ⟨R.TG_STAT n, 0, 0⟩
def TG_CNT_TCNT (n : Nat) : Fld := ⟨R.TG_CNT n, 7, 0⟩
def TG_FIRST_CODE (n : Nat) : Fld := ⟨R.TG_FIRST n, 7, 0⟩
def TG_TTICK_TICK (n : Nat) : Fld := ⟨R.TG_TTICK n, 31, 0⟩
def TG_ACLO_AC (n : Nat) : Fld := ⟨R.TG_ACLO n, 31, 0⟩
def TG_ACHI_AC (n : Nat) : Fld := ⟨R.TG_ACHI n, 31, 0⟩
def TG_BALL_TPOL (n : Nat) : Fld := ⟨R.TG_BALL n, 31, 16⟩
def TG_BALL_TEN (n : Nat) : Fld := ⟨R.TG_BALL n, 15, 0⟩
def TG_MEG_EG (n k : Nat) : Fld := ⟨R.TG_MEG n k, 31, 0⟩
def TG_MHL_HL (n : Nat) : Fld := ⟨R.TG_MHL n, 15, 0⟩
def AD_CFG_FTH (n : Nat) : Fld := ⟨R.AD_CFG n, 20, 16⟩
def AD_CFG_LEN (n : Nat) : Fld := ⟨R.AD_CFG n, 11, 8⟩
def AD_CFG_MODE (n : Nat) : Fld := ⟨R.AD_CFG n, 1, 0⟩
def AD_CTL_FLUSH (n : Nat) : Fld := ⟨R.AD_CTL n, 2, 2⟩
def AD_CTL_SWST (n : Nat) : Fld := ⟨R.AD_CTL n, 1, 1⟩
def AD_CTL_EN (n : Nat) : Fld := ⟨R.AD_CTL n, 0, 0⟩
def AD_STAT_SLOST (n : Nat) : Fld := ⟨R.AD_STAT n, 31, 24⟩
def AD_STAT_PTR (n : Nat) : Fld := ⟨R.AD_STAT n, 19, 16⟩
def AD_STAT_FILL (n : Nat) : Fld := ⟨R.AD_STAT n, 12, 8⟩
def AD_STAT_CFGERR (n : Nat) : Fld := ⟨R.AD_STAT n, 4, 4⟩
def AD_STAT_PINERR (n : Nat) : Fld := ⟨R.AD_STAT n, 3, 3⟩
def AD_STAT_FOVF (n : Nat) : Fld := ⟨R.AD_STAT n, 2, 2⟩
def AD_STAT_PEND (n : Nat) : Fld := ⟨R.AD_STAT n, 1, 1⟩
def AD_STAT_BUSY (n : Nat) : Fld := ⟨R.AD_STAT n, 0, 0⟩
def AD_FIFO_VALID (n : Nat) : Fld := ⟨R.AD_FIFO n, 31, 31⟩
def AD_FIFO_ENTRY (n : Nat) : Fld := ⟨R.AD_FIFO n, 27, 24⟩
def AD_FIFO_PIN (n : Nat) : Fld := ⟨R.AD_FIFO n, 22, 16⟩
def AD_FIFO_CODE (n : Nat) : Fld := ⟨R.AD_FIFO n, 15, 0⟩
def AD_TICK_TICK (n : Nat) : Fld := ⟨R.AD_TICK n, 31, 0⟩
def AD_SEQ_SKIPF (n k : Nat) : Fld := ⟨R.AD_SEQ n k, 9, 9⟩
def AD_SEQ_LD (n k : Nat) : Fld := ⟨R.AD_SEQ n k, 8, 8⟩
def AD_SEQ_PIN (n k : Nat) : Fld := ⟨R.AD_SEQ n k, 6, 0⟩
def AC_CFG_EN (n : Nat) : Fld := ⟨R.AC_CFG n, 31, 31⟩
def AC_CFG_POL (n : Nat) : Fld := ⟨R.AC_CFG n, 30, 30⟩
def AC_CFG_PIN (n : Nat) : Fld := ⟨R.AC_CFG n, 22, 16⟩
def AC_CTL_HYS (n : Nat) : Fld := ⟨R.AC_CTL n, 9, 8⟩
def AC_CTL_RMODE (n : Nat) : Fld := ⟨R.AC_CTL n, 1, 0⟩
def AC_REF_REF (n : Nat) : Fld := ⟨R.AC_REF n, 11, 0⟩
def AC_RSTEP_STEP (n : Nat) : Fld := ⟨R.AC_RSTEP n, 23, 0⟩
def AC_RLIM_RLIM (n : Nat) : Fld := ⟨R.AC_RLIM n, 11, 0⟩
def AC_BLK_BLK (n : Nat) : Fld := ⟨R.AC_BLK n, 9, 0⟩
def AC_STAT_DACV (n : Nat) : Fld := ⟨R.AC_STAT n, 27, 16⟩
def AC_STAT_SEEN (n : Nat) : Fld := ⟨R.AC_STAT n, 2, 2⟩
def AC_STAT_BLNK (n : Nat) : Fld := ⟨R.AC_STAT n, 1, 1⟩
def AC_STAT_OUT (n : Nat) : Fld := ⟨R.AC_STAT n, 0, 0⟩
def AC_CNT_CNT (n : Nat) : Fld := ⟨R.AC_CNT n, 15, 0⟩
def SD_CFG_CLKO (n : Nat) : Fld := ⟨R.SD_CFG n, 30, 30⟩
def SD_CFG_EDGE (n : Nat) : Fld := ⟨R.SD_CFG n, 29, 29⟩
def SD_CFG_ORD (n : Nat) : Fld := ⟨R.SD_CFG n, 28, 28⟩
def SD_CFG_DEC (n : Nat) : Fld := ⟨R.SD_CFG n, 24, 16⟩
def SD_CFG_SCL (n : Nat) : Fld := ⟨R.SD_CFG n, 13, 8⟩
def SD_CTL_EN (n : Nat) : Fld := ⟨R.SD_CTL n, 0, 0⟩
def SD_CLK_DIV (n : Nat) : Fld := ⟨R.SD_CLK n, 9, 0⟩
def SD_RES_RES (n : Nat) : Fld := ⟨R.SD_RES n, 31, 0⟩
def SD_TICK_TICK (n : Nat) : Fld := ⟨R.SD_TICK n, 31, 0⟩
def SD_STAT_CFGERR (n : Nat) : Fld := ⟨R.SD_STAT n, 5, 5⟩
def SD_STAT_CLKLOSS (n : Nat) : Fld := ⟨R.SD_STAT n, 4, 4⟩
def SD_STAT_SAT (n : Nat) : Fld := ⟨R.SD_STAT n, 3, 3⟩
def SD_STAT_OVR (n : Nat) : Fld := ⟨R.SD_STAT n, 2, 2⟩
def SD_STAT_NEW (n : Nat) : Fld := ⟨R.SD_STAT n, 1, 1⟩
def SD_STAT_SETL (n : Nat) : Fld := ⟨R.SD_STAT n, 0, 0⟩
def HL_CFG_DRV (n : Nat) : Fld := ⟨R.HL_CFG n, 31, 31⟩
def HL_CFG_FGEN (n : Nat) : Fld := ⟨R.HL_CFG n, 30, 30⟩
def HL_CFG_FG (n : Nat) : Fld := ⟨R.HL_CFG n, 29, 26⟩
def HL_CFG_LSKIP (n : Nat) : Fld := ⟨R.HL_CFG n, 25, 25⟩
def HL_CFG_VTH (n : Nat) : Fld := ⟨R.HL_CFG n, 23, 12⟩
def HL_CFG_SWP (n : Nat) : Fld := ⟨R.HL_CFG n, 11, 0⟩
def HL_CTL_WSEL (n : Nat) : Fld := ⟨R.HL_CTL n, 6, 4⟩
def HL_CTL_ABORT (n : Nat) : Fld := ⟨R.HL_CTL n, 2, 2⟩
def HL_CTL_SWST (n : Nat) : Fld := ⟨R.HL_CTL n, 1, 1⟩
def HL_CTL_EN (n : Nat) : Fld := ⟨R.HL_CTL n, 0, 0⟩
def HL_STAT_QFILL (n : Nat) : Fld := ⟨R.HL_STAT n, 26, 24⟩
def HL_STAT_REG (n : Nat) : Fld := ⟨R.HL_STAT n, 20, 20⟩
def HL_STAT_RUNW (n : Nat) : Fld := ⟨R.HL_STAT n, 19, 19⟩
def HL_STAT_SAFE (n : Nat) : Fld := ⟨R.HL_STAT n, 18, 18⟩
def HL_STAT_TRIP (n : Nat) : Fld := ⟨R.HL_STAT n, 17, 17⟩
def HL_STAT_WBUSY (n : Nat) : Fld := ⟨R.HL_STAT n, 8, 8⟩
def HL_STAT_WFERR (n : Nat) : Fld := ⟨R.HL_STAT n, 7, 7⟩
def HL_STAT_CFGERR (n : Nat) : Fld := ⟨R.HL_STAT n, 6, 6⟩
def HL_STAT_LATE (n : Nat) : Fld := ⟨R.HL_STAT n, 5, 5⟩
def HL_STAT_TRK (n : Nat) : Fld := ⟨R.HL_STAT n, 2, 2⟩
def HL_STAT_OVV (n : Nat) : Fld := ⟨R.HL_STAT n, 1, 1⟩
def HL_STAT_ICL (n : Nat) : Fld := ⟨R.HL_STAT n, 0, 0⟩
def HL_CNT_OVLP (n : Nat) : Fld := ⟨R.HL_CNT n, 31, 24⟩
def HL_CNT_TSKIP (n : Nat) : Fld := ⟨R.HL_CNT n, 23, 16⟩
def HL_CNT_QOVF (n : Nat) : Fld := ⟨R.HL_CNT n, 15, 8⟩
def HL_CNT_LCNT (n : Nat) : Fld := ⟨R.HL_CNT n, 7, 0⟩
def HL_LAW_KC (n : Nat) : Fld := ⟨R.HL_LAW n, 31, 16⟩
def HL_LAW_KI (n : Nat) : Fld := ⟨R.HL_LAW n, 15, 0⟩
def HL_DLIM_DMAX (n : Nat) : Fld := ⟨R.HL_DLIM n, 31, 16⟩
def HL_DLIM_DMIN (n : Nat) : Fld := ⟨R.HL_DLIM n, 15, 0⟩
def HL_BUS_ILIM (n : Nat) : Fld := ⟨R.HL_BUS n, 27, 16⟩
def HL_BUS_VBUSC (n : Nat) : Fld := ⟨R.HL_BUS n, 11, 0⟩
def HL_TIMING_DTG (n : Nat) : Fld := ⟨R.HL_TIMING n, 31, 16⟩
def HL_TIMING_PH (n : Nat) : Fld := ⟨R.HL_TIMING n, 11, 0⟩
def HL_REST_REST (n : Nat) : Fld := ⟨R.HL_REST n, 15, 0⟩
def HL_PROT_CLE (n : Nat) : Fld := ⟨R.HL_PROT n, 31, 31⟩
def HL_PROT_OVE (n : Nat) : Fld := ⟨R.HL_PROT n, 30, 30⟩
def HL_PROT_TEE (n : Nat) : Fld := ⟨R.HL_PROT n, 29, 29⟩
def HL_PROT_CLG (n : Nat) : Fld := ⟨R.HL_PROT n, 20, 16⟩
def HL_PROT_OVG (n : Nat) : Fld := ⟨R.HL_PROT n, 12, 8⟩
def HL_PROT_TEG (n : Nat) : Fld := ⟨R.HL_PROT n, 4, 0⟩
def HL_PLIM_ICL (n : Nat) : Fld := ⟨R.HL_PLIM n, 27, 16⟩
def HL_PLIM_OVT (n : Nat) : Fld := ⟨R.HL_PLIM n, 11, 0⟩
def HL_TRK_TET (n : Nat) : Fld := ⟨R.HL_TRK n, 27, 16⟩
def HL_TRK_TEW (n : Nat) : Fld := ⟨R.HL_TRK n, 7, 0⟩
def HL_MON0_VT (n : Nat) : Fld := ⟨R.HL_MON0 n, 31, 16⟩
def HL_MON0_VM (n : Nat) : Fld := ⟨R.HL_MON0 n, 11, 0⟩
def HL_MON1_IREF (n : Nat) : Fld := ⟨R.HL_MON1 n, 31, 16⟩
def HL_MON1_IM (n : Nat) : Fld := ⟨R.HL_MON1 n, 15, 0⟩
def HL_MON2_D (n : Nat) : Fld := ⟨R.HL_MON2 n, 31, 16⟩
def HL_WST_TICK (n : Nat) : Fld := ⟨R.HL_WST n, 31, 0⟩
def HL_WF_V (n k : Nat) : Fld := ⟨R.HL_WF n k, 31, 31⟩
def HL_WF_CNT (n k : Nat) : Fld := ⟨R.HL_WF n k, 26, 16⟩
def HL_WF_FIRST (n k : Nat) : Fld := ⟨R.HL_WF n k, 9, 0⟩
def HL_EDRV_E (n : Nat) : Fld := ⟨R.HL_EDRV n, 31, 0⟩
def HL_EREC_E (n : Nat) : Fld := ⟨R.HL_EREC n, 31, 0⟩
def HLPT_DUR_DUR (n k : Nat) : Fld := ⟨R.HLPT_DUR n k, 31, 0⟩
def HLPT_LVL_LEVEL (n k : Nat) : Fld := ⟨R.HLPT_LVL n k, 15, 0⟩
def FB_CFG_MODE (n : Nat) : Fld := ⟨R.FB_CFG n, 30, 28⟩
def FB_CFG_DIRI (n : Nat) : Fld := ⟨R.FB_CFG n, 27, 27⟩
def FB_CFG_FILT (n : Nat) : Fld := ⟨R.FB_CFG n, 26, 24⟩
def FB_CFG_ZPOL (n : Nat) : Fld := ⟨R.FB_CFG n, 23, 23⟩
def FB_CFG_ZQE (n : Nat) : Fld := ⟨R.FB_CFG n, 22, 22⟩
def FB_CFG_ZQA (n : Nat) : Fld := ⟨R.FB_CFG n, 21, 21⟩
def FB_CFG_ZQB (n : Nat) : Fld := ⟨R.FB_CFG n, 20, 20⟩
def FB_CFG_IDXM (n : Nat) : Fld := ⟨R.FB_CFG n, 19, 18⟩
def FB_CFG_GRAY (n : Nat) : Fld := ⟨R.FB_CFG n, 17, 17⟩
def FB_CFG_EXT (n : Nat) : Fld := ⟨R.FB_CFG n, 16, 16⟩
def FB_CFG_FSH (n : Nat) : Fld := ⟨R.FB_CFG n, 12, 8⟩
def FB_CFG_NB (n : Nat) : Fld := ⟨R.FB_CFG n, 5, 0⟩
def FB_CTL_ARM (n : Nat) : Fld := ⟨R.FB_CTL n, 3, 3⟩
def FB_CTL_SWRQ (n : Nat) : Fld := ⟨R.FB_CTL n, 2, 2⟩
def FB_CTL_EN (n : Nat) : Fld := ⟨R.FB_CTL n, 0, 0⟩
def FB_STAT_SCAUSE (n : Nat) : Fld := ⟨R.FB_STAT n, 10, 8⟩
def FB_STAT_CFGERR (n : Nat) : Fld := ⟨R.FB_STAT n, 7, 7⟩
def FB_STAT_SSAT (n : Nat) : Fld := ⟨R.FB_STAT n, 6, 6⟩
def FB_STAT_BUSY (n : Nat) : Fld := ⟨R.FB_STAT n, 5, 5⟩
def FB_STAT_ARMD (n : Nat) : Fld := ⟨R.FB_STAT n, 4, 4⟩
def FB_STAT_IVAL (n : Nat) : Fld := ⟨R.FB_STAT n, 3, 3⟩
def FB_STAT_DIR (n : Nat) : Fld := ⟨R.FB_STAT n, 0, 0⟩
def FB_ERR_QERR (n : Nat) : Fld := ⟨R.FB_ERR n, 31, 24⟩
def FB_ERR_HERR (n : Nat) : Fld := ⟨R.FB_ERR n, 23, 16⟩
def FB_ERR_SERR (n : Nat) : Fld := ⟨R.FB_ERR n, 15, 8⟩
def FB_ERR_RQLOST (n : Nat) : Fld := ⟨R.FB_ERR n, 7, 0⟩
def FB_POS_COUNT (n : Nat) : Fld := ⟨R.FB_POS n, 31, 0⟩
def FB_FRAC_IVAL (n : Nat) : Fld := ⟨R.FB_FRAC n, 16, 16⟩
def FB_FRAC_FRAC (n : Nat) : Fld := ⟨R.FB_FRAC n, 15, 0⟩
def FB_PTICK_TICK (n : Nat) : Fld := ⟨R.FB_PTICK n, 31, 0⟩
def FB_SPD_SPD (n : Nat) : Fld := ⟨R.FB_SPD n, 31, 0⟩
def FB_WCNT_CNT (n : Nat) : Fld := ⟨R.FB_WCNT n, 31, 0⟩
def FB_PER_PER (n : Nat) : Fld := ⟨R.FB_PER n, 31, 0⟩
def FB_SPDC_SMODE (n : Nat) : Fld := ⟨R.FB_SPDC n, 31, 31⟩
def FB_SPDC_NP (n : Nat) : Fld := ⟨R.FB_SPDC n, 29, 28⟩
def FB_SPDC_SSCL (n : Nat) : Fld := ⟨R.FB_SPDC n, 20, 16⟩
def FB_SPDC_SPW (n : Nat) : Fld := ⟨R.FB_SPDC n, 15, 0⟩
def FB_ZTO_ZTO (n : Nat) : Fld := ⟨R.FB_ZTO n, 31, 0⟩
def FB_IDXV_IDXV (n : Nat) : Fld := ⟨R.FB_IDXV n, 31, 0⟩
def FB_IDXL_COUNT (n : Nat) : Fld := ⟨R.FB_IDXL n, 31, 0⟩
def FB_LAT_COUNT (n : Nat) : Fld := ⟨R.FB_LAT n, 31, 0⟩
def FB_LATF_FRAC (n : Nat) : Fld := ⟨R.FB_LATF n, 15, 0⟩
def FB_LTICK_TICK (n : Nat) : Fld := ⟨R.FB_LTICK n, 31, 0⟩
def FB_HALL_SECT (n : Nat) : Fld := ⟨R.FB_HALL n, 6, 4⟩
def FB_HALL_H (n : Nat) : Fld := ⟨R.FB_HALL n, 2, 0⟩
def FB_SSI_DIV (n : Nat) : Fld := ⟨R.FB_SSI n, 31, 20⟩
def FB_SSI_LEAD (n : Nat) : Fld := ⟨R.FB_SSI n, 19, 18⟩
def FB_SSI_MONO (n : Nat) : Fld := ⟨R.FB_SSI n, 17, 8⟩
def FB_SSI_DLY (n : Nat) : Fld := ⟨R.FB_SSI n, 7, 0⟩
def FB_FRM_RSN (n : Nat) : Fld := ⟨R.FB_FRM n, 31, 27⟩
def FB_FRM_RQN (n : Nat) : Fld := ⟨R.FB_FRM n, 26, 22⟩
def FB_FRM_PAR (n : Nat) : Fld := ⟨R.FB_FRM n, 21, 20⟩
def FB_FRM_PB (n : Nat) : Fld := ⟨R.FB_FRM n, 17, 10⟩
def FB_BT_BT (n : Nat) : Fld := ⟨R.FB_BT n, 19, 0⟩
def FB_TMO_GAP (n : Nat) : Fld := ⟨R.FB_TMO n, 31, 24⟩
def FB_TMO_TO (n : Nat) : Fld := ⟨R.FB_TMO n, 23, 0⟩
def FB_REQP_REQP (n : Nat) : Fld := ⟨R.FB_REQP n, 31, 0⟩
def FB_CRC_CRCEN (n : Nat) : Fld := ⟨R.FB_CRC n, 31, 31⟩
def FB_CRC_CVU (n : Nat) : Fld := ⟨R.FB_CRC n, 28, 24⟩
def FB_CRC_CS (n : Nat) : Fld := ⟨R.FB_CRC n, 20, 16⟩
def FB_CRC_CW (n : Nat) : Fld := ⟨R.FB_CRC n, 9, 8⟩
def FB_RQB_B (n k : Nat) : Fld := ⟨R.FB_RQB n k, 31, 0⟩
def FB_RSB_B (n k : Nat) : Fld := ⟨R.FB_RSB n k, 31, 0⟩
def FB_CMP_CTL_MISS (n k : Nat) : Fld := ⟨R.FB_CMP_CTL n k, 31, 16⟩
def FB_CMP_CTL_STEPERR (n k : Nat) : Fld := ⟨R.FB_CMP_CTL n k, 6, 6⟩
def FB_CMP_CTL_LATE (n k : Nat) : Fld := ⟨R.FB_CMP_CTL n k, 5, 5⟩
def FB_CMP_CTL_WAIT (n k : Nat) : Fld := ⟨R.FB_CMP_CTL n k, 4, 4⟩
def FB_CMP_CTL_DIRF (n k : Nat) : Fld := ⟨R.FB_CMP_CTL n k, 3, 2⟩
def FB_CMP_CTL_AA (n k : Nat) : Fld := ⟨R.FB_CMP_CTL n k, 1, 1⟩
def FB_CMP_CTL_EN (n k : Nat) : Fld := ⟨R.FB_CMP_CTL n k, 0, 0⟩
def FB_CMP_VAL_COUNT (n k : Nat) : Fld := ⟨R.FB_CMP_VAL n k, 31, 0⟩
def FB_CMP_VALF_FRAC (n k : Nat) : Fld := ⟨R.FB_CMP_VALF n k, 15, 0⟩
def FB_CMP_STEP_STEP (n k : Nat) : Fld := ⟨R.FB_CMP_STEP n k, 31, 0⟩
def EMU_CFG_DRV (n : Nat) : Fld := ⟨R.EMU_CFG n, 31, 31⟩
def EMU_CFG_WSRC (n : Nat) : Fld := ⟨R.EMU_CFG n, 30, 30⟩
def EMU_CFG_SRC (n : Nat) : Fld := ⟨R.EMU_CFG n, 28, 24⟩
def EMU_CFG_INV (n : Nat) : Fld := ⟨R.EMU_CFG n, 23, 23⟩
def EMU_CTL_RESYNC (n : Nat) : Fld := ⟨R.EMU_CTL n, 1, 1⟩
def EMU_CTL_EN (n : Nat) : Fld := ⟨R.EMU_CTL n, 0, 0⟩
def EMU_RATIO_N (n : Nat) : Fld := ⟨R.EMU_RATIO n, 31, 16⟩
def EMU_RATIO_M (n : Nat) : Fld := ⟨R.EMU_RATIO n, 15, 0⟩
def EMU_MSP_MSP (n : Nat) : Fld := ⟨R.EMU_MSP n, 15, 0⟩
def EMU_OFS_OFS (n : Nat) : Fld := ⟨R.EMU_OFS n, 31, 0⟩
def EMU_ZPOS_ZPOS (n : Nat) : Fld := ⟨R.EMU_ZPOS n, 31, 0⟩
def EMU_ZPER_ZPER (n : Nat) : Fld := ⟨R.EMU_ZPER n, 31, 0⟩
def EMU_WPOS_COUNT (n : Nat) : Fld := ⟨R.EMU_WPOS n, 31, 0⟩
def EMU_WPOSF_FRAC (n : Nat) : Fld := ⟨R.EMU_WPOSF n, 15, 0⟩
def EMU_OUT_O (n : Nat) : Fld := ⟨R.EMU_OUT n, 31, 0⟩
def EMU_STAT_LAG (n : Nat) : Fld := ⟨R.EMU_STAT n, 31, 16⟩
def EMU_STAT_CFGERR (n : Nat) : Fld := ⟨R.EMU_STAT n, 1, 1⟩
def EMU_STAT_LAGF (n : Nat) : Fld := ⟨R.EMU_STAT n, 0, 0⟩
def FG_CFG_FB (n : Nat) : Fld := ⟨R.FG_CFG n, 28, 24⟩
def FG_CFG_SKIP (n : Nat) : Fld := ⟨R.FG_CFG n, 23, 23⟩
def FG_CTL_ARM (n : Nat) : Fld := ⟨R.FG_CTL n, 2, 2⟩
def FG_CTL_STOP (n : Nat) : Fld := ⟨R.FG_CTL n, 1, 1⟩
def FG_CTL_EN (n : Nat) : Fld := ⟨R.FG_CTL n, 0, 0⟩
def FG_STAT_SHOVF (n : Nat) : Fld := ⟨R.FG_STAT n, 11, 11⟩
def FG_STAT_CFGERR (n : Nat) : Fld := ⟨R.FG_STAT n, 10, 10⟩
def FG_STAT_ARMERR (n : Nat) : Fld := ⟨R.FG_STAT n, 9, 9⟩
def FG_STAT_LATE (n : Nat) : Fld := ⟨R.FG_STAT n, 8, 8⟩
def FG_STAT_PRED (n : Nat) : Fld := ⟨R.FG_STAT n, 4, 4⟩
def FG_STAT_DIRA (n : Nat) : Fld := ⟨R.FG_STAT n, 3, 3⟩
def FG_STAT_PEND (n : Nat) : Fld := ⟨R.FG_STAT n, 2, 2⟩
def FG_STAT_RUN (n : Nat) : Fld := ⟨R.FG_STAT n, 1, 1⟩
def FG_LEAD_MINL (n : Nat) : Fld := ⟨R.FG_LEAD n, 31, 16⟩
def FG_LEAD_LKA (n : Nat) : Fld := ⟨R.FG_LEAD n, 15, 0⟩
def FG_PITCH_PITCH (n : Nat) : Fld := ⟨R.FG_PITCH n, 31, 0⟩
def FG_XSF_FRAC (n : Nat) : Fld := ⟨R.FG_XSF n, 31, 8⟩
def FG_XSC_COUNT (n : Nat) : Fld := ⟨R.FG_XSC n, 31, 0⟩
def FG_NCOL_NCOL (n : Nat) : Fld := ⟨R.FG_NCOL n, 31, 0⟩
def FG_PASS_DIR (n : Nat) : Fld := ⟨R.FG_PASS n, 31, 31⟩
def FG_PASS_WSEL (n : Nat) : Fld := ⟨R.FG_PASS n, 2, 0⟩
def FG_BOFS_BOFS (n : Nat) : Fld := ⟨R.FG_BOFS n, 31, 0⟩
def FG_FIDX_FIDX (n : Nat) : Fld := ⟨R.FG_FIDX n, 31, 0⟩
def FG_NXC_COUNT (n : Nat) : Fld := ⟨R.FG_NXC n, 31, 0⟩
def FG_NXF_FRAC (n : Nat) : Fld := ⟨R.FG_NXF n, 31, 8⟩
def FG_LSTL_TICK (n : Nat) : Fld := ⟨R.FG_LSTL n, 31, 0⟩
def FG_LSTH_TICK (n : Nat) : Fld := ⟨R.FG_LSTH n, 31, 0⟩
def FG_LSTF_FINE (n : Nat) : Fld := ⟨R.FG_LSTF n, 5, 0⟩
def FG_CNT_LCNT (n : Nat) : Fld := ⟨R.FG_CNT n, 15, 8⟩
def FG_CNT_DROP (n : Nat) : Fld := ⟨R.FG_CNT n, 7, 0⟩
def FG_PNUM_PNUM (n : Nat) : Fld := ⟨R.FG_PNUM n, 15, 0⟩
def FG_WSEL_WOVR (n : Nat) : Fld := ⟨R.FG_WSEL n, 3, 3⟩
def FG_WSEL_WSEL (n : Nat) : Fld := ⟨R.FG_WSEL n, 2, 0⟩
def HC_CFG_EN (n : Nat) : Fld := ⟨R.HC_CFG n, 31, 31⟩
def HC_CFG_FG (n : Nat) : Fld := ⟨R.HC_CFG n, 30, 27⟩
def HC_CFG_LANE (n : Nat) : Fld := ⟨R.HC_CFG n, 26, 24⟩
def HC_CFG_CH (n : Nat) : Fld := ⟨R.HC_CFG n, 23, 16⟩
def HC_CFG_NGR (n : Nat) : Fld := ⟨R.HC_CFG n, 15, 11⟩
def HC_CFG_AHEAD (n : Nat) : Fld := ⟨R.HC_CFG n, 10, 7⟩
def HC_BASE_BASE (n : Nat) : Fld := ⟨R.HC_BASE n, 31, 5⟩
def HC_NSLOT_NSLOT (n : Nat) : Fld := ⟨R.HC_NSLOT n, 15, 0⟩
def HC_CSH_CSH (n : Nat) : Fld := ⟨R.HC_CSH n, 15, 0⟩
def HC_FOFS_FOFS (n : Nat) : Fld := ⟨R.HC_FOFS n, 31, 0⟩
def HC_WCOL_WCOL (n : Nat) : Fld := ⟨R.HC_WCOL n, 31, 0⟩
def HC_RCOL_RCOL (n : Nat) : Fld := ⟨R.HC_RCOL n, 31, 0⟩
def HC_WINC_WINC (n : Nat) : Fld := ⟨R.HC_WINC n, 15, 0⟩
def HC_STAT_UNDR (n : Nat) : Fld := ⟨R.HC_STAT n, 31, 24⟩
def HC_STAT_QDROP (n : Nat) : Fld := ⟨R.HC_STAT n, 23, 16⟩
def HC_STAT_PSN (n : Nat) : Fld := ⟨R.HC_STAT n, 15, 8⟩
def HC_STAT_CFGERR (n : Nat) : Fld := ⟨R.HC_STAT n, 1, 1⟩
def LQ_MRG_MRG (n : Nat) : Fld := ⟨R.LQ_MRG n, 15, 0⟩
def LQ_STAT_FILL (n : Nat) : Fld := ⟨R.LQ_STAT n, 20, 10⟩
def LQ_STAT_LATE (n : Nat) : Fld := ⟨R.LQ_STAT n, 7, 0⟩
def FA_ESRC_QHC : Fld := ⟨R.FA_ESRC, 13, 8⟩
def FA_ESRC_UHC : Fld := ⟨R.FA_ESRC, 5, 0⟩
def EV_CTL_LOCK (n : Nat) : Fld := ⟨R.EV_CTL n, 1, 1⟩
def EV_CTL_EN (n : Nat) : Fld := ⟨R.EV_CTL n, 0, 0⟩
def EV_SW_SWT (n : Nat) : Fld := ⟨R.EV_SW n, 0, 0⟩
def EV_SRC_KIND (n : Nat) : Fld := ⟨R.EV_SRC n, 31, 24⟩
def EV_SRC_INST (n : Nat) : Fld := ⟨R.EV_SRC n, 23, 8⟩
def EV_SRC_EVT (n : Nat) : Fld := ⟨R.EV_SRC n, 3, 0⟩
def EV_STAT_LAT (n : Nat) : Fld := ⟨R.EV_STAT n, 11, 8⟩
def EV_STAT_HOP (n : Nat) : Fld := ⟨R.EV_STAT n, 6, 4⟩
def EV_STAT_CFGERR (n : Nat) : Fld := ⟨R.EV_STAT n, 0, 0⟩
def EV_CNT_CNT (n : Nat) : Fld := ⟨R.EV_CNT n, 15, 0⟩
def EV_DST_V (n k : Nat) : Fld := ⟨R.EV_DST n k, 31, 31⟩
def EV_DST_KIND (n k : Nat) : Fld := ⟨R.EV_DST n k, 30, 24⟩
def EV_DST_INST (n k : Nat) : Fld := ⟨R.EV_DST n k, 23, 8⟩
def EV_DST_INP (n k : Nat) : Fld := ⟨R.EV_DST n k, 7, 0⟩
def UC_ID_ROMREV (n : Nat) : Fld := ⟨R.UC_ID n, 31, 16⟩
def UC_ID_FORM (n : Nat) : Fld := ⟨R.UC_ID n, 1, 0⟩
def UC_STAT_PERRC (n : Nat) : Fld := ⟨R.UC_STAT n, 31, 24⟩
def UC_STAT_NMATCH (n : Nat) : Fld := ⟨R.UC_STAT n, 20, 16⟩
def UC_STAT_MPERR (n : Nat) : Fld := ⟨R.UC_STAT n, 2, 2⟩
def UC_STAT_PERR (n : Nat) : Fld := ⟨R.UC_STAT n, 1, 1⟩
def UC_STAT_LOADED (n : Nat) : Fld := ⟨R.UC_STAT n, 0, 0⟩
def UC_MATCH_EN (n k : Nat) : Fld := ⟨R.UC_MATCH n k, 31, 31⟩
def UC_MATCH_KIND (n k : Nat) : Fld := ⟨R.UC_MATCH n k, 30, 30⟩
def UC_MATCH_IDX (n k : Nat) : Fld := ⟨R.UC_MATCH n k, 21, 16⟩
def UC_MATCH_ADDR (n k : Nat) : Fld := ⟨R.UC_MATCH n k, 10, 0⟩
def SUM_RG_MEC_UNC (n k : Nat) : Fld := ⟨R.SUM_RG_MEC n k, 31, 16⟩
def SUM_RG_MEC_CORR (n k : Nat) : Fld := ⟨R.SUM_RG_MEC n k, 15, 0⟩
def SUM_RG_MUA_ADDR (n k : Nat) : Fld := ⟨R.SUM_RG_MUA n k, 31, 5⟩
def SUM_RG_MCA_ADDR (n k : Nat) : Fld := ⟨R.SUM_RG_MCA n k, 31, 5⟩
def SUM_DS_MEC_UNC (n : Nat) : Fld := ⟨R.SUM_DS_MEC n, 31, 16⟩
def SUM_DS_MEC_CORR (n : Nat) : Fld := ⟨R.SUM_DS_MEC n, 15, 0⟩
def SUM_DS_MUA_ADDR (n : Nat) : Fld := ⟨R.SUM_DS_MUA n, 31, 5⟩
def SUM_DS_MCA_ADDR (n : Nat) : Fld := ⟨R.SUM_DS_MCA n, 31, 5⟩
def SUM_SCR_CTL_RATE (n : Nat) : Fld := ⟨R.SUM_SCR_CTL n, 4, 1⟩
def SUM_SCR_CTL_EN (n : Nat) : Fld := ⟨R.SUM_SCR_CTL n, 0, 0⟩
def SUM_SCR_STAT_PASS (n : Nat) : Fld := ⟨R.SUM_SCR_STAT n, 31, 16⟩
def SUM_SCR_STAT_CANC (n : Nat) : Fld := ⟨R.SUM_SCR_STAT n, 1, 1⟩
def SUM_SCR_POS_ADDR (n : Nat) : Fld := ⟨R.SUM_SCR_POS n, 31, 5⟩
def IC_CTL_LOCK (n : Nat) : Fld := ⟨R.IC_CTL n, 1, 1⟩
def IC_CTL_GDIS (n : Nat) : Fld := ⟨R.IC_CTL n, 0, 0⟩
def IC_STAT_NDUE (n : Nat) : Fld := ⟨R.IC_STAT n, 26, 16⟩
def IC_STAT_CFGERR (n : Nat) : Fld := ⟨R.IC_STAT n, 0, 0⟩
def IC_EMSKL_M (n k : Nat) : Fld := ⟨R.IC_EMSKL n k, 31, 0⟩
def IC_EMSKH_M (n k : Nat) : Fld := ⟨R.IC_EMSKH n k, 31, 0⟩
def IC_SET_T_V (n s k : Nat) : Fld := ⟨R.IC_SET_T n s k, 31, 31⟩
def IC_SET_T_ENG (n s k : Nat) : Fld := ⟨R.IC_SET_T n s k, 29, 22⟩
def IC_SET_T_TASK (n s k : Nat) : Fld := ⟨R.IC_SET_T n s k, 21, 16⟩
def IC_SET_CTL_WQ (n k : Nat) : Fld := ⟨R.IC_SET_CTL n k, 31, 31⟩
def IC_SET_CTL_PTR (n k : Nat) : Fld := ⟨R.IC_SET_CTL n k, 2, 0⟩
def IC_SET_LAST_SRC (n k : Nat) : Fld := ⟨R.IC_SET_LAST n k, 25, 16⟩
def IC_SET_LAST_TOUT (n k : Nat) : Fld := ⟨R.IC_SET_LAST n k, 8, 8⟩
def IC_SET_LAST_CNT (n k : Nat) : Fld := ⟨R.IC_SET_LAST n k, 7, 0⟩
def IC_SRC_CFG_EN (n k : Nat) : Fld := ⟨R.IC_SRC_CFG n k, 31, 31⟩
def IC_SRC_CFG_SET (n k : Nat) : Fld := ⟨R.IC_SRC_CFG n k, 29, 24⟩
def IC_SRC_CFG_CCNT (n k : Nat) : Fld := ⟨R.IC_SRC_CFG n k, 23, 16⟩
def IC_SRC_CFG_CTIM (n k : Nat) : Fld := ⟨R.IC_SRC_CFG n k, 15, 0⟩
def IC_SRC_STAT_PEND (n k : Nat) : Fld := ⟨R.IC_SRC_STAT n k, 31, 31⟩
def IC_SRC_STAT_DUE (n k : Nat) : Fld := ⟨R.IC_SRC_STAT n k, 30, 30⟩
def IC_SRC_STAT_SAT (n k : Nat) : Fld := ⟨R.IC_SRC_STAT n k, 29, 29⟩
def IC_SRC_STAT_CNT (n k : Nat) : Fld := ⟨R.IC_SRC_STAT n k, 7, 0⟩
def IC_SRC_CMD_CLR (n k : Nat) : Fld := ⟨R.IC_SRC_CMD n k, 1, 1⟩
def IC_SRC_CMD_SWS (n k : Nat) : Fld := ⟨R.IC_SRC_CMD n k, 0, 0⟩
def DM_CFG_SPORT (n : Nat) : Fld := ⟨R.DM_CFG n, 31, 31⟩
def DM_CFG_PKIND (n : Nat) : Fld := ⟨R.DM_CFG n, 30, 29⟩
def DM_CFG_PINST (n : Nat) : Fld := ⟨R.DM_CFG n, 28, 23⟩
def DM_CTL_ABORT (n : Nat) : Fld := ⟨R.DM_CTL n, 2, 2⟩
def DM_CTL_HALT (n : Nat) : Fld := ⟨R.DM_CTL n, 1, 1⟩
def DM_CTL_RUN (n : Nat) : Fld := ⟨R.DM_CTL n, 0, 0⟩
def DM_STAT_STATE (n : Nat) : Fld := ⟨R.DM_STAT n, 18, 16⟩
def DM_STAT_LSTS (n : Nat) : Fld := ⟨R.DM_STAT n, 8, 6⟩
def DM_STAT_CFGERR (n : Nat) : Fld := ⟨R.DM_STAT n, 5, 5⟩
def DM_STAT_DPSN (n : Nat) : Fld := ⟨R.DM_STAT n, 4, 4⟩
def DM_STAT_ERR (n : Nat) : Fld := ⟨R.DM_STAT n, 3, 3⟩
def DM_STAT_EMPTY (n : Nat) : Fld := ⟨R.DM_STAT n, 2, 2⟩
def DM_STAT_RPEND (n : Nat) : Fld := ⟨R.DM_STAT n, 1, 1⟩
def DM_RBASE_BASE (n : Nat) : Fld := ⟨R.DM_RBASE n, 31, 5⟩
def DM_RLEN_RLEN (n : Nat) : Fld := ⟨R.DM_RLEN n, 11, 0⟩
def DM_IDX_IDX (n : Nat) : Fld := ⟨R.DM_IDX n, 11, 0⟩
def DM_PROG_I0 (n : Nat) : Fld := ⟨R.DM_PROG n, 31, 20⟩
def DM_PROG_I1 (n : Nat) : Fld := ⟨R.DM_PROG n, 19, 10⟩
def DM_PROG_I2 (n : Nat) : Fld := ⟨R.DM_PROG n, 9, 0⟩
def DM_PACE_PSTART (n : Nat) : Fld := ⟨R.DM_PACE n, 31, 16⟩
def DM_PACE_PSTOP (n : Nat) : Fld := ⟨R.DM_PACE n, 15, 0⟩
def DM_PTMO_PTMO (n : Nat) : Fld := ⟨R.DM_PTMO n, 15, 0⟩
def DM_CNT_CNT (n : Nat) : Fld := ⟨R.DM_CNT n, 15, 0⟩
def CV_CFG_CLASS (n : Nat) : Fld := ⟨R.CV_CFG n, 31, 31⟩
def CV_CFG_REFIN (n : Nat) : Fld := ⟨R.CV_CFG n, 30, 30⟩
def CV_CFG_REFOUT (n : Nat) : Fld := ⟨R.CV_CFG n, 29, 29⟩
def CV_CFG_ACHK (n : Nat) : Fld := ⟨R.CV_CFG n, 28, 28⟩
def CV_CFG_ALVW (n : Nat) : Fld := ⟨R.CV_CFG n, 27, 27⟩
def CV_CFG_EXPO (n : Nat) : Fld := ⟨R.CV_CFG n, 26, 26⟩
def CV_CFG_IRQE (n : Nat) : Fld := ⟨R.CV_CFG n, 25, 25⟩
def CV_CFG_ALVPOS (n : Nat) : Fld := ⟨R.CV_CFG n, 24, 16⟩
def CV_CFG_WIDTH (n : Nat) : Fld := ⟨R.CV_CFG n, 5, 0⟩
def CV_POLY_POLY (n : Nat) : Fld := ⟨R.CV_POLY n, 31, 0⟩
def CV_INIT_INIT (n : Nat) : Fld := ⟨R.CV_INIT n, 31, 0⟩
def CV_XOR_XOR (n : Nat) : Fld := ⟨R.CV_XOR n, 31, 0⟩
def CV_CTL_END (n : Nat) : Fld := ⟨R.CV_CTL n, 3, 3⟩
def CV_CTL_START (n : Nat) : Fld := ⟨R.CV_CTL n, 2, 2⟩
def CV_CTL_DW (n : Nat) : Fld := ⟨R.CV_CTL n, 1, 0⟩
def CV_DATA_D (n : Nat) : Fld := ⟨R.CV_DATA n, 31, 0⟩
def CV_RUN_C (n : Nat) : Fld := ⟨R.CV_RUN n, 31, 0⟩
def CV_RES_RES (n : Nat) : Fld := ⟨R.CV_RES n, 31, 0⟩
def CV_EXP_EXP (n : Nat) : Fld := ⟨R.CV_EXP n, 31, 0⟩
def CV_ALV_BPOS (n : Nat) : Fld := ⟨R.CV_ALV n, 31, 16⟩
def CV_ALV_V (n : Nat) : Fld := ⟨R.CV_ALV n, 8, 8⟩
def CV_ALV_LAST (n : Nat) : Fld := ⟨R.CV_ALV n, 7, 0⟩
def CV_STAT_CRCERR (n : Nat) : Fld := ⟨R.CV_STAT n, 31, 24⟩
def CV_STAT_ALVERR (n : Nat) : Fld := ⟨R.CV_STAT n, 23, 16⟩
def CV_STAT_SEQERR (n : Nat) : Fld := ⟨R.CV_STAT n, 5, 5⟩
def CV_STAT_OPEN (n : Nat) : Fld := ⟨R.CV_STAT n, 4, 4⟩
def CV_STAT_AV (n : Nat) : Fld := ⟨R.CV_STAT n, 3, 2⟩
def CV_STAT_CM (n : Nat) : Fld := ⟨R.CV_STAT n, 1, 1⟩
def BOOT_STATUS_STATE : Fld := ⟨R.BOOT_STATUS, 31, 30⟩
def BOOT_STATUS_SRC : Fld := ⟨R.BOOT_STATUS, 23, 16⟩
def BOOT_STATUS_KSLOT : Fld := ⟨R.BOOT_STATUS, 15, 8⟩
def BOOT_STATUS_CAUSE : Fld := ⟨R.BOOT_STATUS, 7, 0⟩
def BOOT_INFO_SECT : Fld := ⟨R.BOOT_INFO, 31, 24⟩
def BOOT_INFO_OFS : Fld := ⟨R.BOOT_INFO, 23, 0⟩
def BOOT_RESET_PREV : Fld := ⟨R.BOOT_RESET, 7, 6⟩
def BOOT_RESET_CAUSE : Fld := ⟨R.BOOT_RESET, 3, 0⟩
def BOOT_KEYS_ELOCK : Fld := ⟨R.BOOT_KEYS, 8, 8⟩
def BOOT_KEYS_SLOTS : Fld := ⟨R.BOOT_KEYS, 7, 0⟩
def BOOT_SERL_SER : Fld := ⟨R.BOOT_SERL, 31, 0⟩
def BOOT_SERH_SER : Fld := ⟨R.BOOT_SERH, 31, 0⟩
def BOOT_IMGVER_V : Fld := ⟨R.BOOT_IMGVER, 31, 0⟩
def BOOT_TSTL_TICK : Fld := ⟨R.BOOT_TSTL, 31, 0⟩
def BOOT_TSTH_TICK : Fld := ⟨R.BOOT_TSTH, 31, 0⟩
def BOOT_MINVER_V : Fld := ⟨R.BOOT_MINVER, 31, 0⟩
def BOOT_HASH_B (k : Nat) : Fld := ⟨R.BOOT_HASH k, 31, 0⟩
def BOOT_IDK_B (k : Nat) : Fld := ⟨R.BOOT_IDK k, 31, 0⟩
def FL_CMD_OP : Fld := ⟨R.FL_CMD, 3, 0⟩
def FL_ADDR_HIGH : Fld := ⟨R.FL_ADDR, 31, 26⟩
def FL_ADDR_OFS : Fld := ⟨R.FL_ADDR, 25, 0⟩
def FL_STAT_BUSY : Fld := ⟨R.FL_STAT, 31, 31⟩
def FL_STAT_OP : Fld := ⟨R.FL_STAT, 27, 24⟩
def FL_STAT_NPUL : Fld := ⟨R.FL_STAT, 23, 16⟩
def FL_STAT_RES : Fld := ⟨R.FL_STAT, 15, 8⟩
def FL_STAT_CBUSY : Fld := ⟨R.FL_STAT, 1, 1⟩
def FL_STAT_DONE : Fld := ⟨R.FL_STAT, 0, 0⟩
def FL_PROT_LOCK : Fld := ⟨R.FL_PROT, 4, 4⟩
def FL_PROT_SEL : Fld := ⟨R.FL_PROT, 3, 3⟩
def FL_PROT_UA : Fld := ⟨R.FL_PROT, 2, 2⟩
def FL_PROT_IMG : Fld := ⟨R.FL_PROT, 1, 1⟩
def FL_PROT_BB : Fld := ⟨R.FL_PROT, 0, 0⟩
def FL_SEL_VALID : Fld := ⟨R.FL_SEL, 31, 31⟩
def FL_SEL_FREE : Fld := ⟨R.FL_SEL, 29, 20⟩
def FL_SEL_GEN : Fld := ⟨R.FL_SEL, 19, 10⟩
def FL_SEL_SLOT : Fld := ⟨R.FL_SEL, 8, 8⟩
def FL_SEL_BB : Fld := ⟨R.FL_SEL, 0, 0⟩
def FL_PINTA_GRAN : Fld := ⟨R.FL_PINTA, 25, 5⟩
def FL_PINTA_V : Fld := ⟨R.FL_PINTA, 0, 0⟩
def FL_DATA_D (k : Nat) : Fld := ⟨R.FL_DATA k, 31, 0⟩
def FL_SST_ST (k : Nat) : Fld := ⟨R.FL_SST k, 31, 0⟩
def GL_CFG_ROLE (n : Nat) : Fld := ⟨R.GL_CFG n, 31, 30⟩
def GL_CFG_CVEN (n : Nat) : Fld := ⟨R.GL_CFG n, 29, 29⟩
def GL_CFG_CVU (n : Nat) : Fld := ⟨R.GL_CFG n, 28, 24⟩
def GL_CFG_SYNCTO (n : Nat) : Fld := ⟨R.GL_CFG n, 23, 16⟩
def GL_CFG_TXINV (n : Nat) : Fld := ⟨R.GL_CFG n, 15, 15⟩
def GL_CFG_RXINV (n : Nat) : Fld := ⟨R.GL_CFG n, 14, 14⟩
def GL_CTL_RESYNC (n : Nat) : Fld := ⟨R.GL_CTL n, 1, 1⟩
def GL_CTL_EN (n : Nat) : Fld := ⟨R.GL_CTL n, 0, 0⟩
def GL_STAT_LSTATE (n : Nat) : Fld := ⟨R.GL_STAT n, 26, 24⟩
def GL_STAT_RXFILL (n : Nat) : Fld := ⟨R.GL_STAT n, 16, 10⟩
def GL_STAT_TXERR (n : Nat) : Fld := ⟨R.GL_STAT n, 9, 9⟩
def GL_STAT_TXBUSY (n : Nat) : Fld := ⟨R.GL_STAT n, 8, 8⟩
def GL_STAT_RXOVF (n : Nat) : Fld := ⟨R.GL_STAT n, 3, 3⟩
def GL_STAT_SLOST (n : Nat) : Fld := ⟨R.GL_STAT n, 2, 2⟩
def GL_STAT_TV (n : Nat) : Fld := ⟨R.GL_STAT n, 1, 1⟩
def GL_STAT_TXRDY (n : Nat) : Fld := ⟨R.GL_STAT n, 0, 0⟩
def GL_ERR0_HCRC (n : Nat) : Fld := ⟨R.GL_ERR0 n, 31, 24⟩
def GL_ERR0_PSN (n : Nat) : Fld := ⟨R.GL_ERR0 n, 23, 16⟩
def GL_ERR0_SEQG (n : Nat) : Fld := ⟨R.GL_ERR0 n, 15, 8⟩
def GL_ERR0_UNEXP (n : Nat) : Fld := ⟨R.GL_ERR0 n, 7, 0⟩
def GL_ERR1_FECC (n : Nat) : Fld := ⟨R.GL_ERR1 n, 31, 16⟩
def GL_ERR1_FECU (n : Nat) : Fld := ⟨R.GL_ERR1 n, 15, 8⟩
def GL_ERR1_LOL (n : Nat) : Fld := ⟨R.GL_ERR1 n, 7, 0⟩
def GL_CORR_CORR (n : Nat) : Fld := ⟨R.GL_CORR n, 15, 0⟩
def GL_DLY_DLY (n : Nat) : Fld := ⟨R.GL_DLY n, 31, 0⟩
def GL_OFSL_OFS (n : Nat) : Fld := ⟨R.GL_OFSL n, 31, 0⟩
def GL_OFSH_OFS (n : Nat) : Fld := ⟨R.GL_OFSH n, 31, 0⟩
def GL_SNUM_RSN (n : Nat) : Fld := ⟨R.GL_SNUM n, 15, 8⟩
def GL_SNUM_TSN (n : Nat) : Fld := ⟨R.GL_SNUM n, 7, 0⟩
def GL_TXW_W (n k : Nat) : Fld := ⟨R.GL_TXW n k, 31, 0⟩
def GL_TXH_TYPE (n : Nat) : Fld := ⟨R.GL_TXH n, 31, 28⟩
def GL_TXH_CH (n : Nat) : Fld := ⟨R.GL_TXH n, 27, 20⟩
def GL_TXH_LF (n : Nat) : Fld := ⟨R.GL_TXH n, 11, 0⟩
def GL_RXW_W (n k : Nat) : Fld := ⟨R.GL_RXW n k, 31, 0⟩
def GL_RXH_H (n : Nat) : Fld := ⟨R.GL_RXH n, 31, 0⟩
def GL_RXS_V (n : Nat) : Fld := ⟨R.GL_RXS n, 31, 31⟩
def GL_RXS_CM (n : Nat) : Fld := ⟨R.GL_RXS n, 30, 30⟩
def GL_RXS_AV (n : Nat) : Fld := ⟨R.GL_RXS n, 29, 28⟩
def HP_CFG_AN : Fld := ⟨R.HP_CFG, 31, 31⟩
def HP_CFG_RSTEN : Fld := ⟨R.HP_CFG, 30, 30⟩
def HP_CFG_SESTO : Fld := ⟨R.HP_CFG, 23, 16⟩
def HP_CFG_MBTO : Fld := ⟨R.HP_CFG, 15, 0⟩
def HP_STAT_LINK : Fld := ⟨R.HP_STAT, 31, 31⟩
def HP_STAT_LANE : Fld := ⟨R.HP_STAT, 30, 30⟩
def HP_STAT_NSESS : Fld := ⟨R.HP_STAT, 29, 27⟩
def HP_STAT_MBFILL : Fld := ⟨R.HP_STAT, 26, 22⟩
def HP_STAT_MBERR : Fld := ⟨R.HP_STAT, 0, 0⟩
def HP_CNT0_FCS : Fld := ⟨R.HP_CNT0, 31, 24⟩
def HP_CNT0_DISC : Fld := ⟨R.HP_CNT0, 23, 16⟩
def HP_CNT0_ACL : Fld := ⟨R.HP_CNT0, 15, 8⟩
def HP_CNT0_MBTO : Fld := ⟨R.HP_CNT0, 7, 0⟩
def HP_MACL_MAC : Fld := ⟨R.HP_MACL, 31, 0⟩
def HP_MACH_MAC : Fld := ⟨R.HP_MACH, 15, 0⟩
def HP_IPA_IP : Fld := ⟨R.HP_IPA, 31, 0⟩
def HP_ACLA_A : Fld := ⟨R.HP_ACLA, 31, 0⟩
def HP_ACLM_M : Fld := ⟨R.HP_ACLM, 31, 0⟩
def HP_WBUF_BASE : Fld := ⟨R.HP_WBUF, 31, 5⟩
def HP_WBSZ_SZ : Fld := ⟨R.HP_WBSZ, 15, 0⟩
def HP_MBCFG_EN : Fld := ⟨R.HP_MBCFG, 31, 31⟩
def HP_MBCFG_ENG : Fld := ⟨R.HP_MBCFG, 29, 22⟩
def HP_MBCFG_TASK : Fld := ⟨R.HP_MBCFG, 21, 16⟩
def HP_MBS_V : Fld := ⟨R.HP_MBS, 31, 31⟩
def HP_MBS_LEN : Fld := ⟨R.HP_MBS, 24, 16⟩
def HP_MBS_TAG : Fld := ⟨R.HP_MBS, 15, 0⟩
def HP_MBRC_TSTAT : Fld := ⟨R.HP_MBRC, 31, 16⟩
def HP_MBRC_TAG : Fld := ⟨R.HP_MBRC, 15, 0⟩
def HP_MBD_D (k : Nat) : Fld := ⟨R.HP_MBD k, 31, 0⟩
def HP_MBR_D (k : Nat) : Fld := ⟨R.HP_MBR k, 31, 0⟩
def SP_CFG_STRIPE : Fld := ⟨R.SP_CFG, 31, 31⟩
def SP_CFG_NB : Fld := ⟨R.SP_CFG, 19, 16⟩
def SP_CFG_TMO : Fld := ⟨R.SP_CFG, 15, 0⟩
def SP_RB_BASE (k : Nat) : Fld := ⟨R.SP_RB k, 31, 18⟩
def PE_STAT_STATE (n : Nat) : Fld := ⟨R.PE_STAT n, 31, 29⟩
def PE_STAT_GEN (n : Nat) : Fld := ⟨R.PE_STAT n, 28, 26⟩
def PE_STAT_WIDTH (n : Nat) : Fld := ⟨R.PE_STAT n, 25, 23⟩
def PE_STAT_LBA4K (n : Nat) : Fld := ⟨R.PE_STAT n, 0, 0⟩
def PE_CAP_CAP (n : Nat) : Fld := ⟨R.PE_CAP n, 31, 0⟩
def PE_CTL_REINIT (n : Nat) : Fld := ⟨R.PE_CTL n, 0, 0⟩
def PE_CNT_TOUT (n : Nat) : Fld := ⟨R.PE_CNT n, 31, 24⟩
def PE_CNT_CERR (n : Nat) : Fld := ⟨R.PE_CNT n, 23, 16⟩
def PE_HLTH_CW (n : Nat) : Fld := ⟨R.PE_HLTH n, 31, 24⟩
def PE_HLTH_PUSED (n : Nat) : Fld := ⟨R.PE_HLTH n, 23, 16⟩
def PE_HLTH_TEMP (n : Nat) : Fld := ⟨R.PE_HLTH n, 15, 0⟩
def JOB_CTL_STATE (n : Nat) : Fld := ⟨R.JOB_CTL n, 31, 30⟩
def JOB_CTL_TRIM (n : Nat) : Fld := ⟨R.JOB_CTL n, 29, 29⟩
def JOB_CTL_JERR (n : Nat) : Fld := ⟨R.JOB_CTL n, 28, 28⟩
def JOB_CTL_NX (n : Nat) : Fld := ⟨R.JOB_CTL n, 4, 0⟩
def JOB_LENL_LEN (n : Nat) : Fld := ⟨R.JOB_LENL n, 31, 0⟩
def JOB_LENH_LEN (n : Nat) : Fld := ⟨R.JOB_LENH n, 31, 0⟩
def JOB_XS_START (n k : Nat) : Fld := ⟨R.JOB_XS n k, 31, 0⟩
def JOB_XL_LEN (n k : Nat) : Fld := ⟨R.JOB_XL n k, 31, 0⟩
def CL_CFG_EN (n : Nat) : Fld := ⟨R.CL_CFG n, 31, 31⟩
def CL_CFG_LKD (n : Nat) : Fld := ⟨R.CL_CFG n, 30, 30⟩
def CL_CFG_SPV (n : Nat) : Fld := ⟨R.CL_CFG n, 29, 29⟩
def CL_CFG_SPARE (n : Nat) : Fld := ⟨R.CL_CFG n, 26, 24⟩
def CL_CFG_HBEN (n : Nat) : Fld := ⟨R.CL_CFG n, 23, 16⟩
def CL_HBW_HBW (n : Nat) : Fld := ⟨R.CL_HBW n, 16, 0⟩
def CL_CKP_CKP (n : Nat) : Fld := ⟨R.CL_CKP n, 31, 0⟩
def CL_CKB_OFS (n : Nat) : Fld := ⟨R.CL_CKB n, 19, 5⟩
def CL_STAT_TKO (n : Nat) : Fld := ⟨R.CL_STAT n, 31, 31⟩
def CL_STAT_NOSP (n : Nat) : Fld := ⟨R.CL_STAT n, 30, 30⟩
def CL_STAT_DCAUSE (n : Nat) : Fld := ⟨R.CL_STAT n, 29, 29⟩
def CL_STAT_DEAD (n : Nat) : Fld := ⟨R.CL_STAT n, 26, 24⟩
def CL_STAT_LOCK (n : Nat) : Fld := ⟨R.CL_STAT n, 23, 16⟩
def CL_STAT_ISO (n : Nat) : Fld := ⟨R.CL_STAT n, 15, 8⟩
def CL_DTICK_TICK (n : Nat) : Fld := ⟨R.CL_DTICK n, 31, 0⟩
def CL_HB_KICK (n k : Nat) : Fld := ⟨R.CL_HB n k, 31, 0⟩
def PV_CFG_PAIR : Fld := ⟨R.PV_CFG, 31, 31⟩
def PV_CFG_PREF : Fld := ⟨R.PV_CFG, 30, 30⟩
def PV_CFG_HOLD : Fld := ⟨R.PV_CFG, 15, 0⟩
def PV_CKCL_CL : Fld := ⟨R.PV_CKCL, 31, 0⟩
def PV_STAT_ROLE : Fld := ⟨R.PV_STAT, 31, 30⟩
def PV_STAT_PERM : Fld := ⟨R.PV_STAT, 29, 29⟩
def PV_STAT_FENCED : Fld := ⟨R.PV_STAT, 28, 28⟩
def PV_STAT_EVER : Fld := ⟨R.PV_STAT, 27, 27⟩
def PV_STAT_PIN : Fld := ⟨R.PV_STAT, 26, 26⟩
def PV_STAT_POUT : Fld := ⟨R.PV_STAT, 25, 25⟩
def PV_EPOCH_EPOCH : Fld := ⟨R.PV_EPOCH, 31, 0⟩
def PV_PDTICK_TICK : Fld := ⟨R.PV_PDTICK, 31, 0⟩
def PV_CNT_RDROP : Fld := ⟨R.PV_CNT, 31, 24⟩
def PV_CNT_WDRAW : Fld := ⟨R.PV_CNT, 23, 16⟩
def PV_CTL_RESEND : Fld := ⟨R.PV_CTL, 1, 1⟩
def PV_CTL_TRST : Fld := ⟨R.PV_CTL, 0, 0⟩
def PW_CTL_KEY : Fld := ⟨R.PW_CTL, 31, 16⟩
def PW_CTL_SLEEP : Fld := ⟨R.PW_CTL, 0, 0⟩
def PW_STAT_SLPREF : Fld := ⟨R.PW_STAT, 0, 0⟩
def PW_DOZE_DLY : Fld := ⟨R.PW_DOZE, 31, 16⟩
def PW_DOZE_EN : Fld := ⟨R.PW_DOZE, 7, 0⟩
def PW_RGSTAT_WK : Fld := ⟨R.PW_RGSTAT, 15, 8⟩
def PW_RGSTAT_DZ : Fld := ⟨R.PW_RGSTAT, 7, 0⟩
def PW_PLL_ULK : Fld := ⟨R.PW_PLL, 8, 8⟩
def PW_PLL_P : Fld := ⟨R.PW_PLL, 6, 6⟩
def PW_PLL_L : Fld := ⟨R.PW_PLL, 5, 1⟩
def PW_PLL_F : Fld := ⟨R.PW_PLL, 0, 0⟩
def PW_BOR_WARN : Fld := ⟨R.PW_BOR, 9, 0⟩
def PW_WDT_CTL_BADK : Fld := ⟨R.PW_WDT_CTL, 2, 2⟩
def PW_WDT_CTL_LOCK : Fld := ⟨R.PW_WDT_CTL, 1, 1⟩
def PW_WDT_CTL_EN : Fld := ⟨R.PW_WDT_CTL, 0, 0⟩
def PW_WDT_TO_TO : Fld := ⟨R.PW_WDT_TO, 23, 0⟩
def PW_WDT_KICK_K : Fld := ⟨R.PW_WDT_KICK, 31, 0⟩
def PW_WDT_CNT_CNT : Fld := ⟨R.PW_WDT_CNT, 23, 0⟩
def PW_WAKE_WKEN : Fld := ⟨R.PW_WAKE, 8, 8⟩
def PW_WAKE_POL : Fld := ⟨R.PW_WAKE, 7, 4⟩
def PW_WAKE_EN : Fld := ⟨R.PW_WAKE, 3, 0⟩
def PW_WKTL_WKT : Fld := ⟨R.PW_WKTL, 31, 0⟩
def PW_WKTH_WKT : Fld := ⟨R.PW_WKTH, 15, 0⟩
def PW_LTBL_LTB : Fld := ⟨R.PW_LTBL, 31, 0⟩
def PW_LTBH_LTB : Fld := ⟨R.PW_LTBH, 15, 0⟩
def PW_LSTAT_BORRAIL : Fld := ⟨R.PW_LSTAT, 15, 12⟩
def PW_LSTAT_WKPEND : Fld := ⟨R.PW_LSTAT, 11, 11⟩
def PW_LSTAT_WKSRC : Fld := ⟨R.PW_LSTAT, 10, 8⟩
def PW_LSTAT_XLOSS : Fld := ⟨R.PW_LSTAT, 3, 3⟩
def PW_LSTAT_CKLOSS : Fld := ⟨R.PW_LSTAT, 2, 2⟩
def PW_LSTAT_LSRC : Fld := ⟨R.PW_LSTAT, 0, 0⟩
def PW_TS_ABOVE (k : Nat) : Fld := ⟨R.PW_TS k, 31, 31⟩
def PW_TS_TEMP (k : Nat) : Fld := ⟨R.PW_TS k, 15, 0⟩
def PW_TS_THR_HI (k : Nat) : Fld := ⟨R.PW_TS_THR k, 31, 16⟩
def PW_TS_THR_HYS (k : Nat) : Fld := ⟨R.PW_TS_THR k, 7, 0⟩

end F

end Sys2Proof.Machine
end

