-- ==== Sys2Proof/Machine/State.lean ====
section
/-! DEFINITION. The state of the part, as plain data.  Every software-visible register has one home,
`Block.regs`; the structures below hold what the spec gives a unit beside its registers.  A number that is
a time is in fine steps (tick × 64 + fine, R4, R5) where its docstring says so, otherwise in ticks. -/

namespace Sys2Proof.Machine

/-! ### The hardware in hand -/

/-- The three variants (R1, R39). -/
inductive Variant where
  | kor2560 | kor1280 | kor0640
  deriving DecidableEq, Repr

/-- What the silicon fixes: the variant, the stepping (PRES_ID.STEP), the ROM revision (R546), the serial number and the identity
public key (R648). -/
structure Hw where
  variant : Variant := .kor2560
  step : Nat := 1
  romRev : Nat := 1
  ser : Nat := 0
  idk : List Nat := []
  deriving DecidableEq, Repr

/-! ### Hedgerow (spec/09) -/

/-- Units that are sources or inputs of Hedgerow: the KIND codes of R379. -/
inductive EvUnit where
  | cc | cp | eg | tg | ad | ac | sd | hl | fb | emu | fg | fa | dm | task
  deriving DecidableEq, Repr

/-- One action input of one unit instance (R377). -/
structure Input where
  unit : EvUnit
  inst : Nat
  inp : Nat
  deriving DecidableEq, Repr

/-- An event carried by channel `chan`, to be latched at `forks` in fc `due` (R386–R388). -/
structure Flight where
  chan : Nat
  due : Nat
  hop : Nat
  fine : Option Nat
  forks : List Input
  deriving DecidableEq, Repr

/-- An action latched in this fc (R387, R395, R396); `done` once its unit has acted on it. -/
structure Act where
  input : Input
  hop : Nat
  fine : Option Nat
  done : Bool
  deriving DecidableEq, Repr

/-- What has happened in this fc and matters to another step of the same fc; empty at every tick.
`latched`: actions (R395); `unitHop`: highest hop latched per unit (R398); `unitWr`: units that performed a
register write (R398); `carried`: channels that carried an event, and whether the source's own (R383);
`emitted`: events emitted; `writes`: the register writes performed, newest data per address; `reads`: the
registers read; `rcAdd`: what hardware added to an RC field (R13); `hwSet`: W1C bits hardware set (R12);
`judged`: late values judged, by event key (R121, R123); `syncTrip`: synchronous trip sources detected, group × 256 + code (R197, R198); `asyncHad`: asynchronous
sources that stopped asserting (R198); `released`: the trip groups released that still force their members (R198); `cleared`: the bits of W1C and RC fields that software has cleared, by register; `recheck`: a cause of forcing ended (R198); `taskAct`: activations that reached a task's
ACTIVATE input and are not yet latched: instance, kind bit, source (R503); `wrote`: the bytes of memory written, address, count and
rank of the port (R556); `touched`: the granules written (R568). -/
structure Fc where
  latched : List Act := []
  unitHop : Assoc Nat := []
  unitWr : List Nat := []
  carried : List (Nat × Bool) := []
  emitted : List Nat := []
  writes : Assoc Nat := []
  reads : List Nat := []
  rcAdd : Assoc Nat := []
  hwSet : Assoc Nat := []
  cleared : Assoc Nat := []
  judged : List Nat := []
  syncTrip : List Nat := []
  asyncHad : List Nat := []
  released : List Nat := []
  recheck : Bool := false
  taskAct : List (Nat × Nat × Nat) := []
  wrote : List (Nat × Nat × Nat) := []
  touched : List Nat := []
  odd : List Nat := []
  deriving DecidableEq, Repr

/-! ### Time base, compare channels, capture pairs (spec/03) -/

/-- The time base's snapshots (R105, R110, R111): `lct`, `lcl` as the last LCLK edge left them. -/
structure TbSt where
  hiSnap : Nat := 0
  lct : Nat := 0
  lcl : Nat := 0
  lctHiSnap : Nat := 0
  lclSnap : Nat := 0
  deriving DecidableEq, Repr

/-- A compare value (fine steps) with its staged words and its read snapshot (R118–R120). -/
structure CmpSt where
  val : Nat := 0
  stF : Nat := 0
  stL : Nat := 0
  snapF : Nat := 0
  snapH : Nat := 0
  deriving DecidableEq, Repr

/-- A capture pair: the stamp of the open pair's rise, the landed pair, the snapshot of the last RISE read
(R135–R140), all in fine steps; a pair that a read puts off by one fc (R141): rise and fall; the writes of the last 32 fc that took
FILT, newest first, each with its fc and what FILT was before it (R143). -/
structure CpSt where
  openRise : Nat := 0
  rise : Nat := 0
  fall : Nat := 0
  width : Nat := 0
  sRise : Nat := 0
  sFall : Nat := 0
  sWidth : Nat := 0
  putOff : Option (Nat × Nat) := none
  filts : List (Nat × Nat) := []
  deriving DecidableEq, Repr

/-! ### Edge generators and trip groups (spec/04) -/

/-- The seven shadowed values as they are in force (R174, R175). -/
structure EgForce where
  p : Nat := 0
  rise : Nat := 0
  fall : Nat := 0
  duty : Nat := 0
  dt : Nat := 0
  phs : Nat := 0
  ctr : Nat := 0
  deriving DecidableEq, Repr

/-- A planned output edge: its time in fine steps, the output (0 H, 1 L), the level it makes (R158). -/
structure EgEdge where
  time : Nat
  out : Nat
  on : Bool
  deriving DecidableEq, Repr

/-- What a START or a write of EN = 1 of this fc replaced, for a STOP, a CLEAR or a write of EN = 0 of the same fc that wins over it
(R183): the channel with `cmt`, the pending STOP, `shortPend`, the word of EGnn_CTL and EGnn_CNT.REM. -/
structure EgUndo where
  cmp : CmpSt
  cmt : Bool
  stopPend : Bool
  shortPend : Bool
  ctl : Nat
  rem : Nat
  deriving DecidableEq, Repr

/-- An edge generator beside its registers: its carrier channel `cmp` (R148), with `cmt`: a committed or a START's value stands in
place of S + P (R167, R168, R826), and `fresh`: since this fc (R129); the values in force; the carrier in progress (`car`: its
start; `carEnd`: S + P), whether it is the run's last, its centre value while still to come (R153); the raw pulse (R176, R157) and
the dead time DTF it runs with; where H comes on (`hOn`) and how far it has come (`hSt`: 0 to come, 1 on, 2 over or not emitted);
where L comes on after the pulse (`lOn`), and whether the turn-ons of L before (`lPre`) and after it (`lPost`) are still to come;
the latest raw fall of earlier carriers and the end of the time they hold L off (`holdF`, `holdTo`, R158); the logical levels of H
and L; a pending STOP (R181); scheduled follower starts, in the order of their times, with the interval each takes (R169); a
truncation that counts SHORT at the next start (R826); the recomputation due in the next fc (`recomp`), and what it has to set
in that fc (`ledgeNow`, `shortNow`; R176, R177); the forcing (R189–R192): whether the balls are forced, the time an active safe
level is reached (R190; 0 while an asynchronous trip waits for its synchronising fc), the wait for a carrier start or the fc of
idling after it (R192). -/
structure EgSt where
  cmp : CmpSt := {}
  cmt : Bool := false
  fresh : Bool := false
  force : EgForce := {}
  car : Option Nat := none
  carEnd : Nat := 0
  last : Bool := false
  ctrVal : Option Nat := none
  ctrDone : Bool := false
  rawR : Nat := 0
  rawF : Nat := 0
  rawNone : Bool := true
  dtf : Nat := 0
  hOn : Nat := 0
  hSt : Nat := 0
  lOn : Nat := 0
  lPre : Bool := false
  lPost : Bool := false
  holdF : Nat := 0
  holdTo : Nat := 0
  h : Bool := false
  l : Bool := false
  stopPend : Bool := false
  sched : List (Nat × Nat) := []
  shortPend : Bool := false
  recomp : Bool := false
  ledgeNow : Bool := false
  shortNow : Bool := false
  undo : Option EgUndo := none
  forced : Bool := false
  safeDueH : Option Nat := none
  safeDueL : Option Nat := none
  waitStart : Bool := false
  idleDue : Option Nat := none
  deriving DecidableEq, Repr

/-- A trip group beside its registers: the fc of the first threshold crossing that led to a trip not yet synchronised (`pend`, R196), the
asynchronous sources that qualified since (R197); after the synchronising fc, the fc 2 after it (`wait`: from it on a synchronous
trip forces the members, O6, and the delays of R190 run) and whether an asynchronous source forces them before (`now`, O5); the fc in
which EN last became 1 (`enAt`, R193). -/
structure TgSt where
  pend : Option Nat := none
  enAt : Nat := 0
  qual : List Nat := []
  wait : Option Nat := none
  now : Bool := false
  deriving DecidableEq, Repr

/-! ### Loop lanes and law units (spec/02) -/

/-- A snapshot on its way to, or held at, a law task (R87, R98): due fc, X0–X3, LAST, SEQ. -/
structure LaneSnap where
  due : Nat
  xs : List Nat
  last : Nat
  seq : Nat
  deriving DecidableEq, Repr

/-- A committed set of an engine law (R92): the engine it left (R29, R34), due fc, LOUT0–LOUT2, LOUT4–LOUT7. -/
structure LaneCommit where
  eng : Nat
  due : Nat
  duties : List Nat
  mons : List Nat
  deriving DecidableEq, Repr

/-- A write deferred to the end of a run (R85): S`k` takes `v`, or (`clr`) CLRS. -/
structure DefWrite where
  clr : Bool
  k : Nat
  v : Nat
  deriving DecidableEq, Repr

/-- A loop lane beside its registers: the latest value of each source (R63), the fc of each source's latest delivery since the
previous trigger (R65), the fcs of triggers to come (R64), X0–X3 (R66), the run in progress as its last step's fc (R72, R85), a
held trigger (R83), the fcs of Y0–Y2 transfers to come (R73), deferred writes (R85), whether a trigger was dropped under a trip
since the previous delivery (LIN6), the engine-law snapshots in flight and held (R87, R98), the commits in flight to the lane and
to the duty shadows (R92). -/
structure LlSt where
  src : List Nat := [0, 0, 0, 0]
  newAt : List (Option Nat) := [none, none, none, none]
  trigs : List Nat := []
  xs : List Nat := [0, 0, 0, 0]
  runEnd : Option Nat := none
  held : Bool := false
  yDue : List Nat := []
  defer : List DefWrite := []
  tripDrop : Bool := false
  toEngine : List LaneSnap := []
  heldSnap : Option LaneSnap := none
  commits : List LaneCommit := []
  duties : List LaneCommit := []
  deriving DecidableEq, Repr

/-- A law unit beside its registers: Y0–Y2, the accumulator A (48 bits), its high-word snapshot, the
active coefficient bank; the registers LUnn_K hold the shadow bank (R81, R86). -/
structure LuSt where
  ys : List Nat := [0, 0, 0]
  acc : Nat := 0
  ahiSnap : Nat := 0
  kAct : Assoc Nat := []
  deriving DecidableEq, Repr

/-! ### Analog inputs (spec/05) -/

/-- A conversion in progress (R205, R207): its entry's index and SEQ word, and the fc it ends in. -/
structure AdConv where
  entry : Nat
  word : Nat
  endAt : Nat
  deriving DecidableEq, Repr

/-- A SAR converter beside its registers: the FIFO at the start of the fc, oldest first (R218, R219), the conversion in progress, a
SEQ or CONT sequence running, a STOP waiting for the conversion's end (R213); of this fc: a result landing (R218), a FLUSH (R220),
a START that counted SLOST (R214). -/
structure AdSt where
  fifo : List Nat := []
  conv : Option AdConv := none
  seqRun : Bool := false
  stopped : Bool := false
  land : Option Nat := none
  flush : Bool := false
  slostNow : Bool := false
  deriving DecidableEq, Repr

/-- A comparator beside its registers: the 24-bit ramp value and whether a ramp runs (R227), whether it was
loaded in this fc, the raw output (R224) with the ball's voltage and V(VREF) it was last judged on (none before the first), the raw
output as sampled at the ends of the three fc before, the latest first (R231), the last fc of the blanking window (R230), whether an
ASSERT was emitted for the present assertion. -/
structure AcSt where
  ramp : Nat := 0
  ramping : Bool := false
  fresh : Bool := false
  raw : Bool := false
  vin : Option (Int × Int) := none
  past : List Bool := [false, false, false]
  blankEnd : Nat := 0
  asserted : Bool := false
  deriving DecidableEq, Repr

/-- A sigma-delta demodulator beside its registers: the filter's sums and differences (R238), the bits of
the decimation, the results since it was cleared (R242), the fc of the last sampling edge, a clock loss, a SYNC of this fc (R243),
the fc in which the clock it drives began high (R235). -/
structure SdSt where
  integ : List Int := [0, 0, 0, 0]
  comb : List Int := [0, 0, 0, 0]
  cnt : Nat := 0
  got : Nat := 0
  lastEdge : Nat := 0
  loss : Bool := false
  sync : Bool := false
  clkAt : Option Nat := none
  deriving DecidableEq, Repr

/-! ### Head-drive lanes (spec/06) -/

/-- A queued start (R271): its stamp in fine steps and its descriptor. -/
structure HlStart where
  stamp : Nat
  wf : Nat
  deriving DecidableEq, Repr

/-- A waveform in progress or just ended (R263): start and end in fine steps, descriptor, its points, whether its end has been made
known. -/
structure HlWave where
  s : Nat
  e : Nat
  wf : Nat
  pts : List (Nat × Nat)
  ended : Bool
  deriving DecidableEq, Repr

/-- An on-window of a gate in the period in progress (R253, R254): gate 0 HA, 1 LA, 2 HB, 3 LB. -/
structure HlWin where
  gate : Nat
  on : Nat
  off : Nat
  deriving DecidableEq, Repr

/-- An update computed for the period that begins at `p` (R276): boost region, on-time in fine steps, and the dead time in force at
the update (R278). -/
structure HlUpd where
  p : Nat
  boost : Bool
  w : Nat
  dtg : Nat
  deriving DecidableEq, Repr

/-- A head-drive lane beside its registers: the start queue, the waveforms (newest first), the forcing and the
fc of the last enable or forcing end (R275), the sample fcs whose results are to come (R261), the converter results by sample fc,
newest first: current value (code) and voltage code, the tracking run (R282), the update to come, the gate windows of the period,
the fine step from which the held high gate is on (R254), whether the lane switches, the energy sums in full (R281); of this fc: the
descriptor of its start where that was accepted (R265), the STAT bits and the counts of its start, for an ABORT that discards it (R274),
and an OVLP of an older start to emit (R272). -/
structure HlSt where
  queue : List HlStart := []
  waves : List HlWave := []
  forced : Bool := false
  since : Nat := 0
  smp : List Nat := []
  res : List (Nat × Nat × Nat) := []
  trkRun : Nat := 0
  upd : Option HlUpd := none
  wins : List HlWin := []
  heldAt : Nat := 0
  switching : Bool := false
  edrv : Nat := 0
  erec : Nat := 0
  took : Option Nat := none
  flagged : List Fld := []
  counted : List Fld := []
  ovlp : Bool := false
  deriving DecidableEq, Repr

/-- A fire on its way to a head-drive lane (R266, R401). -/
structure FireToLane where
  due : Nat
  lane : Nat
  stamp : Nat
  wsel : Nat
  hop : Nat
  deriving DecidableEq, Repr

/-! ### Position feedback (spec/07) -/

/-- A position compare beside its registers: its value in force (48 bits), the staged VALF, VALF's read snapshot,
the fc its value is first judged in (R329), the fc of the last commit (R129, R330), a FIRE late match to come: its fc and the value
(R330). -/
structure FbCmp where
  val : Nat := 0
  stF : Nat := 0
  snapF : Nat := 0
  judge : Option Nat := none
  cmt : Option Nat := none
  late : Option (Nat × Nat) := none
  deriving DecidableEq, Repr

/-- A serial value on its way to the position (R311–R314): the fc it acts in, the value received, the lowest
cause of a bad frame (0: none), whether a check-value unit's verdict is awaited, the bytes it has yet to be shown, each with
whether it belongs to the expected value (R310). -/
structure FbFrame where
  due : Nat
  v : Nat
  cause : Nat
  wait : Bool
  left : List (Nat × Bool)
  deriving DecidableEq, Repr

/-- A feedback unit beside its registers: the position last set (48 bits) and the fc it was set in (R315); a
software write to come (R324); the true move of an fc, for R327 (fc, from, to); the position an index reset of this fc replaced
(R324); the filtered A, B, Z levels (R289, R293); the last valid sector (R295); the stamps of the counts in the present direction,
newest first (R318), the last count's stamp, Δ and n, the fc of the last count; whether the speed was set to zero since (R320); whether
the fraction stands as an error left it (R293, R295); the position at the window's start (R321); the level of B in a serial mode and
the fc it was presented in (R305); a frame or SSI request in progress (its fc),
whether another was accepted in the fc of its end, the SSI pause's end; the bytes to send and A's level before the first (R307), the
instant Z falls, the response so far, the character in progress (stop bit's centre and end), causes met, a timeout of this fc (its
cause, R309); how many bytes the check-value unit has been shown, and whether it has discarded the message (R310, R631); the value on
its way; the previous good value (R313); the eight compares. -/
structure FbSt where
  pos : Nat := 0
  setAt : Option Nat := none
  write : Option Nat := none
  move : Option (Nat × Nat × Nat) := none
  idxOld : Nat := 0
  refA : Bool := false
  refB : Bool := false
  refZ : Bool := false
  sector : Option Nat := none
  stamps : List Nat := []
  last : Option Nat := none
  delta : Nat := 0
  n : Nat := 0
  countAt : Option Nat := none
  zeroed : Bool := false
  frozen : Bool := false
  winRef : Int := 0
  lineB : Bool := false
  seenB : Option Nat := none
  reqAt : Option Nat := none
  again : Bool := false
  pauseEnd : Option Nat := none
  send : List Nat := []
  lead : Bool := false
  zLow : Nat := 0
  chars : List Nat := []
  charCtr : Nat := 0
  charEnd : Nat := 0
  frmBad : Bool := false
  parBad : Bool := false
  lapse : Option Nat := none
  shown : Nat := 0
  cvGone : Bool := false
  frame : Option FbFrame := none
  prevV : Option Nat := none
  cmps : Assoc FbCmp := []
  deriving DecidableEq, Repr

/-- An emulation output beside its registers: the reference R, the output count O, the target count C, the written position in force,
the edge that fell due (its fc, whether upward), the instant of the last edge, the hold of R338, and whether it ends in this fc. -/
structure EmuSt where
  ref : Int := 0
  o : Int := 0
  tgt : Int := 0
  wpos : Nat := 0
  due : Option (Nat × Bool) := none
  lastEdge : Option Nat := none
  held : Bool := false
  renew : Bool := false
  deriving DecidableEq, Repr

/-! ### Memory (spec/14) -/

/-- A scrubber (R567–R569): the granule it has read and not yet written back, with the data (256 bits) and the
syndrome it writes, whether a write reached the granule since, and the fc from which it reads the next, set by RATE at its last read
(R569). -/
structure ScrubSt where
  pend : Option (Nat × Nat × Nat) := none
  cancel : Bool := false
  nextAt : Nat := 0
  deriving DecidableEq, Repr

/-! ### Fire generators and the fire assembler (spec/08), cells (spec/20) -/

/-- A pass (R342, R343): PITCH and BOFS in 2^−24 counts, XS as a 56-bit position (count, 24-bit fraction). -/
structure FgPass where
  pitch : Nat
  xs : Nat
  ncol : Nat
  dir : Bool
  wsel : Nat
  bofs : Nat
  deriving DecidableEq, Repr

/-- A fire generator beside its registers: the active and the pending pass, the pass that starts in the next fc, whether a STOP of
this fc discards them (R343, R344), the index of the next pitch point in full (R342), the fc the active one starts in, the fc of the last issue, the stamps whose SHOT is to come
(R350), the end of the pass's last fire (R353), the last base stamp, the fc from which it issues no fire (R351). -/
structure FgSt where
  pass : Option FgPass := none
  pend : Option FgPass := none
  next : Option FgPass := none
  stop : Bool := false
  j : Nat := 0
  startAt : Nat := 0
  issueAt : Option Nat := none
  shots : List Nat := []
  lastEnd : Option Nat := none
  lst : Nat := 0
  haltAt : Option Nat := none
  deriving DecidableEq, Repr

/-- What a fire hands to one head context (R349, R357): the context, its stamp, whether that stamp is late, the stream column whose
DATA falls due at the issue and is ready, if there is one (R361). -/
structure FaHead where
  h : Nat
  stamp : Nat
  late : Bool
  data : Option Nat
  deriving DecidableEq, Repr

/-- A fire on its way to the fire assembler (R365): the fc of its issue, generator, index, direction, waveform, PNUM. -/
structure FaFire where
  at_ : Nat
  fg : Nat
  j : Nat
  dir : Bool
  wsel : Nat
  pnum : Nat
  ncol : Nat
  heads : List FaHead
  deriving DecidableEq, Repr

/-- A head context beside its registers: K0 of the pass (R359), whether it is excluded (R363), the blank stream columns
whose FIRE cell is to come (R361, R366). -/
structure HcSt where
  k0 : Nat := 0
  excluded : Bool := false
  blanks : List Nat := []
  deriving DecidableEq, Repr

/-- A cell (R692): header without SEQ, payload of 256 bits, whether its check marks it uncorrectable (R368); a FIRE cell
also names its generator and its stamp in fine steps (R351, R367). -/
structure Cell where
  head : Nat
  payload : Nat
  poison : Bool
  fire : Option (Nat × Nat)
  deriving DecidableEq, Repr

/-! ### Engines (spec/10–13) -/

/-- A tagged word (R446): 32 data bits and a 4-bit tag. -/
structure TWord where
  d : Word := 0
  t : BitVec 4 := 0
  deriving DecidableEq, Repr

/-- An accumulator (R448): 80 bits and a kind (0 NONE, 1 INT, 2 UNS, 3 FRAC, 4 FIX). -/
structure AccV where
  v : BitVec 80 := 0
  kind : Nat := 0
  deriving DecidableEq, Repr

/-- The states of a task (R496). -/
inductive TState where
  | wait | ready | run | held | parked
  deriving DecidableEq, Repr

/-- A task (R492, R493): its bank (G1–G31; an unlisted register is 0 with tag RAW, R449), PC, RSM, RSW, the fields of TCTL
(`priv`, `ceil`: true is U), DLN, the dirty masks, the activation record with what took part in the pending activation, its
state, since when it is READY (R498), its deadline's fc (R506), the TIMEH snapshot (R532), the fc from which each register's
last result may be read (R409), LIN0–LIN6 and LOUT0–LOUT7, whether it executed WAIT since its last activation (R98), whether since
its last delivery (R88), and when it last did,
the address of a DRAIN it waits in (R444). -/
structure TaskSt where
  g : Assoc TWord := []
  acc0 : AccV := {}
  acc1 : AccV := {}
  pc : Nat := 0
  rsmV : Bool := false
  rsmIdx : Nat := 0
  rsw : TWord := {}
  pri : Nat := 0
  ceil : Bool := false
  priv : Bool := false
  dln : Nat := 0
  entry : Nat := 0
  ds : Nat := 0
  dc : Nat := 0
  acKind : Nat := 0
  acIrq : Nat := 0
  pendKind : Nat := 0
  pendIrq : Nat := 0
  atick : Nat := 0
  alost : Nat := 0
  apend : Bool := false
  st : TState := .wait
  readySince : Nat := 0
  deadline : Option Nat := none
  timeh : Nat := 0
  avail : Assoc Nat := []
  lin : List Nat := [0, 0, 0, 0, 0, 0, 0]
  lout : List TWord := [{}, {}, {}, {}, {}, {}, {}, {}]
  waited : Bool := true
  linFree : Bool := true
  waitAt : Option Nat := none
  drain : Option Nat := none
  deriving DecidableEq, Repr

/-- An exception in an engine's queue (R520): the fc it joined in, the task, the code, EPC, EADDR, EINFO, EWAIT. -/
structure Exc where
  at_ : Nat
  task : Nat
  code : Nat
  epc : Nat
  eaddr : Nat
  einfo : Nat
  wait : Bool
  deriving DecidableEq, Repr

/-- A selection under way (R499, R500): the task, the fc of the selection, the yield fc, the fc of the first issue. -/
structure Sel where
  task : Nat
  at_ : Nat
  yieldAt : Nat
  first : Nat
  deriving DecidableEq, Repr

/-- A buffered store (R430): its task, address, width in bytes, data and tag, whether the target is the engine's own TCM,
the fc it is written in (none: not stated, mode P), whether it has been written in this fc (its entry is free in the next). -/
structure StoreEnt where
  task : Nat
  addr : Nat
  n : Nat
  v : TWord
  own : Bool
  due : Option Nat
  written : Bool := false
  deriving DecidableEq, Repr

/-- An outstanding load (R439, R440): its task, its instruction's address, destination, address, width, extension and type
hint, the fcs in which it is performed and gives its result (none: not stated, mode P), the word performed (data and
tag), whether it fills a D-cache line. -/
structure LoadEnt where
  task : Nat
  pc : Nat
  reg : Nat
  addr : Nat
  n : Nat
  sext : Bool
  hint : Nat
  perf : Option Nat
  due : Option Nat
  got : Option TWord
  fill : Bool
  deriving DecidableEq, Repr

/-- A result on its way to a register (R410): task, register, value, fc. -/
structure LateRes where
  task : Nat
  reg : Nat
  v : TWord
  due : Nat
  deriving DecidableEq, Repr

/-- What the instructions issued in the last issue fc were, for R421: the fc, how many, what the first writes, whether it
accesses memory, is a branch, must issue alone. -/
structure PairSt where
  at_ : Nat := 0
  cnt : Nat := 0
  dests : List Nat := []
  mem : Bool := false
  branch : Bool := false
  alone : Bool := false
  deriving DecidableEq, Repr

/-- An exception that an element of a microcoded instruction raises in a later fc than the instruction's issue (R482, R520): the fc,
the task, the instruction's address, the cause, EADDR, EINFO. -/
structure LateTrap where
  due : Nat
  task : Nat
  pc : Nat
  code : Nat
  eaddr : Nat
  einfo : Nat
  deriving DecidableEq, Repr

/-- An engine (R407–R444, R498–R546): its tasks, the task in RUN, the earliest next issue, the end of the hold or element
in progress (R499), the selection under way, the exception queue, ESTAT and the other CSRs of the engine, its mode, store
buffer, outstanding loads, results on their way, the last slot of each calendar (R438), the fc of the last fabric store
written (R442), what issued last (R421), the late store errors that wait for a yield: fc, task, address, second half (R520), the
exception of an element that is still to come (R482, R520), BHT
(an unlisted counter is 1), BTB and caches, most recently used first, isolation reset (R754), declared dead (R743), the fc
of a takeover it is the spare of (R750), the 16-bit groups of patch words (word × 16 + group) and the match registers whose parity fails
(R540). -/
structure EngSt where
  tasks : Assoc TaskSt := []
  run : Option Nat := none
  issueAt : Nat := 0
  holdEnd : Nat := 0
  sel : Option Sel := none
  queue : List Exc := []
  act : Bool := false
  ewait : Bool := false
  smore : Bool := false
  etask : Nat := 0
  ecause : Nat := 0
  epriv : Bool := false
  epc : Nat := 0
  eaddr : Nat := 0
  einfo : Nat := 0
  vbase : Nat := 0
  tsel : Nat := 0
  mpb : List Nat := [0, 0, 0, 0, 0, 0, 0, 0]
  mpl : List Nat := [0, 0, 0, 0, 0, 0, 0, 0]
  mplock : Bool := false
  modeP : Bool := false
  stores : List StoreEnt := []
  loads : List LoadEnt := []
  late : List LateRes := []
  lastC : Option Nat := none
  lastR : Option Nat := none
  lastWritten : Option Nat := none
  pair : PairSt := {}
  serrs : List (Nat × Nat × Nat × Bool) := []
  trap : Option LateTrap := none
  bht : Assoc Nat := []
  btb : List (Nat × Nat) := []
  dcache : Assoc (List (Nat × Nat)) := []
  icache : Assoc (List (Nat × Nat)) := []
  lbuf : List (Nat × Nat) := []
  iso : Bool := false
  dead : Bool := false
  takeAt : Option Nat := none
  badMicro : List Nat := []
  badNano : List Nat := []
  badMatch : List Nat := []
  deriving DecidableEq, Repr

/-- An activation to be latched at a task (R503): its fc, the task's ACTIVATE instance, the kind bit of ACAUSE, the source. -/
structure PendAct where
  due : Nat
  inst : Nat
  kind : Nat
  irq : Nat
  deriving DecidableEq, Repr

/-- An edge on its way to an interrupt controller (R570): its fc, the die, the source. -/
structure IrqEdge where
  due : Nat
  die : Nat
  src : Nat
  deriving DecidableEq, Repr

/-- A region's DOZE (R776–R780): whether it dozes, whether its time to enter ends in this fc, since which fc it is idle, the fc its
wake began in. -/
structure DozeSt where
  asleep : Bool := false
  lapse : Bool := false
  idleSince : Option Nat := none
  wake : Option Nat := none
  deriving DecidableEq, Repr

/-! ### Interrupt controller, check-value units (spec/15, spec/17) -/

/-- A source of one interrupt controller beside its registers: the fc p its batch timer started in, whether the batch became
due by time alone and when it became due, the fcs of its last edge, its last CLR, its last delivery (R573–R579). -/
structure IcSrc where
  p : Nat := 0
  byTime : Bool := false
  dueAt : Option Nat := none
  edgeAt : Option Nat := none
  clrAt : Option Nat := none
  outAt : Option Nat := none
  deriving DecidableEq, Repr

/-- A client of a check-value unit (R617): a feedback unit, or a Golbex lane with the cell that waits for the verdict (R704). -/
inductive CvClient where
  | fb (n : Nat)
  | lane (n head payload : Nat)
  deriving DecidableEq, Repr

/-- A check-value unit beside its registers: the client whose message is open (R631), the alive-count bits taken from the message and
which of them are known (R625), the expected bytes (R627), and whether END was applied in this fc (R622). -/
structure CvSt where
  client : Option CvClient := none
  alv : Nat := 0
  known : Nat := 0
  exps : List Nat := []
  fin : Bool := false
  deriving DecidableEq, Repr

/-! ### Golbex lanes (spec/20), spares and the pair (spec/22) -/

/-- A cell waiting on the twin link (R701): its priority (0 EPOCH, 1 HEARTBEAT, 2 software, 3 CKPT), the lane whose
software committed it (2: none), header with SEQ, payload, and its poison mark (R562). -/
structure TwinCell where
  prio : Nat
  src : Nat
  head : Nat
  payload : Nat
  poison : Bool := false
  deriving DecidableEq, Repr

/-- A received cell in the FIFO (R703, R704). -/
structure RxCell where
  head : Nat
  payload : Nat
  cm : Bool
  av : Nat
  deriving DecidableEq, Repr

/-- The cell a lane's transmitter was last handed: header, payload, poison mark (R560). -/
structure SentCell where
  head : Nat
  payload : Nat
  poison : Bool
  deriving DecidableEq, Repr

/-- A Golbex lane beside its registers: SEQ counters per channel (R695), expected values (R696) and, on the twin link, the SEQs
accepted from one lane and not yet seen on the other (R699), the receive FIFO, the software cell, the twin-link queue, whether a
SYNC is due, the SYNCs sent since EN, the last four (number, departure), the last accepted (number, arrival), the fc of the last
update or of UP (R711), whether its time ends in this fc, the consecutive uncorrectable codewords and failed header CRCs while UP (R700),
DLY and OFS in force, the cell last handed to the transmitter; the data bits of the codeword being filled and
how many there are, the last codeword coded, its first bit in bit 0 (R691). -/
structure GlSt where
  seq : Assoc Nat := []
  rx : Assoc Nat := []
  unseen : List (Nat × Nat × Nat) := []
  fifo : List RxCell := []
  sw : Option SentCell := none
  tq : List TwinCell := []
  syncDue : Bool := false
  snum : Nat := 0
  sent : List (Nat × Nat) := []
  echo : Option (Nat × Nat) := none
  base : Option Nat := none
  lapse : Bool := false
  badCw : Nat := 0
  badHead : Nat := 0
  dly : Nat := 0
  ofs : Nat := 0
  out : Option SentCell := none
  stream : Nat := 0
  filled : Nat := 0
  codeword : Option Nat := none
  deriving DecidableEq, Repr

/-- A task's snapshot on its way to its record (R748, R749): local engine, task, READY, the groups, the 41 save words. -/
structure Snap where
  eng : Nat
  task : Nat
  ready : Bool
  groups : Nat
  words : List TWord
  deriving DecidableEq, Repr

/-- A cluster supervisor beside its registers: the fc of each HBe's last heartbeat, the local engines declared dead, the period
each task was last captured in (R747), the snapshots not yet written, the takeover in force: its fc D, whether the spare's tasks
have begun; engines to enter isolation reset, with the fc (R753). -/
structure SuSt where
  hb : Assoc Nat := []
  declared : List Nat := []
  period : Assoc Nat := []
  snaps : List Snap := []
  takeover : Option (Nat × Nat × Nat) := none
  begun : Bool := false
  isoDue : List (Nat × Nat) := []
  deriving DecidableEq, Repr

/-- A record under assembly on one channel (R763): LF without the fragment, the next fragment, the next SEQ, the words, whether a
fragment is missing. -/
structure Frag where
  key : Nat
  next : Nat
  seq : Nat
  words : List Nat
  lost : Bool
  deriving DecidableEq, Repr

/-- The Privet permit logic beside its registers: the epoch before T (R767), the heartbeat number, RSTREQ to be sent, the fc of
the partner's last HEARTBEAT, whether its silence is complete in this fc (R759), the fcs of EPOCH cells to come, since when
PERMIT_IN is asserted, a TWIN reset to come, records
under assembly by channel, kept lane states (R763). -/
structure PvSt where
  saved : Nat := 0
  hbNum : Nat := 0
  rstReq : Bool := false
  lastHb : Option Nat := none
  lapse : Bool := false
  epochDue : List Nat := []
  pinSince : Option Nat := none
  twinRst : Bool := false
  frags : Assoc Frag := []
  lanes : Assoc (List Nat) := []
  deriving DecidableEq, Repr

/-! ### DMA, the spool (spec/16, spec/21) -/

/-- A block of a channel's read stream (R738): its number (spool address / 65,536), whether it has arrived, whether the manager
could not read it (R603). -/
structure StreamBlk where
  blk : Nat
  ready : Bool
  bad : Bool
  deriving DecidableEq, Repr

/-- A byte of a DMA element on its way: its value, whether it is POISON, the tag of the D-TCM word it was read from. -/
structure DmByte where
  v : Nat := 0
  bad : Bool := false
  tag : Nat := 0
  deriving DecidableEq, Repr

/-- An element on its way through a DMA channel (R591, R594): the destination, the accesses still to be made at the source and at the
destination (address, bytes), the bytes read so far, those still to be written, whether the spool could not give its granule. -/
structure DmMove where
  reads : List (Nat × Nat)
  writes : List (Nat × Nat)
  got : List DmByte := []
  out : List DmByte := []
  tags : List Nat := []
  spool : Bool := false
  deriving DecidableEq, Repr

/-- A DMA channel beside its registers: the descriptor in use, its address and words as fetched (R611), whether the next element
waits for the run condition (R604), the fc the present pause began in (R605), the highest status met (R610), whether a hand-back
is to come and whether it stops the channel, the read stream, the element in progress and the fc in which the last one ended (R591),
whether a HALT waits for its end, RPEND before a RUN of this fc (R606). -/
structure DmSt where
  desc : Option (Nat × List Nat) := none
  fresh : Bool := true
  pauseAt : Option Nat := none
  acc : Nat := 0
  fin : Bool := false
  stop : Bool := false
  stream : List StreamBlk := []
  move : Option DmMove := none
  elemAt : Option Nat := none
  halt : Bool := false
  rpWas : Bool := false
  deriving DecidableEq, Repr

/-- What an NVMe command is for: a stream block, a WRITE or a COMMIT of the host (its session and SEQ), deallocation, the health
log, initialisation. -/
inductive NvKind where
  | read (ch blk : Nat)
  | write (sess seq : Nat)
  | flush (sess seq : Nat)
  | trim
  | smart
  | admin
  deriving DecidableEq, Repr

/-- An NVMe command outstanding (R735): its number, drive, the fc it was issued in, purpose, drive address and length in bytes. -/
structure NvCmd where
  id : Nat
  drive : Nat
  at_ : Nat
  kind : NvKind
  addr : Nat
  len : Nat
  deriving DecidableEq, Repr

/-- The spool manager beside its registers: outstanding commands, the number of the next, the fc of each drive's last health
read (R741), the commands whose time ends in this fc, unless this fc completes them (R735). -/
structure SpSt where
  nv : List NvCmd := []
  nextId : Nat := 0
  polled : Assoc Nat := []
  lapse : List Nat := []
  deriving DecidableEq, Repr

/-! ### In-package flash (spec/19) -/

/-- A read of the flash read window that waits for a command's end (R669): agent, address, the fc it arrived in. -/
structure FlRead where
  ag : Agent
  addr : Nat
  at_ : Nat
  deriving DecidableEq, Repr

/-- A flash command in progress (R672): operation, FL_ADDR and the data as copied, whether the host port issued it, the fc it was
accepted in, whether the blank check fails (R674), the three selector granules a swap or SELINIT writes: the first copy's granule
and the data. -/
structure FlCmd where
  op : Nat
  addr : Nat
  data : Nat
  host : Bool
  at_ : Nat
  notBlank : Bool
  gen : Nat
  deriving DecidableEq, Repr

/-! ### Host port (spec/21) -/

/-- Who asked (R718, R721): session, SEQ, source address and port, TYPE. -/
structure KspWho where
  sess : Nat
  seq : Nat
  ip : Nat
  port : Nat
  typ : Nat
  deriving DecidableEq, Repr

/-- A session (R718, R721): source, number, the fc of its last request, the results kept, newest first (none: being performed). -/
structure KspSess where
  ip : Nat
  port : Nat
  num : Nat
  last : Nat
  results : List (Nat × Option (List Nat)) := []
  deriving DecidableEq, Repr

/-- A WRITE accepted and not yet answered (R725): its slot of the write buffer, its commands outstanding, a failure. -/
structure KspWrite where
  who : KspWho
  job : Nat
  slot : Nat
  cmds : List Nat
  failed : Bool
  deriving DecidableEq, Repr

/-- A COMMIT accepted and not yet answered (R726): the WRITEs to be answered before it, whether its Flushes are issued. -/
structure KspCommit where
  who : KspWho
  job : Nat
  len : Nat
  before : List KspWho
  issued : Bool
  cmds : List Nat
  failed : Bool
  deriving DecidableEq, Repr

/-- A mailbox entry (R728). -/
structure MbEnt where
  tag : Nat
  who : KspWho
  bytes : List Nat
  deriving DecidableEq, Repr

/-- A CFGWRITE or CFGSWAP (R731): the flash operation, the address of the next granule, the granules to come, those programmed; until
its first command, the area that `addr` counts from. -/
structure CfgReq where
  who : KspWho
  op : Nat
  addr : Nat
  grans : List Nat
  done : Nat
  target : Option Nat := none
  deriving DecidableEq, Repr

/-- A request that HOLD serves after those before it (R662): over the host port, or over the maintenance port. -/
inductive HoldReq where
  | hello (h : KspHead)
  | readstat (h : KspHead) (job : Nat)
  | erase (h : KspHead) (target len off : Nat)
  | program (h : KspHead) (target len off : Nat) (data : List Nat)
  | swap (h : KspHead) (target : Nat)
  | attest (h : KspHead) (nonce : List Nat)
  | reset (h : KspHead) (magic : Nat)
  | read (a : Nat)
  | enrol (slot : Nat) (hash : List Nat)
  deriving DecidableEq, Repr

/-- What the host port sends (R714, R715), with its own MAC and IPv4 address (R660, R716): a gratuitous ARP, an ARP reply, an echo
reply, a KSP response. -/
inductive HostOut where
  | gratuitous (ownMac ownIp : Nat)
  | arp (mac ip ownMac ownIp : Nat)
  | echo (mac ip ownMac ownIp : Nat) (data : List Nat)
  | ksp (ip port : Nat) (msg : List Nat)
  deriving DecidableEq, Repr

/-- The host port beside its registers: the links of SL6 and SL7, sessions, the number of the next, the mailbox and its TAG count,
the fc its head became the head in, WRITEs, COMMITs and configuration requests under way; the sessions and the mailbox head whose
time ends in this fc, unless this fc takes a request or a reply (R718, R730); the requests of HOLD that wait their turn (R662). -/
structure HpSt where
  up6 : Bool := false
  up7 : Bool := false
  sess : List KspSess := []
  nextSess : Nat := 1
  mail : List MbEnt := []
  mbTag : Nat := 0
  headAt : Nat := 0
  writes : List KspWrite := []
  commits : List KspCommit := []
  cfgs : List CfgReq := []
  lapse : List Nat := []
  mailLapse : Option Nat := none
  later : List HoldReq := []
  deriving DecidableEq, Repr

/-! ### One-time-programmable store, supervision, test access (spec/18, spec/23, spec/24) -/

/-- A key slot (R644): 0 BLANK, 1 ENROLLED, 3 REVOKED; the hash of 32 bytes. -/
structure KeySlot where
  st : Nat := 0
  hash : List Nat := []
  deriving DecidableEq, Repr

/-- What no package reset changes, beside the flash: the key slots and ELOCK (R644–R646), LTB (R774), whether the
clock source of LCLK is decided (R772); SLEEP (R783); RST_N held low (R818); the rails below their POR threshold; the UART's output
(R664); the WAKE balls seen high at the last LCLK edge and at the one before (R785); of the wake time, the low word staged (R17) and
the high word's snapshot (R16). -/
structure Always where
  keys : List KeySlot := [{}, {}, {}, {}]
  elock : Bool := false
  ltb : Nat := 0
  sleeping : Bool := false
  rstLow : Bool := false
  low : List Nat := []
  uart : List Nat := []
  lclkDone : Bool := false
  wake : Nat := 0
  wakePrev : Nat := 0
  wktLow : Nat := 0
  wktSnap : Nat := 0
  deriving DecidableEq, Repr

/-- The boundary-scan TAP (R817, R818): the instruction in force as its name's index (0 BYPASS, 1 IDCODE, 2 SAMPLE/PRELOAD, 3
EXTEST, 4 CLAMP, 5 HIGHZ), the levels preloaded into the boundary cells by ball code, what the last scan captured. -/
structure TapSt where
  inst : Nat := 1
  cells : Assoc Nat := []
  captured : Assoc Nat := []
  tdo : Nat := 0
  deriving DecidableEq, Repr

/-- The whole part, but for the time base, the silicon's own constants and the queue. -/
structure Block where
  /-- every software-visible register, by package address; unlisted: its reset value -/
  regs : Assoc Word := []
  /-- the last value a read returned, and its tag for an engine (R40) -/
  resp : Nat := 0
  respTag : Nat := 0
  /-- free values taken so far (MODEL'S OWN field, log entry 3) -/
  freeCount : Nat := 0
  fc : Fc := {}
  flights : List Flight := []
  /-- the marks of R398, by event key; listed = set -/
  marks : Assoc Nat := []
  /-- owner engine by ownership-table offset (R35); unlisted: CE000 (R24) -/
  own : Assoc Nat := []
  /-- ownership-table offsets moved by a takeover (MOVED) -/
  moved : List Nat := []
  /-- RULES applied: ownership is enforced (R32) -/
  enforced : Bool := false
  /-- balls the part drives, by ball code; unlisted: undriven; 1 low, 2 high (R185) -/
  balls : Assoc Nat := []
  /-- fc S has come: the outputs run (R187, R656) -/
  outputs : Bool := false
  tb : TbSt := {}
  cc : Assoc CmpSt := []
  cp : Assoc CpSt := []
  eg : Assoc EgSt := []
  tg : Assoc TgSt := []
  /-- comparators whose output is active now (R194) -/
  asyncSrc : List Nat := []
  /-- the levels of the TRIP balls as last seen (R194): ball, high; a ball not listed is at the level that does not assert -/
  tripLv : Assoc Bool := []
  ll : Assoc LlSt := []
  lu : Assoc LuSt := []
  /-- NT of each engine: its tasks (R381, EMODE.NT) -/
  nt : Assoc Nat := []
  /-- engines locked up (R525) -/
  lockedUp : List Nat := []
  /-- engines whose lockup does not yet force: engine, the fc from which it does (O7) -/
  lockWait : List (Nat × Nat) := []
  /-- the fc from which fencing or the loss of permission forces, while it does not yet (O8) -/
  pvWait : Option Nat := none
  /-- ownership keys whose forcing lasts to fc D + 2,048 of a takeover (R192, R750) -/
  heldKeys : List Nat := []
  ad : Assoc AdSt := []
  ac : Assoc AcSt := []
  sd : Assoc SdSt := []
  hl : Assoc HlSt := []
  fires : List FireToLane := []
  fb : Assoc FbSt := []
  emu : Assoc EmuSt := []
  /-- every memory byte: the TCMs and tag planes at their window addresses, the SRAMs, the flash array at its read
  window; unlisted: `memDefault` -/
  mem : List Host.Cell := []
  /-- the syndrome of each on-chip granule (R558), by granule number; unlisted: 0, good -/
  syn : Assoc Nat := []
  /-- the accesses that wait for an odd slot (R549, R552): slot, agent, the last fc it asked in -/
  oddWant : List (Nat × Nat × Nat) := []
  /-- the agent that each odd slot was granted to last (R549, R552) -/
  oddLast : Assoc Nat := []
  /-- the stored check bits of each flash granule (R667); unlisted: erased -/
  flashChk : Assoc Nat := []
  /-- the flash sectors whose status is INCOMPLETE (R671) -/
  flashInc : List Nat := []
  scrub : Assoc ScrubSt := []
  fg : Assoc FgSt := []
  hc : Assoc HcSt := []
  /-- fires handed to the fire assembler, oldest first -/
  faFires : List FaFire := []
  /-- the queue of each head lane (R366), oldest first -/
  lq : Assoc (List Cell) := []
  eng : Assoc EngSt := []
  pendActs : List PendAct := []
  edges : List IrqEdge := []
  doze : Assoc DozeSt := []
  /-- the fc T in which the package became TAKING (R760) -/
  takingSince : Option Nat := none
  /-- takeovers in force (R750): cluster, dead engine, spare -/
  taken : List (Nat × Nat × Nat) := []
  /-- sources by die × 1024 + number -/
  icSrc : Assoc IcSrc := []
  /-- the fc of the last selection of each set, by die × 64 + set (R579) -/
  icLast : Assoc Nat := []
  cv : Assoc CvSt := []
  /-- writes to check-value units performed in this fc and applied in the next (R620): unit, offset, data -/
  cvq : List (Nat × Nat × Nat) := []
  gl : Assoc GlSt := []
  su : Assoc SuSt := []
  pv : PvSt := {}
  /-- the fc S in which the outputs started -/
  fcS : Option Nat := none
  dm : Assoc DmSt := []
  sp : SpSt := {}
  /-- the committed length of each job (R726) -/
  jobLen : Assoc Nat := []
  /-- the flash command in progress -/
  flCmd : Option FlCmd := none
  /-- the reads held at die F, oldest first (R669) -/
  flashQ : List FlRead := []
  /-- the status store beside INCOMPLETE: the sectors marked PINT and the last granule named (R676, R680) -/
  flashPint : List Nat := []
  flashPinta : Option Nat := none
  hp : HpSt := {}
  /-- what the host port has sent, oldest first -/
  hostOut : List HostOut := []
  /-- PIN_MAP (R654), by entry -/
  pinMap : Assoc Nat := []
  always : Always := {}
  tap : TapSt := {}
  /-- the package watchdog has raised its half-way edge since the last kick (R788) -/
  wdHalf : Bool := false
  /-- the package watchdog's time ends in this fc, unless this fc takes a kick (R787) -/
  wdLapse : Bool := false
  /-- a package reset to be asserted in the next fc, by its CAUSE; 16: SLEEP (R732, R783) -/
  resetDue : Option Nat := none
  /-- a RETRY waiting for a flash operation (R662) -/
  retry : Bool := false
  deriving DecidableEq, Repr

/-- The part as a package reset leaves it where flash is blank: PERMIT_OUT (ball code 2) low (R633), every other ball undriven;
FL_SEL shows a selector area without a selection, 682 generations free (R685, R687); every register not listed reads its
reset value (`regReset`). -/
def Block.atReset : Block := { regs := [(R.FL_SEL, 0x2AA00000)], balls := [(2, 1)] }

/-- The state: what the silicon fixes, the time base (R6), the part as it stands, the part as it stood at
the start of the fc (R114, R129, R388), and the commands that wait, first in first out. -/
structure State where
  hw : Hw := {}
  tick : Nat := 0
  now : Block := {}
  start : Block := {}
  pending : List Instr := []
  deriving DecidableEq, Repr

/-- What stops the part.  No command of this part ends in a fault. -/
inductive Fault where
  /-- raised by no command: the spec answers every access and every command with an effect (R40–R43, R50) -/
  | unreachable
  deriving DecidableEq, Repr

/-- Why a command is turned away. -/
inductive Refusal where
  /-- the row has no meaning yet; safe -/
  | notModelled (mnemonic : String)
  deriving DecidableEq, Repr

/-- The part right after its first power-on reset: flash and keys blank, no command waiting. -/
def State.reset : State := { now := Block.atReset, start := Block.atReset }

end Sys2Proof.Machine
end

