-- ==== Sys2Proof/Machine/Ops.lean ====
section
/-! DEFINITION. The operations every unit shares: bit fields, registers and their fields, counters and
sticky bits, presence, ownership, violation counting, free values. -/

namespace Sys2Proof.Machine

/-! ### Numbers as bit fields -/

/-- Bits `hi`..`lo` of a number. -/
def bits (w hi lo : Nat) : Nat := (w / 2 ^ lo) % 2 ^ (hi + 1 - lo)

/-- Bit `k` of a number. -/
def bit (w k : Nat) : Bool := (w / 2 ^ k) % 2 == 1

/-- `w` with bits `hi`..`lo` made `v`. -/
def setBits (w hi lo v : Nat) : Nat :=
  w - bits w hi lo * 2 ^ lo + (v % 2 ^ (hi + 1 - lo)) * 2 ^ lo

/-- An n-bit number read as two's complement. -/
def toSigned (n v : Nat) : Int :=
  let m := v % 2 ^ n
  if m < 2 ^ (n - 1) then (m : Int) else (m : Int) - (2 ^ n : Nat)

/-- An integer as an n-bit two's complement number. -/
def ofSigned (n : Nat) (v : Int) : Nat := (v % (2 ^ n : Nat)).toNat

/-- Clamp an integer to lo..hi. -/
def clampInt (lo hi v : Int) : Int := if v < lo then lo else if hi < v then hi else v

/-- Saturating addition below 2^n. -/
def satAdd (n a k : Nat) : Nat := if a + k < 2 ^ n then a + k else 2 ^ n - 1

/-- 0 or 1. -/
def b2n (b : Bool) : Nat := if b then 1 else 0

/-- The fine field and the tick field of a T64.6 time held in fine steps (R5). -/
def fineOf (t : Nat) : Nat := t % 64
def tickOf (t : Nat) : Nat := t / 64

/-- A time from its tick and fine fields. -/
def mkTime (tick fine : Nat) : Nat := tick * 64 + fine % 64

/-! ### The context of a command -/

/-- What a command reads but cannot change: the silicon, the tick count, the part at the start of the fc. -/
structure Ctx where
  hw : Hw
  tick : Nat
  start : Block

def State.ctx (s : State) : Ctx := ⟨s.hw, s.tick, s.start⟩

/-- Run a command's effect on the part: the queue, the time base and the silicon stay. -/
def State.run (s : State) (f : Ctx → Block → Block) : Host.Outcome State Fault Refusal :=
  .next { s with now := f s.ctx s.now }

/-- Do `f` when `p` holds; otherwise nothing happens (log entry 2). -/
def when (p : Bool) (f : Block → Block) (b : Block) : Block := if p then f b else b

/-! ### Registers -/

/-- Reset values other than 0 (R10): EG_TGgg_FIRST, IC_CTL, IC_SETss_CTL, CVnn_CFG of the COMPARE class, BOOT_STATUS, BOOT_RESET. -/
def regReset (a : Nat) : Word :=
  if 0x40208000 ≤ a ∧ a < 0x40208800 ∧ a % 0x40 = 0xC then 0xFF
  else if a = R.IC_CTL 0 ∨ a = R.IC_CTL 1 then 1
  else if (0x50101000 ≤ a ∧ a < 0x50102000 ∨ 0x51101000 ≤ a ∧ a < 0x51102000) ∧ a % 0x40 = 0x20 then 7
  else if 0x40800000 ≤ a ∧ a < 0x40800400 ∧ a % 0x40 = 0 then 0x80000000
  else if a = R.BOOT_STATUS then 0x00FFFF00
  else if a = R.BOOT_RESET then 1
  else 0

/-- The word a register holds. -/
def Block.rd (b : Block) (a : Nat) : Nat :=
  match b.regs.find? a with
  | some v => v.toNat
  | none => (regReset a).toNat

/-- Make a register hold a word. -/
def Block.wr (b : Block) (a v : Nat) : Block :=
  { b with regs := b.regs.setD (regReset a) a (BitVec.ofNat 32 v) }

/-- The registers are in the one canonical form: addresses rising, none listed at its reset value. -/
def Block.regsWf (b : Block) : Bool := Assoc.Canon regReset b.regs

/-- A field of a register. -/
def Block.get (b : Block) (f : Fld) : Nat := bits (b.rd f.addr) f.hi f.lo

/-- A one-bit field as a truth value. -/
def Block.on (b : Block) (f : Fld) : Bool := b.get f != 0

/-- Make a field hold a value; the rest of its register stays. -/
def Block.put (b : Block) (f : Fld) (v : Nat) : Block := b.wr f.addr (setBits (b.rd f.addr) f.hi f.lo v)

/-- Hardware sets a sticky (W1C) bit; R12 lets it outlast a software clear of the same fc. -/
def Block.flag (b : Block) (f : Fld) : Block :=
  let b := b.put f 1
  let mask := setBits (b.fc.hwSet.getD 0 f.addr) f.hi f.lo (2 ^ (f.hi + 1 - f.lo) - 1)
  { b with fc := { b.fc with hwSet := b.fc.hwSet.insert f.addr mask } }

/-- Hardware adds to a saturating counter field; R13 keeps it through a read of the same fc. -/
def Block.bump (b : Block) (f : Fld) (k : Nat) : Block :=
  let b := b.put f (satAdd (f.hi + 1 - f.lo) (b.get f) k)
  let key := f.addr * 32 + f.lo
  { b with fc := { b.fc with rcAdd := b.fc.rcAdd.insert key (b.fc.rcAdd.getD 0 key + k) } }

/-- A flag that hardware set in this fc is taken back: the bit is as at the fc's start, unless software has cleared it. -/
def Block.unflag (c : Ctx) (b : Block) (f : Fld) : Block :=
  let b := { b with fc := { b.fc with hwSet := b.fc.hwSet.insert f.addr (setBits (b.fc.hwSet.getD 0 f.addr) f.hi f.lo 0) } }
  b.put f (if bits (b.fc.cleared.getD 0 f.addr) f.hi f.lo = 0 then c.start.get f else 0)

/-- k counts that hardware made in this fc are taken back: the counter is what the fc's start, its reads and its other counts
make of it (R13). -/
def Block.unbump (c : Ctx) (b : Block) (f : Fld) (k : Nat) : Block :=
  let key := f.addr * 32 + f.lo
  let adds := b.fc.rcAdd.getD 0 key - k
  let base := if bits (b.fc.cleared.getD 0 f.addr) f.hi f.lo = 0 then c.start.get f else 0
  { b.put f (satAdd (f.hi + 1 - f.lo) base adds) with fc := { b.fc with rcAdd := b.fc.rcAdd.insert key adds } }

/-- Note the bits of a register that software has cleared. -/
def Block.noteClear (b : Block) (a m : Nat) : Block :=
  if m = 0 then b else { b with fc := { b.fc with cleared := b.fc.cleared.insert a (b.fc.cleared.getD 0 a ||| m) } }

/-- Hardware adds to a counter field that wraps. -/
def Block.wrapAdd (b : Block) (f : Fld) (k : Nat) : Block := b.put f (b.get f + k)

/-- The newest data a software write gave register `a` in this fc. -/
def Block.wroteThisFc (b : Block) (a : Nat) : Option Nat := b.fc.writes.find? a

/-- A read answers: the value the reading agent sees, and its tag (R40, R459). -/
def Block.answer (b : Block) (v tag : Nat) : Block := { b with resp := v, respTag := tag }

/-- The next free value (log entry 3). -/
def Block.free (b : Block) : Nat × Block :=
  (Config.freeValue b.freeCount, { b with freeCount := b.freeCount + 1 })

/-! ### Presence (R37–R42, R822) -/

/-- Unit counts of R39 for the three variants. -/
def pick (hw : Hw) (x y z : Nat) : Nat :=
  match hw.variant with
  | .kor2560 => x
  | .kor1280 => y
  | .kor0640 => z

def nEngines (hw : Hw) : Nat := pick hw 256 128 64
def nRegions (hw : Hw) : Nat := pick hw 8 4 2
def nClusters (hw : Hw) : Nat := pick hw 32 16 8
def nCC (hw : Hw) : Nat := pick hw 1024 512 256
def nCP (hw : Hw) : Nat := pick hw 128 64 32
def nEG (hw : Hw) : Nat := pick hw 96 48 24
def nLU (hw : Hw) : Nat := pick hw 32 16 8
def nAD (hw : Hw) : Nat := pick hw 32 16 8
def nAC (hw : Hw) : Nat := pick hw 64 32 16
def nHL (hw : Hw) : Nat := pick hw 16 8 4
def nFB (hw : Hw) : Nat := pick hw 24 12 6
def nEMU (hw : Hw) : Nat := pick hw 8 4 2
def nEV (hw : Hw) : Nat := pick hw 2048 1024 512
def nDM (hw : Hw) : Nat := pick hw 64 32 32
def nDies (hw : Hw) : Nat := pick hw 2 1 1

/-- Golbex lanes present, as a mask (PRES_LINK.SL). -/
def slMask (hw : Hw) : Nat := pick hw 0xFF 0x47 0x44

/-- Spool root ports present, as a mask (PRES_LINK.PE). -/
def peMask (hw : Hw) : Nat := pick hw 3 1 0

/-- Check-value units: READ class from CV00, COMPARE class from CV16 (R38, R39). -/
def cvPresent (hw : Hw) (n : Nat) : Bool := n < pick hw 16 8 8 || (16 ≤ n && n < 16 + pick hw 16 8 4)

/-- Is the die of horizontal-microcode engines (R20)? -/
def isKd2 (hw : Hw) : Bool := hw.variant == .kor0640

/-- The PRES registers (R39), by offset in the block. -/
def presValue (hw : Hw) (off : Nat) : Nat :=
  match off with
  | 0x00 => 0x0E70 * 65536 + (hw.step % 256) * 256 + pick hw 1 2 3
  | 0x04 => pick hw (0x300 + 0b1010 * 16 + 0xF) (0x300 + 0b0010 * 16 + 0xD) (0b0001 * 16 + 0xD)
  | 0x08 => nRegions hw * 2 ^ 24 + nClusters hw * 2 ^ 16 + nEngines hw
  | 0x0C => nCP hw * 65536 + nCC hw
  | 0x10 => nLU hw * 65536 + nEG hw * 256 + nEG hw
  | 0x14 => nLU hw * 65536 + nAC hw * 256 + nAD hw
  | 0x18 => nEMU hw * 2 ^ 24 + nHL hw * 65536 + nFB hw * 256 + nHL hw
  | 0x1C => pick hw 16 8 4 * 2 ^ 24 + pick hw 16 8 8 * 65536 + nEV hw
  | 0x20 => 64 * 65536 + peMask hw * 2 ^ 10 + 1 * 2 ^ 8 + slMask hw
  | _ => 0

/-! ### Ownership (R23–R36) -/

/-- Region and cluster of an engine (R18, R19). -/
def regionOf (e : Nat) : Nat := e / 32
def clusterOf (e : Nat) : Nat := e / 8

/-- Die of a region, cluster, engine. -/
def dieOfRegion (r : Nat) : Nat := r / 4

/-- Offsets of the ownership table by kind (R35). -/
def ownKey : EvUnit → Nat → Nat
  | .eg, n => 0x0000 + 4 * n
  | .hl, n => 0x0400 + 4 * n
  | .fg, n => 0x0A00 + 4 * n
  | .dm, n => 0x0C00 + 4 * n
  | .cc, n => 0x3000 + 4 * n
  | .cp, n => 0x4000 + 4 * n
  | .ad, n => 0x4200 + 4 * n
  | .ac, n => 0x4400 + 4 * n
  | .sd, n => 0x4600 + 4 * n
  | .fb, n => 0x4800 + 4 * n
  | .emu, n => 0x4A00 + 4 * n
  | .tg, n => 0x5000 + 4 * n
  | .fa, _ => 0x5FFC
  | .task, _ => 0x5FFC

def ownLL (n : Nat) : Nat := 0x0200 + 4 * n
def ownFbCmp (n c : Nat) : Nat := 0x0600 + 4 * (8 * n + c)
def ownEV (n : Nat) : Nat := 0x1000 + 4 * n
def ownLU (n : Nat) : Nat := 0x4C00 + 4 * n
def ownCV (n : Nat) : Nat := 0x4E00 + 4 * n

/-- The owner engine of an ownership-table entry; CE000 unless RULES names one (R24). -/
def Block.owner (b : Block) (key : Nat) : Nat := b.own.getD 0 key

/-! ### Violations (R50–R55) -/

/-- The categories of R52 that count in a set, by their offset. -/
inductive Violation where
  | absent | owner | locked | priv | loopdrop | merge | notblank | epoch
  deriving DecidableEq, Repr

def Violation.offset : Violation → Nat
  | .absent => 0x00
  | .owner => 0x04
  | .locked => 0x08
  | .priv => 0x0C
  | .loopdrop => 0x10
  | .merge => 0x14
  | .notblank => 0x18
  | .epoch => 0x1C

/-- Base of a counter set (R53): `none` the package set, `some r` the set of region r. -/
def vcBase : Option Nat → Nat
  | none => 0x40F00000
  | some r => (if r < 4 then 0x50F00000 else 0x51F00000) + (r % 4) * 0x100

/-- A violation counter. -/
def vcFld (set : Option Nat) (v : Violation) : Fld := ⟨vcBase set + v.offset, 15, 0⟩

/-- Count a violation k times in a set. -/
def Block.violate (b : Block) (set : Option Nat) (v : Violation) (k : Nat) : Block := b.bump (vcFld set v) k

/-- The set that counts an agent's violations (R52): the region of the engine, or of the owner of the DMA
channel; otherwise the package set. -/
def Block.setOf (b : Block) : Agent → Option Nat
  | .engine n => some (regionOf n)
  | .dma ch => some (regionOf (b.owner (ownKey .dm ch)))
  | .supervisor _ => none
  | .mnt => none
  | .host => none
  | .boot => none

/-- VCn_NZ (R53): bit k is 1 while counter k of the set is not 0. -/
def Block.vcNz (b : Block) (set : Option Nat) : Nat :=
  (List.range 8).foldl (fun a k => a + b2n (b.rd (vcBase set + 4 * k) != 0) * 2 ^ k) 0

/-! ### Unit state -/

def Block.ccSt (b : Block) (n : Nat) : CmpSt := b.cc.getD {} n
def Block.setCc (b : Block) (n : Nat) (v : CmpSt) : Block := { b with cc := b.cc.setD {} n v }
def Block.cpSt (b : Block) (n : Nat) : CpSt := b.cp.getD {} n
def Block.setCp (b : Block) (n : Nat) (v : CpSt) : Block := { b with cp := b.cp.setD {} n v }
def Block.egSt (b : Block) (n : Nat) : EgSt := b.eg.getD {} n
def Block.setEg (b : Block) (n : Nat) (v : EgSt) : Block := { b with eg := b.eg.setD {} n v }
def Block.tgSt (b : Block) (n : Nat) : TgSt := b.tg.getD {} n
def Block.setTg (b : Block) (n : Nat) (v : TgSt) : Block := { b with tg := b.tg.setD {} n v }
def Block.llSt (b : Block) (n : Nat) : LlSt := b.ll.getD {} n
def Block.setLl (b : Block) (n : Nat) (v : LlSt) : Block := { b with ll := b.ll.setD {} n v }
def Block.luSt (b : Block) (n : Nat) : LuSt := b.lu.getD {} n
def Block.setLu (b : Block) (n : Nat) (v : LuSt) : Block := { b with lu := b.lu.setD {} n v }
def Block.adSt (b : Block) (n : Nat) : AdSt := b.ad.getD {} n
def Block.setAd (b : Block) (n : Nat) (v : AdSt) : Block := { b with ad := b.ad.setD {} n v }
def Block.acSt (b : Block) (n : Nat) : AcSt := b.ac.getD {} n
def Block.setAc (b : Block) (n : Nat) (v : AcSt) : Block := { b with ac := b.ac.setD {} n v }
def Block.sdSt (b : Block) (n : Nat) : SdSt := b.sd.getD {} n
def Block.setSd (b : Block) (n : Nat) (v : SdSt) : Block := { b with sd := b.sd.setD {} n v }
def Block.hlSt (b : Block) (n : Nat) : HlSt := b.hl.getD {} n
def Block.setHl (b : Block) (n : Nat) (v : HlSt) : Block := { b with hl := b.hl.setD {} n v }
def Block.fbSt (b : Block) (n : Nat) : FbSt := b.fb.getD {} n
def Block.setFb (b : Block) (n : Nat) (v : FbSt) : Block := { b with fb := b.fb.setD {} n v }
def Block.emuSt (b : Block) (n : Nat) : EmuSt := b.emu.getD {} n
def Block.setEmu (b : Block) (n : Nat) (v : EmuSt) : Block := { b with emu := b.emu.setD {} n v }
def Block.fgSt (b : Block) (n : Nat) : FgSt := b.fg.getD {} n
def Block.setFg (b : Block) (n : Nat) (v : FgSt) : Block := { b with fg := b.fg.setD {} n v }
def Block.hcSt (b : Block) (n : Nat) : HcSt := b.hc.getD {} n
def Block.setHc (b : Block) (n : Nat) (v : HcSt) : Block := { b with hc := b.hc.setD {} n v }

def Block.engSt (b : Block) (e : Nat) : EngSt := b.eng.getD {} e
def Block.setEng (b : Block) (e : Nat) (v : EngSt) : Block := { b with eng := b.eng.setD {} e v }
def Block.taskSt (b : Block) (e k : Nat) : TaskSt := (b.engSt e).tasks.getD {} k
def Block.setTask (b : Block) (e k : Nat) (v : TaskSt) : Block :=
  let t := b.engSt e
  b.setEng e { t with tasks := t.tasks.setD {} k v }

/-- The engine that stands for engine e: the spare once a takeover has moved e's work (R750). -/
def Block.standIn (b : Block) (e : Nat) : Nat :=
  match b.taken.find? (fun t => t.2.1 == e) with
  | some t => t.2.2
  | none => e

/-- The engine a lane's law runs on (R750: a lane bound to a task of the dead engine delivers to the same task of the spare). -/
def Block.laneEng (b : Block) (n : Nat) : Nat := b.standIn (b.get (F.LL_CFG_ENG n))

/-- BOOT_KEYS: the state of each key slot, ELOCK (R644–R646). -/
def Block.keysWord (b : Block) : Nat :=
  b2n b.always.elock * 256 + (List.range 4).foldl (fun s k => s + (b.always.keys.getD k {}).st % 4 * 4 ^ k) 0

/-! ### Interrupt edges (R570) -/

/-- Source n sees a rising edge: it reaches each present die's controller 2 fc later. -/
def raiseEdge (c : Ctx) (n : Nat) (b : Block) : Block :=
  { b with edges := b.edges ++ (List.range (nDies c.hw)).map fun d => ⟨c.tick + 2, d, n⟩ }

end Sys2Proof.Machine
end

