-- ==== Sys2Proof/Machine/Float32.lean ====
section
/-! DEFINITION. IEEE 754 binary32, rounding to nearest with ties to even, subnormals kept, every NaN result 0x7FC00000 (R474),
computed on exact integers. -/

namespace Sys2Proof.Machine

namespace F32

def nan : Nat := 0x7FC00000
def inf (s : Bool) : Nat := b2n s * 2 ^ 31 + 0x7F800000
def zero (s : Bool) : Nat := b2n s * 2 ^ 31

def sign (w : Nat) : Bool := bit w 31
def isNan (w : Nat) : Bool := bits w 30 23 == 255 && bits w 22 0 != 0
def isInf (w : Nat) : Bool := bits w 30 23 == 255 && bits w 22 0 == 0
def isZero (w : Nat) : Bool := bits w 30 0 == 0

/-- Significand and exponent of a finite number: its magnitude is m × 2^e. -/
def mant (w : Nat) : Nat := if bits w 30 23 = 0 then bits w 22 0 else 2 ^ 23 + bits w 22 0
def expo (w : Nat) : Int := (if bits w 30 23 = 0 then 1 else (bits w 30 23 : Int)) - 150

/-- m × 2^−k rounded to an integer, ties to even. -/
def roundEven (m k : Nat) : Nat :=
  let q := m / 2 ^ k
  let r := m % 2 ^ k
  if 2 * r > 2 ^ k then q + 1 else if 2 * r = 2 ^ k then q + q % 2 else q

/-- The binary32 number nearest to ±m × 2^e. -/
def round (s : Bool) (m : Nat) (e : Int) : Nat :=
  if m = 0 then zero s
  else
    let lead : Int := e + m.log2
    let q : Int := if lead - 23 < -149 then -149 else lead - 23
    let x := if q ≤ e then m * 2 ^ (e - q).toNat else roundEven m (q - e).toNat
    let v := (q + 149).toNat * 2 ^ 23 + x
    if v ≥ 0x7F800000 then inf s else b2n s * 2 ^ 31 + v

/-- A signed integer times 2^e as a binary32 number. -/
def ofInt (v : Int) (e : Int) : Nat := round (v < 0) v.natAbs e

/-- The exact value of a finite number in units of 2^e, for e no greater than its own exponent. -/
def toUnits (w : Nat) (e : Int) : Int :=
  let m : Int := (mant w * 2 ^ (expo w - e).toNat : Nat)
  if sign w then -m else m

/-- Order-preserving integer of a number that is no NaN; both zeros give 0. -/
def key (w : Nat) : Int := if sign w then -(bits w 30 0 : Int) else bits w 30 0

def eq (a z : Nat) : Bool := !isNan a && !isNan z && key a == key z
def lt (a z : Nat) : Bool := !isNan a && !isNan z && key a < key z

def neg (a : Nat) : Nat := if isNan a then nan else setBits a 31 31 (b2n !(sign a))
def abs (a : Nat) : Nat := if isNan a then nan else setBits a 31 31 0

def add (a z : Nat) : Nat :=
  if isNan a || isNan z then nan
  else if isInf a then (if isInf z && sign a != sign z then nan else a)
  else if isInf z then z
  else
    let e := if expo a ≤ expo z then expo a else expo z
    let v := toUnits a e + toUnits z e
    if v = 0 then zero (sign a && sign z) else ofInt v e

def sub (a z : Nat) : Nat := if isNan z then nan else add a (neg z)

def mul (a z : Nat) : Nat :=
  let s := sign a != sign z
  if isNan a || isNan z then nan
  else if isInf a || isInf z then (if isZero a || isZero z then nan else inf s)
  else round s (mant a * mant z) (expo a + expo z)

/-- The smaller; −0 lies below +0. -/
def min (a z : Nat) : Nat :=
  if isNan a then (if isNan z then nan else z) else if isNan z then a
  else if key a < key z || (key a == key z && sign a) then a else z

/-- The larger. -/
def max (a z : Nat) : Nat :=
  if isNan a then (if isNan z then nan else z) else if isNan z then a
  else if key z < key a || (key a == key z && !sign a) then a else z

end F32

/-- The integer square root, by bits from bit k down. -/
def isqrtFrom (n : Nat) : Nat → Nat → Nat
  | 0, r => r
  | k + 1, r => isqrtFrom n k (if (r + 2 ^ k) * (r + 2 ^ k) ≤ n then r + 2 ^ k else r)

def isqrt (n : Nat) : Nat := isqrtFrom n (n.log2 / 2 + 1) 0

namespace F32

/-- The correctly rounded root; a negative non-zero operand gives a NaN (R473). -/
def sqrt (a : Nat) : Nat :=
  if isNan a then nan
  else if isZero a then a
  else if sign a then nan
  else if isInf a then a
  else
    let odd := (expo a) % 2 != 0
    let m := (if odd then 2 * mant a else mant a) * 2 ^ 60
    let e : Int := (if odd then expo a - 1 else expo a) - 60
    let r := isqrt m
    round false (2 * r + b2n (r * r != m)) (e / 2 - 1)

/-- A number in units of 2^−f as an integer: to nearest, ties to even, infinities beyond every format, a NaN 0 (R475). -/
def toFixed (w f : Nat) : Int :=
  if isNan w then 0
  else if isInf w then (if sign w then -(2 ^ 200) else 2 ^ 200)
  else
    let e := expo w + f
    let v : Int := if 0 ≤ e then (mant w * 2 ^ e.toNat : Nat) else (roundEven (mant w) (-e).toNat : Nat)
    if sign w then -v else v

end F32

end Sys2Proof.Machine
end

