-- ==== Sys2Proof/Machine/RegMap.lean ====
section
/-! DEFINITION. The access codes of every register (R11), unit by unit, from the register tables of
spec/01–23: which offsets a unit's block assigns and which bits of them have which code. -/

namespace Sys2Proof.Machine

/-- The access codes of R11. -/
inductive Access where
  | rw | ro | wo | w1c | w1s | rc | img | lk
  deriving DecidableEq, Repr

/-- One field of a register, with its access code. -/
structure FieldSpec where
  hi : Nat
  lo : Nat
  acc : Access
  deriving DecidableEq, Repr

/-- A register, or `cnt` registers `stride` bytes apart, at offset `off` of its block. -/
structure RegRow where
  off : Nat
  cnt : Nat
  stride : Nat
  fields : List FieldSpec
  deriving DecidableEq, Repr

namespace RegMap

/-- The registers of a PRES block. -/
def presRows : List RegRow := [
  ⟨0x0, 1, 0x0, [⟨31, 16, .ro⟩, ⟨15, 8, .ro⟩, ⟨7, 0, .ro⟩]⟩,
  ⟨0x4, 1, 0x0, [⟨9, 9, .ro⟩, ⟨8, 8, .ro⟩, ⟨7, 6, .ro⟩, ⟨5, 4, .ro⟩, ⟨3, 0, .ro⟩]⟩,
  ⟨0x8, 1, 0x0, [⟨31, 24, .ro⟩, ⟨23, 16, .ro⟩, ⟨15, 0, .ro⟩]⟩,
  ⟨0xC, 1, 0x0, [⟨31, 16, .ro⟩, ⟨15, 0, .ro⟩]⟩,
  ⟨0x10, 1, 0x0, [⟨23, 16, .ro⟩, ⟨15, 8, .ro⟩, ⟨7, 0, .ro⟩]⟩,
  ⟨0x14, 1, 0x0, [⟨23, 16, .ro⟩, ⟨15, 8, .ro⟩, ⟨7, 0, .ro⟩]⟩,
  ⟨0x18, 1, 0x0, [⟨31, 24, .ro⟩, ⟨23, 16, .ro⟩, ⟨15, 8, .ro⟩, ⟨7, 0, .ro⟩]⟩,
  ⟨0x1C, 1, 0x0, [⟨31, 24, .ro⟩, ⟨23, 16, .ro⟩, ⟨15, 0, .ro⟩]⟩,
  ⟨0x20, 1, 0x0, [⟨31, 16, .ro⟩, ⟨11, 10, .ro⟩, ⟨9, 8, .ro⟩, ⟨7, 0, .ro⟩]⟩]

/-- The registers of a LL block. -/
def llRows : List RegRow := [
  ⟨0x0, 1, 0x0, [⟨31, 31, .img⟩, ⟨30, 30, .img⟩, ⟨29, 22, .img⟩, ⟨21, 16, .img⟩, ⟨15, 11, .img⟩, ⟨10, 8, .img⟩, ⟨7, 6, .img⟩, ⟨5, 5, .img⟩]⟩,
  ⟨0x4, 4, 0x4, [⟨31, 30, .img⟩, ⟨28, 24, .img⟩, ⟨23, 22, .img⟩, ⟨21, 16, .img⟩, ⟨15, 0, .img⟩]⟩,
  ⟨0x14, 1, 0x0, [⟨31, 31, .img⟩, ⟨30, 24, .img⟩, ⟨23, 23, .img⟩, ⟨22, 16, .img⟩, ⟨15, 15, .img⟩, ⟨14, 8, .img⟩]⟩,
  ⟨0x18, 1, 0x0, [⟨3, 3, .wo⟩, ⟨2, 2, .w1s⟩, ⟨1, 1, .rw⟩, ⟨0, 0, .rw⟩]⟩,
  ⟨0x1C, 1, 0x0, [⟨31, 24, .rc⟩, ⟨23, 16, .rc⟩, ⟨15, 0, .ro⟩]⟩,
  ⟨0x20, 1, 0x0, [⟨31, 0, .ro⟩]⟩,
  ⟨0x24, 4, 0x4, [⟨31, 0, .ro⟩]⟩]

/-- The registers of a LU block. -/
def luRows : List RegRow := [
  ⟨0x0, 16, 0x4, [⟨31, 0, .img⟩]⟩,
  ⟨0x40, 1, 0x0, [⟨4, 0, .img⟩]⟩,
  ⟨0x80, 16, 0x4, [⟨31, 0, .rw⟩]⟩,
  ⟨0xC0, 8, 0x4, [⟨31, 0, .rw⟩]⟩,
  ⟨0xE0, 1, 0x0, [⟨9, 9, .w1c⟩, ⟨8, 8, .w1c⟩, ⟨7, 0, .ro⟩]⟩,
  ⟨0xE8, 1, 0x0, [⟨31, 0, .ro⟩]⟩,
  ⟨0xEC, 1, 0x0, [⟨31, 0, .ro⟩]⟩]

/-- The registers of a TB block. -/
def tbRows : List RegRow := [
  ⟨0x0, 1, 0x0, [⟨31, 0, .ro⟩]⟩,
  ⟨0x4, 1, 0x0, [⟨31, 0, .ro⟩]⟩,
  ⟨0x10, 1, 0x0, [⟨31, 0, .ro⟩]⟩,
  ⟨0x14, 1, 0x0, [⟨31, 0, .ro⟩]⟩,
  ⟨0x18, 1, 0x0, [⟨31, 0, .ro⟩]⟩,
  ⟨0x1C, 1, 0x0, [⟨15, 0, .ro⟩]⟩]

/-- The registers of a CC block. -/
def ccRows : List RegRow := [
  ⟨0x0, 1, 0x0, [⟨2, 2, .rw⟩, ⟨1, 1, .rw⟩, ⟨0, 0, .rw⟩]⟩,
  ⟨0x4, 1, 0x0, [⟨3, 3, .ro⟩, ⟨2, 2, .w1c⟩, ⟨1, 1, .w1c⟩, ⟨0, 0, .w1c⟩]⟩,
  ⟨0x8, 1, 0x0, [⟨15, 0, .rc⟩]⟩,
  ⟨0xC, 1, 0x0, [⟨5, 0, .rw⟩]⟩,
  ⟨0x10, 1, 0x0, [⟨31, 0, .rw⟩]⟩,
  ⟨0x14, 1, 0x0, [⟨31, 0, .rw⟩]⟩,
  ⟨0x18, 1, 0x0, [⟨31, 0, .rw⟩]⟩]

/-- The registers of a CP block. -/
def cpRows : List RegRow := [
  ⟨0x0, 1, 0x0, [⟨23, 16, .img⟩, ⟨6, 4, .rw⟩, ⟨2, 2, .rw⟩, ⟨1, 1, .rw⟩, ⟨0, 0, .rw⟩]⟩,
  ⟨0x4, 1, 0x0, [⟨2, 2, .ro⟩, ⟨1, 1, .w1c⟩, ⟨0, 0, .ro⟩]⟩,
  ⟨0x8, 1, 0x0, [⟨31, 0, .ro⟩]⟩,
  ⟨0xC, 1, 0x0, [⟨31, 0, .ro⟩]⟩,
  ⟨0x10, 1, 0x0, [⟨31, 0, .ro⟩]⟩,
  ⟨0x14, 1, 0x0, [⟨31, 0, .ro⟩]⟩,
  ⟨0x18, 1, 0x0, [⟨13, 8, .ro⟩, ⟨5, 0, .ro⟩]⟩,
  ⟨0x1C, 1, 0x0, [⟨31, 0, .ro⟩]⟩]

/-- The registers of a EG block. -/
def egRows : List RegRow := [
  ⟨0x0, 1, 0x0, [⟨31, 31, .img⟩, ⟨30, 24, .rw⟩, ⟨23, 23, .rw⟩, ⟨22, 21, .rw⟩, ⟨20, 20, .rw⟩, ⟨19, 19, .rw⟩, ⟨18, 18, .rw⟩, ⟨17, 17, .rw⟩, ⟨16, 16, .rw⟩, ⟨15, 15, .rw⟩, ⟨14, 13, .img⟩, ⟨12, 12, .img⟩, ⟨11, 11, .img⟩, ⟨7, 4, .rw⟩]⟩,
  ⟨0x4, 1, 0x0, [⟨1, 1, .rw⟩, ⟨0, 0, .rw⟩]⟩,
  ⟨0x8, 1, 0x0, [⟨8, 8, .ro⟩, ⟨7, 7, .ro⟩, ⟨6, 6, .w1c⟩, ⟨5, 5, .w1c⟩, ⟨4, 4, .w1c⟩, ⟨3, 3, .w1c⟩, ⟨2, 2, .w1c⟩, ⟨1, 1, .w1c⟩, ⟨0, 0, .w1c⟩]⟩,
  ⟨0xC, 1, 0x0, [⟨5, 0, .rw⟩]⟩,
  ⟨0x10, 1, 0x0, [⟨31, 0, .rw⟩]⟩,
  ⟨0x14, 1, 0x0, [⟨31, 0, .rw⟩]⟩,
  ⟨0x18, 1, 0x0, [⟨31, 0, .rw⟩]⟩,
  ⟨0x1C, 1, 0x0, [⟨31, 0, .ro⟩]⟩,
  ⟨0x20, 1, 0x0, [⟨31, 0, .rw⟩]⟩,
  ⟨0x24, 1, 0x0, [⟨31, 0, .rw⟩]⟩,
  ⟨0x28, 1, 0x0, [⟨31, 0, .rw⟩]⟩,
  ⟨0x2C, 1, 0x0, [⟨31, 16, .rw⟩, ⟨15, 0, .rw⟩]⟩,
  ⟨0x30, 1, 0x0, [⟨31, 0, .rw⟩]⟩,
  ⟨0x34, 1, 0x0, [⟨31, 0, .rw⟩]⟩,
  ⟨0x38, 1, 0x0, [⟨31, 16, .ro⟩, ⟨15, 0, .rw⟩]⟩,
  ⟨0x3C, 1, 0x0, [⟨23, 16, .rc⟩, ⟨15, 0, .rc⟩]⟩,
  ⟨0x40, 1, 0x0, [⟨31, 0, .ro⟩]⟩,
  ⟨0x44, 1, 0x0, [⟨31, 0, .ro⟩]⟩,
  ⟨0x48, 1, 0x0, [⟨31, 0, .ro⟩]⟩,
  ⟨0x4C, 1, 0x0, [⟨3, 2, .img⟩, ⟨1, 0, .img⟩]⟩]

/-- The registers of a TG block. -/
def tgRows : List RegRow := [
  ⟨0x0, 1, 0x0, [⟨3, 3, .wo⟩, ⟨2, 2, .w1s⟩, ⟨1, 1, .w1s⟩, ⟨0, 0, .lk⟩]⟩,
  ⟨0x4, 1, 0x0, [⟨2, 2, .ro⟩, ⟨1, 1, .w1c⟩, ⟨0, 0, .ro⟩]⟩,
  ⟨0x8, 1, 0x0, [⟨7, 0, .rc⟩]⟩,
  ⟨0xC, 1, 0x0, [⟨7, 0, .ro⟩]⟩,
  ⟨0x10, 1, 0x0, [⟨31, 0, .ro⟩]⟩,
  ⟨0x14, 1, 0x0, [⟨31, 0, .img⟩]⟩,
  ⟨0x18, 1, 0x0, [⟨31, 0, .img⟩]⟩,
  ⟨0x1C, 1, 0x0, [⟨31, 16, .img⟩, ⟨15, 0, .img⟩]⟩,
  ⟨0x20, 3, 0x4, [⟨31, 0, .img⟩]⟩,
  ⟨0x2C, 1, 0x0, [⟨15, 0, .img⟩]⟩]

/-- The registers of a AD block. -/
def adRows : List RegRow := [
  ⟨0x0, 1, 0x0, [⟨20, 16, .rw⟩, ⟨11, 8, .rw⟩, ⟨1, 0, .rw⟩]⟩,
  ⟨0x4, 1, 0x0, [⟨2, 2, .wo⟩, ⟨1, 1, .wo⟩, ⟨0, 0, .rw⟩]⟩,
  ⟨0x8, 1, 0x0, [⟨31, 24, .rc⟩, ⟨19, 16, .ro⟩, ⟨12, 8, .ro⟩, ⟨4, 4, .w1c⟩, ⟨3, 3, .w1c⟩, ⟨2, 2, .w1c⟩, ⟨1, 1, .ro⟩, ⟨0, 0, .ro⟩]⟩,
  ⟨0xC, 1, 0x0, [⟨31, 31, .ro⟩, ⟨27, 24, .ro⟩, ⟨22, 16, .ro⟩, ⟨15, 0, .ro⟩]⟩,
  ⟨0x10, 1, 0x0, [⟨31, 0, .ro⟩]⟩,
  ⟨0x14, 1, 0x0, [⟨31, 0, .ro⟩]⟩,
  ⟨0x40, 16, 0x4, [⟨9, 9, .rw⟩, ⟨8, 8, .rw⟩, ⟨6, 0, .rw⟩]⟩]

/-- The registers of a AC block. -/
def acRows : List RegRow := [
  ⟨0x0, 1, 0x0, [⟨31, 31, .img⟩, ⟨30, 30, .img⟩, ⟨22, 16, .img⟩]⟩,
  ⟨0x4, 1, 0x0, [⟨9, 8, .rw⟩, ⟨1, 0, .rw⟩]⟩,
  ⟨0x8, 1, 0x0, [⟨11, 0, .rw⟩]⟩,
  ⟨0xC, 1, 0x0, [⟨23, 0, .rw⟩]⟩,
  ⟨0x10, 1, 0x0, [⟨11, 0, .rw⟩]⟩,
  ⟨0x14, 1, 0x0, [⟨9, 0, .rw⟩]⟩,
  ⟨0x18, 1, 0x0, [⟨27, 16, .ro⟩, ⟨2, 2, .w1c⟩, ⟨1, 1, .ro⟩, ⟨0, 0, .ro⟩]⟩,
  ⟨0x1C, 1, 0x0, [⟨15, 0, .rc⟩]⟩]

/-- The registers of a SD block. -/
def sdRows : List RegRow := [
  ⟨0x0, 1, 0x0, [⟨30, 30, .rw⟩, ⟨29, 29, .rw⟩, ⟨28, 28, .rw⟩, ⟨24, 16, .rw⟩, ⟨13, 8, .rw⟩]⟩,
  ⟨0x4, 1, 0x0, [⟨0, 0, .rw⟩]⟩,
  ⟨0x8, 1, 0x0, [⟨9, 0, .rw⟩]⟩,
  ⟨0xC, 1, 0x0, [⟨31, 0, .ro⟩]⟩,
  ⟨0x10, 1, 0x0, [⟨31, 0, .ro⟩]⟩,
  ⟨0x14, 1, 0x0, [⟨5, 5, .w1c⟩, ⟨4, 4, .w1c⟩, ⟨3, 3, .w1c⟩, ⟨2, 2, .w1c⟩, ⟨1, 1, .ro⟩, ⟨0, 0, .ro⟩]⟩]

/-- The registers of a HL block. -/
def hlRows : List RegRow := [
  ⟨0x0, 1, 0x0, [⟨31, 31, .img⟩, ⟨30, 30, .rw⟩, ⟨29, 26, .rw⟩, ⟨25, 25, .rw⟩, ⟨23, 12, .rw⟩, ⟨11, 0, .rw⟩]⟩,
  ⟨0x4, 1, 0x0, [⟨6, 4, .rw⟩, ⟨2, 2, .wo⟩, ⟨1, 1, .wo⟩, ⟨0, 0, .rw⟩]⟩,
  ⟨0x8, 1, 0x0, [⟨26, 24, .ro⟩, ⟨20, 20, .ro⟩, ⟨19, 19, .ro⟩, ⟨18, 18, .ro⟩, ⟨17, 17, .ro⟩, ⟨8, 8, .w1c⟩, ⟨7, 7, .w1c⟩, ⟨6, 6, .w1c⟩, ⟨5, 5, .w1c⟩, ⟨2, 2, .w1c⟩, ⟨1, 1, .w1c⟩, ⟨0, 0, .w1c⟩]⟩,
  ⟨0xC, 1, 0x0, [⟨31, 24, .rc⟩, ⟨23, 16, .rc⟩, ⟨15, 8, .rc⟩, ⟨7, 0, .rc⟩]⟩,
  ⟨0x10, 1, 0x0, [⟨31, 16, .rw⟩, ⟨15, 0, .rw⟩]⟩,
  ⟨0x14, 1, 0x0, [⟨31, 16, .rw⟩, ⟨15, 0, .rw⟩]⟩,
  ⟨0x18, 1, 0x0, [⟨27, 16, .rw⟩, ⟨11, 0, .rw⟩]⟩,
  ⟨0x1C, 1, 0x0, [⟨31, 16, .rw⟩, ⟨11, 0, .rw⟩]⟩,
  ⟨0x20, 1, 0x0, [⟨15, 0, .rw⟩]⟩,
  ⟨0x24, 1, 0x0, [⟨31, 31, .img⟩, ⟨30, 30, .img⟩, ⟨29, 29, .img⟩, ⟨20, 16, .img⟩, ⟨12, 8, .img⟩, ⟨4, 0, .img⟩]⟩,
  ⟨0x28, 1, 0x0, [⟨27, 16, .img⟩, ⟨11, 0, .img⟩]⟩,
  ⟨0x2C, 1, 0x0, [⟨27, 16, .img⟩, ⟨7, 0, .img⟩]⟩,
  ⟨0x30, 1, 0x0, [⟨31, 16, .ro⟩, ⟨11, 0, .ro⟩]⟩,
  ⟨0x34, 1, 0x0, [⟨31, 16, .ro⟩, ⟨15, 0, .ro⟩]⟩,
  ⟨0x38, 1, 0x0, [⟨31, 16, .ro⟩]⟩,
  ⟨0x3C, 1, 0x0, [⟨31, 0, .ro⟩]⟩,
  ⟨0x40, 8, 0x4, [⟨31, 31, .rw⟩, ⟨26, 16, .rw⟩, ⟨9, 0, .rw⟩]⟩,
  ⟨0x60, 1, 0x0, [⟨31, 0, .rc⟩]⟩,
  ⟨0x64, 1, 0x0, [⟨31, 0, .rc⟩]⟩]

/-- The registers of a HLPT block. -/
def hlptRows : List RegRow := [
  ⟨0x0, 1024, 0x8, [⟨31, 0, .rw⟩]⟩,
  ⟨0x4, 1024, 0x8, [⟨15, 0, .rw⟩]⟩]

/-- The registers of a FB block. -/
def fbRows : List RegRow := [
  ⟨0x0, 1, 0x0, [⟨30, 28, .rw⟩, ⟨27, 27, .rw⟩, ⟨26, 24, .rw⟩, ⟨23, 23, .rw⟩, ⟨22, 22, .rw⟩, ⟨21, 21, .rw⟩, ⟨20, 20, .rw⟩, ⟨19, 18, .rw⟩, ⟨17, 17, .rw⟩, ⟨16, 16, .rw⟩, ⟨12, 8, .rw⟩, ⟨5, 0, .rw⟩]⟩,
  ⟨0x4, 1, 0x0, [⟨3, 3, .wo⟩, ⟨2, 2, .wo⟩, ⟨0, 0, .rw⟩]⟩,
  ⟨0x8, 1, 0x0, [⟨10, 8, .ro⟩, ⟨7, 7, .w1c⟩, ⟨6, 6, .w1c⟩, ⟨5, 5, .ro⟩, ⟨4, 4, .ro⟩, ⟨3, 3, .ro⟩, ⟨0, 0, .ro⟩]⟩,
  ⟨0xC, 1, 0x0, [⟨31, 24, .rc⟩, ⟨23, 16, .rc⟩, ⟨15, 8, .rc⟩, ⟨7, 0, .rc⟩]⟩,
  ⟨0x10, 1, 0x0, [⟨31, 0, .rw⟩]⟩,
  ⟨0x14, 1, 0x0, [⟨16, 16, .ro⟩, ⟨15, 0, .ro⟩]⟩,
  ⟨0x18, 1, 0x0, [⟨31, 0, .ro⟩]⟩,
  ⟨0x1C, 1, 0x0, [⟨31, 0, .ro⟩]⟩,
  ⟨0x20, 1, 0x0, [⟨31, 0, .ro⟩]⟩,
  ⟨0x24, 1, 0x0, [⟨31, 0, .ro⟩]⟩,
  ⟨0x28, 1, 0x0, [⟨31, 31, .rw⟩, ⟨29, 28, .rw⟩, ⟨20, 16, .rw⟩, ⟨15, 0, .rw⟩]⟩,
  ⟨0x2C, 1, 0x0, [⟨31, 0, .rw⟩]⟩,
  ⟨0x30, 1, 0x0, [⟨31, 0, .rw⟩]⟩,
  ⟨0x34, 1, 0x0, [⟨31, 0, .ro⟩]⟩,
  ⟨0x38, 1, 0x0, [⟨31, 0, .ro⟩]⟩,
  ⟨0x3C, 1, 0x0, [⟨15, 0, .ro⟩]⟩,
  ⟨0x40, 1, 0x0, [⟨31, 0, .ro⟩]⟩,
  ⟨0x44, 1, 0x0, [⟨6, 4, .ro⟩, ⟨2, 0, .ro⟩]⟩,
  ⟨0x48, 1, 0x0, [⟨31, 20, .rw⟩, ⟨19, 18, .rw⟩, ⟨17, 8, .rw⟩, ⟨7, 0, .rw⟩]⟩,
  ⟨0x4C, 1, 0x0, [⟨31, 27, .rw⟩, ⟨26, 22, .rw⟩, ⟨21, 20, .rw⟩, ⟨17, 10, .rw⟩]⟩,
  ⟨0x50, 1, 0x0, [⟨19, 0, .rw⟩]⟩,
  ⟨0x54, 1, 0x0, [⟨31, 24, .rw⟩, ⟨23, 0, .rw⟩]⟩,
  ⟨0x58, 1, 0x0, [⟨31, 0, .rw⟩]⟩,
  ⟨0x5C, 1, 0x0, [⟨31, 31, .rw⟩, ⟨28, 24, .rw⟩, ⟨20, 16, .rw⟩, ⟨9, 8, .rw⟩]⟩,
  ⟨0x80, 4, 0x4, [⟨31, 0, .rw⟩]⟩,
  ⟨0x90, 8, 0x4, [⟨31, 0, .ro⟩]⟩,
  ⟨0x100, 8, 0x10, [⟨31, 16, .rc⟩, ⟨6, 6, .w1c⟩, ⟨5, 5, .w1c⟩, ⟨4, 4, .rw⟩, ⟨3, 2, .rw⟩, ⟨1, 1, .rw⟩, ⟨0, 0, .rw⟩]⟩,
  ⟨0x104, 8, 0x10, [⟨31, 0, .rw⟩]⟩,
  ⟨0x108, 8, 0x10, [⟨15, 0, .rw⟩]⟩,
  ⟨0x10C, 8, 0x10, [⟨31, 0, .rw⟩]⟩]

/-- The registers of a EMU block. -/
def emuRows : List RegRow := [
  ⟨0x0, 1, 0x0, [⟨31, 31, .img⟩, ⟨30, 30, .rw⟩, ⟨28, 24, .rw⟩, ⟨23, 23, .rw⟩]⟩,
  ⟨0x4, 1, 0x0, [⟨1, 1, .wo⟩, ⟨0, 0, .rw⟩]⟩,
  ⟨0x8, 1, 0x0, [⟨31, 16, .rw⟩, ⟨15, 0, .rw⟩]⟩,
  ⟨0xC, 1, 0x0, [⟨15, 0, .rw⟩]⟩,
  ⟨0x10, 1, 0x0, [⟨31, 0, .rw⟩]⟩,
  ⟨0x14, 1, 0x0, [⟨31, 0, .rw⟩]⟩,
  ⟨0x18, 1, 0x0, [⟨31, 0, .rw⟩]⟩,
  ⟨0x1C, 1, 0x0, [⟨31, 0, .rw⟩]⟩,
  ⟨0x20, 1, 0x0, [⟨15, 0, .rw⟩]⟩,
  ⟨0x24, 1, 0x0, [⟨31, 0, .ro⟩]⟩,
  ⟨0x28, 1, 0x0, [⟨31, 16, .ro⟩, ⟨1, 1, .w1c⟩, ⟨0, 0, .w1c⟩]⟩]

/-- The registers of a FG block. -/
def fgRows : List RegRow := [
  ⟨0x0, 1, 0x0, [⟨28, 24, .rw⟩, ⟨23, 23, .rw⟩]⟩,
  ⟨0x4, 1, 0x0, [⟨2, 2, .wo⟩, ⟨1, 1, .wo⟩, ⟨0, 0, .rw⟩]⟩,
  ⟨0x8, 1, 0x0, [⟨11, 11, .w1c⟩, ⟨10, 10, .w1c⟩, ⟨9, 9, .w1c⟩, ⟨8, 8, .w1c⟩, ⟨4, 4, .ro⟩, ⟨3, 3, .ro⟩, ⟨2, 2, .ro⟩, ⟨1, 1, .ro⟩]⟩,
  ⟨0xC, 1, 0x0, [⟨31, 16, .rw⟩, ⟨15, 0, .rw⟩]⟩,
  ⟨0x10, 1, 0x0, [⟨31, 0, .rw⟩]⟩,
  ⟨0x14, 1, 0x0, [⟨31, 8, .rw⟩]⟩,
  ⟨0x18, 1, 0x0, [⟨31, 0, .rw⟩]⟩,
  ⟨0x1C, 1, 0x0, [⟨31, 0, .rw⟩]⟩,
  ⟨0x20, 1, 0x0, [⟨31, 31, .rw⟩, ⟨2, 0, .rw⟩]⟩,
  ⟨0x24, 1, 0x0, [⟨31, 0, .rw⟩]⟩,
  ⟨0x28, 1, 0x0, [⟨31, 0, .ro⟩]⟩,
  ⟨0x2C, 1, 0x0, [⟨31, 0, .ro⟩]⟩,
  ⟨0x30, 1, 0x0, [⟨31, 8, .ro⟩]⟩,
  ⟨0x34, 1, 0x0, [⟨31, 0, .ro⟩]⟩,
  ⟨0x38, 1, 0x0, [⟨31, 0, .ro⟩]⟩,
  ⟨0x3C, 1, 0x0, [⟨5, 0, .ro⟩]⟩,
  ⟨0x40, 1, 0x0, [⟨15, 8, .rc⟩, ⟨7, 0, .rc⟩]⟩,
  ⟨0x44, 1, 0x0, [⟨15, 0, .ro⟩]⟩,
  ⟨0x48, 1, 0x0, [⟨3, 3, .rw⟩, ⟨2, 0, .rw⟩]⟩]

/-- The registers of a HC block. -/
def hcRows : List RegRow := [
  ⟨0x0, 1, 0x0, [⟨31, 31, .rw⟩, ⟨30, 27, .img⟩, ⟨26, 24, .img⟩, ⟨23, 16, .img⟩, ⟨15, 11, .img⟩, ⟨10, 7, .rw⟩]⟩,
  ⟨0x4, 1, 0x0, [⟨31, 5, .rw⟩]⟩,
  ⟨0x8, 1, 0x0, [⟨15, 0, .rw⟩]⟩,
  ⟨0xC, 1, 0x0, [⟨15, 0, .rw⟩]⟩,
  ⟨0x10, 1, 0x0, [⟨31, 0, .rw⟩]⟩,
  ⟨0x14, 1, 0x0, [⟨31, 0, .rw⟩]⟩,
  ⟨0x18, 1, 0x0, [⟨31, 0, .ro⟩]⟩,
  ⟨0x1C, 1, 0x0, [⟨15, 0, .rw⟩]⟩,
  ⟨0x20, 1, 0x0, [⟨31, 24, .rc⟩, ⟨23, 16, .rc⟩, ⟨15, 8, .rc⟩, ⟨1, 1, .w1c⟩]⟩]

/-- The registers of a LQ block. -/
def lqRows : List RegRow := [
  ⟨0x0, 1, 0x0, [⟨15, 0, .img⟩]⟩,
  ⟨0x4, 1, 0x0, [⟨20, 10, .ro⟩, ⟨7, 0, .rc⟩]⟩]

/-- The registers of a FA block. -/
def faRows : List RegRow := [
  ⟨0x0, 1, 0x0, [⟨13, 8, .ro⟩, ⟨5, 0, .ro⟩]⟩]

/-- The registers of a EV block. -/
def evRows : List RegRow := [
  ⟨0x0, 1, 0x0, [⟨1, 1, .w1s⟩, ⟨0, 0, .lk⟩]⟩,
  ⟨0x4, 1, 0x0, [⟨0, 0, .wo⟩]⟩,
  ⟨0x8, 1, 0x0, [⟨31, 24, .lk⟩, ⟨23, 8, .lk⟩, ⟨3, 0, .lk⟩]⟩,
  ⟨0xC, 1, 0x0, [⟨11, 8, .ro⟩, ⟨6, 4, .ro⟩, ⟨0, 0, .w1c⟩]⟩,
  ⟨0x10, 1, 0x0, [⟨15, 0, .rc⟩]⟩,
  ⟨0x20, 8, 0x4, [⟨31, 31, .lk⟩, ⟨30, 24, .lk⟩, ⟨23, 8, .lk⟩, ⟨7, 0, .lk⟩]⟩]

/-- The registers of a UC block. -/
def ucRows : List RegRow := [
  ⟨0x0, 1, 0x0, [⟨31, 16, .ro⟩, ⟨1, 0, .ro⟩]⟩,
  ⟨0x4, 1, 0x0, [⟨31, 24, .rc⟩, ⟨20, 16, .ro⟩, ⟨2, 2, .ro⟩, ⟨1, 1, .ro⟩, ⟨0, 0, .ro⟩]⟩,
  ⟨0x40, 16, 0x4, [⟨31, 31, .img⟩, ⟨30, 30, .img⟩, ⟨21, 16, .img⟩, ⟨10, 0, .img⟩]⟩]

/-- The registers of a SUM block. -/
def sumRows : List RegRow := [
  ⟨0x0, 4, 0x20, [⟨31, 16, .rc⟩, ⟨15, 0, .rc⟩]⟩,
  ⟨0x4, 4, 0x20, [⟨31, 5, .ro⟩]⟩,
  ⟨0x8, 4, 0x20, [⟨31, 5, .ro⟩]⟩,
  ⟨0x100, 1, 0x0, [⟨31, 16, .rc⟩, ⟨15, 0, .rc⟩]⟩,
  ⟨0x104, 1, 0x0, [⟨31, 5, .ro⟩]⟩,
  ⟨0x108, 1, 0x0, [⟨31, 5, .ro⟩]⟩,
  ⟨0x200, 1, 0x0, [⟨4, 1, .rw⟩, ⟨0, 0, .rw⟩]⟩,
  ⟨0x204, 1, 0x0, [⟨31, 16, .ro⟩, ⟨1, 1, .w1c⟩]⟩,
  ⟨0x208, 1, 0x0, [⟨31, 5, .ro⟩]⟩]

/-- The registers of a IC block. -/
def icRows : List RegRow := [
  ⟨0x0, 1, 0x0, [⟨1, 1, .w1s⟩, ⟨0, 0, .rw⟩]⟩,
  ⟨0x4, 1, 0x0, [⟨26, 16, .ro⟩, ⟨0, 0, .w1c⟩]⟩,
  ⟨0x100, 128, 0x8, [⟨31, 0, .rw⟩]⟩,
  ⟨0x104, 128, 0x8, [⟨31, 0, .rw⟩]⟩,
  ⟨0x1000, 64, 0x40, [⟨31, 31, .lk⟩, ⟨29, 22, .lk⟩, ⟨21, 16, .lk⟩]⟩,
  ⟨0x1004, 64, 0x40, [⟨31, 31, .lk⟩, ⟨29, 22, .lk⟩, ⟨21, 16, .lk⟩]⟩,
  ⟨0x1008, 64, 0x40, [⟨31, 31, .lk⟩, ⟨29, 22, .lk⟩, ⟨21, 16, .lk⟩]⟩,
  ⟨0x100C, 64, 0x40, [⟨31, 31, .lk⟩, ⟨29, 22, .lk⟩, ⟨21, 16, .lk⟩]⟩,
  ⟨0x1010, 64, 0x40, [⟨31, 31, .lk⟩, ⟨29, 22, .lk⟩, ⟨21, 16, .lk⟩]⟩,
  ⟨0x1014, 64, 0x40, [⟨31, 31, .lk⟩, ⟨29, 22, .lk⟩, ⟨21, 16, .lk⟩]⟩,
  ⟨0x1018, 64, 0x40, [⟨31, 31, .lk⟩, ⟨29, 22, .lk⟩, ⟨21, 16, .lk⟩]⟩,
  ⟨0x101C, 64, 0x40, [⟨31, 31, .lk⟩, ⟨29, 22, .lk⟩, ⟨21, 16, .lk⟩]⟩,
  ⟨0x1020, 64, 0x40, [⟨31, 31, .lk⟩, ⟨2, 0, .ro⟩]⟩,
  ⟨0x1024, 64, 0x40, [⟨25, 16, .ro⟩, ⟨8, 8, .ro⟩, ⟨7, 0, .ro⟩]⟩,
  ⟨0x2000, 1024, 0x10, [⟨31, 31, .lk⟩, ⟨29, 24, .lk⟩, ⟨23, 16, .lk⟩, ⟨15, 0, .lk⟩]⟩,
  ⟨0x2004, 1024, 0x10, [⟨31, 31, .ro⟩, ⟨30, 30, .ro⟩, ⟨29, 29, .w1c⟩, ⟨7, 0, .ro⟩]⟩,
  ⟨0x2008, 1024, 0x10, [⟨1, 1, .wo⟩, ⟨0, 0, .wo⟩]⟩]

/-- The registers of a DM block. -/
def dmRows : List RegRow := [
  ⟨0x0, 1, 0x0, [⟨31, 31, .ro⟩, ⟨30, 29, .rw⟩, ⟨28, 23, .rw⟩]⟩,
  ⟨0x4, 1, 0x0, [⟨2, 2, .wo⟩, ⟨1, 1, .wo⟩, ⟨0, 0, .wo⟩]⟩,
  ⟨0x8, 1, 0x0, [⟨18, 16, .ro⟩, ⟨8, 6, .ro⟩, ⟨5, 5, .w1c⟩, ⟨4, 4, .w1c⟩, ⟨3, 3, .w1c⟩, ⟨2, 2, .w1c⟩, ⟨1, 1, .ro⟩]⟩,
  ⟨0xC, 1, 0x0, [⟨31, 5, .rw⟩]⟩,
  ⟨0x10, 1, 0x0, [⟨11, 0, .rw⟩]⟩,
  ⟨0x14, 1, 0x0, [⟨11, 0, .rw⟩]⟩,
  ⟨0x18, 1, 0x0, [⟨31, 20, .ro⟩, ⟨19, 10, .ro⟩, ⟨9, 0, .ro⟩]⟩,
  ⟨0x1C, 1, 0x0, [⟨31, 16, .rw⟩, ⟨15, 0, .rw⟩]⟩,
  ⟨0x20, 1, 0x0, [⟨15, 0, .rw⟩]⟩,
  ⟨0x24, 1, 0x0, [⟨15, 0, .rc⟩]⟩]

/-- The registers of a CV block. -/
def cvRows : List RegRow := [
  ⟨0x0, 1, 0x0, [⟨31, 31, .ro⟩, ⟨30, 30, .rw⟩, ⟨29, 29, .rw⟩, ⟨28, 28, .rw⟩, ⟨27, 27, .rw⟩, ⟨26, 26, .rw⟩, ⟨25, 25, .rw⟩, ⟨24, 16, .rw⟩, ⟨5, 0, .rw⟩]⟩,
  ⟨0x4, 1, 0x0, [⟨31, 0, .rw⟩]⟩,
  ⟨0x8, 1, 0x0, [⟨31, 0, .rw⟩]⟩,
  ⟨0xC, 1, 0x0, [⟨31, 0, .rw⟩]⟩,
  ⟨0x10, 1, 0x0, [⟨3, 3, .wo⟩, ⟨2, 2, .wo⟩, ⟨1, 0, .rw⟩]⟩,
  ⟨0x14, 1, 0x0, [⟨31, 0, .wo⟩]⟩,
  ⟨0x18, 1, 0x0, [⟨31, 0, .rw⟩]⟩,
  ⟨0x1C, 1, 0x0, [⟨31, 0, .ro⟩]⟩,
  ⟨0x20, 1, 0x0, [⟨31, 0, .rw⟩]⟩,
  ⟨0x24, 1, 0x0, [⟨31, 16, .rw⟩, ⟨8, 8, .rw⟩, ⟨7, 0, .rw⟩]⟩,
  ⟨0x28, 1, 0x0, [⟨31, 24, .rc⟩, ⟨23, 16, .rc⟩, ⟨5, 5, .w1c⟩, ⟨4, 4, .ro⟩, ⟨3, 2, .ro⟩, ⟨1, 1, .ro⟩]⟩]

/-- The registers of a BOOT block. -/
def bootRows : List RegRow := [
  ⟨0x0, 1, 0x0, [⟨31, 30, .ro⟩, ⟨23, 16, .ro⟩, ⟨15, 8, .ro⟩, ⟨7, 0, .ro⟩]⟩,
  ⟨0x4, 1, 0x0, [⟨31, 24, .ro⟩, ⟨23, 0, .ro⟩]⟩,
  ⟨0x8, 1, 0x0, [⟨7, 6, .ro⟩, ⟨3, 0, .ro⟩]⟩,
  ⟨0xC, 1, 0x0, [⟨8, 8, .ro⟩, ⟨7, 0, .ro⟩]⟩,
  ⟨0x10, 1, 0x0, [⟨31, 0, .ro⟩]⟩,
  ⟨0x14, 1, 0x0, [⟨31, 0, .ro⟩]⟩,
  ⟨0x18, 1, 0x0, [⟨31, 0, .ro⟩]⟩,
  ⟨0x1C, 1, 0x0, [⟨31, 0, .ro⟩]⟩,
  ⟨0x20, 1, 0x0, [⟨31, 0, .ro⟩]⟩,
  ⟨0x24, 1, 0x0, [⟨31, 0, .ro⟩]⟩,
  ⟨0x40, 8, 0x4, [⟨31, 0, .ro⟩]⟩,
  ⟨0x80, 16, 0x4, [⟨31, 0, .ro⟩]⟩]

/-- The registers of a FL block. -/
def flRows : List RegRow := [
  ⟨0x0, 1, 0x0, [⟨3, 0, .wo⟩]⟩,
  ⟨0x4, 1, 0x0, [⟨31, 26, .rw⟩, ⟨25, 0, .rw⟩]⟩,
  ⟨0x8, 1, 0x0, [⟨31, 31, .ro⟩, ⟨27, 24, .ro⟩, ⟨23, 16, .ro⟩, ⟨15, 8, .ro⟩, ⟨1, 1, .w1c⟩, ⟨0, 0, .w1c⟩]⟩,
  ⟨0xC, 1, 0x0, [⟨4, 4, .w1s⟩, ⟨3, 3, .lk⟩, ⟨2, 2, .lk⟩, ⟨1, 1, .lk⟩, ⟨0, 0, .lk⟩]⟩,
  ⟨0x10, 1, 0x0, [⟨31, 31, .ro⟩, ⟨29, 20, .ro⟩, ⟨19, 10, .ro⟩, ⟨8, 8, .ro⟩, ⟨0, 0, .ro⟩]⟩,
  ⟨0x14, 1, 0x0, [⟨25, 5, .ro⟩, ⟨0, 0, .ro⟩]⟩,
  ⟨0x20, 8, 0x4, [⟨31, 0, .rw⟩]⟩,
  ⟨0x100, 64, 0x4, [⟨31, 0, .ro⟩]⟩]

/-- The registers of a GL block. -/
def glRows : List RegRow := [
  ⟨0x0, 1, 0x0, [⟨31, 30, .img⟩, ⟨29, 29, .img⟩, ⟨28, 24, .img⟩, ⟨23, 16, .rw⟩, ⟨15, 15, .img⟩, ⟨14, 14, .img⟩]⟩,
  ⟨0x4, 1, 0x0, [⟨1, 1, .wo⟩, ⟨0, 0, .rw⟩]⟩,
  ⟨0x8, 1, 0x0, [⟨26, 24, .ro⟩, ⟨16, 10, .ro⟩, ⟨9, 9, .w1c⟩, ⟨8, 8, .ro⟩, ⟨3, 3, .w1c⟩, ⟨2, 2, .w1c⟩, ⟨1, 1, .ro⟩, ⟨0, 0, .ro⟩]⟩,
  ⟨0xC, 1, 0x0, [⟨31, 24, .rc⟩, ⟨23, 16, .rc⟩, ⟨15, 8, .rc⟩, ⟨7, 0, .rc⟩]⟩,
  ⟨0x10, 1, 0x0, [⟨31, 16, .rc⟩, ⟨15, 8, .rc⟩, ⟨7, 0, .rc⟩]⟩,
  ⟨0x14, 1, 0x0, [⟨15, 0, .rc⟩]⟩,
  ⟨0x18, 1, 0x0, [⟨31, 0, .ro⟩]⟩,
  ⟨0x1C, 1, 0x0, [⟨31, 0, .ro⟩]⟩,
  ⟨0x20, 1, 0x0, [⟨31, 0, .ro⟩]⟩,
  ⟨0x24, 1, 0x0, [⟨15, 8, .ro⟩, ⟨7, 0, .ro⟩]⟩,
  ⟨0x40, 8, 0x4, [⟨31, 0, .rw⟩]⟩,
  ⟨0x60, 1, 0x0, [⟨31, 28, .rw⟩, ⟨27, 20, .rw⟩, ⟨11, 0, .rw⟩]⟩,
  ⟨0x80, 8, 0x4, [⟨31, 0, .ro⟩]⟩,
  ⟨0xA0, 1, 0x0, [⟨31, 0, .ro⟩]⟩,
  ⟨0xA4, 1, 0x0, [⟨31, 31, .ro⟩, ⟨30, 30, .ro⟩, ⟨29, 28, .ro⟩]⟩]

/-- The registers of a HP block. -/
def hpRows : List RegRow := [
  ⟨0x0, 1, 0x0, [⟨31, 31, .img⟩, ⟨30, 30, .img⟩, ⟨23, 16, .rw⟩, ⟨15, 0, .rw⟩]⟩,
  ⟨0x4, 1, 0x0, [⟨31, 31, .ro⟩, ⟨30, 30, .ro⟩, ⟨29, 27, .ro⟩, ⟨26, 22, .ro⟩, ⟨0, 0, .w1c⟩]⟩,
  ⟨0x8, 1, 0x0, [⟨31, 24, .rc⟩, ⟨23, 16, .rc⟩, ⟨15, 8, .rc⟩, ⟨7, 0, .rc⟩]⟩,
  ⟨0x10, 1, 0x0, [⟨31, 0, .img⟩]⟩,
  ⟨0x14, 1, 0x0, [⟨15, 0, .img⟩]⟩,
  ⟨0x18, 1, 0x0, [⟨31, 0, .img⟩]⟩,
  ⟨0x1C, 1, 0x0, [⟨31, 0, .img⟩]⟩,
  ⟨0x20, 1, 0x0, [⟨31, 0, .img⟩]⟩,
  ⟨0x24, 1, 0x0, [⟨31, 5, .img⟩]⟩,
  ⟨0x28, 1, 0x0, [⟨15, 0, .img⟩]⟩,
  ⟨0x2C, 1, 0x0, [⟨31, 31, .img⟩, ⟨29, 22, .img⟩, ⟨21, 16, .img⟩]⟩,
  ⟨0x30, 1, 0x0, [⟨31, 31, .ro⟩, ⟨24, 16, .ro⟩, ⟨15, 0, .ro⟩]⟩,
  ⟨0x34, 1, 0x0, [⟨31, 16, .wo⟩, ⟨15, 0, .wo⟩]⟩,
  ⟨0x100, 64, 0x4, [⟨31, 0, .ro⟩]⟩,
  ⟨0x200, 64, 0x4, [⟨31, 0, .rw⟩]⟩]

/-- The registers of a SP block. -/
def spRows : List RegRow := [
  ⟨0x0, 1, 0x0, [⟨31, 31, .img⟩, ⟨19, 16, .img⟩, ⟨15, 0, .rw⟩]⟩,
  ⟨0x8, 2, 0x4, [⟨31, 18, .img⟩]⟩]

/-- The registers of a PE block. -/
def peRows : List RegRow := [
  ⟨0x0, 1, 0x0, [⟨31, 29, .ro⟩, ⟨28, 26, .ro⟩, ⟨25, 23, .ro⟩, ⟨0, 0, .ro⟩]⟩,
  ⟨0x4, 1, 0x0, [⟨31, 0, .ro⟩]⟩,
  ⟨0x8, 1, 0x0, [⟨0, 0, .wo⟩]⟩,
  ⟨0xC, 1, 0x0, [⟨31, 24, .rc⟩, ⟨23, 16, .rc⟩]⟩,
  ⟨0x10, 1, 0x0, [⟨31, 24, .ro⟩, ⟨23, 16, .ro⟩, ⟨15, 0, .ro⟩]⟩]

/-- The registers of a JOB block. -/
def jobRows : List RegRow := [
  ⟨0x0, 1, 0x0, [⟨31, 30, .rw⟩, ⟨29, 29, .wo⟩, ⟨28, 28, .w1c⟩, ⟨4, 0, .rw⟩]⟩,
  ⟨0x4, 1, 0x0, [⟨31, 0, .ro⟩]⟩,
  ⟨0x8, 1, 0x0, [⟨31, 0, .ro⟩]⟩,
  ⟨0x10, 16, 0x8, [⟨31, 0, .rw⟩]⟩,
  ⟨0x14, 16, 0x8, [⟨31, 0, .rw⟩]⟩]

/-- The registers of a CL block. -/
def clRows : List RegRow := [
  ⟨0x0, 1, 0x0, [⟨31, 31, .img⟩, ⟨30, 30, .img⟩, ⟨29, 29, .img⟩, ⟨26, 24, .img⟩, ⟨23, 16, .img⟩]⟩,
  ⟨0x4, 1, 0x0, [⟨16, 0, .img⟩]⟩,
  ⟨0x8, 1, 0x0, [⟨31, 0, .img⟩]⟩,
  ⟨0xC, 1, 0x0, [⟨19, 5, .img⟩]⟩,
  ⟨0x10, 1, 0x0, [⟨31, 31, .ro⟩, ⟨30, 30, .ro⟩, ⟨29, 29, .ro⟩, ⟨26, 24, .ro⟩, ⟨23, 16, .ro⟩, ⟨15, 8, .ro⟩]⟩,
  ⟨0x14, 1, 0x0, [⟨31, 0, .ro⟩]⟩,
  ⟨0x100, 8, 0x4, [⟨31, 0, .wo⟩]⟩]

/-- The registers of a PV block. -/
def pvRows : List RegRow := [
  ⟨0x0, 1, 0x0, [⟨31, 31, .img⟩, ⟨30, 30, .img⟩, ⟨15, 0, .img⟩]⟩,
  ⟨0x4, 1, 0x0, [⟨31, 0, .img⟩]⟩,
  ⟨0x8, 1, 0x0, [⟨31, 30, .ro⟩, ⟨29, 29, .ro⟩, ⟨28, 28, .ro⟩, ⟨27, 27, .ro⟩, ⟨26, 26, .ro⟩, ⟨25, 25, .ro⟩]⟩,
  ⟨0xC, 1, 0x0, [⟨31, 0, .ro⟩]⟩,
  ⟨0x10, 1, 0x0, [⟨31, 0, .ro⟩]⟩,
  ⟨0x14, 1, 0x0, [⟨31, 24, .rc⟩, ⟨23, 16, .rc⟩]⟩,
  ⟨0x18, 1, 0x0, [⟨1, 1, .wo⟩, ⟨0, 0, .wo⟩]⟩]

/-- The registers of a PW block. -/
def pwRows : List RegRow := [
  ⟨0x0, 1, 0x0, [⟨31, 16, .wo⟩, ⟨0, 0, .wo⟩]⟩,
  ⟨0x4, 1, 0x0, [⟨0, 0, .w1c⟩]⟩,
  ⟨0x8, 1, 0x0, [⟨31, 16, .rw⟩, ⟨7, 0, .rw⟩]⟩,
  ⟨0xC, 1, 0x0, [⟨15, 8, .ro⟩, ⟨7, 0, .ro⟩]⟩,
  ⟨0x10, 1, 0x0, [⟨8, 8, .w1c⟩, ⟨6, 6, .ro⟩, ⟨5, 1, .ro⟩, ⟨0, 0, .ro⟩]⟩,
  ⟨0x14, 1, 0x0, [⟨9, 0, .w1c⟩]⟩,
  ⟨0x20, 1, 0x0, [⟨2, 2, .w1c⟩, ⟨1, 1, .w1s⟩, ⟨0, 0, .lk⟩]⟩,
  ⟨0x24, 1, 0x0, [⟨23, 0, .lk⟩]⟩,
  ⟨0x28, 1, 0x0, [⟨31, 0, .wo⟩]⟩,
  ⟨0x2C, 1, 0x0, [⟨23, 0, .ro⟩]⟩,
  ⟨0x40, 1, 0x0, [⟨8, 8, .rw⟩, ⟨7, 4, .rw⟩, ⟨3, 0, .rw⟩]⟩,
  ⟨0x44, 1, 0x0, [⟨31, 0, .rw⟩]⟩,
  ⟨0x48, 1, 0x0, [⟨15, 0, .rw⟩]⟩,
  ⟨0x50, 1, 0x0, [⟨31, 0, .ro⟩]⟩,
  ⟨0x54, 1, 0x0, [⟨15, 0, .ro⟩]⟩,
  ⟨0x58, 1, 0x0, [⟨15, 12, .ro⟩, ⟨11, 11, .ro⟩, ⟨10, 8, .ro⟩, ⟨3, 3, .w1c⟩, ⟨2, 2, .w1c⟩, ⟨0, 0, .ro⟩]⟩,
  ⟨0x100, 16, 0x10, [⟨31, 31, .ro⟩, ⟨15, 0, .ro⟩]⟩,
  ⟨0x104, 16, 0x10, [⟨31, 16, .rw⟩, ⟨7, 0, .rw⟩]⟩]

/-- The patch words of a horizontal-microcode (KD2) engine: `UCnnn_Pii_W0`–`W3`. -/
def ucKd2Rows : List RegRow := [⟨0x400, 256, 0x4, [⟨31, 0, .img⟩]⟩]

/-- The patch words of a two-level (KD4) engine: `UCnnn_Pii` and `UCnnn_Nii_W0`–`W4`. -/
def ucKd4Rows : List RegRow := [⟨0x400, 64, 0x4, [⟨17, 0, .img⟩]⟩, ⟨0x800, 32, 0x20, [⟨31, 0, .img⟩]⟩,
  ⟨0x804, 32, 0x20, [⟨31, 0, .img⟩]⟩, ⟨0x808, 32, 0x20, [⟨31, 0, .img⟩]⟩, ⟨0x80C, 32, 0x20, [⟨31, 0, .img⟩]⟩,
  ⟨0x810, 32, 0x20, [⟨31, 0, .img⟩]⟩]

end RegMap

end Sys2Proof.Machine
end

