-- ==== Sys2Proof/Machine/Access.lean ====
section
/-! DEFINITION. The package address map of the peripheral spaces (R44, R49), who owns a register (R23–R36),
and what a write or a read of a register does by its access codes (R11, R821, R12, R13). -/

namespace Sys2Proof.Machine

/-- The register blocks of the package map. -/
inductive RegUnit where
  | pres | own | boot | tb | cc | cp | eg | tg | ad | ac | sd | ll | lu | hl | hlpt | fb | emu | fg | hc | lq | fa
  | ev | ic | dm | cv | sum | cl | uc | vc | fl | gl | hp | sp | pe | job | pv | pw
  deriving DecidableEq, Repr

/-- A run of register blocks of one unit: the first instance, its base address, the stride, how many. -/
structure UnitRun where
  unit : RegUnit
  first : Nat
  base : Nat
  stride : Nat
  count : Nat
  rows : List RegRow

def unitRuns : List UnitRun := [
  ⟨.pres, 0, 0x40000000, 0x10000, 1, RegMap.presRows⟩, ⟨.boot, 0, 0x40010000, 0x10000, 1, RegMap.bootRows⟩,
  ⟨.tb, 0, 0x40100000, 0x10000, 1, RegMap.tbRows⟩, ⟨.cc, 0, 0x40110000, 0x20, 1024, RegMap.ccRows⟩,
  ⟨.cp, 0, 0x40120000, 0x20, 128, RegMap.cpRows⟩, ⟨.eg, 0, 0x40200000, 0x80, 96, RegMap.egRows⟩,
  ⟨.tg, 0, 0x40208000, 0x40, 32, RegMap.tgRows⟩, ⟨.ad, 0, 0x40300000, 0x100, 32, RegMap.adRows⟩,
  ⟨.ac, 0, 0x40320000, 0x40, 64, RegMap.acRows⟩, ⟨.sd, 0, 0x40340000, 0x40, 32, RegMap.sdRows⟩,
  ⟨.ll, 0, 0x40400000, 0x40, 96, RegMap.llRows⟩, ⟨.lu, 0, 0x40408000, 0x100, 32, RegMap.luRows⟩,
  ⟨.hl, 0, 0x40500000, 0x100, 16, RegMap.hlRows⟩, ⟨.hlpt, 0, 0x40580000, 0x2000, 16, RegMap.hlptRows⟩,
  ⟨.fb, 0, 0x40600000, 0x200, 24, RegMap.fbRows⟩, ⟨.emu, 0, 0x40680000, 0x40, 8, RegMap.emuRows⟩,
  ⟨.fg, 0, 0x40700000, 0x80, 16, RegMap.fgRows⟩, ⟨.hc, 0, 0x40710000, 0x40, 64, RegMap.hcRows⟩,
  ⟨.lq, 2, 0x40708020, 0x10, 6, RegMap.lqRows⟩, ⟨.fa, 0, 0x40708100, 0x10, 1, RegMap.faRows⟩,
  ⟨.ev, 0, 0x50000000, 0x40, 1024, RegMap.evRows⟩, ⟨.ev, 1024, 0x51000000, 0x40, 1024, RegMap.evRows⟩,
  ⟨.ic, 0, 0x50100000, 0x10000, 1, RegMap.icRows⟩, ⟨.ic, 1, 0x51100000, 0x10000, 1, RegMap.icRows⟩,
  ⟨.dm, 0, 0x50200000, 0x40, 32, RegMap.dmRows⟩, ⟨.dm, 32, 0x51200000, 0x40, 32, RegMap.dmRows⟩,
  ⟨.cv, 0, 0x50300000, 0x40, 8, RegMap.cvRows⟩, ⟨.cv, 8, 0x51300000, 0x40, 8, RegMap.cvRows⟩,
  ⟨.cv, 16, 0x40800000, 0x40, 16, RegMap.cvRows⟩,
  ⟨.cl, 0, 0x50400000, 0x1000, 16, RegMap.clRows⟩, ⟨.cl, 16, 0x51400000, 0x1000, 16, RegMap.clRows⟩,
  ⟨.uc, 0, 0x50480000, 0x1000, 128, RegMap.ucRows⟩, ⟨.uc, 128, 0x51480000, 0x1000, 128, RegMap.ucRows⟩,
  ⟨.sum, 0, 0x50600000, 0x10000, 1, RegMap.sumRows⟩, ⟨.sum, 1, 0x51600000, 0x10000, 1, RegMap.sumRows⟩,
  ⟨.fl, 0, 0x60000000, 0x10000, 1, RegMap.flRows⟩, ⟨.gl, 0, 0x40900000, 0x100, 8, RegMap.glRows⟩,
  ⟨.hp, 0, 0x40A00000, 0x10000, 1, RegMap.hpRows⟩, ⟨.sp, 0, 0x40B00000, 0x40, 1, RegMap.spRows⟩,
  ⟨.pe, 0, 0x40B00040, 0x20, 2, RegMap.peRows⟩, ⟨.job, 0, 0x40B10000, 0x100, 256, RegMap.jobRows⟩,
  ⟨.pv, 0, 0x40C00000, 0x10000, 1, RegMap.pvRows⟩, ⟨.pw, 0, 0x40D00000, 0x10000, 1, RegMap.pwRows⟩]

/-- A violation counter set and VCn_NZ (R53). -/
def vcRows : List RegRow := [⟨0x0, 8, 0x4, [⟨15, 0, .rc⟩]⟩, ⟨0x20, 1, 0x0, [⟨7, 0, .ro⟩]⟩]

/-- The rows of a block, by the hardware in hand: the patch words differ between die kinds (spec/13). -/
def UnitRun.rowsOn (hw : Hw) (u : UnitRun) : List RegRow :=
  match u.unit with
  | .uc => u.rows ++ (if isKd2 hw then RegMap.ucKd2Rows else RegMap.ucKd4Rows)
  | _ => u.rows

/-- Is the instance present (R38, R39, R822)? -/
def unitPresent (hw : Hw) : RegUnit → Nat → Bool
  | .cc, n => n < nCC hw
  | .cp, n => n < nCP hw
  | .eg, n => n < nEG hw
  | .ad, n => n < nAD hw
  | .ac, n => n < nAC hw
  | .sd, n => n < nAD hw
  | .ll, n => n < nEG hw
  | .lu, n => n < nLU hw
  | .hl, n => n < nHL hw
  | .hlpt, n => n < nHL hw
  | .fb, n => n < nFB hw
  | .emu, n => n < nEMU hw
  | .fg, n => n < nHL hw
  | .lq, n => bit (slMask hw) n
  | .ev, n => n < nEV hw
  | .ic, n => n < nDies hw
  | .dm, n => n < nDM hw
  | .cv, n => cvPresent hw n
  | .sum, n => n < nDies hw
  | .cl, n => n < nClusters hw
  | .uc, n => n < nEngines hw
  | .gl, n => bit (slMask hw) n
  | .pe, n => bit (peMask hw) n
  | .sp, _ => peMask hw != 0
  | .job, _ => peMask hw != 0
  | .pv, _ => true
  | _, _ => true

/-- A register found at an address: its unit, instance, offset in the block, fields. -/
structure Loc where
  unit : RegUnit
  inst : Nat
  off : Nat
  fields : List FieldSpec
  deriving DecidableEq, Repr

/-- The row that assigns an offset. -/
def rowAt (off : Nat) : List RegRow → Option RegRow
  | [] => none
  | r :: t =>
    if r.off ≤ off ∧ (off = r.off ∨ (r.stride ≠ 0 ∧ (off - r.off) % r.stride = 0 ∧ (off - r.off) / r.stride < r.cnt))
    then some r else rowAt off t

/-- Find an address among the runs. -/
def locateIn (hw : Hw) (a : Nat) : List UnitRun → Option Loc
  | [] => none
  | u :: t =>
    if u.base ≤ a ∧ a < u.base + u.stride * u.count then
      let inst := u.first + (a - u.base) / u.stride
      let off := (a - u.base) % u.stride
      if unitPresent hw u.unit inst then
        (rowAt off (u.rowsOn hw)).map fun r => ⟨u.unit, inst, off, r.fields⟩
      else none
    else locateIn hw a t

/-- The ownership table's kinds (R35): base, entries on the KOR-2560, entries of this variant. -/
def ownKinds (hw : Hw) : List (Nat × Nat × Nat) := [
  (0x0000, 96, nEG hw), (0x0200, 96, nEG hw), (0x0400, 16, nHL hw), (0x0600, 192, 8 * nFB hw), (0x0A00, 16, nHL hw),
  (0x0C00, 64, nDM hw), (0x1000, 2048, nEV hw), (0x3000, 1024, nCC hw), (0x4000, 128, nCP hw), (0x4200, 32, nAD hw),
  (0x4400, 64, nAC hw), (0x4600, 32, nAD hw), (0x4800, 24, nFB hw), (0x4A00, 8, nEMU hw), (0x4C00, 32, nLU hw),
  (0x4E00, 32, 32), (0x5000, 32, 32)]

/-- Is a table offset an entry of some kind, and is its instance present? -/
def ownEntry (hw : Hw) (off : Nat) : List (Nat × Nat × Nat) → Option Bool
  | [] => none
  | (base, n, p) :: t =>
    if base ≤ off ∧ off < base + 4 * n then
      let i := (off - base) / 4
      some (if base = 0x4E00 then cvPresent hw i else i < p)
    else ownEntry hw off t

/-- Find a peripheral register by its word address (R44, R49, R40). -/
def locate (hw : Hw) (a : Nat) : Option Loc :=
  if 0x40020000 ≤ a ∧ a < 0x40030000 then
    (ownEntry hw (a - 0x40020000) (ownKinds hw)).map fun _ => ⟨.own, 0, a - 0x40020000, [⟨31, 31, .ro⟩, ⟨16, 16, .ro⟩, ⟨7, 0, .ro⟩]⟩
  else if 0x40F00000 ≤ a ∧ a < 0x40F00100 then
    (rowAt (a - 0x40F00000) vcRows).map fun r => ⟨.vc, 8, a - 0x40F00000, r.fields⟩
  else if (0x50F00000 ≤ a ∧ a < 0x50F00400) ∨ (0x51F00000 ≤ a ∧ a < 0x51F00400) then
    let r := (if a < 0x51000000 then 0 else 4) + (a % 0x1000) / 0x100
    if r < nRegions hw then (rowAt (a % 0x100) vcRows).map fun w => ⟨.vc, r, a % 0x100, w.fields⟩ else none
  else locateIn hw a unitRuns

/-! ### Ownership of a register -/

/-- A register is owned when one of its fields is RW, WO, W1C, W1S or LK (R25). -/
def ownedFields (fs : List FieldSpec) : Bool :=
  fs.any fun f => f.acc == .rw || f.acc == .wo || f.acc == .w1c || f.acc == .w1s || f.acc == .lk

/-- The engine that owns a head context: the owner of the fire generator its CFG names (R355). -/
def Block.hcOwner (b : Block) (h : Nat) : Nat := b.owner (ownKey .fg (b.get (F.HC_CFG_FG h)))

/-- The engine that owns a register (R23, R24, R35, R355, R736; SU_CLcc_HBe: engine 8c + e, or the spare after
a takeover). -/
def Block.regOwner (b : Block) (u : RegUnit) (n off : Nat) : Nat :=
  match u with
  | .eg => b.owner (ownKey .eg n)
  | .ll => b.owner (ownLL n)
  | .hl => b.owner (ownKey .hl n)
  | .hlpt => b.owner (ownKey .hl n)
  | .fb => if 0x100 ≤ off then b.owner (ownFbCmp n ((off - 0x100) / 0x10)) else b.owner (ownKey .fb n)
  | .fg => b.owner (ownKey .fg n)
  | .dm => b.owner (ownKey .dm n)
  | .ev => b.owner (ownEV n)
  | .cc => b.owner (ownKey .cc n)
  | .cp => b.owner (ownKey .cp n)
  | .ad => b.owner (ownKey .ad n)
  | .ac => b.owner (ownKey .ac n)
  | .sd => b.owner (ownKey .sd n)
  | .emu => b.owner (ownKey .emu n)
  | .lu => b.owner (ownLU n)
  | .cv => b.owner (ownCV n)
  | .tg => b.owner (ownKey .tg n)
  | .hc => b.hcOwner n
  | .cl => if 0x100 ≤ off then b.standIn (8 * n + (off - 0x100) / 4) else b.standIn 0
  | .job => b.standIn (b.get F.HP_MBCFG_ENG)
  | .hp => b.standIn (if off = 0x34 ∨ 0x200 ≤ off then b.get F.HP_MBCFG_ENG else 0)
  | .ic => b.standIn (if 0x100 ≤ off ∧ off < 0x100 + 8 * 128 then n * 128 + (off - 0x100) / 8 else 0)
  | _ => b.standIn 0

/-- The engine on whose behalf an agent writes (R28, R31). -/
def Block.engineOf (b : Block) : Agent → Option Nat
  | .engine n => some n
  | .dma ch => some (b.owner (ownKey .dm ch))
  | .boot => some 0
  | .mnt => none
  | .host => none
  | .supervisor _ => none

/-- May the agent write this owned register (R26, R31, R32)? -/
def Block.mayWrite (b : Block) (ag : Agent) (l : Loc) : Bool :=
  !ownedFields l.fields || !b.enforced || b.engineOf ag == some (b.regOwner l.unit l.inst l.off)

/-! ### Access codes -/

/-- Are the LK fields of a register locked (R394, R199, R584, spec/19, spec/23)? -/
def Block.lkLocked (b : Block) (l : Loc) : Bool :=
  match l.unit with
  | .ev => b.on (F.EV_CTL_LOCK l.inst)
  | .tg => b.on (F.TG_CTL_LOCK l.inst)
  | .ic => b.on (F.IC_CTL_LOCK l.inst)
  | .fl => b.on F.FL_PROT_LOCK
  | .pw => b.on F.PW_WDT_CTL_LOCK
  | _ => false

/-- One field of a software write: the register's new word (R11, R12). -/
def writeField (boot locked : Bool) (keep old v : Nat) (f : FieldSpec) (w : Nat) : Nat :=
  let x := bits v f.hi f.lo
  let o := bits old f.hi f.lo
  match f.acc with
  | .rw => setBits w f.hi f.lo x
  | .w1s => setBits w f.hi f.lo (o ||| x)
  | .w1c => setBits w f.hi f.lo (o - (o &&& x) ||| (o &&& bits keep f.hi f.lo))
  | .lk => if locked then w else setBits w f.hi f.lo x
  | .img => if boot then setBits w f.hi f.lo x else w
  | .ro => w
  | .wo => w
  | .rc => w

/-- Would the write change an IMG field or a locked LK field (R821)? -/
def lockBreach (locked : Bool) (old v : Nat) (fs : List FieldSpec) : Bool :=
  fs.any fun f => (f.acc == .img || (f.acc == .lk && locked)) && bits old f.hi f.lo != bits v f.hi f.lo

/-- The unit key of R398: a register write clears the marks of its Hedgerow source. -/
def unitKey (u : EvUnit) (n : Nat) : Nat :=
  (match u with
   | .cc => 2 | .cp => 3 | .eg => 4 | .tg => 5 | .ad => 6 | .ac => 7 | .sd => 8 | .hl => 9 | .fb => 10 | .emu => 11
   | .fg => 12 | .fa => 13 | .dm => 0x20 | .task => 0x30) * 0x10000 + n

/-- The Hedgerow source a register belongs to. -/
def Loc.evKey (l : Loc) : Option Nat :=
  match l.unit with
  | .cc => some (unitKey .cc l.inst)
  | .cp => some (unitKey .cp l.inst)
  | .eg => some (unitKey .eg l.inst)
  | .tg => some (unitKey .tg l.inst)
  | .ad => some (unitKey .ad l.inst)
  | .ac => some (unitKey .ac l.inst)
  | .sd => some (unitKey .sd l.inst)
  | .hl => some (unitKey .hl l.inst)
  | .hlpt => some (unitKey .hl l.inst)
  | .fb => some (unitKey .fb l.inst)
  | .fg => some (unitKey .fg l.inst)
  | .hc => some (unitKey .fa 0)
  | .lq => some (unitKey .fa 0)
  | .fa => some (unitKey .fa 0)
  | .dm => some (unitKey .dm l.inst)
  | _ => none

/-- Note that the part performed a register write in this fc (R398; same-fc rules such as R128). -/
def Block.noteWrite (b : Block) (l : Loc) (a v : Nat) : Block :=
  let fc := { b.fc with writes := b.fc.writes.insert a v }
  { b with fc := match l.evKey with
      | some k => { fc with unitWr := k :: fc.unitWr }
      | none => fc }

/-- A software write of a register by its access codes (R11, R821), `lk` saying whether its LK fields are locked. -/
def Block.lkWrite (b : Block) (lk : Bool) (ag : Agent) (l : Loc) (a v : Nat) : Block :=
  let boot := ag == .boot
  let locked := lk && !boot
  let old := b.rd a
  let keep := b.fc.hwSet.getD 0 a
  let new := l.fields.foldl (fun w f => writeField boot locked keep old v f w) old
  let breach := !boot && lockBreach locked old v l.fields
  let gone := l.fields.foldl (fun m f => if f.acc == .w1c then setBits m f.hi f.lo (bits v f.hi f.lo) else m) 0
  let b := ((b.noteWrite l a v).wr a new).noteClear a gone
  if breach then b.violate (b.setOf ag) .locked 1 else b

/-- A software write of a register by its access codes alone. -/
def Block.plainWrite (b : Block) (ag : Agent) (l : Loc) (a v : Nat) : Block := b.lkWrite (b.lkLocked l) ag l a v

/-- What a read of a register with RC fields leaves in it (R11, R13): each RC field is cleared, but keeps
what hardware added in this fc. -/
def Block.afterRead (b : Block) (l : Loc) (a : Nat) : Block :=
  let new := l.fields.foldl (fun w f =>
    if f.acc == .rc then setBits w f.hi f.lo (satAdd (f.hi + 1 - f.lo) 0 (b.fc.rcAdd.getD 0 (a * 32 + f.lo))) else w) (b.rd a)
  let gone := l.fields.foldl (fun m f => if f.acc == .rc then setBits m f.hi f.lo (2 ^ (f.hi + 1 - f.lo) - 1) else m) 0
  (if new = b.rd a then b else b.wr a new).noteClear a gone

/-- What a read of a register that holds `w` returns by its access codes alone: a WO field reads 0 (R11), and so do the bits
that no field covers. -/
def readWord (w : Nat) (fs : List FieldSpec) : Nat :=
  fs.foldl (fun x f => if f.acc == .wo then x else setBits x f.hi f.lo (bits w f.hi f.lo)) 0

end Sys2Proof.Machine
end

