-- ==== Sys2Proof/Machine/Events.lean ====
section
/-! DEFINITION. Hedgerow, the event fabric (spec/09): emission, carriage, delivery, merging, the hop count. -/

namespace Sys2Proof.Machine

/-! ### Codes and sites (R379, R385) -/

/-- The KIND code of a unit. -/
def EvUnit.code : EvUnit → Nat
  | .cc => 0x02 | .cp => 0x03 | .eg => 0x04 | .tg => 0x05 | .ad => 0x06 | .ac => 0x07 | .sd => 0x08 | .hl => 0x09
  | .fb => 0x0A | .emu => 0x0B | .fg => 0x0C | .fa => 0x0D | .dm => 0x20 | .task => 0x30

/-- The unit of a KIND code; `none`: NONE or undefined. -/
def EvUnit.ofCode : Nat → Option EvUnit
  | 0x02 => some .cc | 0x03 => some .cp | 0x04 => some .eg | 0x05 => some .tg | 0x06 => some .ad | 0x07 => some .ac
  | 0x08 => some .sd | 0x09 => some .hl | 0x0A => some .fb | 0x0B => some .emu | 0x0C => some .fg | 0x0D => some .fa
  | 0x20 => some .dm | 0x30 => some .task | _ => none

/-- Does the unit have the event (R379)? -/
def EvUnit.hasEvent : EvUnit → Nat → Bool
  | .cc, e => e < 1 | .cp, e => e < 2 | .eg, e => e < 3 | .tg, e => e < 1 | .ad, e => e < 3 | .ac, e => e < 2
  | .sd, e => e < 2 | .hl, e => e < 6 | .fb, e => e < 7 || (8 ≤ e && e < 16) | .emu, _ => false | .fg, e => e < 4
  | .fa, e => e < 2 | .dm, e => e < 1 | .task, _ => false

/-- Does the unit have the action input (R379)? -/
def EvUnit.hasInput : EvUnit → Nat → Bool
  | .cc, i => i < 2 | .cp, i => i < 2 | .eg, i => i < 4 | .tg, i => i < 1 | .ad, i => i < 3 | .ac, i => i < 2
  | .sd, i => i < 1 | .hl, i => i < 2 | .fb, i => i < 3 | .emu, i => i < 1 | .fg, i => i < 2 | .fa, i => i < 64
  | .dm, i => i < 2 | .task, i => i < 1

/-- Is the instance present (R381, R38, R822)? A task is present below its engine's NT. -/
def Block.evPresent (b : Block) (hw : Hw) : EvUnit → Nat → Bool
  | .cc, n => n < nCC hw
  | .cp, n => n < nCP hw
  | .eg, n => n < nEG hw
  | .tg, n => n < 32
  | .ad, n => n < nAD hw
  | .ac, n => n < nAC hw
  | .sd, n => n < nAD hw
  | .hl, n => n < nHL hw
  | .fb, n => n < nFB hw
  | .emu, n => n < nEMU hw
  | .fg, n => n < nHL hw
  | .fa, n => n == 0
  | .dm, n => n < nDM hw
  | .task, n => n / 64 < nEngines hw && n % 64 < b.nt.getD 0 (n / 64)

/-- Where a source or an input lies (R379). -/
inductive Site where
  | dieA
  | region (r : Nat)
  | die (d : Nat)
  deriving DecidableEq, Repr

def siteOf : EvUnit → Nat → Site
  | .dm, n => .die (n / 32)
  | .task, n => .region (regionOf (n / 64))
  | _, _ => .dieA

/-- The crossing cost between two sites (R385, rows E1–E4). -/
def crossing : Site → Site → Nat
  | .dieA, .dieA => 1
  | .region r, .region q => if r = q then 1 else if r / 4 = q / 4 then 2 else 10
  | .region r, .die d => if r / 4 = d then 2 else 10
  | .die d, .region r => if r / 4 = d then 2 else 10
  | .die d, .die e => if d = e then 2 else 10
  | _, _ => 10

/-! ### Channels -/

/-- The number of a channel whose EVnnnn_CTL lies at an address. -/
def evChanOf (a : Nat) : Option Nat :=
  if 0x50000000 ≤ a ∧ a < 0x50010000 ∧ a % 0x40 = 0 then some ((a - 0x50000000) / 0x40)
  else if 0x51000000 ≤ a ∧ a < 0x51010000 ∧ a % 0x40 = 0 then some (1024 + (a - 0x51000000) / 0x40)
  else none

/-- The channels with EN = 1, of the registers that do not hold their reset value. -/
def Block.enabledChans (b : Block) : List Nat :=
  b.regs.filterMap fun (a, w) =>
    match evChanOf a with
    | some n => if bit w.toNat 0 then some n else none
    | none => none

/-- The input a DSTk word names, when it is valid (R377, R379). -/
def forkOf (w : Nat) : Option Input :=
  if bit w 31 then (EvUnit.ofCode (bits w 30 24)).map fun u => ⟨u, bits w 23 8, bits w 7 0⟩ else none

/-- The inputs of a channel's valid forks, each named once (R386, R389). -/
def Block.forksOf (b : Block) (n : Nat) : List Input :=
  ((List.range 8).filterMap fun k => forkOf (b.rd (R.EV_DST n k))).eraseDups

/-- The site of a channel's source; a software raise comes from the channel's home region (R379). -/
def Block.srcSite (b : Block) (n : Nat) : Site :=
  match EvUnit.ofCode (b.get (F.EV_SRC_KIND n)) with
  | some u => siteOf u (b.get (F.EV_SRC_INST n))
  | none => .region (n / 256)

/-- The latency D of a channel (R386): 0 when it has no valid fork. -/
def Block.chanLat (b : Block) (n : Nat) : Nat :=
  (b.forksOf n).foldl (fun d i => max d (crossing (b.srcSite n) (siteOf i.unit i.inst))) 0

/-! ### Emission (R382, R383, R399, R400) -/

/-- The key of one event of one unit instance. -/
def evKey (u : EvUnit) (n e : Nat) : Nat := unitKey u n * 16 + e

/-- The newest event of channel n in flight takes another hop count and fine field (R383). -/
def reviseLast (n hop : Nat) (fine : Option Nat) : List Flight → List Flight
  | [] => []
  | f :: t =>
    if f.chan = n ∧ !t.any (fun g => g.chan == n) then { f with hop := hop, fine := fine } :: t else f :: reviseLast n hop fine t

/-- Channel n carries an event in this fc, of its source or raised by software (`own`); its forks are those in force at the start of the
fc (R388). Each emission is carried (R382); a raise of the same fc is one event with it (R383). -/
def carry (c : Ctx) (n hop : Nat) (fine : Option Nat) (own : Bool) (b : Block) : Block :=
  let due := c.tick + c.start.chanLat n
  let forks := c.start.forksOf n
  let noted := { b with fc := { b.fc with carried := (n, own) :: b.fc.carried } }
  match b.fc.carried.find? (fun p => p.1 == n), own with
  | some (_, false), true =>
    { noted with flights := if forks.isEmpty then b.flights else reviseLast n hop fine b.flights }.put (F.EV_STAT_HOP n) hop
  | some _, false => b
  | _, _ =>
    let fl := if forks.isEmpty then b.flights else b.flights ++ [⟨n, due, hop, fine, forks⟩]
    ({ noted with flights := fl }.put (F.EV_STAT_HOP n) hop).bump (F.EV_CNT_CNT n) 1

/-- The set that counts a LOOPDROP at channel n for source u (R400). -/
def Block.loopSet (b : Block) (u : EvUnit) (inst : Nat) : Option Nat :=
  match u with
  | .dm => some (regionOf (b.owner (ownKey .dm inst)))
  | .task => some (regionOf (inst / 64))
  | _ => none

/-- The hop count an event leaves with (R399): one more than its mark's, 0 without a mark. -/
def Block.hopOf (b : Block) (key : Nat) : Nat :=
  match b.marks.find? key with
  | some m => m + 1
  | none => 0

/-- An event is emitted: its mark clears, and it is noted for this fc. -/
def Block.noteEmit (b : Block) (key : Nat) : Block :=
  { b with marks := b.marks.erase key, fc := { b.fc with emitted := key :: b.fc.emitted } }

/-- The enabled channels whose source is an event (R382). -/
def Block.chansOf (b : Block) (src : Nat) : List Nat := b.enabledChans.filter fun n => b.rd (R.EV_SRC n) == src

/-- One channel takes an event of hop count `hop`, or drops it at 8 (R400). -/
def emitOn (c : Ctx) (u : EvUnit) (inst hop : Nat) (fine : Option Nat) (b : Block) (n : Nat) : Block :=
  if 8 ≤ hop then b.violate (b.loopSet u inst) .loopdrop 1 else carry c n hop fine true b

/-- Unit instance `inst` emits event e in this fc, with a fine field or none. -/
def emit (c : Ctx) (u : EvUnit) (inst e : Nat) (fine : Option Nat) (b : Block) : Block :=
  (c.start.chansOf (u.code * 2 ^ 24 + inst * 256 + e)).foldl (emitOn c u inst (b.hopOf (evKey u inst e)) fine)
    (b.noteEmit (evKey u inst e))

/-- Was the event emitted in this fc already? -/
def Block.emittedNow (b : Block) (u : EvUnit) (inst e : Nat) : Bool := b.fc.emitted.contains (evKey u inst e)

/-- A software raise at channel n (R383, R384). -/
def swRaise (c : Ctx) (n : Nat) (b : Block) : Block :=
  if c.start.on (F.EV_CTL_EN n) then carry c n 0 none false b else b

/-- The registers an emission may change: those of event channels and violation counters. -/
def evRegion (a : Nat) : Prop :=
  (0x50000000 ≤ a ∧ a < 0x50010000) ∨ (0x51000000 ≤ a ∧ a < 0x51010000) ∨ (0x40F00000 ≤ a ∧ a < 0x40F00100) ∨
    (0x50F00000 ≤ a ∧ a < 0x50F00400) ∨ (0x51F00000 ≤ a ∧ a < 0x51F00400)

/-! ### Delivery and merging (R386, R387, R395–R398) -/

/-- The set that counts MERGE at an input (R52, R397). -/
def Block.mergeSet (b : Block) (i : Input) : Option Nat := b.loopSet i.unit i.inst

/-- The smaller of two fine fields, of those that carry one (R396). -/
def minFine : Option Nat → Option Nat → Option Nat
  | some x, some y => some (min x y)
  | some x, none => some x
  | none, y => y

/-- An action at an input that already has one in this fc merges with it, and MERGE counts. -/
def mergeInto (i : Input) (hop : Nat) (fine : Option Nat) (l : List Act) : List Act :=
  l.map fun a => if a.input = i then { a with hop := max a.hop hop, fine := minFine a.fine fine } else a

/-- Has an action reached the input in this fc? -/
def Block.acted (b : Block) (i : Input) : Bool := b.fc.latched.any fun a => a.input == i

/-- An action arrives at an input: alone, or merged with one of the same fc, which counts MERGE (R395). -/
def arrive (i : Input) (hop : Nat) (fine : Option Nat) (done : Bool) (b : Block) : Block :=
  if b.acted i then { b with fc := { b.fc with latched := mergeInto i hop fine b.fc.latched } }.violate (b.mergeSet i) .merge 1
  else { b with fc := { b.fc with latched := b.fc.latched ++ [⟨i, hop, fine, done⟩] } }

/-- Does the unit heed an action at the input? A START that finds a converter's or a head lane's EN 0, or an ARM a fire generator's, is
ignored, and nothing is counted (R215, R268, R344). -/
def Block.heeds (b : Block) (i : Input) : Bool :=
  match i.unit with
  | .ad => i.inp != 0 || b.on (F.AD_CTL_EN i.inst)
  | .hl => i.inp != 0 || b.on (F.HL_CTL_EN i.inst)
  | .fg => i.inp != 0 || b.on (F.FG_CTL_EN i.inst)
  | _ => true

/-- Note the hop count of an action latched at a unit (R398). -/
def noteHop (i : Input) (hop : Nat) (b : Block) : Block :=
  if i.unit = .task then b
  else
    let k := unitKey i.unit i.inst
    { b with fc := { b.fc with unitHop := b.fc.unitHop.insert k (max hop (b.fc.unitHop.getD 0 k)) } }

/-- Latch an action at an input through a channel or a direct binding. -/
def latch (c : Ctx) (i : Input) (hop : Nat) (fine : Option Nat) (b : Block) : Block :=
  let b := noteHop i hop b
  if c.start.heeds i then arrive i hop fine false b else b

/-- An activation of one kind (the bit of ACAUSE.KIND) reaches the ACTIVATE input of a task (R503). -/
def latchTask (inst kind irq : Nat) (b : Block) : Block :=
  let b := arrive ⟨.task, inst, 0⟩ 0 none false b
  { b with fc := { b.fc with taskAct := b.fc.taskAct ++ [(inst, kind, irq)] } }

/-- The task instance that stands in for one of an engine a spare has taken over (R405). -/
def Block.standInTask (b : Block) (inst : Nat) : Nat := b.standIn (inst / 64) * 64 + inst % 64

/-- A channel's event reaches one fork; an ACTIVATE of an engine that a spare has taken over is latched at the spare (R405). -/
def latchFork (c : Ctx) (f : Flight) (b : Block) (i : Input) : Block :=
  if i.unit = .task then latchTask (b.standInTask i.inst) 1 0 b else latch c i f.hop f.fine b

/-- Channel n delivers what falls due. -/
def deliver (c : Ctx) (n : Nat) (b : Block) : Block :=
  let due := b.flights.filter fun f => f.chan == n && f.due ≤ c.tick
  let b := { b with flights := b.flights.filter fun f => !(f.chan == n && f.due ≤ c.tick) }
  due.foldl (fun b f => f.forks.foldl (latchFork c f) b) b

/-- A software write that its unit treats as an arrival at an input (R395, R396): it merges with an action
of the same fc, or stands alone.  The truth value says that the unit acts now. -/
def swArrive (i : Input) (b : Block) : Bool × Block := (!b.acted i, arrive i 0 none true b)

/-- The action waiting at an input in this fc, taken: its unit acts on it now. -/
def Block.takeAct (b : Block) (i : Input) : Option (Act × Block) :=
  match b.fc.latched.find? (fun a => a.input == i && !a.done) with
  | some a =>
    let l := b.fc.latched.map fun x => if x.input = i then { x with done := true } else x
    some (a, { b with fc := { b.fc with latched := l } })
  | none => none

/-- Act on the action waiting at an input; without one nothing happens (log entry 2). -/
def onAct (i : Input) (f : Act → Block → Block) (b : Block) : Block :=
  match b.takeAct i with
  | some (a, b) => f a b
  | none => b

/-- The number of events a unit's marks cover. -/
def EvUnit.evCount : EvUnit → Nat
  | .fb => 16 | .hl => 6 | .fg => 4 | .emu => 0 | .task => 0 | _ => 3

/-- Set every mark of a unit (R398). -/
def setMarks (k hop n : Nat) (m : Assoc Nat) : Assoc Nat :=
  (List.range n).foldl (fun m e => m.insert (k * 16 + e) hop) m

/-- Clear every mark of a unit (R398). -/
def clearMarks (k : Nat) (m : Assoc Nat) : Assoc Nat := m.filter fun p => p.1 / 16 != k

/-- The unit of a unit key. -/
def evCountOfKey (k : Nat) : Nat :=
  match EvUnit.ofCode (k / 0x10000) with
  | some u => u.evCount
  | none => 0

/-- The marks at the end of an fc (R398). -/
def Block.endMarks (b : Block) : Assoc Nat :=
  let m := (b.fc.unitWr.filter fun k => (b.fc.unitHop.find? k).isNone).foldl (fun m k => clearMarks k m) b.marks
  b.fc.unitHop.foldl (fun m (k, h) => setMarks k h (evCountOfKey k) m) m

/-! ### Channel registers (R390–R394) -/

/-- Would R391 accept this EVnnnn_SRC word? -/
def Block.srcValid (b : Block) (hw : Hw) (v : Nat) : Bool :=
  let kind := bits v 31 24
  if kind = 0 then true
  else match EvUnit.ofCode kind with
    | some u => u.hasEvent (bits v 3 0) && b.evPresent hw u (bits v 23 8)
    | none => false

/-- Would R391 accept this DSTk word? -/
def Block.dstValid (b : Block) (hw : Hw) (v : Nat) : Bool :=
  if bit v 31 then
    match EvUnit.ofCode (bits v 30 24) with
    | some u => u.hasInput (bits v 7 0) && b.evPresent hw u (bits v 23 8)
    | none => false
  else true

/-- The engine that owns the resource an input belongs to (R392). -/
def Block.inputOwner (b : Block) (i : Input) : Nat :=
  match i.unit with
  | .task => i.inst / 64
  | .fa => b.hcOwner i.inp
  | u => b.owner (ownKey u i.inst)

/-- A write of a channel register by its access codes; LOCK takes effect from the fc after it arrives (R390). -/
def evPlainWrite (c : Ctx) (ag : Agent) (l : Loc) (a v : Nat) (b : Block) : Block := b.lkWrite (c.start.lkLocked l) ag l a v

/-- A write of EVnnnn_SRC; one with KIND NONE is taken whatever its other fields hold (log entry 136). -/
def evSrcWrite (c : Ctx) (ag : Agent) (l : Loc) (a v : Nat) (b : Block) : Block :=
  if b.srcValid c.hw v then evPlainWrite c ag l a v b
  else (b.noteWrite l a v).flag (F.EV_STAT_CFGERR l.inst)

/-- A write of a DSTk fork: judged for validity (R391), then for the input's owner (R392), then by the lock (R394). -/
def evDstWrite (c : Ctx) (ag : Agent) (l : Loc) (a v : Nat) (b : Block) : Block :=
  if !b.dstValid c.hw v then (b.noteWrite l a v).flag (F.EV_STAT_CFGERR l.inst)
  else
    match forkOf v with
    | some i =>
      if ag != .boot && b.inputOwner i != b.owner (ownEV l.inst) then b.violate (b.setOf ag) .owner 1
      else evPlainWrite c ag l a v b
    | none => evPlainWrite c ag l a (setBits (b.rd a) 31 31 0) b

/-- A write of EVnnnn_SW. -/
def evSwWrite (c : Ctx) (ag : Agent) (l : Loc) (a v : Nat) (b : Block) : Block :=
  let b := b.plainWrite ag l a v
  if bit v 0 then swRaise c l.inst b else b

end Sys2Proof.Machine
end

