-- ==== Sys2Proof/Machine/TimeBase.lean ====
section
/-! DEFINITION. Time base, compare channels and capture pairs (spec/03). -/

namespace Sys2Proof.Machine

/-! ### Compare values shared by CC and the carrier channels of EG (R118–R120, R124) -/

/-- A staged write of CMPF or CMPL (R118). -/
def CmpSt.stage (s : CmpSt) (fine : Bool) (v : Nat) : CmpSt :=
  if fine then { s with stF := v % 64 } else { s with stL := v }

/-- The value a write of CMPH commits (R118). -/
def CmpSt.commitVal (s : CmpSt) (h : Nat) : Nat := mkTime (h * 2 ^ 32 + s.stL) s.stF

/-- The read snapshot that a read of CMPL takes (R120). -/
def CmpSt.snap (s : CmpSt) : CmpSt := { s with snapF := fineOf s.val, snapH := tickOf s.val / 2 ^ 32 }

/-- The low tick word of the value in force (R120). -/
def CmpSt.low (s : CmpSt) : Nat := tickOf s.val % 2 ^ 32

/-- R124: the smallest k ≥ 1 for which v + k × ivl reaches tick m + 1. -/
def lateK (v ivl m : Nat) : Nat :=
  let target := (m + 1) * 64
  if v + ivl ≥ target then 1 else (target - v + ivl - 1) / ivl

/-! ### Compare channels -/

namespace CC
def startIn (n : Nat) : Input := ⟨.cc, n, 0⟩
def stopIn (n : Nat) : Input := ⟨.cc, n, 1⟩
end CC

/-- Does an accepted START replace the channel's value in this fc (R129, R130)? -/
def Block.ccStarted (b : Block) (n : Nat) : Bool := b.acted (CC.startIn n) && !b.acted (CC.stopIn n)

/-- Is a new value (commit or START) taking force after this fc (R129)? -/
def Block.ccReplaced (b : Block) (n : Nat) : Bool := b.ccStarted n || (b.wroteThisFc (R.CC_CMPH n)).isSome

/-- Does a software write of EN = 1 arrive in this fc (R131)? -/
def Block.ccEnWritten (b : Block) (n : Nat) : Bool :=
  match b.wroteThisFc (R.CC_CTL n) with
  | some v => bit v 0
  | none => false

/-- A match clears EN, unless a START or a write of EN = 1 arrives in the fc (R116, R117, R127, R131). -/
def ccClearEn (n : Nat) (b : Block) : Block :=
  if b.ccStarted n ∨ (b.ccEnWritten n ∧ !b.acted (CC.stopIn n)) then b else b.put (F.CC_CTL_EN n) 0

/-- A new auto-add value, unless a commit or a START replaces it (R129). -/
def ccNext (n v : Nat) (b : Block) : Block :=
  if b.ccReplaced n then b else b.setCc n { b.ccSt n with val := v }

/-- Is the channel's value in force due in this fc (R112, R114)? -/
def ccDue (c : Ctx) (n : Nat) : Bool := c.start.on (F.CC_CTL_EN n) && tickOf (c.start.ccSt n).val == c.tick

/-- Is the value in force behind (R121)? -/
def ccBehind (c : Ctx) (n : Nat) : Bool := c.start.on (F.CC_CTL_EN n) && tickOf (c.start.ccSt n).val < c.tick

/-- An on-time match (R112–R117). -/
def ccMatch (c : Ctx) (n : Nat) (b : Block) : Block :=
  when (ccDue c n && !b.emittedNow .cc n 0) (fun b =>
    let v := (c.start.ccSt n).val
    let ivl := c.start.get (F.CC_IVL_IVL n)
    let b := emit c .cc n 0 (some (fineOf v)) b
    if !c.start.on (F.CC_CTL_AA n) then ccClearEn n b
    else if ivl < 0x40 then (ccClearEn n b).flag (F.CC_STAT_IVLERR n)
    else ccNext n (v + ivl) b) b

/-- A late match, or a skipped one (R121–R125). -/
def ccLate (c : Ctx) (n : Nat) (b : Block) : Block :=
  when (ccBehind c n && !b.fc.judged.contains (evKey .cc n 0)) (fun b =>
    let b := { b with fc := { b.fc with judged := evKey .cc n 0 :: b.fc.judged } }
    let v := (c.start.ccSt n).val
    let ivl := c.start.get (F.CC_IVL_IVL n)
    let skip := c.start.on (F.CC_CTL_SKIP n)
    let b := b.flag (F.CC_STAT_LATE n)
    let b := if skip then b else emit c .cc n 0 (some (fineOf v)) b
    if !c.start.on (F.CC_CTL_AA n) then
      ccClearEn n (if skip then b.bump (F.CC_MISS_MISS n) 1 else b)
    else if ivl < 0x40 then
      (ccClearEn n (if skip then b.bump (F.CC_MISS_MISS n) 1 else b)).flag (F.CC_STAT_IVLERR n)
    else
      let k := lateK v ivl c.tick
      ccNext n (v + k * ivl) (b.bump (F.CC_MISS_MISS n) (if skip then k else k - 1))) b

/-- Are words staged that no commit of this fc but a lost one has taken (R118, R128)? -/
def Block.ccStaged (b : Block) (c : Ctx) (n : Nat) : Bool :=
  if (b.wroteThisFc (R.CC_CMPH n)).isSome then
    c.start.on (F.CC_STAT_STG n) || (b.wroteThisFc (R.CC_CMPF n)).isSome || (b.wroteThisFc (R.CC_CMPL n)).isSome
  else b.on (F.CC_STAT_STG n)

/-- START (R127, R128, R130): t:0 + IVL, in force from the next fc with EN set. -/
def ccStart (c : Ctx) (n : Nat) (b : Block) : Block :=
  onAct (CC.startIn n) (fun _ b =>
    if b.acted (CC.stopIn n) then b
    else
      let lost := (b.wroteThisFc (R.CC_CMPH n)).isSome ||
        (match b.wroteThisFc (R.CC_CTL n) with | some v => !bit v 0 | none => false)
      let b := b.setCc n { b.ccSt n with val := c.tick * 64 + c.start.get (F.CC_IVL_IVL n) }
      let b := (b.put (F.CC_CTL_EN n) 1).put (F.CC_STAT_STG n) (b2n (b.ccStaged c n))
      if lost then b.flag (F.CC_STAT_WCOL n) else b) b

/-- STOP (R127, R128). -/
def ccStop (_c : Ctx) (n : Nat) (b : Block) : Block :=
  onAct (CC.stopIn n) (fun _ b =>
    let lost := b.ccEnWritten n
    let b := b.put (F.CC_CTL_EN n) 0
    if lost then b.flag (F.CC_STAT_WCOL n) else b) b

/-- A write of CMPF or CMPL is staged (R118). -/
def ccStageWrite (fine : Bool) (l : Loc) (a v : Nat) (b : Block) : Block :=
  let b := b.noteWrite l a v
  (b.setCc l.inst ((b.ccSt l.inst).stage fine v)).put (F.CC_STAT_STG l.inst) 1

/-- A write of CMPH commits (R118), unless a START of this fc discards it (R128). -/
def ccCommitWrite (l : Loc) (a v : Nat) (b : Block) : Block :=
  let n := l.inst
  let b := b.noteWrite l a v
  if b.ccStarted n then b.flag (F.CC_STAT_WCOL n)
  else (b.put (F.CC_STAT_STG n) 0).setCc n { b.ccSt n with val := (b.ccSt n).commitVal v }

/-- A write of CTL: lost, as a whole, when a contrary action of this fc takes effect (R128, log entry 125). -/
def ccCtlWrite (ag : Agent) (l : Loc) (a v : Nat) (b : Block) : Block :=
  let n := l.inst
  if (b.acted (CC.stopIn n) ∧ bit v 0) ∨ (b.ccStarted n ∧ !bit v 0) then
    (b.noteWrite l a v).flag (F.CC_STAT_WCOL n)
  else b.plainWrite ag l a v

/-! ### Capture pairs -/

namespace CP
def armIn (n : Nat) : Input := ⟨.cp, n, 0⟩
def stopIn (n : Nat) : Input := ⟨.cp, n, 1⟩
end CP

/-- Is the pair's PIN an assigned entry of PIN_MAP (R654)? -/
def Block.cpWired (b : Block) (n : Nat) : Bool := b.pinMap.getD 0 (b.get (F.CP_CTL_PIN n)) != 0

/-! ### Sampled inputs (R133, R134, R823, F4, F5) -/

/-- The first sample, at a multiple of 4, that sees a change at instant t: the one in fc s shows the level before (s − 1):0. -/
def sampleOf (t : Nat) : Nat := (tickOf t + 5) / 4 * 4

/-- The fine step in which the outputs started: the inputs are judged from there on (log entry 164). -/
def Ctx.upAt (c : Ctx) : Nat := c.start.fcS.getD 0 * 64

/-- A level that a ball has had since before the outputs started: the first samples find it, and it is no change (log entry 164). -/
def standing (c : Ctx) (x : BallEdge) : Bool := x.t ≤ c.upAt

/-- The fc in which an edge that k agreeing samples qualify acts. -/
def edgeActsAt (c : Ctx) (x : BallEdge) (k : Nat) : Nat := sampleOf (max x.t c.upAt) + 4 * (k - 1) + 1

/-- Do the k samples of the run agree on a level? -/
def edgeAgrees (x : BallEdge) (k : Nat) (level : Bool) : Bool := (List.range k).all fun i => bit x.lv.toNat i == level

/-- The stamp. -/
def edgeStamp (x : BallEdge) : Nat := x.t + x.err.val - 2

/-- Does an edge to `level` qualify in this fc, under a filter of k samples? -/
def edgeQualifies (c : Ctx) (x : BallEdge) (k : Nat) (level : Bool) : Bool := edgeActsAt c x k == c.tick && edgeAgrees x k level

/-- The filter length at the sample of fc `at_`, FILT being `filt` now: a write of FILT counts from the next sample (R143). -/
def CpSt.kAt (s : CpSt) (filt at_ : Nat) : Nat := 1 + (((s.filts.filter fun w => at_ ≤ w.1).getLast?).map (·.2)).getD filt

/-- How many samples after the first of an agreeing run, seen in fc s, the edge qualifies: the first at which the run has the length
then asked for (R133, R143). -/
def CpSt.qualifies (s : CpSt) (filt first : Nat) : Nat :=
  ((List.range 8).find? fun j => s.kAt filt (first + 4 * j) ≤ j + 1).getD 7

/-- Does the pair take an edge to `level`, before INV, in this fc (R133, R654)? -/
def cpTakes (c : Ctx) (n : Nat) (level : Bool) (x : BallEdge) : Bool :=
  let first := sampleOf (max x.t c.upAt)
  let j := (c.start.cpSt n).qualifies (c.start.get (F.CP_CTL_FILT n)) first
  n < nCP c.hw && c.start.cpWired n && c.start.on (F.CP_CTL_EN n) && !standing c x && first + 4 * j + 1 == c.tick &&
    edgeAgrees x (j + 1) (level != c.start.on (F.CP_CTL_INV n))

/-- Does an action or a write of this fc clear EN (R142, R144)? -/
def Block.cpEnds (b : Block) (n : Nat) : Bool :=
  b.acted (CP.stopIn n) || (!b.acted (CP.armIn n) && (b.wroteThisFc (R.CP_CTL n)).any fun v => !bit v 0)

/-- A qualified rising edge: it opens a pair (R133–R137); one that EN is cleared in is discarded at once (R142). -/
def cpRise (c : Ctx) (n : Nat) (x : BallEdge) (b : Block) : Block :=
  when (cpTakes c n true x && !c.start.on (F.CP_STAT_OPEN n)) (fun b =>
    emit c .cp n 0 none ((b.setCp n { b.cpSt n with openRise := edgeStamp x }).put (F.CP_STAT_OPEN n) (b2n (!b.cpEnds n)))) b

/-- EN is cleared and an open pair discarded (R142). -/
def cpClose (n : Nat) (b : Block) : Block := (b.put (F.CP_CTL_EN n) 0).put (F.CP_STAT_OPEN n) 0

/-- A pair lands (R136, R138); with ONE set it clears EN (R142). -/
def cpLand (n rise fall : Nat) (one : Bool) (b : Block) : Block :=
  let b := b.setCp n { b.cpSt n with rise := rise, fall := fall, width := min (fall - rise) 0xFFFFFFFF }
  let unread := b.on (F.CP_STAT_NEW n)
  let b := b.put (F.CP_STAT_NEW n) 1
  let b := if unread then b.flag (F.CP_STAT_OVR n) else b
  if one then cpClose n b else b

/-- A qualified falling edge closes the open pair: it lands now, or in the next fc where a read of this fc has taken its snapshot
(R135–R138, R141). -/
def cpReady (c : Ctx) (n : Nat) (x : BallEdge) (b : Block) : Block :=
  when (cpTakes c n false x && c.start.on (F.CP_STAT_OPEN n)) (fun b =>
    let rise := (c.start.cpSt n).openRise
    let b := emit c .cp n 1 none (b.put (F.CP_STAT_OPEN n) 0)
    if b.fc.reads.contains (R.CP_RISE n) then b.setCp n { b.cpSt n with putOff := some (rise, edgeStamp x) }
    else cpLand n rise (edgeStamp x) (c.start.on (F.CP_CTL_ONE n)) b) b

/-- A pair that a read has put off lands (R141). -/
def cpPutOffLands (b : Block) (n : Nat) : Block :=
  let s := b.cpSt n
  match s.putOff with
  | some (rise, fall) => cpLand n rise fall (b.on (F.CP_CTL_ONE n)) (b.setCp n { s with putOff := none })
  | none => b

/-- ARM sets EN; STOP of the same fc wins (R144). -/
def cpArm (_c : Ctx) (n : Nat) (b : Block) : Block :=
  onAct (CP.armIn n) (fun _ b => if b.acted (CP.stopIn n) then b else b.put (F.CP_CTL_EN n) 1) b

/-- STOP clears EN and discards an open pair (R142, R144). -/
def cpStop (_c : Ctx) (n : Nat) (b : Block) : Block := onAct (CP.stopIn n) (fun _ b => cpClose n b) b

/-- A write of CTL: FILT only while EN is 0 (R143); EN = 0 discards an open pair (R142); where a contrary action of this fc wins,
the whole word is lost (R144, log entry 125). -/
def cpCtlWrite (c : Ctx) (ag : Agent) (l : Loc) (a v : Nat) (b : Block) : Block :=
  let n := l.inst
  let on := c.start.on (F.CP_CTL_EN n)
  let filt := b.get (F.CP_CTL_FILT n)
  let v := if on then setBits v 6 4 filt else v
  if (b.acted (CP.stopIn n) ∧ bit v 0) ∨ (b.acted (CP.armIn n) ∧ !b.acted (CP.stopIn n) ∧ !bit v 0) then b.noteWrite l a v
  else
    let b := if on then b else b.setCp n { b.cpSt n with
        filts := (c.tick, b.get (F.CP_CTL_FILT n)) :: (b.cpSt n).filts.filter fun w => c.tick ≤ w.1 + 32 }
    let b := b.plainWrite ag l a v
    if bit v 0 then b else b.put (F.CP_STAT_OPEN n) 0

/-- A read of RISE takes the snapshot and clears NEW; a pair that became ready in this fc is put off to the next (R139, R141). -/
def cpRiseRead (c : Ctx) (n : Nat) (b : Block) : Nat × Block :=
  let landing := b.emittedNow .cp n 1 && (b.cpSt n).putOff.isNone
  let p := if landing then c.start.cpSt n else b.cpSt n
  let s := b.cpSt n
  let s := if landing then { s with rise := p.rise, fall := p.fall, width := p.width, putOff := some (s.rise, s.fall) } else s
  let b := b.setCp n { s with sRise := p.rise, sFall := p.fall, sWidth := p.width }
  let b := { b with fc := { b.fc with reads := R.CP_RISE n :: b.fc.reads } }
  let b := if landing then
      (b.unflag c (F.CP_STAT_OVR n)).put (F.CP_CTL_EN n)
        (if b.cpEnds n then b.get (F.CP_CTL_EN n) else c.start.get (F.CP_CTL_EN n))
    else b
  (tickOf p.rise % 2 ^ 32, b.put (F.CP_STAT_NEW n) 0)

/-- The snapshot registers of a pair by offset (R140). -/
def Block.cpSnap (b : Block) (n off : Nat) : Nat :=
  let s := b.cpSt n
  match off with
  | 0x0C => tickOf s.sRise / 2 ^ 32
  | 0x10 => tickOf s.sFall % 2 ^ 32
  | 0x14 => tickOf s.sFall / 2 ^ 32
  | 0x18 => fineOf s.sFall * 256 + fineOf s.sRise
  | 0x1C => s.sWidth
  | _ => 0

/-! ### The time base's own registers -/

/-- A read of TB_LO snapshots the high word (R105). -/
def tbLoRead (c : Ctx) (b : Block) : Nat × Block :=
  (c.tick % 2 ^ 32, { b with tb := { b.tb with hiSnap := c.tick / 2 ^ 32 % 2 ^ 32 } })

/-- A read of TB_LCT_LO returns the correlation set as it stood at the start of the fc, and snapshots the
other three registers (R111). -/
def tbLctRead (c : Ctx) (b : Block) : Nat × Block :=
  let t := c.start.tb
  (t.lct % 2 ^ 32, { b with tb := { b.tb with lctHiSnap := t.lct / 2 ^ 32, lclSnap := t.lcl } })

/-- The TB registers by offset. -/
def Block.tbReg (b : Block) (off : Nat) : Nat :=
  match off with
  | 0x04 => b.tb.hiSnap
  | 0x14 => b.tb.lctHiSnap % 2 ^ 32
  | 0x18 => b.tb.lclSnap % 2 ^ 32
  | 0x1C => b.tb.lclSnap / 2 ^ 32 % 65536
  | _ => 0

end Sys2Proof.Machine
end

