-- ==== Sys2Proof/Machine/EdgeGen.lean ====
section
/-! DEFINITION. Edge generators (spec/04): carriers, pulses, shadows, actions, and what their balls show. -/

namespace Sys2Proof.Machine

namespace EG
def startIn (n : Nat) : Input := ⟨.eg, n, 0⟩
def stopIn (n : Nat) : Input := ⟨.eg, n, 1⟩
def loadIn (n : Nat) : Input := ⟨.eg, n, 2⟩
def clearIn (n : Nat) : Input := ⟨.eg, n, 3⟩
end EG

/-! ### Balls (R146, R160–R162, R185–R192) -/

/-- Ball code of EDGk. -/
def ballEdg (k : Nat) : Nat := 0x1000 + k

/-- Make a ball undriven (0), low (1) or high (2). -/
def Block.setBall (b : Block) (code lvl : Nat) : Block := { b with balls := b.balls.setD 0 code lvl }

/-- A driven level as a ball state. -/
def lvl (high : Bool) : Nat := if high then 2 else 1

/-- The level of an output's active or inactive state (R161): `out` 0 is H, 1 is L. -/
def Block.egActive (b : Block) (n out : Nat) (active : Bool) : Nat :=
  let low := b.on (if out = 0 then F.EG_CFG_POLH n else F.EG_CFG_POLL n)
  lvl (active != low)

/-- A ball's safe level (R188). -/
def Block.egSafe (b : Block) (n out : Nat) : Nat :=
  match b.get (if out = 0 then F.EG_SAFE_SH n else F.EG_SAFE_SL n) with
  | 0 => 1
  | 1 => 2
  | _ => 0

/-- Is an engine's forcing on, by its lockup, from 3 fc after it (R189, R192, O7)? What a takeover has moved stays forced by the dead
engine's lockup, with the same 3 fc. -/
def Block.engineForces (b : Block) (key : Nat) : Bool :=
  let e := b.owner key
  (b.lockedUp.contains e && !(b.lockWait.any fun w => w.1 == e)) ||
    (b.heldKeys.contains key && !(b.lockWait.any fun w => w.1 != e && b.standIn w.1 == e))

/-- Fenced, or without permission to drive, from 3 fc after (R189, R755, O8). -/
def Block.packageForces (b : Block) : Bool :=
  b.pvWait.isNone && (b.on F.PV_STAT_FENCED || (b.on F.PV_CFG_PAIR && !b.on F.PV_STAT_PERM))

/-- Does a trip group force its members now: its asynchronous trip is under way, or it is tripped and the two fc of a synchronous
trip have passed, or it is released in this fc (R189, R195, R198, O5, O6)? -/
def Block.tgForces (b : Block) (g : Nat) : Bool :=
  (b.tgSt g).pend.isSome || (b.on (F.TG_STAT_TRIPPED g) && ((b.tgSt g).wait.isNone || (b.tgSt g).now)) || b.fc.released.contains g

/-- Does a group that has tripped force its members, its time not hanging on an asynchronous trip (R190)? -/
def Block.tgTimed (b : Block) (g : Nat) : Bool := b.on (F.TG_STAT_TRIPPED g) && (b.tgSt g).wait.isNone

/-- Is the generator a member of the group? -/
def Block.egMember (b : Block) (g n : Nat) : Bool := bit (b.rd (R.TG_MEG g (n / 32))) (n % 32)

/-- Does a trip group force the generator (R189, R195)? -/
def Block.egTripped (b : Block) (n : Nat) : Bool := (List.range 32).any fun g => b.tgForces g && b.egMember g n

/-- Is the generator held by a group that has tripped (STAT.TRIP, R68; log entry 122)? -/
def Block.egHeld (b : Block) (n : Nat) : Bool :=
  (List.range 32).any fun g => b.on (F.TG_STAT_TRIPPED g) && b.egMember g n

/-- Must the generator's balls be forced (R189)? -/
def Block.egMustForce (b : Block) (n : Nat) : Bool :=
  b.egTripped n || b.engineForces (ownKey .eg n) || b.packageForces

/-- Is it forced by a cause whose time is known (R190)? -/
def Block.egTimedForce (b : Block) (n : Nat) : Bool :=
  b.engineForces (ownKey .eg n) || b.packageForces || (List.range 32).any fun g => b.tgTimed g && b.egMember g n

/-- The state of one ball of a generator. -/
def Block.egBallState (b : Block) (n out : Nat) : Nat :=
  let s := b.egSt n
  let safe := b.egSafe n out
  let delayed := if out = 0 then s.safeDueH else s.safeDueL
  if !b.outputs || !b.on (F.EG_CFG_DRV n) then 0
  else if s.forced then (if delayed.isSome then b.egActive n out false else safe)
  else if s.waitStart || s.idleDue.isSome then safe
  else
    let outl := b.get (F.EG_CFG_OUTL n)
    if out = 1 ∧ outl = 3 then 0
    else if out = 1 ∧ outl = 2 then b.egActive n 1 false
    else if out = 1 ∧ outl = 1 then b.egActive n 1 s.h
    else b.egActive n out (if out = 0 then s.h else s.l)

/-- Bring a generator's two balls up to date. -/
def egBalls (n : Nat) (b : Block) : Block :=
  (b.setBall (ballEdg (2 * n)) (b.egBallState n 0)).setBall (ballEdg (2 * n + 1)) (b.egBallState n 1)

/-- DTR and DTF in force in fine steps (R158). -/
def Block.egDtr (b : Block) (n : Nat) : Nat :=
  bits (b.egSt n).force.dt 15 0 * (if b.on (F.EG_CFG_DTX n) then 16 else 1)
def Block.egDtf (b : Block) (n : Nat) : Nat :=
  bits (b.egSt n).force.dt 31 16 * (if b.on (F.EG_CFG_DTX n) then 16 else 1)

/-- The delay of a ball whose safe level is its active level and which is not there already (R190); `base` is
the fc the delay is counted from, none while an asynchronous trip is not yet synchronised. -/
def Block.egDelay (b : Block) (n out : Nat) (base : Option Nat) : Option Nat :=
  let act := b.egActive n out true
  if b.egSafe n out = act ∧ b.egBallState n out ≠ act then
    some (match base with | some e => e * 64 + (if out = 0 then b.egDtr n else b.egDtf n) | none => 0)
  else none

/-- The forcing of a generator begins (R189, R190). -/
def egForceBegin (base : Option Nat) (n : Nat) (b : Block) : Block :=
  let dh := b.egDelay n 0 base
  let dl := b.egDelay n 1 base
  let s := b.egSt n
  let b := b.setEg n { s with forced := true, safeDueH := dh, safeDueL := dl, waitStart := false, idleDue := none }
  egBalls n (b.put (F.EG_STAT_SAFE n) 1)

/-- The last forcing of a generator ends in fc e (R192). -/
def egForceEnd (e n : Nat) (b : Block) : Block :=
  let s := b.egSt n
  let en := b.on (F.EG_CTL_EN n)
  let b := b.setEg n { s with
    forced := false, safeDueH := none, safeDueL := none, waitStart := en
    idleDue := if en then none else some (e + 2) }
  egBalls n (b.put (F.EG_STAT_SAFE n) 0)

/-- The delays that wait for the synchronising fc of an asynchronous trip run from fc `base` (R190). -/
def egSyncDelay (base n : Nat) (b : Block) : Block :=
  let s := b.egSt n
  let at_ (o : Option Nat) (dt : Nat) : Option Nat := o.map fun d => if d = 0 then base * 64 + dt else d
  b.setEg n { s with safeDueH := at_ s.safeDueH (b.egDtr n), safeDueL := at_ s.safeDueL (b.egDtf n) }

/-- Bring a generator's forcing, from fc e, up to date with its causes. Once forced it stays so while a group of its is tripped
(R200). -/
def egForcing (e : Nat) (b : Block) (n : Nat) : Block :=
  let b := b.put (F.EG_STAT_TRIP n) (b2n (b.egHeld n))
  let timed := b.egTimedForce n
  let must := b.egMustForce n || ((b.egSt n).forced && b.egHeld n)
  if must && !(b.egSt n).forced then egForceBegin (if timed then some e else none) n b
  else if !must && (b.egSt n).forced then egForceEnd e n b
  else if timed then egSyncDelay e n b
  else b

/-- R190: a safe level that is the active level is reached. -/
def egSafeDeadTime (c : Ctx) (n out : Nat) (b : Block) : Block :=
  let s := b.egSt n
  let d := if out = 0 then s.safeDueH else s.safeDueL
  match d with
  | some t =>
    when (t != 0 && tickOf t ≤ c.tick) (fun b =>
      egBalls n (b.setEg n (if out = 0 then { s with safeDueH := none } else { s with safeDueL := none }))) b
  | none => b

/-- R192: a generator with EN = 0 takes its inactive levels 2 fc after the forcing ends. -/
def egPostForceIdle (c : Ctx) (n : Nat) (b : Block) : Block :=
  let s := b.egSt n
  when (s.idleDue.any (fun t => t ≤ c.tick)) (fun b => egBalls n (b.setEg n { s with idleDue := none })) b

/-! ### The pulse of a carrier (R153–R160) -/

/-- The shadow as the registers hold it; a follower's interval is its REF's, not its own (R169, R171). -/
def Block.egShadow (b : Block) (n : Nat) : EgForce :=
  { p := if b.on (F.EG_CFG_CSRC n) then (b.egSt n).force.p else b.rd (R.EG_IVL n)
    rise := b.rd (R.EG_RISE n), fall := b.rd (R.EG_FALL n), duty := b.rd (R.EG_DUTY n)
    dt := b.rd (R.EG_DT n), phs := b.rd (R.EG_PHS n), ctr := b.rd (R.EG_CTR n) }

/-- R155: the width of a FRAC duty in a carrier of p fine steps. -/
def fracWidth (d p : Nat) : Nat := if d < 2 ^ 31 then min ((d * p + 2 ^ 30) / 2 ^ 31) p else 0

/-- R154, R156: the offsets r and f of the raw pulse. -/
def rawOffsets (aln dsrc : Bool) (s : EgForce) : Nat × Nat :=
  let w := if dsrc then fracWidth s.duty s.p else if aln then min s.fall s.p else 0
  let r := if aln then s.p / 2 - w / 2 else if dsrc then 0 else s.rise
  let f := if aln then r + w else if dsrc then w else s.fall
  (r, min f s.p)

/-- The offsets by a generator's configuration. -/
def Block.egOffsets (b : Block) (n : Nat) : Nat × Nat :=
  rawOffsets (b.on (F.EG_CFG_ALN n)) (b.on (F.EG_CFG_DSRC n)) (b.egSt n).force

/-- R156: is the raw pulse empty? -/
def rawEmpty (p r f : Nat) : Bool := r ≥ f || r ≥ p

/-- Is the raw pulse that the values in force give empty? -/
def Block.egEmpty (b : Block) (n : Nat) : Bool :=
  rawEmpty (b.egSt n).force.p (b.egOffsets n).1 (b.egOffsets n).2

/-- Does no carrier follow the one in progress (R165, R181)? -/
def EgSt.ending (s : EgSt) : Bool := s.last || s.stopPend

/-- Does H's turn-on fall in the raw pulse (R158, R159)? -/
def EgSt.hComes (s : EgSt) : Bool := !s.rawNone && s.hSt = 0 && s.hOn < s.rawF

/-- The fine step at which L may come on before the carrier's raw pulse (R158). -/
def EgSt.lPreAt (s : EgSt) : Nat := max (s.car.getD 0) s.holdTo

/-- The fine step at which L may come on after the raw pulse: no pulse before holds it off any longer (R158). -/
def EgSt.lPostAt (s : EgSt) : Nat := max s.lOn s.holdTo

/-- The edges of the carrier in progress that have still to come, in the order of the causes; L goes off at the raw rise, H comes on
by DTR later, whatever OUTL is (log entry 132), and goes off at the raw fall, L comes on by DTF after that (R158), and none is placed
after S + P (R826). -/
def EgSt.toCome (s : EgSt) : List EgEdge :=
  if s.car.isNone then []
  else
    (if s.lPre ∧ (s.rawNone ∨ s.lPreAt < s.rawR) ∧ s.lPreAt ≤ s.carEnd then [⟨s.lPreAt, 1, true⟩] else []) ++
    (if !s.rawNone ∧ s.l ∧ s.lPost then [⟨s.rawR, 1, false⟩] else []) ++
    (if s.hComes then [⟨s.hOn, 0, true⟩] else []) ++
    (if !s.rawNone ∧ s.hSt = 1 then [⟨s.rawF, 0, false⟩] else []) ++
    (if !s.rawNone ∧ s.lPost ∧ s.lPostAt ≤ s.carEnd then [⟨s.lPostAt, 1, true⟩] else [])

/-- The first of the earliest edges. -/
def earliest : List EgEdge → Option EgEdge
  | [] => none
  | e :: l => match earliest l with
    | some x => if x.time < e.time then some x else some e
    | none => some e

/-- An edge appears, or is not emitted at its leading edge (R158, R159). -/
def EgSt.appear (s : EgSt) (e : EgEdge) (drop : Bool) : EgSt :=
  if e.out = 0 then { s with h := e.on && !drop, hSt := if e.on && !drop then 1 else 2 }
  else if !e.on then { s with l := false, lPre := false }
  else if s.lPost ∧ !s.rawNone ∧ s.rawF ≤ e.time then { s with l := !drop, lPre := false, lPost := false }
  else { s with l := !drop, lPre := false }

/-- R174, R178: under UPD = CARRIER the shadow, as it stood at the start of the fc, passes into force. -/
def egTransfer (c : Ctx) (n : Nat) (b : Block) : Block :=
  if b.on (F.EG_CFG_UPD n) || c.start.on (F.EG_CTL_HOLD n) then b
  else b.setEg n { b.egSt n with force := c.start.egShadow n }

/-- Was the channel's value judged in this fc? -/
def Block.egJudged (b : Block) (n : Nat) : Bool := b.emittedNow .eg n 0 || b.fc.judged.contains (evKey .eg n 0)

/-- Is the run's last carrier, or one that a STOP let complete, in progress since before this fc (R165, R181)? -/
def egEnding (c : Ctx) (n : Nat) (b : Block) : Bool := (b.egSt n).last || (c.start.egSt n).stopPend

/-- The carrier start that generator m, its carrier channel its own, has yet to make in this fc, with its P (R149, R152). -/
def egStartsHere (c : Ctx) (m : Nat) (b : Block) : Option (Nat × Nat) :=
  let v := (c.start.egSt m).cmp.val
  let p := ((egTransfer c m b).egSt m).force.p
  if c.start.on (F.EG_CTL_EN m) && !c.start.on (F.EG_CFG_CSRC m) && !b.egJudged m && !egEnding c m b && 0x100 ≤ p then
    if tickOf v = c.tick then some (v, p)
    else if tickOf v < c.tick && !b.on (F.EG_CFG_SKIP m) then some (c.tick * 64 + fineOf v, p)
    else none
  else none

/-- The next start of a follower: the first that is scheduled, or the one that REF is about to schedule in this fc (R169, R171); none
takes place while a STOP is pending (R181). -/
def egNextStart (c : Ctx) (n : Nat) (b : Block) : Option Nat :=
  let s := b.egSt n
  if (c.start.egSt n).stopPend then none
  else
    let next := (egStartsHere c (b.get (F.EG_CFG_REF n)) b).map fun x => x.1 + (if s.force.phs ≥ x.2 then 0 else s.force.phs)
    match s.sched.head?, next with
    | some x, some y => some (min x.1 y)
    | some x, none => some x.1
    | none, y => y

/-- The end of the carrier in progress, as it stands in this fc (R114, R149, R152, R170). -/
def egBoundary (c : Ctx) (n : Nat) (b : Block) : Option Nat :=
  let s := b.egSt n
  let v := (c.start.egSt n).cmp.val
  if b.on (F.EG_CFG_CSRC n) then (egNextStart c n b).or (if egEnding c n b then some s.carEnd else none)
  else if b.emittedNow .eg n 0 then some s.carEnd
  else if c.tick ≤ tickOf v then some v
  else if b.on (F.EG_CFG_SKIP n) then none
  else some (c.tick * 64 + fineOf v)

/-- The planned end of the pulse that edge `e` begins, by the values in force, none where it is to go on without end (R157, R159): H
ends at the raw fall or where its carrier ends, L at the next raw rise. -/
def egPulseEnd (c : Ctx) (n : Nat) (e : EgEdge) (b : Block) : Option Nat :=
  let s := b.egSt n
  let (r, _) := b.egOffsets n
  let next := egBoundary c n b
  let ending := egEnding c n b
  if e.out = 0 then
    (if s.rawF = s.carEnd ∧ next.getD s.carEnd = s.carEnd ∧ r = 0 ∧ !b.egEmpty n ∧ !ending then none
     else some (min s.rawF (next.getD s.rawF)))
  else if !s.rawNone ∧ e.time < s.rawR ∧ s.rawR < next.getD (s.rawR + 1) then some s.rawR
  else if ending then some (next.getD s.carEnd)
  else if b.egEmpty n then none
  else some (next.getD s.carEnd + r)

/-- Is the planned pulse that begins with this edge too narrow to be emitted (R159)? -/
def egNarrow (c : Ctx) (n : Nat) (e : EgEdge) (b : Block) : Bool :=
  e.on && (match egPulseEnd c n e b with
    | some x => x ≤ e.time || x - e.time < b.get (F.EG_CFG_MINW n) * 64
    | none => false)

/-- The earliest edge that is due in this fc and before time `lim`. -/
def egDueEdge (c : Ctx) (n : Nat) (lim : Option Nat) (b : Block) : Option EgEdge :=
  match earliest (b.egSt n).toCome with
  | some e => if tickOf e.time ≤ c.tick && lim.all (fun t => e.time < t) then some e else none
  | none => none

/-- The earliest edge due before `lim` appears. -/
def egPlay (c : Ctx) (n : Nat) (lim : Option Nat) (b : Block) : Block :=
  match egDueEdge c n lim b with
  | some e => b.setEg n ((b.egSt n).appear e (egNarrow c n e b))
  | none => b

/-- The next planned edge of a generator appears when it is due (R158, R159, R163); one at the carrier's end is the next carrier's to
make or to drop (R151, R157). -/
def egPulseEdge (c : Ctx) (n : Nat) (b : Block) : Block :=
  when (egDueEdge c n (egBoundary c n b) b).isSome (fun b => egBalls n (egPlay c n (egBoundary c n b) b)) b

/-- Every edge due before `t` appears: a carrier has at most five. -/
def egPlayAll (c : Ctx) (n t : Nat) (b : Block) : Block :=
  (List.range 5).foldl (fun b _ => egPlay c n (some t) b) b

/-- The centre value of a carrier (R153): none when c is P or more. -/
def Block.egCentreVal (b : Block) (n s : Nat) : Option Nat :=
  let f := (b.egSt n).force
  let off := if b.on (F.EG_CFG_CTRA n) then f.p / 2 else f.ctr
  if off < f.p then some (s + off) else none

/-- Show the values in force in IVLA, ERISE, EFALL and CTRT. -/
def egShow (n : Nat) (b : Block) : Block :=
  let f := (b.egSt n).force
  let (r, e) := b.egOffsets n
  let b := b.wr (R.EG_IVLA n) f.p
  match (b.egSt n).car with
  | some s =>
    let off := if b.on (F.EG_CFG_CTRA n) then f.p / 2 else f.ctr
    ((b.wr (R.EG_ERISE n) r).wr (R.EG_EFALL n) e).wr (R.EG_CTRT n) (tickOf (s + off))
  | none => b

/-- The raw fall that a carrier ending at `t` leaves, and how long it holds L off (R151, R158): by the old
carrier's DTF (DESIGN CHOICE, log entry 174). -/
def EgSt.heldOff (s : EgSt) (t : Nat) : EgSt :=
  if s.car.isSome ∧ !s.rawNone ∧ s.rawR < t then
    { s with holdF := min s.rawF t, holdTo := max s.holdTo (if s.rawF ≤ t then s.lOn else t + s.dtf) }
  else s

/-- A carrier ends at `t` without a successor: both outputs take their inactive levels (R151, R162). -/
def egEndCarrier (n t : Nat) (b : Block) : Block :=
  let s := (b.egSt n).heldOff t
  b.setEg n { s with
    car := none, last := false, ctrVal := none, h := false, l := false, rawNone := true, lPre := false, lPost := false
    hSt := 0, stopPend := false, cmt := false, shortPend := false }

/-- A scheduled start takes its place in the order of times (R169). -/
def insStart (x : Nat × Nat) : List (Nat × Nat) → List (Nat × Nat)
  | [] => [x]
  | y :: l => if x.1 < y.1 then x :: y :: l else y :: insStart x l

/-- A carrier start at `t` of generator n, of interval p, schedules a start of follower m (R169, R171). -/
def egSchedule (c : Ctx) (n t p m : Nat) (b : Block) : Block :=
  if c.start.on (F.EG_CTL_EN m) && b.on (F.EG_CTL_EN m) && b.on (F.EG_CFG_CSRC m) && b.get (F.EG_CFG_REF m) == n && m != n then
    let fs := b.egSt m
    let bad := fs.force.phs ≥ p
    let b := if bad then b.flag (F.EG_STAT_PHSERR m) else b
    b.setEg m { fs with sched := insStart (t + (if bad then 0 else fs.force.phs), p) fs.sched }
  else b

/-- The plan of a carrier that begins at `t` with the values in force. A raw pulse that ended at the old carrier's P goes on where the
new one begins at offset 0 (R157); else an output still active takes its inactive edge at `t`, and what the old pulse holds off of L
runs into the new carrier (R151, R158). -/
def Block.egPlan (b : Block) (n t : Nat) : EgSt :=
  let s := b.egSt n
  let f := s.force
  let (r, e) := b.egOffsets n
  let none' := b.egEmpty n
  let join := s.car.isSome && !s.rawNone && s.rawR < t && s.rawF == t && s.carEnd == t && !none' && r == 0
  let dtf := b.egDtf n
  let s := if join then s else s.heldOff t
  { s with
    car := some t, carEnd := t + f.p, ctrDone := false, ctrVal := b.egCentreVal n t, dtf := dtf
    rawR := if join then s.rawR else t + r, rawF := t + e, rawNone := none'
    hOn := if join then s.hOn else t + r + b.egDtr n, hSt := if join then s.hSt else 0
    h := s.h && join, lOn := t + e + dtf, lPre := !join && !s.l, lPost := true, waitStart := false }

/-- Begin a carrier at `t`, the channel then holding `next` (R149, R151, R153, R157, R164): CSTART, SHORT of a commit that truncated the old
carrier (R826), and the scheduled starts of the generator's followers. -/
def egBegin (c : Ctx) (n t next : Nat) (b : Block) : Block :=
  let old := b.egSt n
  let train := b.get (F.EG_CFG_RUNM n) == 2
  let rem := b.get (F.EG_CNT_REM n) - 1
  let last := b.get (F.EG_CFG_RUNM n) == 1 || (train && rem == 0)
  let b := if train then b.put (F.EG_CNT_REM n) rem else b
  let b := if old.shortPend && t < old.carEnd then b.bump (F.EG_MISS_SHORT n) 1 else b
  let x := b.egPlan n t
  let b := b.setEg n { x with
    last := last, shortPend := false
    cmp := if old.fresh then x.cmp else { x.cmp with val := next }, cmt := old.fresh }
  let b := egBalls n (egShow n b)
  let b := emit c .eg n 0 (some (fineOf t)) b
  (List.range (nEG c.hw)).foldl (fun b m => egSchedule c n t x.force.p m b) b

/-- Does a START of this fc act (R183)? -/
def Block.egStarts (b : Block) (n : Nat) : Bool :=
  b.acted (EG.startIn n) && !b.acted (EG.stopIn n) && !b.acted (EG.clearIn n)

/-- The run ends at time t: EN clears, unless a START of this fc sets it anew (R150, R165, R181; log entry 130). -/
def egEndRun (n t : Nat) (b : Block) : Block :=
  let again := b.egStarts n && (b.get (F.EG_CFG_RUNM n) == 0)
  let b := egEndCarrier n t b
  egBalls n (b.put (F.EG_CTL_EN n) (b2n again))

/-- What a STOP does (R181): the carrier in progress completes; without one EN clears. -/
def egStopAct (n : Nat) (b : Block) : Block :=
  let s := b.egSt n
  if !b.on (F.EG_CTL_EN n) then b
  else if s.car.isSome then b.setEg n { s with stopPend := true }
  else (b.setEg n { s with sched := [] }).put (F.EG_CTL_EN n) 0

/-- A centre value that matches in this fc. -/
def centreHere (c : Ctx) (o : Option Nat) : Option Nat := o.bind fun v => if tickOf v == c.tick then some v else none

/-- What a CLEAR does (R182): EN clears, the carrier and its raw pulse end; the balls follow at the start of the next fc, and a centre
of this fc still matches in it. -/
def egClearAct (c : Ctx) (n : Nat) (b : Block) : Block :=
  let ctr := centreHere c (b.egSt n).ctrVal
  let b := egEndCarrier n ((c.tick + 1) * 64) b
  (b.setEg n { b.egSt n with sched := [], fresh := false, ctrVal := ctr }).put (F.EG_CTL_EN n) 0

/-- After a carrier has begun: a STOP or a CLEAR of this fc that acted before it acts on it too (R181, R182). -/
def egAfterBegin (c : Ctx) (n : Nat) (b : Block) : Block :=
  if b.acted (EG.clearIn n) then egClearAct c n b
  else if b.acted (EG.stopIn n) && c.start.on (F.EG_CTL_EN n) && (b.egSt n).car.isSome then
    (b.setEg n { b.egSt n with stopPend := true }).put (F.EG_CTL_EN n) 1
  else b

/-- Begin a carrier, or end the run for P below 0x100 (R150). -/
def egTryBegin (c : Ctx) (n t next : Nat) (b : Block) : Block :=
  if (b.egSt n).force.p < 0x100 then (egShow n (egEndRun n t b)).flag (F.EG_STAT_IVLERR n)
  else egAfterBegin c n (egBegin c n t next b)

/-- Is the carrier channel due in this fc (R112, R147)? -/
def egDue (c : Ctx) (n : Nat) : Bool :=
  c.start.on (F.EG_CTL_EN n) && !c.start.on (F.EG_CFG_CSRC n) && tickOf (c.start.egSt n).cmp.val == c.tick

/-- The channel's value has been judged in this fc (R121). -/
def egJudge (n : Nat) (b : Block) : Block := { b with fc := { b.fc with judged := evKey .eg n 0 :: b.fc.judged } }

/-- A carrier-channel match (R149): a carrier begins, after the shadow's transfer. The end of a run is EG_RUN_DONE's. -/
def egCarrierStart (c : Ctx) (n : Nat) (b : Block) : Block :=
  when (egDue c n && !b.egJudged n && !egEnding c n b) (fun b =>
    let b := egJudge n b
    let t := (c.start.egSt n).cmp.val
    let b := egTransfer c n (egPlayAll c n t b)
    egTryBegin c n t (t + (b.egSt n).force.p) b) b

/-- Move the channel to v, unless a commit or a START of this fc puts another value there (R124, R129). -/
def egMove (n v : Nat) (b : Block) : Block :=
  if (b.egSt n).fresh then b else b.setEg n { b.egSt n with cmp := { (b.egSt n).cmp with val := v }, cmt := true }

/-- The value by which a carrier-channel value that is behind is judged when SKIP is set: moved by the P in force (R124, R148). -/
def egSkipTo (c : Ctx) (n : Nat) (b : Block) : Nat :=
  let v := (c.start.egSt n).cmp.val
  v + lateK v (b.egSt n).force.p c.tick * (b.egSt n).force.p

/-- A value that is behind while the run's last carrier is in progress is judged (R121–R124): with SKIP it is moved on and the carrier
with it, otherwise the carrier ends in this fc, which is EG_RUN_DONE's. -/
def egLateEnd (c : Ctx) (n : Nat) (b : Block) : Block :=
  let v := (c.start.egSt n).cmp.val
  let p := (b.egSt n).force.p
  when (c.start.on (F.EG_CTL_EN n) && !c.start.on (F.EG_CFG_CSRC n) && tickOf v < c.tick && !b.egJudged n && egEnding c n b) (fun b =>
    let b := (egJudge n b).flag (F.EG_STAT_LATE n)
    if p < 0x100 then (if b.on (F.EG_CFG_SKIP n) then b.bump (F.EG_MISS_MISS n) 1 else b).flag (F.EG_STAT_IVLERR n)
    else if b.on (F.EG_CFG_SKIP n) then egMove n (egSkipTo c n b) (b.bump (F.EG_MISS_MISS n) (lateK v p c.tick))
    else b.bump (F.EG_MISS_MISS n) (lateK v p c.tick - 1)) b

/-- A carrier-channel value that is behind (R152, R121–R125): with SKIP no carrier begins, and the shadow waits (R174). -/
def egLateCarrier (c : Ctx) (n : Nat) (b : Block) : Block :=
  let v := (c.start.egSt n).cmp.val
  if egEnding c n b then egLateEnd c n b
  else when (c.start.on (F.EG_CTL_EN n) && !c.start.on (F.EG_CFG_CSRC n) && tickOf v < c.tick && !b.egJudged n) (fun b =>
    let b := (egJudge n b).flag (F.EG_STAT_LATE n)
    let t := c.tick * 64 + fineOf v
    if b.on (F.EG_CFG_SKIP n) then
      let p := (b.egSt n).force.p
      if p < 0x100 then ((egEndRun n t (egPlayAll c n t b)).bump (F.EG_MISS_MISS n) 1).flag (F.EG_STAT_IVLERR n)
      else egMove n (egSkipTo c n b) (b.bump (F.EG_MISS_MISS n) (lateK v p c.tick))
    else
      let b := egTransfer c n (egPlayAll c n t b)
      let k := lateK v (b.egSt n).force.p c.tick
      egTryBegin c n t (v + k * (b.egSt n).force.p)
        (if (b.egSt n).force.p < 0x100 then b else b.bump (F.EG_MISS_MISS n) (k - 1))) b

/-- The centre value to emit now: the one in force at the fc's start, ahead of the end of its carrier, or the one of a carrier that
began in this fc (R147, R153). -/
def egCentreDue (c : Ctx) (n : Nat) (b : Block) : Option Nat :=
  let s := b.egSt n
  let old := (centreHere c (c.start.egSt n).ctrVal).bind fun v =>
    if !b.emittedNow .eg n 1 && (s.car == (c.start.egSt n).car || s.car.all (fun t => v < t)) then some v else none
  old.or (centreHere c s.ctrVal)

/-- The centre channel matches (R153), at most once in a carrier (log entry 127). -/
def egCentre (c : Ctx) (n : Nat) (b : Block) : Block :=
  match egCentreDue c n b with
  | some v =>
    let s := b.egSt n
    emit c .eg n 1 (some (fineOf v)) (if s.ctrVal = some v then b.setEg n { s with ctrVal := none, ctrDone := true } else b)
  | none => b

/-! ### Shadow updates under IMMEDIATE (R175–R179) -/

/-- R176: the raw pulse after a recomputation in the fc that begins at fine step e0: new raise and fall, whether
there is none, and whether LEDGE is set. An old edge exactly at e0 counts as a fall that has ended, and a rise there as one that has not
begun (DESIGN CHOICE, log entry 173). -/
def reRaw (e0 rr rf nr nf : Nat) (oldNone newNone : Bool) : Nat × Nat × Bool × Bool :=
  if oldNone ∨ e0 ≤ rr then
    if newNone then (nr, nf, true, false)
    else if e0 ≤ nr then (nr, nf, false, false)
    else if e0 < nf then (e0, nf, false, true)
    else (nr, nf, true, true)
  else if e0 < rf then
    if newNone then (rr, e0, false, true)
    else if e0 ≤ nf then (rr, nf, false, false)
    else (rr, e0, false, true)
  else (rr, rf, false, false)

/-- The plan of the carrier that began at `t` by the values now in force, from fine step e0 on (R175, R176): what has appeared
stands, what has not takes its new time, e0 at the earliest; and whether LEDGE is to be set. -/
def Block.egReplan (b : Block) (n t e0 : Nat) : EgSt × Bool :=
  let s := b.egSt n
  let (r, e) := b.egOffsets n
  let dtr := b.egDtr n
  let dtf := b.egDtf n
  let (rr, rf, none', ledge) := reRaw e0 s.rawR s.rawF (t + r) (t + e) s.rawNone (b.egEmpty n)
  let hOn := max (rr + dtr) e0
  let lOn := max (rf + dtf) e0
  let holds : Bool := e0 ≤ s.holdTo
  let x := { s with
    rawR := rr, rawF := rf, rawNone := none', dtf := dtf
    hOn := if s.hSt = 0 then hOn else s.hOn, lOn := if s.lPost then lOn else s.lOn
    holdTo := if holds then max (s.holdF + dtf) e0 else s.holdTo }
  let early := (x.hComes && rr + dtr < e0) || (!none' && s.lPost && rf + dtf < e0) || (holds && s.lPre && s.holdF + dtf < e0 && (none' || x.lPreAt < rr))
  (x, ledge || early)

/-- The shadow passes into force from the fc that begins at e0, and the carrier in progress is recomputed once from the values then
in force (R175–R177). A committed or a START's value of the channel stays (log entry 128). -/
def egRecompute (n e0 : Nat) (b : Block) : Block :=
  let b := b.setEg n { b.egSt n with force := b.egShadow n }
  match (b.egSt n).car with
  | none => egShow n b
  | some t =>
    let p := (b.egSt n).force.p
    let (x, ledge) := b.egReplan n t e0
    let own := !b.on (F.EG_CFG_CSRC n) && !x.cmt
    let cut := own && t + p < e0
    egShow n (b.setEg n { x with
      carEnd := if b.on (F.EG_CFG_CSRC n) then x.carEnd else t + p
      cmp := if own then { x.cmp with val := if cut then e0 else t + p } else x.cmp
      ctrVal := if x.ctrDone then none else (b.egCentreVal n t).bind fun v => if v < e0 then none else some v
      ledgeNow := ledge, shortNow := cut })

/-- A write reached the shadow: under IMMEDIATE the recomputation falls due in the next fc (R175). -/
def egShadowWritten (n : Nat) (b : Block) : Block :=
  if b.on (F.EG_CFG_UPD n) then b.setEg n { b.egSt n with recomp := true } else b

/-- A loop lane writes a generator's duty (R71, R73, R92): to the shadow, with its update policy. -/
def egDuty (n v : Nat) (b : Block) : Block := egShadowWritten n (b.wr (R.EG_DUTY n) v)

/-- LOAD: what it does falls due with the fc's end. -/
def egLoad (_c : Ctx) (n : Nat) (b : Block) : Block := onAct (EG.loadIn n) (fun _ b => b) b

/-- Does a LOAD of this fc act, as an IMMEDIATE write that arrives in it, whatever UPD is (R179, R183)? -/
def egLoads (c : Ctx) (n : Nat) (b : Block) : Bool :=
  b.acted (EG.loadIn n) && !b.acted (EG.clearIn n) && !c.start.on (F.EG_CTL_HOLD n)

/-! ### Starting and stopping (R164–R173, R181–R183) -/

/-- May the generator start (R166, R172)? -/
def Block.egStartable (b : Block) (hw : Hw) (n : Nat) : Bool :=
  let runm := b.get (F.EG_CFG_RUNM n)
  if b.on (F.EG_CFG_CSRC n) then
    let ref := b.get (F.EG_CFG_REF n)
    runm == 0 && ref != n && ref < nEG hw && !b.on (F.EG_CFG_CSRC ref)
  else runm != 3 && !(runm == 2 && b.get (F.EG_CNT_CNT n) == 0)

/-- Keep what a START or a write of EN = 1 is about to replace (R183). -/
def egSave (n : Nat) (b : Block) : Block :=
  let s := b.egSt n
  b.setEg n { s with undo := s.undo.or (some ⟨s.cmp, s.cmt, s.stopPend, s.shortPend, b.rd (R.EG_CTL n), b.get (F.EG_CNT_REM n)⟩) }

/-- A STOP or a CLEAR of the same fc wins: put back what was replaced, and take back what it flagged (R183). -/
def egRestore (c : Ctx) (n : Nat) (b : Block) : Block :=
  match (b.egSt n).undo with
  | some u =>
    let b := (b.wr (R.EG_CTL n) u.ctl).put (F.EG_CNT_REM n) u.rem
    let b := [F.EG_STAT_CFGERR n, F.EG_STAT_RTRG n, F.EG_STAT_WCOL n].foldl (Block.unflag c) b
    b.setEg n { b.egSt n with cmp := u.cmp, cmt := u.cmt, stopPend := u.stopPend, shortPend := u.shortPend, undo := none }
  | none => b

/-- Arm a generator whose EN was 0, its channel at `t` or where it stands, or refuse the run (R166, R167, R172); CNT is loaded into
CNT.REM at every arming (log entry 129). -/
def egArm (c : Ctx) (n : Nat) (t : Option Nat) (b : Block) : Block :=
  if b.egStartable c.hw n then
    let s := { b.egSt n with stopPend := false, last := false, sched := [] }
    let b := b.setEg n (match t with
      | some v => { s with cmp := { s.cmp with val := v }, cmt := true, fresh := true }
      | none => s)
    (b.put (F.EG_CNT_REM n) (b.get (F.EG_CNT_CNT n))).put (F.EG_CTL_EN n) 1
  else (b.flag (F.EG_STAT_CFGERR n)).put (F.EG_CTL_EN n) 0

/-- START at a generator with EN = 1 (R168, R171, R181); the truncation counts SHORT where the new carrier begins. A START that
cancels a pending STOP at a follower is no ignored one, in the fc in which the stopped carrier ends too (log entry 130). -/
def egRestart (c : Ctx) (n at1 : Nat) (b : Block) : Block :=
  let s := b.egSt n
  if b.on (F.EG_CFG_CSRC n) then
    if s.stopPend ∨ (c.start.egSt n).stopPend then (b.setEg n { s with stopPend := false }).put (F.EG_CTL_EN n) 1
    else b.flag (F.EG_STAT_RTRG n)
  else if b.get (F.EG_CFG_RUNM n) == 0 then
    (b.setEg n { s with
      cmp := { s.cmp with val := at1 }, cmt := true, fresh := true, stopPend := false
      shortPend := s.car.isSome && at1 < s.carEnd }).put (F.EG_CTL_EN n) 1
  else b.flag (F.EG_STAT_RTRG n)

/-- START (R167, R168, R171, R181, R183). -/
def egStart (c : Ctx) (n : Nat) (b : Block) : Block :=
  onAct (EG.startIn n) (fun a b =>
    if b.acted (EG.clearIn n) || b.acted (EG.stopIn n) then b
    else
      let at1 := (c.tick + 1) * 64 + a.fine.getD 0
      let follow := b.on (F.EG_CFG_CSRC n)
      let b := egSave n b
      let b := if (b.wroteThisFc (R.EG_CMPH n)).isSome && !follow then b.flag (F.EG_STAT_WCOL n) else b
      if c.start.on (F.EG_CTL_EN n) then egRestart c n at1 b
      else egArm c n (if follow then none else some at1) b) b

/-- Did a software write of EN = 1 come in this fc? -/
def Block.egEnWritten (b : Block) (n : Nat) : Bool :=
  match b.wroteThisFc (R.EG_CTL n) with
  | some v => bit v 0
  | none => false

/-- STOP (R181, R183): a START of the fc is undone, a write of EN = 1 is lost. -/
def egStop (c : Ctx) (n : Nat) (b : Block) : Block :=
  onAct (EG.stopIn n) (fun _ b =>
    if b.acted (EG.clearIn n) then b
    else
      let lost := b.egEnWritten n
      let b := egStopAct n (egRestore c n b)
      if lost then b.flag (F.EG_STAT_WCOL n) else b) b

/-- CLEAR (R182, R183). -/
def egClear (c : Ctx) (n : Nat) (b : Block) : Block :=
  onAct (EG.clearIn n) (fun _ b =>
    let lost := b.egEnWritten n
    let b := egClearAct c n (egRestore c n b)
    if lost then b.flag (F.EG_STAT_WCOL n) else b) b

/-- A scheduled follower start (R169, R170); with a STOP pending it does not take place (R181). -/
def egFollowerStart (c : Ctx) (n : Nat) (b : Block) : Block :=
  let s := b.egSt n
  match s.sched with
  | [] => b
  | (t, p) :: rest =>
    when (tickOf t ≤ c.tick && b.on (F.EG_CTL_EN n)) (fun b =>
      if (c.start.egSt n).stopPend then b.setEg n { s with sched := rest }
      else
        let b := egPlayAll c n t b
        let b := b.setEg n { b.egSt n with sched := rest }
        let b := egTransfer c n b
        let b := b.setEg n { b.egSt n with force := { (b.egSt n).force with p := p } }
        egTryBegin c n t (b.egSt n).cmp.val b) b

/-- Has a follower's last carrier nothing to follow: its REF has no carrier in progress and none of its own is scheduled (R173)? -/
def Block.egAlone (b : Block) (n : Nat) : Bool :=
  b.on (F.EG_CFG_CSRC n) && (b.egSt n).sched.isEmpty && (b.egSt (b.get (F.EG_CFG_REF n))).car.isNone

/-- Where the carrier in progress ends as the run's last: the channel's value; where that is behind, m : f, or with SKIP the value it is
moved to (R152); a follower's S + P. -/
def egEndAt (c : Ctx) (n : Nat) (b : Block) : Nat :=
  let v := (c.start.egSt n).cmp.val
  if b.on (F.EG_CFG_CSRC n) then (b.egSt n).carEnd
  else if tickOf v < c.tick then
    (if b.on (F.EG_CFG_SKIP n) && 0x100 ≤ (b.egSt n).force.p then egSkipTo c n b else c.tick * 64 + fineOf v)
  else v

/-- The last carrier of a ONESHOT or TRAIN run, or a stopped carrier, reaches its end (R165, R181); a follower whose REF has stopped
keeps EN and takes its inactive levels at the end of its last carrier (R173, log entry 131). -/
def egRunDone (c : Ctx) (n : Nat) (b : Block) : Block :=
  let b := egLateEnd c n b
  let endAt := egEndAt c n b
  let stop := (c.start.egSt n).stopPend
  when ((b.egSt n).car.isSome && !b.emittedNow .eg n 0 && tickOf endAt ≤ c.tick) (fun b =>
    if egEnding c n b then
      let done := (b.egSt n).last && !stop
      let b := egEndRun n endAt (egPlayAll c n endAt b)
      if done then emit c .eg n 2 (some (fineOf endAt)) b else b
    else if b.egAlone n then egBalls n (egEndCarrier n endAt (egPlayAll c n endAt b))
    else b) b

/-! ### Register writes -/

/-- CMPF and CMPL are staged; a follower ignores them (R118, R171). -/
def egStageWrite (fine : Bool) (l : Loc) (a v : Nat) (b : Block) : Block :=
  let b := b.noteWrite l a v
  if b.on (F.EG_CFG_CSRC l.inst) then b
  else b.setEg l.inst { b.egSt l.inst with cmp := (b.egSt l.inst).cmp.stage fine v }

/-- CMPH commits, in force from the next fc in place of S + P (R826), unless a START of this fc discards it (R183); a follower
ignores it (R171). A value behind truncates under R152 and counts no SHORT. -/
def egCommitWrite (c : Ctx) (l : Loc) (a v : Nat) (b : Block) : Block :=
  let n := l.inst
  let b := b.noteWrite l a v
  if b.on (F.EG_CFG_CSRC n) then b
  else if b.egStarts n then b.flag (F.EG_STAT_WCOL n)
  else
    let s := b.egSt n
    let new := s.cmp.commitVal v
    b.setEg n { s with
      cmp := { s.cmp with val := new }, cmt := true, fresh := true
      shortPend := s.car.isSome && c.tick < tickOf new && new < s.carEnd }

/-- A write of CTL: EN = 0 while EN is 1 is a STOP arrival (R181), which undoes a START of the fc (R183); EN = 1 arms (R166, R172)
unless a STOP or a CLEAR of this fc takes effect: the word is then lost (R183, log entry 125). -/
def egCtlWrite (c : Ctx) (ag : Agent) (l : Loc) (a v : Nat) (b : Block) : Block :=
  let n := l.inst
  if bit v 0 ∧ (b.acted (EG.stopIn n) ∨ b.acted (EG.clearIn n)) then (b.noteWrite l a v).flag (F.EG_STAT_WCOL n)
  else
    let was := b.on (F.EG_CTL_EN n)
    let b := if bit v 0 && !was then egSave n b else b
    let b := (b.plainWrite ag l a v).put (F.EG_CTL_EN n) (b2n was)
    if bit v 0 then (if was then b else egArm c n none b)
    else if c.start.on (F.EG_CTL_EN n) then
      let (act, b) := swArrive (EG.stopIn n) b
      if act && !b.acted (EG.clearIn n) then
        egStopAct n ((egRestore c n b).put (F.EG_CTL_HOLD n) (b.get (F.EG_CTL_HOLD n))) else b
    else b

/-- A write of CFG: the RW fields only while EN is 0 (R180). -/
def egCfgWrite (c : Ctx) (ag : Agent) (l : Loc) (a v : Nat) (b : Block) : Block :=
  if c.start.on (F.EG_CTL_EN l.inst) && ag != .boot then
    let old := b.rd a
    let keep := setBits (setBits (setBits v 30 15 (bits old 30 15)) 7 4 (bits old 7 4)) 10 8 0
    b.plainWrite ag l a keep
  else b.plainWrite ag l a v

/-- A write of CNT.CNT: only while EN is 0 (R180). -/
def egCntWrite (c : Ctx) (ag : Agent) (l : Loc) (a v : Nat) (b : Block) : Block :=
  if c.start.on (F.EG_CTL_EN l.inst) then b.noteWrite l a v else b.plainWrite ag l a v

/-- The loop lanes that hold a generator's duty: EN = 1 and RUN = 1 (R62). -/
def Block.dutyLocked (b : Block) (hw : Hw) (n : Nat) : Bool :=
  (List.range (nEG hw)).any fun m =>
    b.on (F.LL_CFG_EN m) && b.on (F.LL_CTL_RUN m) &&
      ((b.on (F.LL_OUT_V0 m) && b.get (F.LL_OUT_EG0 m) == n) || (b.on (F.LL_OUT_V1 m) && b.get (F.LL_OUT_EG1 m) == n) ||
        (b.on (F.LL_OUT_V2 m) && b.get (F.LL_OUT_EG2 m) == n))

/-- A write of a shadow register; the duty of a generator that a running lane drives is locked (R62). -/
def egShadowWrite (c : Ctx) (ag : Agent) (l : Loc) (a v : Nat) (b : Block) : Block :=
  if a = R.EG_DUTY l.inst ∧ c.start.dutyLocked c.hw l.inst ∧ ag ≠ .boot then b.violate (b.setOf ag) .locked 1
  else egShadowWritten l.inst (b.plainWrite ag l a v)

/-! ### From one fc to the next -/

/-- A generator at the end of an fc: a recomputation that writes, LOAD or the release of HOLD (R178; a write of HOLD = 0 while HOLD
is 0 already has no such effect, log entry 126) made due is done for the next fc, a generator that is off
has no start to come, and a CLEAR reaches the balls. -/
def egEndFc (c : Ctx) (b : Block) (n : Nat) : Block :=
  let freed := c.start.on (F.EG_CTL_HOLD n) && b.on (F.EG_CFG_UPD n)
  let due := ((b.egSt n).recomp || freed || egLoads c n b) && !b.on (F.EG_CTL_HOLD n)
  let b := if due then egRecompute n ((c.tick + 1) * 64) b else b
  let s := b.egSt n
  let b := b.setEg n { s with
    recomp := false, fresh := false, undo := none, sched := if b.on (F.EG_CTL_EN n) then s.sched else [] }
  if b.acted (EG.clearIn n) then egBalls n b else b

/-- What a recomputation sets in its fc (R176, R177). -/
def egBeginFc (b : Block) (n : Nat) : Block :=
  let s := b.egSt n
  if s.ledgeNow || s.shortNow then
    let b := if s.ledgeNow then b.flag (F.EG_STAT_LEDGE n) else b
    let b := if s.shortNow then b.bump (F.EG_MISS_SHORT n) 1 else b
    b.setEg n { s with ledgeNow := false, shortNow := false }
  else b

end Sys2Proof.Machine
end

