-- ==== Sys2Proof/Machine/LoopLane.lean ====
section
/-! DEFINITION. Loop lanes and law units (spec/02): source conversion, triggering, the law program, output
mapping.  The delivery to an engine task is in Machine/Engine.lean. -/

namespace Sys2Proof.Machine

/-! ### FRAC arithmetic -/

/-- A 32-bit word as a signed number of 2^−31. -/
def frac (w : Nat) : Int := toSigned 32 w

/-- Is a value outside −1 … 1 − 2^−31 (R78)? -/
def fracClamps (v : Int) : Bool := v < -(2 ^ 31) || v > 2 ^ 31 - 1

/-- sat(v) of R78. -/
def fracSat (v : Int) : Int := clampInt (-(2 ^ 31)) (2 ^ 31 - 1) v

/-- Shift right by k with one rounding: half is added and the bits below are discarded (R77). -/
def roundShr (v : Int) (k : Nat) : Int := if k = 0 then v else (v + 2 ^ (k - 1)) / 2 ^ k

/-- R77: a product with 62 fraction bits, scaled by 2^s, as Q.31. -/
def scaleProd (p : Int) (s : Int) : Int :=
  if s ≥ 0 then roundShr p 31 * 2 ^ s.toNat else roundShr p (31 + (-s).toNat)

/-- R77: a Q.31 value scaled by 2^s. -/
def scaleUnit (v : Int) (s : Int) : Int := if s ≥ 0 then v * 2 ^ s.toNat else roundShr v (-s).toNat

/-- Wrap to 48 bits (R78). -/
def wrap48 (v : Int) : Int := toSigned 48 (ofSigned 48 v)

/-! ### The law unit's run (R72–R81) -/

/-- The working set of a run. -/
structure LawRun where
  s : List Nat
  x : List Nat
  y : List Nat
  a : Int
  k : List Nat
  slots : Nat
  m : Bool
  badop : Bool
  sat : Bool

/-- Read an operand (operand codes). -/
def LawRun.opnd (r : LawRun) (c : Nat) : Int :=
  if c < 8 then frac (r.s.getD c 0)
  else if c < 12 then frac (r.x.getD (c - 8) 0)
  else if c < 15 then frac (r.y.getD (c - 12) 0)
  else 0

/-- Write an operand; ZERO discards. -/
def LawRun.write (r : LawRun) (c : Nat) (v : Int) : LawRun :=
  if c < 8 then { r with s := r.s.set c (ofSigned 32 v) }
  else if 12 ≤ c ∧ c < 15 then { r with y := r.y.set (c - 12) (ofSigned 32 v) }
  else r

/-- Write sat(v), with the SAT flag (R78). -/
def LawRun.writeSat (r : LawRun) (c : Nat) (v : Int) : LawRun :=
  let r := r.write c (fracSat v)
  { r with sat := r.sat || fracClamps v }

def LawRun.coef (r : LawRun) (k : Nat) : Int := frac (r.k.getD (k % 16) 0)

def LawRun.ll (r : LawRun) (slot : Nat) : Bool := bit r.slots (2 * slot)
def LawRun.lh (r : LawRun) (slot : Nat) : Bool := bit r.slots (2 * slot + 1)

/-- One step of the program (R74–R80). -/
def LawRun.step (r : LawRun) (w : Nat) : LawRun :=
  let op := bits w 31 28
  let dst := bits w 27 24
  let sa := r.opnd (bits w 23 20)
  let sb := r.opnd (bits w 19 16)
  let k := bits w 15 12
  let sh := toSigned 4 (bits w 3 0)
  let u := bit w 5
  let slot := bits w 9 8
  let toX := 8 ≤ dst ∧ dst < 12
  match op with
  | 0 => r
  | 1 =>
    if bit w 4 ∧ toX then { r with badop := true }
    else
      let p := if u then scaleUnit sa sh else scaleProd (sa * (if bit w 8 then sb else r.coef k)) sh
      let a := wrap48 ((if bit w 7 then 0 else r.a) + (if bit w 6 then -p else p))
      let r := { r with a := a }
      if bit w 4 then r.writeSat dst a else r
  | 2 => if toX then { r with badop := true } else r.writeSat dst (scaleUnit r.a sh)
  | 3 =>
    if toX then { r with badop := true }
    else
      let lo := r.coef k
      let hi := r.coef (k + 1)
      let v := min (max sa lo) hi
      let sl := setBits (setBits r.slots (2 * slot) (2 * slot) (b2n (sa < lo))) (2 * slot + 1) (2 * slot + 1) (b2n (sa > hi))
      { r.write dst v with slots := sl }
  | 4 =>
    if 8 ≤ dst then { r with badop := true }
    else
      let d := if u then scaleUnit sa sh else scaleProd (sa * r.coef k) sh
      if bit w 11 ∧ ((r.lh slot ∧ d > 0) ∨ (r.ll slot ∧ d < 0)) then r
      else r.writeSat dst (r.opnd dst + d)
  | 5 =>
    if toX then { r with badop := true }
    else
      let cond := match bits w 11 10 with
        | 0 => true
        | 1 => r.ll slot || r.lh slot
        | 2 => r.a ≥ 0
        | _ => r.m
      r.write dst (if cond then sa else sb)
  | 6 => if toX then { r with badop := true } else r.writeSat dst (sa + scaleProd (sb * r.coef k) sh)
  | _ => { r with badop := true }

/-- The state a run of law unit u for lane n starts from; K is the active bank (R81). -/
def Block.lawStart (b : Block) (n u : Nat) (xs : List Nat) : LawRun :=
  let t := b.luSt u
  { s := (List.range 8).map fun k => b.rd (R.LU_S u k)
    x := xs
    y := t.ys
    a := toSigned 48 t.acc
    k := (List.range 16).map fun k => t.kAct.getD 0 k
    slots := b.get (F.LU_FLAG_SLOT u)
    m := b.on (F.LL_CTL_M n)
    badop := false
    sat := false }

/-- What j steps of the program of law unit u leave for lane n over a snapshot (R72). -/
def Block.lawResult (b : Block) (n u j : Nat) (xs : List Nat) : LawRun :=
  (List.range j).foldl (fun r i => r.step (b.rd (R.LU_P u i))) (b.lawStart n u xs)

/-- What a step leaves in law unit u. -/
def lawLeave (u : Nat) (r : LawRun) (b : Block) : Block :=
  let b := (List.range 8).foldl (fun b k => b.wr (R.LU_S u k) (r.s.getD k 0)) b
  let b := b.setLu u { b.luSt u with ys := r.y, acc := ofSigned 48 r.a }
  let b := b.put (F.LU_FLAG_SLOT u) r.slots
  let b := if r.sat then b.flag (F.LU_FLAG_SAT u) else b
  if r.badop then b.flag (F.LU_FLAG_BADOP u) else b

/-- The step that falls in this fc, of a run whose last step is in fc `runEnd`: step j in lane input fc + j (R72). -/
def lawStep (tick : Nat) (b : Block) (n : Nat) : Block :=
  let s := b.llSt n
  let u := b.get (F.LL_CFG_LU n)
  let len := b.get (F.LU_CFG_LEN u)
  match s.runEnd with
  | some e =>
    if tick ≤ e ∧ e < tick + len then lawLeave u ((b.lawStart n u s.xs).step (b.rd (R.LU_P u (tick + len - e - 1)))) b else b
  | none => b

/-- Exchange the coefficient banks when KSWAP is set, then clear it (R86). -/
def luSwap (n u : Nat) (b : Block) : Block :=
  if b.on (F.LL_CTL_KSWAP n) then
    let act := (b.luSt u).kAct
    let sh := (List.range 16).foldl (fun (m : Assoc Nat) k => m.setD 0 k (b.rd (R.LU_K u k))) []
    let b := (List.range 16).foldl (fun b k => b.wr (R.LU_K u k) (act.getD 0 k)) b
    (b.setLu u { b.luSt u with kAct := sh }).put (F.LL_CTL_KSWAP n) 0
  else b

/-! ### Lanes -/

/-- The output generators of a lane (R58): those valid. -/
def Block.laneOuts (b : Block) (n : Nat) : List (Nat × Nat) :=
  (if b.on (F.LL_OUT_V0 n) then [(0, b.get (F.LL_OUT_EG0 n))] else []) ++
  (if b.on (F.LL_OUT_V1 n) then [(1, b.get (F.LL_OUT_EG1 n))] else []) ++
  (if b.on (F.LL_OUT_V2 n) then [(2, b.get (F.LL_OUT_EG2 n))] else [])

/-- Is an output generator of the lane held at its safe level by a trip (R68)?  An asynchronous trip holds the lane from the fc its
group synchronises it in (log entry 122). -/
def Block.laneTripped (b : Block) (n : Nat) : Bool := (b.laneOuts n).any fun p => b.egHeld p.2

/-- R69, R70: an output as a duty. -/
def mapDuty (bip : Bool) (y : Nat) : Nat :=
  if bip then ofSigned 32 (frac y / 2 + 0x40000000) else if frac y < 0 then 0 else y

/-- Write a lane's duties to its valid outputs, all in this fc (R71); of two outputs that name one generator the later one's stands
(log entry 124). -/
def laneDuties (n : Nat) (ds : List Nat) (b : Block) : Block :=
  (b.laneOuts n).foldl (fun b p => egDuty p.2 (mapDuty (b.on (F.LL_CFG_BIP n)) (ds.getD p.1 0)) b) b

/-- R63: convert what a source delivers; `v` is the code, result or speed word, `pos` the 48-bit position. -/
def convertSrc (srcWord v pos : Nat) : Nat :=
  let fmt := bits srcWord 23 22
  match bits srcWord 31 30 with
  | 1 =>
    if fmt = 0 then
      ofSigned 32 (clampInt (-32768) 32767 ((v : Int) - (bits srcWord 15 0 : Nat)) * 65536)
    else v * 2 ^ 15 % 2 ^ 32
  | 3 => if fmt = 0 then v else bits pos (bits srcWord 21 16 + 31) (bits srcWord 21 16)
  | _ => v

/-- Is this the lane input fc of the law unit's run? -/
def Block.laneInputNow (b : Block) (tick n : Nat) : Bool :=
  !b.on (F.LL_CFG_LAW n) && (b.llSt n).runEnd == some (tick + b.get (F.LU_CFG_LEN (b.get (F.LL_CFG_LU n))))

/-- Is a run in progress (R85): from the fc after its lane input fc to that of its last step? -/
def Block.laneRunning (b : Block) (tick n : Nat) : Bool :=
  (b.llSt n).runEnd.any (fun e => tick ≤ e) && !b.laneInputNow tick n

/-- A trigger is to come in fc t. -/
def addTrig (t : Nat) (l : List Nat) : List Nat := if l.contains t then l else l ++ [t]

/-- Does a trigger of the lane fall due in this fc? -/
def LlSt.trigDue (s : LlSt) (tick : Nat) : Bool := s.trigs.any fun t => t ≤ tick

/-- A lane takes a delivery at source k (R63–R67). A trigger of this fc has used the deliveries before it, unless a trip drops
it. -/
def laneTake (c : Ctx) (n k v pos : Nat) (b : Block) : Block :=
  let s := b.llSt n
  let val := convertSrc (b.rd (R.LL_SRC n k)) v pos
  let since := if s.trigDue c.tick && !b.laneTripped n then c.tick else 0
  let s := { s with src := s.src.set k val, newAt := s.newAt.set k (some c.tick) }
  let trig := b.get (F.LL_CFG_TRIG n)
  let all := (List.range 4).all fun j => b.get (F.LL_SRC_KIND n j) == 0 || (s.newAt.getD j none).any fun f => since ≤ f
  b.setLl n (if trig = k ∨ (trig = 4 ∧ all) then { s with trigs := addTrig (c.tick + 1) s.trigs } else s)

/-- Unit `unit` of source kind `kind` (1 ADC, 2 SD, 3 FB) delivers to every lane that binds it; a feedback unit
says which of its words is new (`posw`), the format of the source choosing (R63). -/
def laneDeliver (c : Ctx) (kind unit v pos : Nat) (posw : Option Bool) (b : Block) : Block :=
  (List.range (nEG c.hw)).foldl (fun b n =>
    if b.on (F.LL_CFG_EN n) && c.start.on (F.LL_CTL_RUN n) then
      (List.range 4).foldl (fun b k =>
        let fits := match posw with
          | some p => (b.get (F.LL_SRC_FMT n k) == 1) == p
          | none => true
        if b.get (F.LL_SRC_KIND n k) == kind && b.get (F.LL_SRC_UNIT n k) == unit && fits then laneTake c n k v pos b else b) b
    else b) b

/-- CLRS or a write of S`k` acts (R85). -/
def DefWrite.apply (u : Nat) (b : Block) (d : DefWrite) : Block :=
  if d.clr then
    let b := (List.range 8).foldl (fun b k => b.wr (R.LU_S u k) 0) b
    (b.setLu u { b.luSt u with acc := 0 }).put (F.LU_FLAG_SLOT u) 0
  else b.wr (R.LU_S u d.k) d.v

/-- Writes deferred by a run are applied in the fc after its last step (R85). -/
def luDeferred (c : Ctx) (n : Nat) (b : Block) : Block :=
  let s := b.llSt n
  when (!s.defer.isEmpty && s.runEnd.all (fun e => e < c.tick)) (fun b =>
    s.defer.foldl (DefWrite.apply (b.get (F.LL_CFG_LU n))) (b.setLl n { s with defer := [] })) b

/-- The marks of deliveries that led to a trigger now dropped stand again: the first delivery after the trip triggers (R68). -/
def LlSt.renew (s : LlSt) (tick : Nat) : LlSt := { s with newAt := s.newAt.map fun f => some (f.getD tick) }

/-- Of the deliveries since the previous trigger those that this fc's trigger leaves: the ones of this fc (R66); a held trigger is the
previous one from the fc it occurred in (log entry 168). -/
def LlSt.newFrom (s : LlSt) (tick : Nat) : List (Option Nat) := s.newAt.map fun f => if f.any fun t => tick ≤ t then f else none

/-- The lane input fc (R66, R86, R72, R87): the snapshot, SEQ and LAST, the bank swap, the law. -/
def laneRun (c : Ctx) (n : Nat) (b : Block) : Block :=
  let b := luDeferred c n b
  let s := b.llSt n
  let xs := (c.start.llSt n).src
  let s := { s with xs := xs, held := false }
  let b := (b.wrapAdd (F.LL_STAT_SEQ n) 1).wr (R.LL_LAST n) (c.tick % 2 ^ 32)
  if b.on (F.LL_CFG_LAW n) then
    b.setLl n { s with toEngine := s.toEngine ++ [⟨c.tick + 8, xs, c.tick % 2 ^ 32, b.get (F.LL_STAT_SEQ n)⟩] }
  else
    let u := b.get (F.LL_CFG_LU n)
    let len := b.get (F.LU_CFG_LEN u)
    luSwap n u (b.setLl n { s with runEnd := some (c.tick + len), yDue := s.yDue ++ [c.tick + len + 2] })

/-- A trigger is dropped under a trip (R68); the deliveries that led to it stay new. -/
def laneDrop (n : Nat) (b : Block) : Block := (b.setLl n { b.llSt n with tripDrop := true }).bump (F.LL_STAT_TSKIP n) 1

/-- A trigger falls due (R64–R68, R83, R84); one that falls due in the lane input fc of a held trigger is one with it (log entry
120); for a later trigger the previous one is in the fc it occurred in (DESIGN CHOICE, log entry 168). -/
def laneTrigger (c : Ctx) (n : Nat) (b : Block) : Block :=
  let s := b.llSt n
  when (s.trigDue c.tick) (fun b =>
    let s := { s with trigs := s.trigs.filter fun t => c.tick < t }
    let b := b.setLl n s
    if !c.start.on (F.LL_CTL_RUN n) then b
    else if b.laneTripped n then laneDrop n b
    else
      let s := { s with newAt := s.newFrom c.tick }
      if b.laneInputNow c.tick n then b.setLl n s
      else if b.laneRunning c.tick n then
        let b := b.setLl n { s with held := true }
        if s.held then b.bump (F.LL_STAT_OVR n) 1 else b
      else laneRun c n (b.setLl n s)) b

/-- A held trigger starts its run in the fc after the last step (R83, R67, R68); deferred writes come first (R85). -/
def laneHeldRun (c : Ctx) (n : Nat) (b : Block) : Block :=
  let s := b.llSt n
  when (s.held && s.runEnd.all (fun e => e < c.tick)) (fun b =>
    let b := b.setLl n { s with held := false }
    if !c.start.on (F.LL_CTL_RUN n) then b
    else if b.laneTripped n then laneDrop n (b.setLl n ((b.llSt n).renew c.tick)) else laneRun c n b) b

/-- Y0–Y2 as the run left them reach the duty shadows, and MON0–MON2 hold them (R73). -/
def lawTransfer (c : Ctx) (n : Nat) (b : Block) : Block :=
  let s := b.llSt n
  when (s.yDue.any (fun t => t ≤ c.tick)) (fun b =>
    let ys := (c.start.luSt (b.get (F.LL_CFG_LU n))).ys
    let b := b.setLl n { s with yDue := s.yDue.filter fun t => c.tick < t }
    let b := (List.range 3).foldl (fun b k => b.wr (R.LL_MON n k) (ys.getD k 0)) (b.wr (R.LL_MON n 3) 0)
    laneDuties n ys b) b

/-- The lane that binds a law unit (R59). -/
def Block.laneOfLu (b : Block) (hw : Hw) (u : Nat) : Option Nat :=
  (List.range (nEG hw)).find? fun n => b.on (F.LL_CFG_EN n) && !b.on (F.LL_CFG_LAW n) && b.get (F.LL_CFG_LU n) == u

/-- Apply a write or CLRS at once, or defer it past the run in progress (R85). -/
def luApply (c : Ctx) (n u : Nat) (d : DefWrite) (b : Block) : Block :=
  if b.laneRunning c.tick n then
    let s := b.llSt n
    b.setLl n { s with defer := s.defer ++ [d] }
  else d.apply u (luDeferred c n b)

/-- A software write of S0–S7 (R85). -/
def luStateWrite (c : Ctx) (l : Loc) (a v : Nat) (b : Block) : Block :=
  let b := b.noteWrite l a v
  let d : DefWrite := ⟨false, (l.off - 0xC0) / 4, v⟩
  match b.laneOfLu c.hw l.inst with
  | some n => luApply c n l.inst d b
  | none => b.wr a v

/-- A write of LLnn_CTL: RUN, M, KSWAP by their codes, CLRS under R85. Without a law unit KSWAP has nothing to swap and stays set
(log entry 123), and CLRS nothing to clear. -/
def llCtlWrite (c : Ctx) (ag : Agent) (l : Loc) (a v : Nat) (b : Block) : Block :=
  let b := b.plainWrite ag l a v
  if bit v 3 ∧ b.on (F.LL_CFG_EN l.inst) ∧ !b.on (F.LL_CFG_LAW l.inst) then luApply c l.inst (b.get (F.LL_CFG_LU l.inst)) ⟨true, 0, 0⟩ b else b

/-- A write of LUnn_Kk: the shadow bank, and from the image both banks (R86). -/
def luKWrite (ag : Agent) (l : Loc) (a v : Nat) (b : Block) : Block :=
  let b := b.plainWrite ag l a v
  if ag = .boot then
    let t := b.luSt l.inst
    b.setLu l.inst { t with kAct := t.kAct.setD 0 ((l.off - 0x80) / 4) v }
  else b

/-! ### Engine law (R92–R94) -/

/-- The committed duties and monitors are written (R92). -/
def laneDutyTransfer (c : Ctx) (n : Nat) (b : Block) : Block :=
  let s := b.llSt n
  match s.duties with
  | [] => b
  | d :: rest =>
    when (d.due ≤ c.tick) (fun b =>
      let b := b.setLl n { s with duties := rest }
      let b := (List.range 4).foldl (fun b k => b.wr (R.LL_MON n k) (d.mons.getD k 0)) b
      laneDuties n d.duties b) b

end Sys2Proof.Machine
end

