-- ==== Sys2Proof/Machine/Bramble.lean ====
section
/-! DEFINITION. Bramble, the trip network (spec/04), and the forcing it does to edge generators and head-drive
lanes (R189, R256–R258). -/

namespace Sys2Proof.Machine

/-! ### Forcing of head-drive lanes -/

/-- Ball code of gate g of lane n: 0 HA, 1 LA, 2 HB, 3 LB (R247). -/
def ballHlg (n g : Nat) : Nat := 0x2000 + 4 * n + g

/-- Is the lane a member of the group? -/
def Block.hlMember (b : Block) (g n : Nat) : Bool := bit (b.get (F.TG_MHL_HL g)) n

/-- Does a trip group force the lane (R256)? -/
def Block.hlTripped (b : Block) (n : Nat) : Bool := (List.range 32).any fun g => b.tgForces g && b.hlMember g n

/-- Is the lane held by a group that has tripped (STAT.TRIP)? -/
def Block.hlHeld (b : Block) (n : Nat) : Bool :=
  (List.range 32).any fun g => b.on (F.TG_STAT_TRIPPED g) && b.hlMember g n

/-- Must the lane's gate balls be forced low (R256)? -/
def Block.hlMustForce (b : Block) (n : Nat) : Bool :=
  b.hlTripped n || b.engineForces (ownKey .hl n) || b.packageForces

/-- The gate balls: undriven (R249, R250), low (1), or switching by the period's windows (3). -/
def hlBalls (n : Nat) (b : Block) : Block :=
  let s := b.hlSt n
  let v := if !b.outputs || !b.on (F.HL_CFG_DRV n) then 0 else if s.switching && !s.forced then 3 else 1
  (List.range 4).foldl (fun b g => b.setBall (ballHlg n g) v) b

/-- A forcing begins in fc e: gates low, the waveform abandoned, the queue cleared, each start counted (R257). -/
def hlForceBegin (e n : Nat) (b : Block) : Block :=
  let s := b.hlSt n
  let now := e * 64
  let waves := s.waves.map fun w => if w.e > now && !w.ended then { w with e := now, ended := true } else w
  let b := if s.queue.isEmpty then b else b.bump (F.HL_CNT_TSKIP n) s.queue.length
  let counted := if s.took.isSome && !s.queue.isEmpty then F.HL_CNT_TSKIP n :: s.counted else s.counted
  let b := b.setHl n { s with
    forced := true, queue := [], waves := waves, wins := [], switching := false, counted := counted }
  hlBalls n (b.put (F.HL_STAT_SAFE n) 1)

/-- The last forcing ends in fc e: the gates stay low until a period start that satisfies R275 (R258). -/
def hlForceEnd (e n : Nat) (b : Block) : Block :=
  hlBalls n ((b.setHl n { b.hlSt n with forced := false, since := e, switching := false }).put
    (F.HL_STAT_SAFE n) 0)

/-- Bring a lane's forcing, from fc e, up to date with its causes. Once forced it stays so while a group of its is tripped (R200). -/
def hlForcing (e : Nat) (b : Block) (n : Nat) : Block :=
  let b := b.put (F.HL_STAT_TRIP n) (b2n (b.hlHeld n))
  let must := b.hlMustForce n || ((b.hlSt n).forced && b.hlHeld n)
  if must && !(b.hlSt n).forced then hlForceBegin e n b
  else if !must && (b.hlSt n).forced then hlForceEnd e n b
  else b

/-- Bring the forcing of every generator and lane, from fc e, up to date. -/
def refreshForcing (hw : Hw) (e : Nat) (b : Block) : Block :=
  let b := (List.range (nEG hw)).foldl (egForcing e) b
  (List.range (nHL hw)).foldl (hlForcing e) b

/-! ### Trip groups -/

namespace TG
def tripIn (g : Nat) : Input := ⟨.tg, g, 0⟩
end TG

/-- Does the group take asynchronous source `code` (R193, R197)? -/
def Block.tgTakes (b : Block) (g code : Nat) : Bool :=
  if code < 32 then bit (b.rd (R.TG_ACLO g)) code
  else if code < 64 then bit (b.rd (R.TG_ACHI g)) (code - 32)
  else if code < 80 then bit (b.get (F.TG_BALL_TEN g)) (code - 64)
  else false

/-- Is the source asserted as the group sees it: a comparator's output active, a TRIP ball at the level of TPOL (R194)? -/
def Block.tgSees (b : Block) (g code : Nat) : Bool :=
  if code < 64 then b.asyncSrc.contains code
  else b.tripLv.find? (code - 64) == some (bit (b.get (F.TG_BALL_TPOL g)) (code - 64))

/-- Is an enabled asynchronous source of the group asserted (STAT.ASRT, R198)? -/
def Block.tgAsserted (b : Block) (g : Nat) : Bool :=
  b.on (F.TG_CTL_EN g) && (List.range 80).any fun k => b.tgTakes g k && b.tgSees g k

/-- The smallest of a list of codes. -/
def minCode (l : List Nat) : Nat := l.foldl min 0xFF

/-- A release of this fc does not take effect after all: a source asserts, or is detected, in the fc (R198). -/
def tgUnrelease (c : Ctx) (g : Nat) (b : Block) : Block :=
  if c.start.on (F.TG_STAT_TRIPPED g) && !b.on (F.TG_STAT_TRIPPED g) then
    let swt := b2n (c.start.on (F.TG_CTL_SWT g) || b.fc.syncTrip.contains (g * 256 + 0x50))
    (((b.setTg g (c.start.tgSt g)).put (F.TG_STAT_TRIPPED g) 1).put (F.TG_CTL_SWT g) swt).flag (F.TG_STAT_RREF g)
  else b

/-- An enabled source asserts in this fc: every group that takes it refuses a release of the fc (R198). -/
def tgRefuse (c : Ctx) (code : Nat) (b : Block) : Block :=
  (List.range 32).foldl (fun b g =>
    if c.start.on (F.TG_CTL_EN g) && b.tgTakes g code && b.tgSees g code then tgUnrelease c g b else b) b

/-- The members are forced by an asynchronous trip that is synchronised in this fc: their delays run from 2 fc after it (R190). -/
def tgSyncMembers (c : Ctx) (g : Nat) (b : Block) : Block :=
  let b := refreshForcing c.hw c.tick b
  (List.range (nEG c.hw)).foldl (fun b n => if b.egMember g n then egSyncDelay (c.tick + 2) n b else b) b

/-- A source whose threshold crossing is in fc t, at one group that takes it: it begins, or joins, the trip, up to the end of the
synchronising fc; at a group tripped before it only refuses a release of this fc (R193, R195–R198). -/
def tgQualify (c : Ctx) (t g code : Nat) (b : Block) : Block :=
  if !b.tgTakes g code then b
  else if c.start.on (F.TG_STAT_TRIPPED g) then tgUnrelease c g b
  else if b.on (F.TG_STAT_TRIPPED g) then
    tgSyncMembers c g ((b.setTg g { b.tgSt g with now := true }).put (F.TG_FIRST_CODE g) (min (b.get (F.TG_FIRST_CODE g)) code))
  else
    let s := b.tgSt g
    b.setTg g { s with pend := s.pend.or (some t), qual := code :: s.qual }

/-- Every group that was enabled at the start of the fc and sees the source asserted takes it; t: the fc of the threshold crossing, but
no source counts as asserting before the group's EN became 1 (R193). -/
def tgQualifyAll (c : Ctx) (t code : Nat) (b : Block) : Block :=
  (List.range 32).foldl (fun b g =>
    if c.start.on (F.TG_CTL_EN g) && b.tgSees g code then tgQualify c (max t (b.tgSt g).enAt) g code b else b) b

/-- The fc of the threshold crossing of a source that has asserted for 2.0 ns at the instant q: 209.7152 fine steps before (R193,
R196). -/
def crossedAt (q : Nat) : Nat := tickOf (q - 210)

/-- A TRIP ball's level (R194). -/
def tripBall (code : Nat) (high : Bool) (b : Block) : Block := { b with tripLv := b.tripLv.insert (code - 64) high }

/-- An asynchronous source has asserted for 2.0 ns, at this fine step of the fc: a comparator whose output is active, or a TRIP ball at
the level `high`. Every group that takes it trips, and the members' balls are forced without waiting for a clock (R193–R195). -/
def tripAssert (c : Ctx) (code : Nat) (high : Bool) (fine : Nat) (b : Block) : Block :=
  when (code < 80) (fun b =>
    let b := if code < 64 then b else tripBall code high b
    refreshForcing c.hw c.tick (tgQualifyAll c (crossedAt (c.tick * 64 + fine)) code b)) b

/-- An asynchronous source stops asserting: a TRIP ball goes to the level `high`, where it may assert at another group (R194). A
comparator's source follows its output by itself. -/
def tripDeassert (c : Ctx) (code : Nat) (high : Bool) (b : Block) : Block :=
  when (64 ≤ code && code < 80) (fun b =>
    refreshForcing c.hw c.tick (tgQualifyAll c c.tick code
      (tripBall code high { b with fc := { b.fc with asyncHad := code :: b.fc.asyncHad } }))) b

/-- The group's trip in its synchronising fc (R196, R197): TRIPPED, FIRST, TTICK, TCNT, the TRIP event; it forces from 2 fc later
(O6), at once where an asynchronous source led to it (O5). -/
def tgTrip (c : Ctx) (g first : Nat) (now : Bool) (b : Block) : Block :=
  let b := b.setTg g { b.tgSt g with pend := none, qual := [], wait := some (c.tick + 2), now := now }
  let b := (b.put (F.TG_STAT_TRIPPED g) 1).put (F.TG_FIRST_CODE g) first
  let b := (b.wr (R.TG_TTICK g) (c.tick % 2 ^ 32)).bump (F.TG_CNT_TCNT g) 1
  emit c .tg g 0 none b

/-- The synchronous sources detected at a group in this fc (R197). -/
def Block.syncDetected (b : Block) (g : Nat) : List Nat :=
  (b.fc.syncTrip.filter fun x => x / 256 == g).map fun x => x % 256

/-- The group synchronises an asynchronous trip (R196, R197, R190). -/
def tgSynchronise (c : Ctx) (g : Nat) (b : Block) : Block :=
  tgSyncMembers c g (tgTrip c g (minCode ((b.tgSt g).qual ++ b.syncDetected g)) true b)

/-- May the group synchronise now: 6 to 14 fc after the threshold crossing (R196)? -/
def Block.tgSyncTime (b : Block) (g tick : Nat) : Bool := (b.tgSt g).pend.any fun t => t + 6 ≤ tick && tick ≤ t + 14

/-- The row TG_TRIP_SYNC (R196). -/
def tgTripSync (c : Ctx) (g : Nat) (b : Block) : Block :=
  when (b.tgSyncTime g c.tick && !b.on (F.TG_STAT_TRIPPED g)) (tgSynchronise c g) b

/-- A synchronous source is detected at a group (R196, R284): it trips the group, joins FIRST in the fc of the trip, or refuses a
release of this fc (R198). The members are forced 2 fc after (O6), at once where an asynchronous trip is under way. -/
def tgSyncSource (c : Ctx) (g code : Nat) (b : Block) : Block :=
  if !c.start.on (F.TG_CTL_EN g) then b
  else
    let b := { b with fc := { b.fc with syncTrip := (g * 256 + code) :: b.fc.syncTrip } }
    if c.start.on (F.TG_STAT_TRIPPED g) then tgUnrelease c g b
    else if b.on (F.TG_STAT_TRIPPED g) then b.put (F.TG_FIRST_CODE g) (min (b.get (F.TG_FIRST_CODE g)) code)
    else if (b.tgSt g).pend.isSome then tgSynchronise c g b
    else tgTrip c g code false b

/-- The TRIP action (R201). -/
def tgTripAction (c : Ctx) (g : Nat) (b : Block) : Block := onAct (TG.tripIn g) (fun _ b => tgSyncSource c g 0x51 b) b

/-- Was an enabled asynchronous source asserted, or a synchronous one detected, in this fc (R198)? -/
def Block.tgBusy (b : Block) (c : Ctx) (g : Nat) : Bool :=
  (c.start.on (F.TG_CTL_EN g) &&
    ((List.range 80).any fun k => b.tgTakes g k && (b.tgSees g k || c.start.tgSees g k || b.fc.asyncHad.contains k))) ||
  !(b.syncDetected g).isEmpty

/-- A release (R198): refused while a source is asserted or detected; nothing at a group not tripped. The forcing ends from the next
fc. -/
def tgRelease (c : Ctx) (g : Nat) (b : Block) : Block :=
  if !c.start.on (F.TG_STAT_TRIPPED g) then b
  else if b.tgBusy c g then b.flag (F.TG_STAT_RREF g)
  else
    let still := if b.tgForces g then g :: b.fc.released else b.fc.released
    let b := { b with fc := { b.fc with recheck := true, released := still } }.setTg g { enAt := (b.tgSt g).enAt }
    (b.put (F.TG_STAT_TRIPPED g) 0).put (F.TG_CTL_SWT g) 0

/-- A write of EG_TGgg_CTL: EN, LOCK, the software trip, detected while EN is 1 (R196), and the release, which a software trip of the
same write refuses (R198). -/
def tgCtlWrite (c : Ctx) (ag : Agent) (l : Loc) (a v : Nat) (b : Block) : Block :=
  let g := l.inst
  let swt := b.get (F.TG_CTL_SWT g)
  let b := (b.plainWrite ag l a v).put (F.TG_CTL_SWT g) swt
  let b := if bit v 2 && c.start.on (F.TG_CTL_EN g) then tgSyncSource c g 0x50 (b.put (F.TG_CTL_SWT g) 1) else b
  if bit v 3 then tgRelease c g b else b

/-- The group's EN becomes 1 in fc e: a source already asserted counts as asserting from the start of e (R193), at a group whose
release has just taken effect as a new trip (R198, R199). -/
def tgEnabled (e g : Nat) (b : Block) : Block :=
  let b := b.setTg g { b.tgSt g with enAt := e }
  if b.on (F.TG_STAT_TRIPPED g) then b
  else
    let seen := (List.range 80).filter fun k => b.tgTakes g k && b.tgSees g k
    if seen.isEmpty then b
    else b.setTg g { b.tgSt g with pend := (b.tgSt g).pend.or (some e), qual := seen ++ (b.tgSt g).qual }

/-- At the end of an fc: the groups whose EN becomes 1 with the next, or, by the image, in the first fc of the outputs (R193); an
asynchronous trip whose 14 fc are over is synchronised (R196); the two fc of a synchronous trip pass (O6). -/
def tgEndFc (c : Ctx) (b : Block) (g : Nat) : Block :=
  let boot := b.fcS == some c.tick && c.start.on (F.TG_CTL_EN g)
  let fresh := b.on (F.TG_CTL_EN g) && (!c.start.on (F.TG_CTL_EN g) || boot)
  let b := if fresh then tgEnabled (if boot then c.tick else c.tick + 1) g b else b
  let b := if (b.tgSt g).pend.any (fun t => t + 14 ≤ c.tick) && !b.on (F.TG_STAT_TRIPPED g) then tgSynchronise c g b else b
  let due := (b.tgSt g).wait.any fun t => t ≤ c.tick + 1
  let b := if due then b.setTg g { b.tgSt g with wait := none, now := false } else b
  if due || (fresh && (b.tgSt g).pend.isSome) then { b with fc := { b.fc with recheck := true } } else b

end Sys2Proof.Machine
end

