-- ==== Sys2Proof/Machine/Analog.lean ====
section
/-! DEFINITION. SAR converters, comparators, sigma-delta demodulators (spec/05). -/

namespace Sys2Proof.Machine

/-- AIN balls of the variant (R208, the variant table of spec/00). -/
def nAIN (hw : Hw) : Nat := pick hw 96 48 24

/-! ### SAR converters -/

namespace AD
def startIn (n : Nat) : Input := ⟨.ad, n, 0⟩
def stopIn (n : Nat) : Input := ⟨.ad, n, 1⟩
def flushIn (n : Nat) : Input := ⟨.ad, n, 2⟩
end AD

/-- R206: the code of a voltage, in the units of V(VREF). -/
def adCode (v vref : Int) : Nat :=
  if v < 0 then 0 else if vref ≤ v then 0xFFFF else (v * 65536 / vref).toNat

/-- The code of a ball's voltage. -/
def voltsCode (x : Volts) : Nat := adCode x.v.toInt x.vref.toInt

/-- A START is latched for entry k (R205, R207): the conversion ends 80 fc later. -/
def adLatch (c : Ctx) (n k : Nat) (b : Block) : Block :=
  (b.setAd n { b.adSt n with conv := some ⟨k, c.start.rd (R.AD_SEQ n k), c.tick + 80⟩ }).put (F.AD_STAT_BUSY n) 1

/-- The entry after entry k in ONE mode (R209). -/
def Block.adAfter (b : Block) (n k : Nat) : Nat := if k < b.get (F.AD_CFG_LEN n) then k + 1 else 0

/-- A START is latched by the mode (R209, R210); in ONE mode PTR shows from then on the entry to be converted next (log entry 165). -/
def adBegin (c : Ctx) (n : Nat) (b : Block) : Block :=
  match b.get (F.AD_CFG_MODE n) with
  | 0 =>
    let k := b.get (F.AD_STAT_PTR n)
    (adLatch c n k (b.setAd n { b.adSt n with seqRun := false, stopped := false })).put (F.AD_STAT_PTR n) (b.adAfter n k)
  | 3 => b.flag (F.AD_STAT_CFGERR n)
  | _ =>
    let b := (b.setAd n { b.adSt n with seqRun := true, stopped := false }).put (F.AD_STAT_PTR n) 0
    adLatch c n 0 b

/-- A START that counts arrives at a converter whose EN it found set (R211, R212, R214). -/
def adStartArrive (c : Ctx) (n : Nat) (b : Block) : Block :=
  let s := b.adSt n
  if b.acted (AD.stopIn n) then b
  else if b.on (F.AD_STAT_PEND n) || (b.get (F.AD_CFG_MODE n) == 2 && s.seqRun && !s.stopped) then
    (b.setAd n { s with slostNow := true }).bump (F.AD_STAT_SLOST n) 1
  else if s.conv.isSome then b.put (F.AD_STAT_PEND n) 1
  else adBegin c n b

/-- START (R205): ignored while EN is 0 (R215). -/
def adStart (c : Ctx) (n : Nat) (b : Block) : Block :=
  onAct (AD.startIn n) (fun _ b => adStartArrive c n b) b

/-- Was a conversion's START latched in this fc? -/
def Block.adLatched (b : Block) (c : Ctx) (n : Nat) : Bool := (b.adSt n).conv.any fun v => v.endAt == c.tick + 80

/-- A START that this fc's STOP discards (R214), and a next entry that it keeps from being latched (R213), leave no trace. -/
def adUnlatch (c : Ctx) (n : Nat) (b : Block) : Block :=
  let s := b.adSt n
  let b := if s.slostNow then (b.setAd n { s with slostNow := false }).unbump c (F.AD_STAT_SLOST n) 1 else b
  let b := if b.get (F.AD_CFG_MODE n) = 3 then b.unflag c (F.AD_STAT_CFGERR n) else b
  if b.adLatched c n then
    let b := (b.setAd n { b.adSt n with conv := none, seqRun := false }).put (F.AD_STAT_BUSY n) 0
    b.put (F.AD_STAT_PTR n) (if b.get (F.AD_CFG_MODE n) = 0 then c.start.get (F.AD_STAT_PTR n) else 0)
  else b

/-- STOP's effect (R213, R214). -/
def adStopAct (c : Ctx) (n : Nat) (b : Block) : Block :=
  let b := adUnlatch c n b
  let s := b.adSt n
  (b.setAd n { s with stopped := s.conv.isSome, seqRun := s.conv.isSome && s.seqRun }).put (F.AD_STAT_PEND n) 0

/-- STOP (R213, R214). -/
def adStop (c : Ctx) (n : Nat) (b : Block) : Block := onAct (AD.stopIn n) (fun _ b => adStopAct c n b) b

/-- What follows a conversion's end: the next entry, the end of the sequence, a held START (R209–R213). -/
def adNext (c : Ctx) (n k : Nat) (b : Block) : Block :=
  let s := b.adSt n
  let len := b.get (F.AD_CFG_LEN n)
  let halt := b.acted (AD.stopIn n)
  let stopped := s.stopped || halt
  let b := (b.setAd n { s with conv := none, stopped := false, seqRun := s.seqRun && !stopped }).put (F.AD_STAT_BUSY n) 0
  let more := s.seqRun && !stopped && (k < len || b.get (F.AD_CFG_MODE n) == 2)
  let ptr := if s.seqRun then (if more && k < len then k + 1 else 0) else b.get (F.AD_STAT_PTR n)
  let b := b.put (F.AD_STAT_PTR n) ptr
  if more then adLatch c n ptr b
  else
    let b := b.setAd n { b.adSt n with seqRun := false }
    if b.on (F.AD_STAT_PEND n) && !halt then adBegin c n (b.put (F.AD_STAT_PEND n) 0) else b

/-- The conversion ends: `code`, the code of the ball's voltage at the sample instant (R205–R208, R217, R218, R222). -/
def adEnd (c : Ctx) (n code : Nat) (b : Block) : Block :=
  match (b.adSt n).conv with
  | none => b
  | some v =>
    when (v.endAt ≤ c.tick) (fun b =>
      let pin := bits v.word 6 0
      let absent := pin ≥ nAIN c.hw
      let code := if absent then 0 else code
      let w := 2 ^ 31 + v.entry * 2 ^ 24 + pin * 65536 + code
      let b := if absent then b.flag (F.AD_STAT_PINERR n) else b
      let b := (b.wr (R.AD_LAST n) w).wr (R.AD_TICK n) ((v.endAt - 56) % 2 ^ 32)
      let b := if bit v.word 9 then b else b.setAd n { b.adSt n with land := some w }
      let b := emit c .ad n 0 none b
      let b := if v.entry = b.get (F.AD_CFG_LEN n) then emit c .ad n 1 none b else b
      let b := if bit v.word 8 then laneDeliver c 1 n code 0 none b else b
      adNext c n v.entry b) b

/-- FLUSH (R220): what the FIFO held at the start of the fc goes at its end. -/
def adFlushAct (n : Nat) (b : Block) : Block := b.setAd n { b.adSt n with flush := true }

def adFlush (_c : Ctx) (n : Nat) (b : Block) : Block := onAct (AD.flushIn n) (fun _ b => adFlushAct n b) b

/-- A read of ADnn_FIFO: the results held at the start of the fc, the oldest first; what is read goes (R219). -/
def adFifoRead (c : Ctx) (n : Nat) (b : Block) : Nat × Block :=
  ((c.start.adSt n).fifo.getD (b.fc.reads.count (R.AD_FIFO n)) 0, b)

/-- The FIFO at the end of an fc, after its reads and FLUSH and the landing of its result (R218–R220), and FTH (R221). -/
def adEndFc (c : Ctx) (b : Block) (n : Nat) : Block :=
  let s := b.adSt n
  let left := if s.flush then [] else s.fifo.drop (b.fc.reads.count (R.AD_FIFO n))
  let fifo := match s.land with
    | some w => if left.length < 16 then left ++ [w] else left
    | none => left
  let lost := s.land.isSome && 16 ≤ left.length
  let b := b.setAd n { s with fifo := fifo, land := none, flush := false, slostNow := false }
  let b := if lost then b.flag (F.AD_STAT_FOVF n) else b
  let fth := c.start.get (F.AD_CFG_FTH n)
  if fth ≠ 0 ∧ fth ≤ 16 ∧ s.fifo.length < fth ∧ fifo.length = fth then emit c .ad n 2 none b else b

/-- A write of ADnn_CTL (R214, R215, R220): EN = 0 is a STOP; a software start is judged with EN as the write leaves it. -/
def adCtlWrite (c : Ctx) (ag : Agent) (l : Loc) (a v : Nat) (b : Block) : Block :=
  let n := l.inst
  let b := b.plainWrite ag l a v
  let b := if !bit v 0 then
      let (act, b) := swArrive (AD.stopIn n) b
      if act then adStopAct c n b else b
    else b
  let b := if bit v 2 then
      let (act, b) := swArrive (AD.flushIn n) b
      if act then adFlushAct n b else b
    else b
  if bit v 1 && bit v 0 then
    let (act, b) := swArrive (AD.startIn n) b
    if act then adStartArrive c n b else b
  else b

/-- A write of the RW fields while EN is 1 is ignored (R216, R245, R340); its IMG fields are judged as ever (R821). -/
def whileOff (c : Ctx) (en : Fld) (ag : Agent) (l : Loc) (a v : Nat) (b : Block) : Block :=
  if c.start.on en then b.plainWrite ag { l with fields := l.fields.filter fun f => f.acc == .img } a v else b.plainWrite ag l a v

/-! ### Comparators -/

namespace AC
def rampIn (n : Nat) : Input := ⟨.ac, n, 0⟩
def blankIn (n : Nat) : Input := ⟨.ac, n, 1⟩
end AC

/-- RMODE: 1 DOWN, 2 UP; the reserved code acts as FIXED. -/
def Block.acMode (b : Block) (n : Nat) : Nat :=
  let m := b.get (F.AC_CTL_RMODE n)
  if m = 3 then 0 else m

/-- DACV (R225–R228). -/
def Block.acDacv (b : Block) (n : Nat) : Nat :=
  if (b.acSt n).ramping then (b.acSt n).ramp / 2 ^ 12 else b.get (F.AC_REF_REF n)

/-- The hysteresis in nanovolts (R224). -/
def Block.acHys (b : Block) (n : Nat) : Int :=
  match b.get (F.AC_CTL_HYS n) with
  | 0 => 0
  | 1 => 8000000
  | 2 => 16000000
  | _ => 32000000

/-- Is the fc inside a blanking window (R230)? -/
def acBlanked (c : Ctx) (n : Nat) : Bool := c.tick ≤ (c.start.acSt n).blankEnd && (c.start.acSt n).blankEnd != 0

/-- May the comparator's output be active: enabled (R233), its ball present? -/
def Block.acLive (b : Block) (hw : Hw) (n : Nat) : Bool :=
  n < nAC hw && b.on (F.AC_CFG_EN n) && b.get (F.AC_CFG_PIN n) < nAIN hw

/-- R224, R225: the output for ball voltage v and reference voltage dacv / 4096 × vref, between whose two levels it stays; both
sides of each comparison times 4096. -/
def acLevel (pol was : Bool) (v vref : Int) (dacv : Nat) (hys : Int) : Bool :=
  let x := v * 4096
  let r := (dacv : Int) * vref
  if !pol then (if r < x then true else if x < r - hys * 4096 then false else was)
  else (if x < r then true else if r + hys * 4096 < x then false else was)

/-- The raw output becomes `active`: Bramble sees it at once (R232). -/
def acSetRaw (n : Nat) (active : Bool) (b : Block) : Block :=
  if (b.acSt n).raw = active then b
  else
    let b := b.setAc n { b.acSt n with raw := active }
    if active then { b with asyncSrc := n :: b.asyncSrc.filter fun x => x != n }
    else { b with asyncSrc := b.asyncSrc.filter fun x => x != n, fc := { b.fc with asyncHad := n :: b.fc.asyncHad } }

/-- The raw output by the reference, hysteresis and polarity that `r` gives, on the voltages last seen (R224). -/
def acJudge (hw : Hw) (r : Block) (b : Block) (n : Nat) : Block :=
  match (b.acSt n).vin with
  | some (v, vref) =>
    acSetRaw n (r.acLive hw n && acLevel (r.on (F.AC_CFG_POL n)) (b.acSt n).raw v vref (r.acDacv n) (r.acHys n)) b
  | none => b

/-- The ball's voltage is now `v` and V(VREF) `vref` (R224, R225). An output that becomes active refuses a release of this fc at the
groups that take it (R198). -/
def acOutput (c : Ctx) (n : Nat) (v vref : Int) (b : Block) : Block :=
  let b := acJudge c.hw c.start (b.setAc n { b.acSt n with vin := some (v, vref) }) n
  if (b.acSt n).raw then tgRefuse c n b else b

/-- ASSERT is emitted: SEEN and CNT (R231). -/
def acEmitAssert (c : Ctx) (n : Nat) (b : Block) : Block :=
  emit c .ac n 0 none (((b.setAc n { b.acSt n with asserted := true }).flag (F.AC_STAT_SEEN n)).bump (F.AC_CNT_CNT n) 1)

/-- May the synchronised output take the level `x` in this fc: the raw output had it at the end of the fc 2 or 3 before, and the output
has followed no other sample of the two in this fc (R231, F8)? -/
def Block.acFollows (b : Block) (c : Ctx) (n : Nat) (x : Bool) : Bool :=
  (b.acSt n).past.tail.contains x && b.get (F.AC_STAT_OUT n) == c.start.get (F.AC_STAT_OUT n)

/-- The synchronised output becomes active (R230, R231). -/
def acRise (c : Ctx) (n : Nat) (b : Block) : Block :=
  let b := b.put (F.AC_STAT_OUT n) 1
  if acBlanked c n then b else acEmitAssert c n b

/-- The synchronised output becomes inactive (R231). -/
def acFall (c : Ctx) (n : Nat) (b : Block) : Block :=
  let told := (b.acSt n).asserted
  let b := (b.setAc n { b.acSt n with asserted := false }).put (F.AC_STAT_OUT n) 0
  if acBlanked c n || !told then b else emit c .ac n 1 none b

/-- The row AC_ASSERT. -/
def acAssert (c : Ctx) (n : Nat) (b : Block) : Block :=
  when (n < nAC c.hw && !b.on (F.AC_STAT_OUT n) && b.acFollows c n true) (acRise c n) b

/-- The row AC_DEASSERT. -/
def acDeassert (c : Ctx) (n : Nat) (b : Block) : Block :=
  when (n < nAC c.hw && b.on (F.AC_STAT_OUT n) && b.acFollows c n false) (acFall c n) b

/-- RAMP (R227, R229): the value loaded is in force from the next fc. -/
def acRamp (c : Ctx) (n : Nat) (b : Block) : Block :=
  onAct (AC.rampIn n) (fun _ b =>
    b.setAc n { b.acSt n with ramp := c.start.get (F.AC_REF_REF n) * 2 ^ 12, ramping := true, fresh := true }) b

/-- A ramp at the end of an fc: one fc of a running ramp, by the RSTEP, RLIM and RMODE in force from the next (R227–R229); a ramp just
loaded stands as loaded, and FIXED has none. -/
def acRampTick (b : Block) (n : Nat) : Block :=
  let s := b.acSt n
  if !s.ramping then b
  else if b.acMode n = 0 then b.setAc n { s with ramping := false, fresh := false }
  else if s.fresh then b.setAc n { s with fresh := false }
  else
    let lim := b.get (F.AC_RLIM_RLIM n) * 2 ^ 12
    let st := b.get (F.AC_RSTEP_STEP n)
    b.setAc n { s with ramp := if b.acMode n = 1 then max (s.ramp - st) lim else min (s.ramp + st) lim }

/-- A comparator at the end of an fc: the ramp, the raw output by what is in force from the next fc, its sample (R231); the
synchronised output follows the sample of 3 fc before (F8) even where no row said so. -/
def acEndFc (c : Ctx) (b : Block) (n : Nat) : Block :=
  let b := match (b.acSt n).past with
    | [_, _, x] =>
      let out := b.get (F.AC_STAT_OUT n)
      if out == c.start.get (F.AC_STAT_OUT n) && x != (out == 1) then (if x then acRise c n b else acFall c n b) else b
    | _ => b
  let b := b.setAc n { b.acSt n with past := (b.acSt n).raw :: (b.acSt n).past.take 2 }
  let b := acRampTick b n
  acJudge c.hw b b n

/-- BLANK (R230). -/
def acBlank (c : Ctx) (n : Nat) (b : Block) : Block :=
  onAct (AC.blankIn n) (fun _ b =>
    let k := c.start.get (F.AC_BLK_BLK n)
    if k = 0 then b
    else
      let s := b.acSt n
      let cur := if c.tick ≤ s.blankEnd then s.blankEnd else 0
      b.setAc n { s with blankEnd := max cur (c.tick + k) }) b

/-- The window that stood at the fc's start has ended: an output still active, and not yet told of, gives ASSERT (R230). -/
def acBlankEnd (c : Ctx) (n : Nat) (b : Block) : Block :=
  when ((c.start.acSt n).blankEnd != 0 && (c.start.acSt n).blankEnd < c.tick) (fun b =>
    let b := if (b.acSt n).blankEnd < c.tick then b.setAc n { b.acSt n with blankEnd := 0 } else b
    if c.start.on (F.AC_STAT_OUT n) && !(c.start.acSt n).asserted && !b.emittedNow .ac n 0 then
      let off := !b.on (F.AC_STAT_OUT n)
      let b := acEmitAssert c n b
      if off then emit c .ac n 1 none (b.setAc n { b.acSt n with asserted := false }) else b
    else b) b

/-- A write of ACnn_CTL: a change of RMODE ends the ramp, unless a RAMP of this fc restarts it (R228, R229). -/
def acCtlWrite (ag : Agent) (l : Loc) (a v : Nat) (b : Block) : Block :=
  let n := l.inst
  let old := b.acMode n
  let b := b.plainWrite ag l a v
  if b.acMode n = old then b else b.setAc n { b.acSt n with ramping := (b.acSt n).fresh }

/-! ### Sigma-delta demodulators -/

namespace SD
def syncIn (n : Nat) : Input := ⟨.sd, n, 0⟩
end SD

/-- N of the filter (R238). -/
def Block.sdOrd (b : Block) (n : Nat) : Nat := if b.on (F.SD_CFG_ORD n) then 4 else 3

/-- Clear the filter and its decimation count (R242–R244). -/
def sdClear (n : Nat) (b : Block) : Block :=
  let s := b.sdSt n
  (b.setSd n { s with integ := [0, 0, 0, 0], comb := [0, 0, 0, 0], cnt := 0, got := 0 }).put (F.SD_STAT_SETL n) 1

/-- Running sums of the filter: each takes in the one before it. -/
def sdSums (x : Int) : List Int → List Int
  | [] => []
  | i :: t => (i + x) :: sdSums (i + x) t

/-- Differences at the decimated rate: the output and the values kept. -/
def sdDiffs (x : Int) : Nat → List Int → Int × List Int
  | 0, l => (x, l)
  | _ + 1, [] => (x, [])
  | k + 1, d :: t =>
    let (y, r) := sdDiffs (x - d) k t
    (y, x :: r)

/-- R239: the result of a filter output. -/
def sdScale (y : Int) (scl : Nat) : Int := if scl ≤ 31 then y * 2 ^ (31 - scl) else roundShr y 1

/-- Is the demodulator's configuration bad (R245)? -/
def Block.sdBad (b : Block) (n : Nat) : Bool :=
  let div := b.get (F.SD_CLK_DIV n)
  let dec := b.get (F.SD_CFG_DEC n)
  (b.on (F.SD_CFG_CLKO n) && (div < 66 || div > 819)) || dec < 16 || dec > 256 || b.get (F.SD_CFG_SCL n) > 32

/-- A completed filter output (R239, R240, R242). -/
def sdResult (c : Ctx) (n : Nat) (y : Int) (b : Block) : Block :=
  let s := b.sdSt n
  let b := b.setSd n { s with got := s.got + 1 }
  if s.got + 1 < b.sdOrd n then b
  else
    let v := sdScale y (b.get (F.SD_CFG_SCL n))
    let b := b.put (F.SD_STAT_SETL n) 0
    let b := if fracClamps v then b.flag (F.SD_STAT_SAT n) else b
    let w := ofSigned 32 (fracSat v)
    let unread := b.on (F.SD_STAT_NEW n)
    let b := ((b.wr (R.SD_RES n) w).wr (R.SD_TICK n) (c.tick % 2 ^ 32)).put (F.SD_STAT_NEW n) 1
    let b := if unread then b.flag (F.SD_STAT_OVR n) else b
    laneDeliver c 2 n w 0 none (emit c .sd n 0 none b)

/-- A sampling edge takes one bit (R237, R238). -/
def sdBit (c : Ctx) (n : Nat) (x : Bool) (b : Block) : Block :=
  let s := b.sdSt n
  let ord := b.sdOrd n
  let sums := sdSums (if x then 1 else -1) (s.integ.take ord)
  let dec := b.get (F.SD_CFG_DEC n)
  if s.cnt + 1 < dec then b.setSd n { s with integ := sums, cnt := s.cnt + 1, lastEdge := c.tick, loss := false }
  else
    let (y, comb) := sdDiffs (sums.getD (ord - 1) 0) ord s.comb
    sdResult c n y (b.setSd n { s with integ := sums, comb := comb, cnt := 0, lastEdge := c.tick, loss := false })

/-- May the demodulator take a bit in this fc? -/
def sdRuns (c : Ctx) (n : Nat) : Bool := n < nAD c.hw && c.start.on (F.SD_CTL_EN n)

/-- SYNC (R243): the filter is cleared from the next fc. -/
def sdSync (c : Ctx) (n : Nat) (b : Block) : Block :=
  onAct (SD.syncIn n) (fun _ b => when (c.start.on (F.SD_CTL_EN n)) (fun b => b.setSd n { b.sdSt n with sync := true }) b) b

/-! The clock on ball SDCnn (R235–R237). -/

/-- Ball code of SDCnn. -/
def ballSdc (n : Nat) : Nat := 0x5000 + n

/-- The place of fc `tick` in the period of the clock that the demodulator drives, which began high in fc `t` (R235). -/
def Block.sdPhase (b : Block) (n t tick : Nat) : Nat := (tick - t) % b.get (F.SD_CLK_DIV n)

/-- SDCnn in fc `tick`: high for ⌊DIV/2⌋ fc of each period; undriven where the board drives it. -/
def Block.sdcLevel (b : Block) (n tick : Nat) : Nat :=
  match (b.sdSt n).clkAt with
  | some t => lvl (b.sdPhase n t tick < b.get (F.SD_CLK_DIV n) / 2)
  | none => 0

/-- Does SDCnn have an edge, rising or falling as `up` says, in this fc, that takes a bit (R237)? With CLKO = 0 the board gives the edge.
An edge takes one bit, and no two edges lie in one fc (R235, R236). From undriven to high in the fc after EN is a rising edge (log entry
169). -/
def sdEdge (c : Ctx) (n : Nat) (up : Bool) (b : Block) : Bool :=
  (up != b.on (F.SD_CFG_EDGE n)) && (b.sdSt n).lastEdge != c.tick &&
    (match (b.sdSt n).clkAt with
     | some t => t ≤ c.tick && b.sdPhase n t c.tick == (if up then 0 else b.get (F.SD_CLK_DIV n) / 2)
     | none => true)

/-- The modulator's clock is lost (R244). Before the first sampling edge the 1,024 fc count from the enabling write (log entry 170). -/
def sdLoss (c : Ctx) (n : Nat) (b : Block) : Block :=
  when (sdRuns c n && !b.on (F.SD_CFG_CLKO n) && !(b.sdSt n).loss && (b.sdSt n).lastEdge + 1024 ≤ c.tick) (fun b =>
    let b := sdClear n (b.flag (F.SD_STAT_CLKLOSS n))
    emit c .sd n 1 none (b.setSd n { b.sdSt n with loss := true })) b

/-- A read of SDnn_RES clears NEW; a result of this fc stays unread (R241). -/
def sdResRead (c : Ctx) (n : Nat) (b : Block) : Nat × Block :=
  if b.emittedNow .sd n 0 then
    (c.start.rd (R.SD_RES n), (b.put (F.SD_STAT_NEW n) 1).put (F.SD_STAT_OVR n) (c.start.get (F.SD_STAT_OVR n)))
  else (b.rd (R.SD_RES n), b.put (F.SD_STAT_NEW n) 0)

/-- A write of SDnn_CTL: setting EN starts the demodulator, with its clock high from the next fc, or is refused (R235, R242, R245). -/
def sdCtlWrite (c : Ctx) (ag : Agent) (l : Loc) (a v : Nat) (b : Block) : Block :=
  let n := l.inst
  let was := b.on (F.SD_CTL_EN n)
  let b := b.plainWrite ag l a v
  if bit v 0 then
    if was then b
    else if b.sdBad n then (b.put (F.SD_CTL_EN n) 0).flag (F.SD_STAT_CFGERR n)
    else
      let b := sdClear n b
      b.setSd n { b.sdSt n with
        lastEdge := c.tick, loss := false, clkAt := if b.on (F.SD_CFG_CLKO n) then some (c.tick + 1) else none }
  else b.setSd n { b.sdSt n with clkAt := none }

/-- A demodulator at the end of an fc: a SYNC clears the filter, and SDCnn takes its level of the next fc. -/
def sdEndFc (c : Ctx) (b : Block) (n : Nat) : Block :=
  let b := if (b.sdSt n).sync then sdClear n (b.setSd n { b.sdSt n with sync := false }) else b
  b.setBall (ballSdc n) (b.sdcLevel n (c.tick + 1))

end Sys2Proof.Machine
end

