-- ==== Sys2Proof/Machine/HeadLane.lean ====
section
/-! DEFINITION. Head-drive lanes (spec/06): starts, waveforms, converters, the tracking loop, protections. -/

namespace Sys2Proof.Machine

namespace HL
def startIn (n : Nat) : Input := ⟨.hl, n, 0⟩
def abortIn (n : Nat) : Input := ⟨.hl, n, 1⟩
end HL

/-! ### Rounding -/

/-- n / d to the nearest whole number, halves away from zero (R264, R276). -/
def roundDiv (n : Int) (d : Nat) : Int :=
  if n ≥ 0 then (2 * n + d) / (2 * d) else -((2 * (-n) + d) / (2 * d))

/-! ### Waveforms (R262–R265) -/

/-- The points of descriptor k: duration and level (R262). -/
def Block.hlPoints (b : Block) (n k : Nat) : List (Nat × Nat) :=
  (List.range (b.get (F.HL_WF_CNT n k))).map fun j =>
    let p := b.get (F.HL_WF_FIRST n k) + j
    (b.rd (R.HLPT_DUR n p), b.get (F.HLPT_LVL_LEVEL n p))

/-- The length of a waveform in fine steps (R263). -/
def wavLen (pts : List (Nat × Nat)) : Nat := pts.foldl (fun a p => a + p.1) 0

/-- V* at x fine steps from the waveform's start, from level `l0`: the level itself is rounded (R263, R264). -/
def wavAt (x : Nat) (l0 : Nat) : List (Nat × Nat) → Nat
  | [] => l0
  | (d, l) :: t =>
    if x < d then (roundDiv ((l0 : Int) * d + ((l : Int) - l0) * x) d).toNat
    else wavAt (x - d) l t

/-- V* at instant t by the accepted starts that have still to begin, served in their order: `e` is where the waveform before ends; a
start stamped before it will be discarded (R271, R272). -/
def Block.hlQueued (b : Block) (n t : Nat) : Nat → List HlStart → Option Nat
  | _, [] => none
  | e, q :: l =>
    let pts := b.hlPoints n q.wf
    if q.stamp < e then b.hlQueued n t e l
    else if q.stamp ≤ t ∧ t < q.stamp + wavLen pts then some (wavAt (t - q.stamp) (b.get (F.HL_REST_REST n)) pts)
    else b.hlQueued n t (q.stamp + wavLen pts) l

/-- The end of the last waveform begun. -/
def HlSt.lastEnd (s : HlSt) : Nat := (s.waves.map (·.e)).foldl max 0

/-- V* at an instant in fine steps: of a waveform begun, or of one to come, or REST, with the rest level in force (R263, R264, R274,
R278). -/
def Block.hlTarget (b : Block) (n t : Nat) : Nat :=
  let s := b.hlSt n
  match s.waves.find? (fun w => w.s ≤ t && t < w.e) with
  | some w => wavAt (t - w.s) (b.get (F.HL_REST_REST n)) w.pts
  | none => (b.hlQueued n t s.lastEnd s.queue).getD (b.get (F.HL_REST_REST n))

/-- The queue without a start accepted in this fc, which is its last entry. -/
def HlSt.older (s : HlSt) : List HlStart := if s.took.isSome then s.queue.dropLast else s.queue

/-- Is descriptor k in use (R265)? The writes of the fc in which a start that names it is accepted are judged at the fc's end, when no
ABORT can discard the start any more. -/
def Block.hlInUse (b : Block) (n k : Nat) : Bool :=
  let s := b.hlSt n
  s.older.any (fun q => q.wf == k) || s.waves.any (fun w => w.wf == k && !w.ended)

/-- Does point p lie in the range of a descriptor in use (R265)? -/
def Block.hlPointInUse (b : Block) (n p : Nat) : Bool :=
  (List.range 8).any fun k =>
    b.hlInUse n k && b.get (F.HL_WF_FIRST n k) ≤ p && p < b.get (F.HL_WF_FIRST n k) + b.get (F.HL_WF_CNT n k)

/-! ### Starts (R266–R272) -/

/-- The head entry is judged: entries whose stamp lies before the end of the waveform in progress go; OVLP is emitted at the fc's end
(R272). The count of a start of this fc is noted, for an ABORT that discards it (R274). -/
def hlJudge (n : Nat) : Nat → Block → Block
  | 0, b => b
  | k + 1, b =>
    let s := b.hlSt n
    match s.queue with
    | [] => b
    | q :: rest =>
      let own := s.took.isSome && rest.isEmpty
      let ovlp := F.HL_CNT_OVLP n
      if q.stamp < s.lastEnd then hlJudge n k ((b.setHl n (if own then { s with queue := rest, counted := ovlp :: s.counted }
        else { s with queue := rest, ovlp := true })).bump ovlp 1)
      else b

/-- A valid descriptor (R269). -/
def Block.hlValid (b : Block) (n k : Nat) : Bool :=
  let cnt := b.get (F.HL_WF_CNT n k)
  b.on (F.HL_WF_V n k) && cnt != 0 && b.get (F.HL_WF_FIRST n k) + cnt ≤ 1024

/-- A write of this fc to descriptor k, or to a point in its range, is ignored after all: a start that names it has been accepted in the
fc (R265). -/
def hlUnwrite (c : Ctx) (n k : Nat) (b : Block) : Block :=
  let first := c.start.get (F.HL_WF_FIRST n k)
  let cnt := c.start.get (F.HL_WF_CNT n k)
  b.fc.writes.foldl (fun b x =>
    let a := x.1
    if a = R.HL_WF n k ∨ (R.HLPT_DUR n first ≤ a ∧ a < R.HLPT_DUR n first + 8 * cnt) then
      (b.wr a (c.start.rd a)).flag (F.HL_STAT_WBUSY n) else b) b

/-- The start of this fc sets a STAT bit. -/
def hlFlag (n : Nat) (f : Fld) (b : Block) : Block := (b.setHl n { b.hlSt n with flagged := f :: (b.hlSt n).flagged }).flag f

/-- The start of this fc counts. -/
def hlCount (n : Nat) (f : Fld) (b : Block) : Block := (b.setHl n { b.hlSt n with counted := f :: (b.hlSt n).counted }).bump f 1

/-- An accepted start joins the queue (R271, R272). -/
def hlEnqueue (n stamp wf : Nat) (b : Block) : Block :=
  let s := b.hlSt n
  if 4 ≤ s.queue.length then hlCount n (F.HL_CNT_QOVF n) b
  else
    let b := b.setHl n { s with queue := s.queue ++ [⟨stamp, wf⟩], took := some wf }
    if s.queue.isEmpty then hlJudge n 5 b else b

/-- A start is latched with a stamp and a waveform, at a lane whose EN it finds set (R257, R268–R271, R274). -/
def hlStart (c : Ctx) (n stamp wf : Nat) (b : Block) : Block :=
  if b.acted (HL.abortIn n) then b
  else
    if (b.hlSt n).forced then hlCount n (F.HL_CNT_TSKIP n) b
    else if !c.start.hlValid n wf then hlFlag n (F.HL_STAT_WFERR n) b
    else
      let first := (c.tick + 2) * 64
      if stamp < first then
        let b := hlCount n (F.HL_CNT_LCNT n) (hlFlag n (F.HL_STAT_LATE n) b)
        if b.on (F.HL_CFG_LSKIP n) then b else hlEnqueue n first wf b
      else hlEnqueue n stamp wf b

/-- Is a fire for the lane latched in this fc (R267)? -/
def Block.firePending (b : Block) (c : Ctx) (n : Nat) : Bool := b.fires.any fun f => f.lane == n && f.due ≤ c.tick

/-- A Hedgerow START (R266); a fire of the same fc takes precedence (R267). -/
def hlHedgerowStart (c : Ctx) (n : Nat) (b : Block) : Block :=
  onAct (HL.startIn n) (fun a b =>
    if b.firePending c n || !c.start.on (F.HL_CTL_EN n) then b
    else hlStart c n ((c.tick + 2) * 64 + a.fine.getD 0) (c.start.get (F.HL_CTL_WSEL n)) b) b

/-- A fire of the bound generator is latched (R266, R401). -/
def hlFireStart (c : Ctx) (n : Nat) (b : Block) : Block :=
  match b.fires.find? (fun f => f.lane == n && f.due ≤ c.tick) with
  | none => b
  | some f =>
    let b := { b with fires := b.fires.erase f }
    let b := latch c (HL.startIn n) f.hop (some (fineOf f.stamp)) b
    let b := { b with fc := { b.fc with latched := b.fc.latched.map fun x => if x.input = HL.startIn n then { x with done := true } else x } }
    if c.start.on (F.HL_CTL_EN n) then hlStart c n f.stamp f.wsel b else b

/-- ABORT's effect (R274): the queue goes, a waveform in progress ends at (t + 1):0, and what a start of this fc has set and counted is
taken back. -/
def hlAbortAct (c : Ctx) (n : Nat) (b : Block) : Block :=
  let s := b.hlSt n
  let at1 := (c.tick + 1) * 64
  let waves := s.waves.map fun w => if w.e ≥ at1 && !w.ended then { w with e := at1, ended := true } else w
  let b := s.flagged.foldl (Block.unflag c) b
  let b := s.counted.foldl (fun b f => b.unbump c f 1) b
  b.setHl n { s with queue := [], waves := waves, took := none, flagged := [], counted := [] }

def hlAbort (c : Ctx) (n : Nat) (b : Block) : Block := onAct (HL.abortIn n) (fun _ b => hlAbortAct c n b) b

/-- The head entry begins its waveform at its stamp (R273). -/
def hlWaveStart (c : Ctx) (n : Nat) (b : Block) : Block :=
  let s := b.hlSt n
  match s.queue with
  | [] => b
  | q :: rest =>
    when (tickOf q.stamp ≤ c.tick) (fun b =>
      let pts := b.hlPoints n q.wf
      let w : HlWave := ⟨q.stamp, q.stamp + wavLen pts, q.wf, pts, false⟩
      let b := b.setHl n { s with queue := rest, waves := w :: s.waves.filter fun x => !x.ended || (c.tick - 20) * 64 ≤ x.e }
      let b := b.wr (R.HL_WST n) (tickOf q.stamp % 2 ^ 32)
      hlJudge n 5 (emit c .hl n 0 (some (fineOf q.stamp)) b)) b

/-- The waveform ends at E (R273). -/
def hlWaveEnd (c : Ctx) (n : Nat) (b : Block) : Block :=
  let s := b.hlSt n
  match s.waves.find? (fun w => !w.ended && tickOf w.e ≤ c.tick) with
  | none => b
  | some w =>
    let waves := s.waves.map fun x => if x = w then { x with ended := true } else x
    emit c .hl n 1 (some (fineOf w.e)) (b.setHl n { s with waves := waves })

/-! ### Protections (R282–R284) -/

/-- A detection of kind 0 ICL, 1 OVV, 2 TRK: its STAT bit, its event, and the trip it is a source of. -/
def hlDetect (c : Ctx) (n kind : Nat) (b : Block) : Block :=
  let stat := match kind with | 0 => F.HL_STAT_ICL n | 1 => F.HL_STAT_OVV n | _ => F.HL_STAT_TRK n
  let en := match kind with | 0 => F.HL_PROT_CLE n | 1 => F.HL_PROT_OVE n | _ => F.HL_PROT_TEE n
  let grp := match kind with | 0 => F.HL_PROT_CLG n | 1 => F.HL_PROT_OVG n | _ => F.HL_PROT_TEG n
  let b := emit c .hl n (3 + kind) none (b.flag stat)
  if b.on en then tgSyncSource c (b.get grp) (0x60 + 4 * n + kind) b else b

/-! ### Converters (R259–R261) -/

/-- The current value of an HLIS code (R260). -/
def hlCurrent (code : Nat) : Int := (code : Int) - 2048

/-- R259: the code of a voltage. -/
def hlCode (v vref : Int) : Nat := if v < 0 then 0 else if vref ≤ v then 4095 else (v * 4096 / vref).toNat

/-- The results of the samples taken 10 fc ago, while EN was 1 (R261, R282): codes of HLIS and HLVS. -/
def hlResult (c : Ctx) (n icode vcode : Nat) (b : Block) : Block :=
  when (n < nHL c.hw && 10 ≤ c.tick && (b.hlSt n).smp.contains (c.tick - 10)) (fun b =>
    let i := icode % 4096
    let v := vcode % 4096
    let s := b.hlSt n
    let t := c.tick - 10
    let b := b.setHl n { s with smp := s.smp.filter fun x => x != t, res := ((t, i, v) :: s.res).take 262 }
    let b := if (hlCurrent i).natAbs > b.get (F.HL_PLIM_ICL n) then hlDetect c n 0 b else b
    if v > b.get (F.HL_PLIM_OVT n) then hlDetect c n 1 b else b) b

/-! ### The tracking law (R276, R277) -/

/-- What an update computes: iref, duty, on-time. -/
structure HlLaw where
  boost : Bool
  iref : Int
  d : Int
  w : Nat
  deriving DecidableEq, Repr

/-- The pseudocode of R276; `opn` stands for the quotient by VBUSC = 0, which the spec does not state. -/
def trackLaw (opn : Int) (vt vm : Nat) (im : Int) (kc ki vth ilim vbusc dmin dmax swp : Nat) : HlLaw :=
  let e16 : Int := (vt : Int) - vm * 16
  let ilim := min ilim 2047
  let iref := clampInt (-(ilim : Int)) ilim (roundDiv ((kc : Int) * e16) 4096)
  let boost := !(vt ≤ vth * 16)
  let dff : Int :=
    if !boost then (if vbusc = 0 then opn else roundDiv (65536 * (vm : Int)) vbusc)
    else if vm = 0 then 0 else 65536 - roundDiv (65536 * (vbusc : Int)) vm
  let d := dff + roundDiv ((ki : Int) * (iref - im)) 256
  let d := min (max d dmin) dmax
  ⟨boost, iref, d, (roundDiv (d * swp * 64) 65536).toNat⟩

/-- The result of the sample of an fc. -/
def HlSt.sample (s : HlSt) (t : Nat) : Option (Nat × Nat) :=
  (s.res.find? fun r => r.1 == t).map fun r => (r.2.1, r.2.2)

/-- R276: the current results of the SWP/10 samples ending at p − 20. -/
def HlSt.currents (s : HlSt) (p swp : Nat) : List Int :=
  (List.range (swp / 10)).filterMap fun k =>
    (s.sample (p - 20 - 10 * k)).map fun r => hlCurrent r.1

/-- The update for the period that begins at p = fc + 8, in every period while EN is 1, forced or not (R257, R275–R278, R280, R282),
by the values in force at the fc's start. -/
def hlUpdate (c : Ctx) (n : Nat) (b : Block) : Block :=
  let p := c.tick + 8
  let s := b.hlSt n
  let st := c.start
  let swp := st.get (F.HL_CFG_SWP n)
  let cur := s.currents p swp
  when (n < nHL c.hw && st.on (F.HL_CTL_EN n) && swp != 0 && p % swp == st.get (F.HL_TIMING_PH n) && s.upd.all (fun u => u.p != p)
      && cur.length == swp / 10) (fun b =>
    let vm := ((s.sample (p - 20)).map (·.2)).getD 0
    let im := roundDiv (cur.foldl (· + ·) 0) (swp / 10)
    let vt := st.hlTarget n ((p + swp) * 64)
    let (opn, b) := if st.get (F.HL_BUS_VBUSC n) = 0 then b.free else (0, b)
    let law := trackLaw opn vt vm im (st.get (F.HL_LAW_KC n)) (st.get (F.HL_LAW_KI n)) (st.get (F.HL_CFG_VTH n))
      (st.get (F.HL_BUS_ILIM n)) (st.get (F.HL_BUS_VBUSC n)) (st.get (F.HL_DLIM_DMIN n)) (st.get (F.HL_DLIM_DMAX n)) swp
    let b := (b.wr (R.HL_MON0 n) (vt % 65536 * 65536 + vm)).wr (R.HL_MON1 n) (ofSigned 16 law.iref * 65536 + ofSigned 16 im)
    let b := b.wr (R.HL_MON2 n) (ofSigned 16 law.d * 65536)
    let q := vm * im.natAbs * swp
    let te := ((st.hlTarget n ((p - 20) * 64) : Int) - vm * 16).natAbs
    let run := if te > 16 * b.get (F.HL_TRK_TET n) then s.trkRun + 1 else 0
    let hit := run ≥ max 1 (b.get (F.HL_TRK_TEW n)) && run != 0
    let b := b.setHl n { s with
      upd := some ⟨p, law.boost, law.w, st.get (F.HL_TIMING_DTG n)⟩, trkRun := if hit then 0 else run
      edrv := s.edrv + (if im > 0 then q else 0), erec := s.erec + (if im < 0 then q else 0) }
    if hit then hlDetect c n 2 b else b) b

/-- An on-window of the switching leg, unless it is shorter than 1 fc (R253). -/
def gateWin (g on off : Nat) : List HlWin := if on + 64 ≤ off then [⟨g, on, off⟩] else []

/-- The high gate of the held leg: HA in the boost region, HB in the buck region (R252). -/
def heldGate (boost : Bool) : Nat := if boost then 0 else 2

/-- R253, R254: the gate windows of a period at p with the region and on-time of its update; the held high gate is on from `held`. -/
def periodWins (p swp dtg w held : Nat) (boost : Bool) : List HlWin :=
  let t := p * 64
  let e := t + swp * 64
  (if max t held < e then [⟨heldGate boost, max t held, e⟩] else []) ++
    (if boost then gateWin 3 (t + dtg) (t + w) ++ gateWin 2 (t + w + dtg) e
     else gateWin 0 (t + dtg) (t + w) ++ gateWin 1 (t + w + dtg) e)

/-- The level of gate g at instant t in fine steps: high inside its windows (R247, R253, R255). -/
def HlSt.gate (s : HlSt) (g t : Nat) : Bool := s.switching && !s.forced && s.wins.any fun w => w.gate == g && w.on ≤ t && t < w.off

/-- Where the held high gate is on from, in a period at p (R254): as before while the region stays; at p:0 where the gate is on there
already; else it turns on by DTG later, as in the first period (log entry 171). -/
def HlSt.heldFrom (s : HlSt) (p dtg : Nat) (same boost : Bool) : Nat :=
  if same then s.heldAt
  else if s.switching && s.wins.any (fun w => w.gate == heldGate boost && w.on < p * 64 && p * 64 ≤ w.off) then p * 64
  else p * 64 + dtg

/-- A period begins: its region shows (R252), forced or not. The gates switch in it once every sample of its update came after the
enable, or the end of the last forcing (R253, R254, R258, R275). -/
def hlPeriod (c : Ctx) (n : Nat) (b : Block) : Block :=
  let s := b.hlSt n
  let swp := b.get (F.HL_CFG_SWP n)
  match s.upd with
  | none => b
  | some u =>
    when (u.p == c.tick && c.start.on (F.HL_CTL_EN n)) (fun b =>
      let same := s.switching && b.on (F.HL_STAT_REG n) == u.boost
      let b := (b.setHl n { s with upd := none }).put (F.HL_STAT_REG n) (b2n u.boost)
      if s.forced || u.p < s.since + swp + 10 then b
      else
        let held := s.heldFrom u.p u.dtg same u.boost
        let wins := periodWins u.p swp u.dtg u.w held u.boost
        hlBalls n (b.setHl n { s with upd := none, wins := wins, heldAt := held, switching := true })) b

/-! ### Register writes -/

/-- Is the configuration refused (R279)? -/
def Block.hlBad (b : Block) (n : Nat) : Bool :=
  let swp := b.get (F.HL_CFG_SWP n)
  swp % 10 != 0 || swp < 80 || swp > 2560 || b.get (F.HL_TIMING_PH n) ≥ swp || b.get (F.HL_BUS_VBUSC n) == 0

/-- A write of HLnn_CTL (R251, R266, R274, R275, R279); a software start finds EN and WSEL as its own write leaves them (log entry 133). -/
def hlCtlWrite (c : Ctx) (ag : Agent) (l : Loc) (a v : Nat) (b : Block) : Block :=
  let n := l.inst
  let was := b.on (F.HL_CTL_EN n)
  let b := b.plainWrite ag l a v
  let b := if bit v 0 && !was then
      if b.hlBad n then (b.put (F.HL_CTL_EN n) 0).flag (F.HL_STAT_CFGERR n)
      else b.setHl n { b.hlSt n with since := c.tick + 1, upd := none, switching := false }
    else b
  let b := if bit v 2 then
      let (act, b) := swArrive (HL.abortIn n) b
      if act then hlAbortAct c n b else b
    else b
  if bit v 1 && b.on (F.HL_CTL_EN n) then
    let (act, b) := swArrive (HL.startIn n) b
    if act && !b.firePending c n then hlStart c n ((c.tick + 2) * 64) (b.get (F.HL_CTL_WSEL n)) b else b
  else b

/-- A write of CFG or TIMING while EN is 1 leaves SWP, FGEN, FG, LSKIP, PH (R279). -/
def hlCfgWrite (c : Ctx) (ag : Agent) (l : Loc) (a v : Nat) (b : Block) : Block :=
  if !c.start.on (F.HL_CTL_EN l.inst) then b.plainWrite ag l a v
  else
    let old := b.rd a
    if l.off = 0x1C then b.plainWrite ag l a (setBits v 11 0 (bits old 11 0))
    else b.plainWrite ag l a (setBits (setBits v 11 0 (bits old 11 0)) 30 25 (bits old 30 25))

/-- A write of a descriptor (R265). -/
def hlWfWrite (ag : Agent) (l : Loc) (a v : Nat) (b : Block) : Block :=
  if b.hlInUse l.inst ((l.off - 0x40) / 4) then (b.noteWrite l a v).flag (F.HL_STAT_WBUSY l.inst) else b.plainWrite ag l a v

/-- A write of a point (R265). -/
def hlPtWrite (ag : Agent) (l : Loc) (a v : Nat) (b : Block) : Block :=
  if b.hlPointInUse l.inst (l.off / 8) then (b.noteWrite l a v).flag (F.HL_STAT_WBUSY l.inst) else b.plainWrite ag l a v

/-- A read of EDRV or EREC returns bits [47:16] of the sum, saturating, and clears all of it; what this fc adds stays (R13, R281). -/
def hlEnergyRead (c : Ctx) (n : Nat) (rec : Bool) (b : Block) : Nat × Block :=
  let s := b.hlSt n
  let st := c.start.hlSt n
  let a := if rec then R.HL_EREC n else R.HL_EDRV n
  let v := (if rec then st.erec else st.edrv) / 65536
  let b := { b with fc := { b.fc with reads := a :: b.fc.reads } }
  (min v 0xFFFFFFFF,
    if b.fc.reads.count a > 1 then b
    else b.setHl n (if rec then { s with erec := s.erec - st.erec } else { s with edrv := s.edrv - st.edrv }))

/-- A lane at the end of an fc: the writes that its start refuses (R265), OVLP (R272), the sample of the fc (R261), and with EN = 0 the
gates low from the next fc (R251); the queue and a waveform in progress go on without the gates (log entry 172). -/
def hlEndFc (c : Ctx) (b : Block) (n : Nat) : Block :=
  let s := b.hlSt n
  let b := match s.took with
    | some k => hlUnwrite c n k b
    | none => b
  let b := if s.ovlp || s.counted.contains (F.HL_CNT_OVLP n) then emit c .hl n 2 none b else b
  let b := b.setHl n { b.hlSt n with ovlp := false, took := none, flagged := [], counted := [] }
  let b := if c.start.on (F.HL_CTL_EN n) && c.tick % 10 == c.start.get (F.HL_TIMING_PH n) % 10 then
      b.setHl n { b.hlSt n with smp := c.tick :: (b.hlSt n).smp.filter fun x => c.tick < x + 10 } else b
  if !b.on (F.HL_CTL_EN n) && (b.hlSt n).switching then
    hlBalls n (b.setHl n { b.hlSt n with switching := false, wins := [], upd := none })
  else b

/-- The bits of HLnn_STAT that follow the lane's state: QFILL, RUNW. -/
def Block.hlStat (b : Block) (c : Ctx) (n : Nat) : Nat :=
  let s := b.hlSt n
  let runw := s.waves.any fun w => w.s / 64 ≤ c.tick && c.tick * 64 < w.e && !w.ended
  setBits (setBits (b.rd (R.HL_STAT n)) 26 24 s.queue.length) 19 19 (b2n runw)

end Sys2Proof.Machine
end

