-- ==== Sys2Proof/Machine/Feedback.lean ====
section
/-! DEFINITION. Position and speed feedback, and encoder emulation (spec/07). -/

namespace Sys2Proof.Machine

namespace FB
def armIn (n : Nat) : Input := ⟨.fb, n, 0⟩
def reqIn (n : Nat) : Input := ⟨.fb, n, 1⟩
def latchIn (n : Nat) : Input := ⟨.fb, n, 2⟩
end FB

/-! ### Modes and balls (R287, R288) -/

def Block.fbQuad (b : Block) (n : Nat) : Bool := b.get (F.FB_CFG_MODE n) == 0 || b.get (F.FB_CFG_MODE n) == 2
def Block.fbHall (b : Block) (n : Nat) : Bool := b.get (F.FB_CFG_MODE n) == 1 || b.get (F.FB_CFG_MODE n) == 2
def Block.fbSsi (b : Block) (n : Nat) : Bool := b.get (F.FB_CFG_MODE n) == 3
def Block.fbFrm (b : Block) (n : Nat) : Bool := b.get (F.FB_CFG_MODE n) == 4
def Block.fbSerial (b : Block) (n : Nat) : Bool := b.fbSsi n || b.fbFrm n

/-- Ball code of ball k of unit n: 0 A, 1 B, 2 Z, 3 U, 4 V, 5 W. -/
def ballFb (n k : Nat) : Nat := 0x3000 + 8 * n + k

/-- The SSI clock in fc u of a request latched in fc t: from the fc after, LEAD + NB periods, each low for its first ⌊DIV/2⌋ fc (R303). -/
def Block.fbClock (b : Block) (n t u : Nat) : Bool :=
  let div := b.get (F.FB_SSI_DIV n)
  let ps := b.get (F.FB_SSI_LEAD n) + b.get (F.FB_CFG_NB n)
  !(t + 1 ≤ u && u < t + 1 + ps * div && (u - t - 1) % div < div / 2)

/-- Bits of a frame-engine character beyond its data: the parity bit, if any. -/
def Block.fbParBits (b : Block) (n : Nat) : Nat :=
  let p := b.get (F.FB_FRM_PAR n)
  if p = 1 ∨ p = 2 then 1 else 0

/-- The parity bit of a byte (R306). -/
def Block.fbParity (b : Block) (n byte : Nat) : Bool :=
  (((List.range 8).filter fun k => bit byte k).length % 2 == 1) != (b.get (F.FB_FRM_PAR n) == 2)

/-- Bit i of the character of a byte: start bit 0, the data from the least significant bit, parity, stop bit 1 (R306). -/
def Block.fbCharBit (b : Block) (n byte i : Nat) : Bool :=
  if i = 0 then false
  else if i ≤ 8 then bit byte (i - 1)
  else if i = 9 ∧ b.fbParBits n = 1 then b.fbParity n byte
  else true

/-- Is Z high at an instant: from (t + 1):0 to the end of the last stop bit (R307)? -/
def Block.fbSending (b : Block) (n at_ : Nat) : Bool :=
  match (b.fbSt n).reqAt with
  | some t => (t + 1) * 64 ≤ at_ && at_ < (b.fbSt n).zLow
  | none => false

/-- The level of A at an instant of a transmission: one bit time, whose level the spec does not state, then the characters back to
back (R306, R307). -/
def Block.fbTxLevel (b : Block) (n at_ : Nat) : Bool :=
  let s := b.fbSt n
  let bt := b.get (F.FB_BT_BT n)
  let k := (at_ - (s.reqAt.getD 0 + 1) * 64) / bt
  let len := 10 + b.fbParBits n
  if k = 0 then s.lead else b.fbCharBit n (s.send.getD ((k - 1) / len) 0) ((k - 1) % len)

/-- The output balls of the unit's mode as fc u begins (R288, R303, R307); within an fc A and Z follow `fbTxLevel` and `fbSending`. -/
def fbBalls (u n : Nat) (b : Block) : Block :=
  let z := b.fbSending n (u * 64)
  let a := if !b.outputs then 0
    else if b.fbSsi n then (match (b.fbSt n).reqAt with | some t => lvl (b.fbClock n t u) | none => 2)
    else if b.fbFrm n then lvl (z && b.fbTxLevel n (u * 64))
    else 0
  ((b.setBall (ballFb n 0) a).setBall (ballFb n 1) 0).setBall (ballFb n 2) (if b.outputs && b.fbFrm n then lvl z else 0)

/-! ### The position in force (R315–R317) -/

/-- R316: the fraction between counts. -/
def interp (gap n delta : Nat) (down : Bool) : Nat :=
  let g := (roundDiv ((gap * 2 ^ 16 * n : Nat) : Int) delta).toNat
  if down then 0xFFFF - min g 0xFFFE else min g 0xFFFF

/-- The count with the fraction of the boundary that the last count crossed (R316). -/
def Block.fbAtBoundary (b : Block) (n : Nat) : Nat :=
  (b.fbSt n).pos / 2 ^ 16 * 2 ^ 16 + (if b.on (F.FB_STAT_DIR n) then 0xFFFF else 0)

/-- P(t), 48 bits: the value set in fc t, else interpolated while IVAL is 1, and while it is 0 with the boundary's fraction (R315, R316),
but for the fraction that a frame gave (R317) or that an error left unchanged (log entry 26). -/
def Block.fbPos (b : Block) (n t : Nat) : Nat :=
  let s := b.fbSt n
  if s.setAt == some t || !b.on (F.FB_CTL_EN n) || b.fbSerial n then s.pos
  else if !b.on (F.FB_STAT_IVAL n) then (if s.frozen then s.pos else b.fbAtBoundary n)
  else match s.last with
    | some l => s.pos / 2 ^ 16 * 2 ^ 16 + interp (t * 64 - l) s.n s.delta (b.on (F.FB_STAT_DIR n))
    | none => s.pos

/-- P as a signed number (R315). -/
def sPos (p : Nat) : Int := toSigned 48 p

/-- The interpolation becomes invalid: the fraction stays where it stands (R293, R317). -/
def fbInval (c : Ctx) (n : Nat) (b : Block) : Block :=
  let p := b.fbPos n c.tick
  (b.setFb n { b.fbSt n with pos := p, stamps := [], frozen := true }).put (F.FB_STAT_IVAL n) 0

/-- The position word goes to the lanes that bind it (R63, R300, R314). -/
def fbDeliver (c : Ctx) (n : Nat) (b : Block) : Block := laneDeliver c 3 n 0 (b.fbPos n c.tick) (some true) b

/-- R324 step 1, at the start of an fc: a software write of POS takes force, and goes to the lanes (log entry 167). -/
def fbApplyWrite (c : Ctx) (b : Block) (n : Nat) : Block :=
  let s := b.fbSt n
  match s.write with
  | none => b
  | some v =>
    let p := v * 2 ^ 16
    let old := c.start.fbPos n c.tick
    let b := (b.setFb n { s with
      write := none, pos := p, setAt := some c.tick, stamps := [], frozen := false, move := some (c.tick, p, p)
      winRef := s.winRef + (sPos p - sPos old) }).put (F.FB_STAT_IVAL n) 0
    fbDeliver c n b

/-! ### Speed (R318–R322) -/

/-- The speed becomes num/den counts per fc, `num` signed by the motion (R322). -/
def fbSpeed (c : Ctx) (n : Nat) (num : Int) (den : Nat) (b : Block) : Block :=
  let x := roundDiv (num * 2 ^ (b.get (F.FB_SPDC_SSCL n) + 31)) den
  let b := if fracClamps x then b.flag (F.FB_STAT_SSAT n) else b
  let w := ofSigned 32 (fracSat x)
  let b := laneDeliver c 3 n w 0 (some false) (b.wr (R.FB_SPD n) w)
  if b.emittedNow .fb n 6 then b else emit c .fb n 6 none b

/-- A magnitude signed by the direction of the last count. -/
def Block.fbSigned (b : Block) (n v : Nat) : Int := if b.on (F.FB_STAT_DIR n) then -(v : Int) else v

/-- NP: counts per period. -/
def Block.fbNp (b : Block) (n : Nat) : Nat := 2 ^ b.get (F.FB_SPDC_NP n)

/-- Where the position stood before the changes of this fc. -/
def Block.fbBefore (b : Block) (c : Ctx) (n : Nat) : Nat :=
  match (b.fbSt n).move with
  | some (t, _, p) => if t = c.tick then p else c.start.fbPos n (c.tick - 1)
  | none => c.start.fbPos n (c.tick - 1)

/-- A count in direction `up` with stamp `t` (R291, R292, R317, R318, R322); an index reset of the same fc, though it came first,
replaces the counted position (R324). -/
def fbCount (c : Ctx) (n : Nat) (up : Bool) (t : Nat) (b : Block) : Block :=
  let up := up != b.on (F.FB_CFG_DIRI n)
  let s := b.fbSt n
  let idx := b.emittedNow .fb n 1
  let before := b.fbBefore c n
  let kept := if (b.on (F.FB_STAT_DIR n) == up) then [] else s.stamps
  let stamps := (t :: kept).take 9
  let k := min (b.fbNp n) (stamps.length - 1)
  let delta := t - stamps.getD k t
  let cnt := if idx then b.rd (R.FB_IDXL n) else s.pos / 2 ^ 16
  let pos := if up then (cnt + 1) % 2 ^ 32 * 2 ^ 16 else (cnt + 2 ^ 32 - 1) % 2 ^ 32 * 2 ^ 16 + 0xFFFF
  let b := b.setFb n { s with
    pos := if idx then s.pos else pos, setAt := some c.tick, stamps := stamps, last := some t, delta := delta, n := k
    countAt := some c.tick, zeroed := false, frozen := false, move := some (c.tick, before, pos), idxOld := pos
    winRef := if idx then s.winRef + (sPos s.idxOld - sPos pos) else s.winRef }
  let b := if idx then b.wr (R.FB_IDXL n) (pos / 2 ^ 16) else b
  let b := (b.put (F.FB_STAT_DIR n) (b2n !up)).put (F.FB_STAT_IVAL n) (b2n (stamps.length ≥ 2))
  let b := fbDeliver c n (emit c .fb n 0 none b)
  if b.on (F.FB_SPDC_SMODE n) then b
  else
    let b := b.wr (R.FB_PER n) (if k = 0 then 0 else (roundDiv delta k).toNat % 2 ^ 32)
    fbSpeed c n (b.fbSigned n (64 * k)) (if k = 0 then 1 else delta) b

/-- May a count with this stamp be the next one: later than the last? -/
def Block.fbLater (b : Block) (n t : Nat) : Bool := (b.fbSt n).last.all fun l => l < t

/-! Sampled inputs (R289, R823). -/

/-- Does the unit sample its inputs: its mode is QUAD, HALL or QUADHALL? -/
def fbSampled (c : Ctx) (n : Nat) : Bool := n < nFB c.hw && c.start.get (F.FB_CFG_MODE n) ≤ 2

/-- The edge, if it is one that qualifies in this fc and takes a line from the filtered level `ref` to the other one. -/
def fbEdge (c : Ctx) (n : Nat) (ref : Bool) (x : Option BallEdge) : Option BallEdge :=
  x.filter fun e => edgeQualifies c e (c.start.get (F.FB_CFG_FILT n) + 1) (!ref)

/-- Has a group of the unit's inputs been judged in this fc: 0 A and B, 1 Z, 3 U, V and W? -/
def Block.fbJudged (b : Block) (n g : Nat) : Bool := b.fc.judged.contains (evKey .fb n g)
def Block.fbJudge (b : Block) (n g : Nat) : Block := { b with fc := { b.fc with judged := evKey .fb n g :: b.fc.judged } }

/-- The later stamp of two edges, of those there are. -/
def laterStamp (x y : Option BallEdge) : Nat := max ((x.map edgeStamp).getD 0) ((y.map edgeStamp).getD 0)

/-- The position of (A, B) in the quadrature cycle 00, 10, 11, 01. -/
def quadIdx (a b : Bool) : Nat := if a then (if b then 2 else 1) else if b then 3 else 0

/-- Is the edge one that was there before the outputs started? -/
def wasStanding (c : Ctx) (e : Option BallEdge) : Bool := e.any (standing c)

/-- Edges of A and B that qualify in this fc (R289–R293, R823); levels that stood before are the reference and no transition (log entry
164). -/
def fbQuadCount (c : Ctx) (n : Nat) (xa xb : Option BallEdge) (b : Block) : Block :=
  let s := b.fbSt n
  let ea := fbEdge c n s.refA xa
  let eb := fbEdge c n s.refB xb
  let t := laterStamp ea eb
  when (fbSampled c n && !b.fbJudged n 0 && (ea.isSome || eb.isSome) && (!b.fbQuad n || b.fbLater n t)) (fun b =>
    let la := s.refA != ea.isSome
    let lb := s.refB != eb.isSome
    let d := (quadIdx la lb + 4 - quadIdx (s.refA != wasStanding c ea) (s.refB != wasStanding c eb)) % 4
    let b := (b.setFb n { s with refA := la, refB := lb }).fbJudge n 0
    if !c.start.on (F.FB_CTL_EN n) || !b.fbQuad n then b
    else if d = 2 then emit c .fb n 2 none ((fbInval c n b).bump (F.FB_ERR_QERR n) 1)
    else if d = 0 then b
    else fbCount c n (d == 1) t b) b

/-- The sector of a Hall state H. -/
def hallSector : Nat → Option Nat
  | 1 => some 0 | 3 => some 1 | 2 => some 2 | 6 => some 3 | 4 => some 4 | 5 => some 5 | _ => none

/-- A Hall error (R295, R296). -/
def fbHerr (c : Ctx) (n : Nat) (b : Block) : Block :=
  emit c .fb n 3 none ((fbInval c n b).bump (F.FB_ERR_HERR n) 1)

/-- The filtered Hall state with the lines that change in this fc. -/
def hallState (h : Nat) (u v w : Bool) : Nat :=
  setBits (setBits (setBits h 0 0 (b2n (bit h 0 != u))) 1 1 (b2n (bit h 1 != v))) 2 2 (b2n (bit h 2 != w))

/-- What a new filtered Hall state does (R294–R297); only HALL mode counts. -/
def fbHallState (c : Ctx) (n h t : Nat) (b : Block) : Block :=
  match hallSector h with
  | none => fbHerr c n b
  | some q =>
    let ref := (b.fbSt n).sector
    let b := (b.setFb n { b.fbSt n with sector := some q }).put (F.FB_HALL_SECT n) q
    match ref with
    | none => b
    | some r =>
      if q = r then b
      else if q = (r + 1) % 6 ∨ r = (q + 1) % 6 then
        if b.get (F.FB_CFG_MODE n) = 1 then fbCount c n (q == (r + 1) % 6) t b else b
      else fbHerr c n b

/-- Edges of U, V and W that qualify in this fc (R289, R294–R297, R823); an invalid state that stood before is no error (log entry
164). -/
def fbHallChange (c : Ctx) (n : Nat) (xu xv xw : Option BallEdge) (b : Block) : Block :=
  let h := b.get (F.FB_HALL_H n)
  let eu := fbEdge c n (bit h 0) xu
  let ev := fbEdge c n (bit h 1) xv
  let ew := fbEdge c n (bit h 2) xw
  let t := max (laterStamp eu ev) (laterStamp ew none)
  when (fbSampled c n && b.fbHall n && !b.fbJudged n 3 && (eu.isSome || ev.isSome || ew.isSome) && (b.fbQuad n || b.fbLater n t))
    (fun b =>
      let h := hallState h eu.isSome ev.isSome ew.isSome
      let b := (b.put (F.FB_HALL_H n) h).fbJudge n 3
      let stood := wasStanding c eu || wasStanding c ev || wasStanding c ew
      if !c.start.on (F.FB_CTL_EN n) || (stood && (hallSector h).isNone) then b else fbHallState c n h t b) b

/-- The position is reset by a qualified index (R300, R324). -/
def fbIndexReset (c : Ctx) (n : Nat) (b : Block) : Block :=
  let s := b.fbSt n
  let old := b.fbPos n c.tick
  let before := b.fbBefore c n
  let p := b.rd (R.FB_IDXV n) * 2 ^ 16
  let mv := match s.move with
    | some (t, x, y) => if t = c.tick then (t, x, y) else (c.tick, before, before)
    | none => (c.tick, before, before)
  let b := b.wr (R.FB_IDXL n) (old / 2 ^ 16)
  let b := if b.get (F.FB_CFG_IDXM n) == 2 && !b.acted (FB.armIn n) then b.put (F.FB_STAT_ARMD n) 0 else b
  let b := b.setFb n { s with
    pos := p, setAt := some c.tick, frozen := false, move := some mv, winRef := s.winRef + (sPos p - sPos old), idxOld := old }
  fbDeliver c n (emit c .fb n 1 none b)

/-- An edge of Z that qualifies in this fc (R289, R298–R301, R823). -/
def fbIndex (c : Ctx) (n : Nat) (x : BallEdge) (b : Block) : Block :=
  let s := b.fbSt n
  let gate := !b.on (F.FB_CFG_ZQE n) || (s.refA == b.on (F.FB_CFG_ZQA n) && s.refB == b.on (F.FB_CFG_ZQB n))
  let idxm := b.get (F.FB_CFG_IDXM n)
  let takes := idxm == 1 || (idxm == 2 && c.start.on (F.FB_STAT_ARMD n))
  when (fbSampled c n && !b.fbJudged n 1 && (fbEdge c n s.refZ (some x)).isSome) (fun b =>
    let b := (b.setFb n { s with refZ := !s.refZ }).fbJudge n 1
    if c.start.on (F.FB_CTL_EN n) && !standing c x && !s.refZ != b.on (F.FB_CFG_ZPOL n) && gate && takes then fbIndexReset c n b else b) b

/-- The speed decays between counts (R319). -/
def fbDecay (c : Ctx) (n : Nat) (b : Block) : Block :=
  let s := b.fbSt n
  let spw := b.get (F.FB_SPDC_SPW n)
  let gap := c.tick * 64 - s.last.getD 0
  let zto := b.get (F.FB_ZTO_ZTO n)
  when (n < nFB c.hw && c.start.on (F.FB_CTL_EN n) && !b.on (F.FB_SPDC_SMODE n) && spw != 0 && c.tick % spw == 0 && s.last.isSome
      && s.countAt != some c.tick && s.n != 0 && s.delta < gap * s.n && !s.zeroed && (zto == 0 || gap < zto * 64)
      && !b.emittedNow .fb n 6)
    (fun b => fbSpeed c n (b.fbSigned n 64) gap b) b

/-- The speed is set to zero and the interpolation becomes invalid: the fraction is that of the last count's boundary (R316, R320). -/
def fbStandstill (c : Ctx) (n : Nat) (b : Block) : Block :=
  let s := b.fbSt n
  let pos := if s.setAt = some c.tick then s.pos else b.fbAtBoundary n
  fbSpeed c n 0 1 ((b.setFb n { s with pos := pos, stamps := [], zeroed := true, frozen := false }).put (F.FB_STAT_IVAL n) 0)

/-- The gap reaches ZTO (R320). -/
def fbZero (c : Ctx) (n : Nat) (b : Block) : Block :=
  let s := b.fbSt n
  let zto := b.get (F.FB_ZTO_ZTO n)
  when (n < nFB c.hw && c.start.on (F.FB_CTL_EN n) && s.last.isSome && zto != 0 && zto * 64 ≤ c.tick * 64 - s.last.getD 0
      && s.countAt != some c.tick && !s.zeroed) (fbStandstill c n) b

/-- A window ends (R321). -/
def fbWindow (c : Ctx) (n : Nat) (b : Block) : Block :=
  let s := b.fbSt n
  let spw := b.get (F.FB_SPDC_SPW n)
  when (n < nFB c.hw && c.start.on (F.FB_CTL_EN n) && b.on (F.FB_SPDC_SMODE n) && spw != 0 && c.tick % spw == 0 && !s.zeroed
      && !b.emittedNow .fb n 6)
    (fun b =>
      let p := sPos (b.fbPos n c.tick)
      fbSpeed c n (p - s.winRef) (2 ^ 16 * spw) (b.wr (R.FB_WCNT n) (ofSigned 32 (p / 2 ^ 16 - s.winRef / 2 ^ 16)))) b

/-! ### Actions -/

/-- ARM (R301). -/
def fbArm (_c : Ctx) (n : Nat) (b : Block) : Block := onAct (FB.armIn n) (fun _ b => b.put (F.FB_STAT_ARMD n) 1) b

/-- What LATCH writes (R325). -/
def fbLatched (c : Ctx) (n : Nat) (b : Block) : Block :=
  let p := b.fbPos n c.tick
  ((b.wr (R.FB_LAT n) (p / 2 ^ 16)).wr (R.FB_LATF n) (p % 2 ^ 16)).wr (R.FB_LTICK n) (c.tick % 2 ^ 32)

/-- LATCH (R325). -/
def fbLatch (c : Ctx) (n : Nat) (b : Block) : Block := onAct (FB.latchIn n) (fun _ b => fbLatched c n b) b

/-- A read of FBnn_POS (R326). -/
def fbPosRead (c : Ctx) (n : Nat) (b : Block) : Nat × Block :=
  let p := b.fbPos n c.tick
  let frac := b.get (F.FB_STAT_IVAL n) * 65536 + p % 2 ^ 16
  (p / 2 ^ 16, (b.wr (R.FB_FRAC n) frac).wr (R.FB_PTICK n) (c.tick % 2 ^ 32))

/-! ### Serial sensors (R302–R314) -/

/-- A serial error (R311). -/
def fbSerr (c : Ctx) (n cause : Nat) (b : Block) : Block :=
  emit c .fb n 5 none ((b.put (F.FB_STAT_SCAUSE n) cause).bump (F.FB_ERR_SERR n) 1)

/-- The level of B in serial modes is `lv` in this fc (R305). -/
def fbSeeB (c : Ctx) (n : Nat) (lv : Bool) (b : Block) : Block := b.setFb n { b.fbSt n with lineB := lv, seenB := some c.tick }

/-- Is B low in the fc of an SSI request (R305)? Where no row has presented its level in the fc, a free value (log entry 41). -/
def fbLineLow (c : Ctx) (n : Nat) (b : Block) : Bool × Block :=
  if !b.fbSsi n then (false, b)
  else if (b.fbSt n).seenB == some c.tick then (!(b.fbSt n).lineB, b)
  else
    let (v, b) := b.free
    (v % 2 == 0, b)

/-- The bytes of the request buffer to be sent; what comes after its 16 bytes the spec does not state (log entry 134). -/
def fbRequestBytes (n k : Nat) (b : Block) : List Nat × Block :=
  (List.range k).foldl (fun (l, b) i =>
    if i < 16 then (l ++ [bits (b.rd (R.FB_RQB n (i / 4))) (8 * (i % 4) + 7) (8 * (i % 4))], b)
    else
      let (v, b) := b.free
      (l ++ [v % 256], b)) ([], b)

/-- A request begins (R303, R305, R307). -/
def fbBegin (c : Ctx) (n : Nat) (b : Block) : Block :=
  let (low, b) := fbLineLow c n b
  if low then fbSerr c n 1 (b.put (F.FB_STAT_BUSY n) 0)
  else
    let rqn := b.get (F.FB_FRM_RQN n)
    let (send, b) := if b.fbFrm n then fbRequestBytes n rqn b else ([], b)
    let (lead, b) := if b.fbFrm n && rqn != 0 then b.free else (0, b)
    let zLow := (c.tick + 1) * 64 + (if rqn = 0 then 0 else b.get (F.FB_BT_BT n) * (1 + rqn * (10 + b.fbParBits n)))
    (b.setFb n { b.fbSt n with
      reqAt := some c.tick, send := send, lead := lead % 2 == 1, zLow := zLow, chars := [], charCtr := 0, charEnd := 0
      frmBad := false, parBad := false, shown := 0, cvGone := false }).put (F.FB_STAT_BUSY n) 1

/-- The fc of the last SSI sample (R303, R304). -/
def Block.ssiEnd (b : Block) (n t : Nat) : Nat :=
  let div := b.get (F.FB_SSI_DIV n)
  t + 1 + (b.get (F.FB_SSI_LEAD n) + b.get (F.FB_CFG_NB n) - 1) * div + div / 2 + b.get (F.FB_SSI_DLY n)

/-- The fc from which the next request is accepted, in SSI mode, of the one in progress (R304). -/
def Block.ssiFree (b : Block) (n : Nat) : Option Nat :=
  if !b.fbSsi n then none
  else match (b.fbSt n).reqAt with
    | some t => some (b.ssiEnd n t + b.get (F.FB_SSI_MONO n) * 64)
    | none => (b.fbSt n).pauseEnd

/-- A request is latched (R302): one latched before the fc from which the next is accepted is lost; in that fc it may come before the
end it waits for is made known. -/
def fbRequest (c : Ctx) (n : Nat) (b : Block) : Block :=
  if !c.start.on (F.FB_CTL_EN n) || !b.fbSerial n then b
  else if !c.start.on (F.FB_STAT_BUSY n) then fbBegin c n b
  else if (c.start.ssiFree n).any fun t => t ≤ c.tick then
    if (b.fbSt n).reqAt.isSome then b.setFb n { b.fbSt n with again := true }
    else fbBegin c n (b.setFb n { b.fbSt n with pauseEnd := none })
  else b.bump (F.FB_ERR_RQLOST n) 1

/-- REQ (R302). -/
def fbReq (c : Ctx) (n : Nat) (lineB : Bool) (b : Block) : Block :=
  onAct (FB.reqIn n) (fun _ b => fbRequest c n (fbSeeB c n lineB b)) b

/-- The tick count reaches a multiple of REQP (R302). -/
def fbPeriodic (c : Ctx) (n : Nat) (lineB : Bool) (b : Block) : Block :=
  let p := b.get (F.FB_REQP_REQP n)
  when (n < nFB c.hw && p != 0 && c.tick % p == 0 && c.start.on (F.FB_CTL_EN n) && b.fbSerial n) (fun b =>
    let (act, b) := swArrive (FB.reqIn n) (fbSeeB c n lineB b)
    if act then fbRequest c n b else b) b

/-- The value of the samples of B, the first in bit 0: LEAD of them are discarded, the next NB are the value, most significant first
(R304). -/
def ssiValue (lead nb bs : Nat) : Nat := (List.range nb).foldl (fun v i => 2 * v + b2n (bit bs (lead + i))) 0

/-- The last SSI data sample (R304): `bs`, the samples of B of the frame, one DLY fc after each rising edge of the clock. -/
def fbSsiEnd (c : Ctx) (n bs : Nat) (b : Block) : Block :=
  let s := b.fbSt n
  match s.reqAt with
  | none => b
  | some t =>
    let e := b.ssiEnd n t
    when (b.fbSsi n && e ≤ c.tick) (fun b =>
      let mono := b.get (F.FB_SSI_MONO n)
      let v := ssiValue (b.get (F.FB_SSI_LEAD n)) (b.get (F.FB_CFG_NB n)) bs
      let b := b.setFb n { s with
        reqAt := none, again := false, pauseEnd := if mono = 0 then none else some (e + mono * 64), frame := some ⟨e + 4, v, 0, false, []⟩ }
      if s.again then fbBegin c n b else if mono = 0 then b.put (F.FB_STAT_BUSY n) 0 else b) b

/-- The SSI pause is over (R304). -/
def fbPauseEnd (c : Ctx) (n : Nat) (b : Block) : Block :=
  let s := b.fbSt n
  when (s.pauseEnd.any fun t => t ≤ c.tick) (fun b => (b.setFb n { s with pauseEnd := none }).put (F.FB_STAT_BUSY n) 0) b

/-- The level that two of three samples have: samples 3i to 3i + 2 of the run (R308). -/
def majority (bs i : Nat) : Bool := 2 ≤ ((List.range 3).filter fun k => bit bs (3 * i + k)).length

/-- The last fc in which the next start bit is taken: TO fc after Z goes low for the first, GAP bit times after the stop bit's end for
a later one (R308, R309). -/
def Block.fbLimit (b : Block) (n : Nat) : Option Nat :=
  let s := b.fbSt n
  let gap := b.get (F.FB_TMO_GAP n)
  if s.chars.isEmpty then some (tickOf s.zLow + b.get (F.FB_TMO_TO n))
  else if gap = 0 then none
  else some (tickOf (s.charEnd + gap * b.get (F.FB_BT_BT n)))

/-- Does the frame engine expect a character? -/
def Block.fbExpects (b : Block) (n : Nat) : Bool :=
  b.fbFrm n && (b.fbSt n).reqAt.isSome && (b.fbSt n).chars.length < b.get (F.FB_FRM_RSN n) + 1

/-- A start bit is detected in this fc, within the limit (R308, R309): the samples of B at the centres of the character's other bits,
three of each, 1 fc apart. -/
def fbStartBit (c : Ctx) (n data par stop : Nat) (b : Block) : Block :=
  let s := b.fbSt n
  let bt := b.get (F.FB_BT_BT n)
  let pb := b.fbParBits n
  let start := c.tick * 64
  when (b.fbExpects n && (b.fbLimit n).all (fun t => c.tick ≤ t)
      && (if s.chars.isEmpty then s.zLow ≤ start + 63 else s.charCtr ≤ start)) (fun b =>
    let byte := (List.range 8).foldl (fun v k => v + b2n (majority data k) * 2 ^ k) 0
    let parBad := pb == 1 && majority par 0 != b.fbParity n byte
    b.setFb n { s with
      chars := s.chars ++ [byte], charCtr := start + (9 + pb) * bt + bt / 2, charEnd := start + (10 + pb) * bt
      frmBad := s.frmBad || !majority stop 0, parBad := s.parBad || parBad, lapse := none }) b

/-- The time for a start bit runs out in this fc, or has (R308): a start bit of the fc may still come (R309). -/
def fbTimeout (c : Ctx) (n cause : Nat) (b : Block) : Block :=
  when (b.fbExpects n && (b.fbLimit n).any (fun t => t ≤ c.tick) && (if cause = 2 then (b.fbSt n).chars.isEmpty else !(b.fbSt n).chars.isEmpty))
    (fun b => b.setFb n { b.fbSt n with lapse := some cause }) b

/-- No start bit within TO of Z's fall (R308). -/
def fbRespTimeout (c : Ctx) (n : Nat) (b : Block) : Block := fbTimeout c n 2 b

/-- No start bit within GAP of the previous character's end (R308). -/
def fbGapTimeout (c : Ctx) (n : Nat) (b : Block) : Block := fbTimeout c n 3 b

/-- At the end of its fc a timeout that no start bit met gives the frame up (R309, R311). -/
def fbLapse (c : Ctx) (n : Nat) (b : Block) : Block :=
  match (b.fbSt n).lapse with
  | some cause => fbSerr c n cause ((b.setFb n { b.fbSt n with reqAt := none, chars := [], lapse := none }).put (F.FB_STAT_BUSY n) 0)
  | none => b

/-- Bytes as one number, byte 0 lowest. -/
def leNum : List Nat → Nat
  | [] => 0
  | x :: t => x % 256 + 256 * leNum t

/-- Does byte i of the response go to the check-value unit as part of the expected value: one of the last CW + 1 (R310)? -/
def Block.fbExpected (b : Block) (n i : Nat) : Bool := b.get (F.FB_FRM_RSN n) < i + b.get (F.FB_CRC_CW n) + 1

/-- The bytes of the response that the check-value unit has yet to be shown: from CS on (R310). -/
def Block.fbCvLeft (b : Block) (n : Nat) : List (Nat × Bool) :=
  let s := b.fbSt n
  if b.on (F.FB_CRC_CRCEN n) then
    ((List.range s.chars.length).drop (b.get (F.FB_CRC_CS n) + s.shown)).map fun i => (s.chars.getD i 0, b.fbExpected n i)
  else []

/-- The last stop bit is taken: the frame end (R308, R310–R312). -/
def fbFrameEnd (c : Ctx) (n : Nat) (b : Block) : Block :=
  let s := b.fbSt n
  when (b.fbFrm n && s.reqAt.isSome && s.chars.length == b.get (F.FB_FRM_RSN n) + 1 && tickOf s.charCtr ≤ c.tick) (fun b =>
    let v := bits (leNum s.chars) (b.get (F.FB_FRM_PB n) + b.get (F.FB_CFG_NB n) - 1) (b.get (F.FB_FRM_PB n))
    let cause := if s.frmBad then 4 else if s.parBad then 5 else 0
    let b := (List.range ((s.chars.length + 3) / 4)).foldl (fun b k =>
      let old := b.rd (R.FB_RSB n k)
      let w := (List.range 4).foldl (fun w j =>
        match s.chars[4 * k + j]? with
        | some x => setBits w (8 * j + 7) (8 * j) x
        | none => w) old
      b.wr (R.FB_RSB n k) w) b
    let b := b.setFb n { s with
      reqAt := none, frame := some ⟨tickOf s.charCtr + 4, v, cause, b.on (F.FB_CRC_CRCEN n), b.fbCvLeft n⟩ }
    b.put (F.FB_STAT_BUSY n) 0) b

/-- The check-value unit's verdict on the frame (R310, R311, R629). -/
def fbVerdict (n : Nat) (crc alive : Bool) (b : Block) : Block :=
  let s := b.fbSt n
  match s.frame with
  | some f =>
    let cause := if f.cause ≠ 0 then f.cause else if crc then 6 else if alive then 7 else 0
    b.setFb n { s with frame := some { f with cause := cause, wait := false, left := [] } }
  | none => b

/-- A Gray-coded number as a binary one. -/
def grayToBin : Nat → Nat → Nat
  | 0, _ => 0
  | k + 1, v =>
    let rest := grayToBin k v
    let above := if rest % 2 = 1 then 1 else 0
    rest * 2 + (b2n (bit v (31 - k)) + above) % 2

/-- Gray code of 32 bits, most significant first. -/
def gray32 (v : Nat) : Nat := grayToBin 32 v

/-- A good frame acts 4 fc after its end (R312–R314). -/
def fbGoodFrame (c : Ctx) (n : Nat) (b : Block) : Block :=
  let s := b.fbSt n
  match s.frame with
  | none => b
  | some f =>
    when (f.due ≤ c.tick && f.cause == 0 && !f.wait) (fun b =>
      let nb := b.get (F.FB_CFG_NB n)
      let v := if b.on (F.FB_CFG_GRAY n) then gray32 f.v else f.v
      let fsh := b.get (F.FB_CFG_FSH n)
      let p := match b.on (F.FB_CFG_EXT n), s.prevV with
        | true, some o => ofSigned 48 (sPos s.pos + toSigned nb (v + 2 ^ nb - o) * 2 ^ fsh)
        | _, _ => v * 2 ^ fsh % 2 ^ 48
      let b := b.setFb n { s with
        frame := none, prevV := some v, pos := p, setAt := some c.tick, move := some (c.tick, b.fbBefore c n, p) }
      fbDeliver c n (emit c .fb n 4 none b)) b

/-- A bad frame is reported 4 fc after its end (R311). -/
def fbBadFrame (c : Ctx) (n : Nat) (b : Block) : Block :=
  let s := b.fbSt n
  match s.frame with
  | none => b
  | some f =>
    when (f.due ≤ c.tick && f.cause != 0 && !f.wait) (fun b => fbSerr c n f.cause (b.setFb n { s with frame := none })) b

/-! ### Position compares (R327–R332) -/

def Block.fbCmp (b : Block) (n k : Nat) : FbCmp := (b.fbSt n).cmps.getD {} k
def Block.setFbCmp (b : Block) (n k : Nat) (v : FbCmp) : Block :=
  b.setFb n { b.fbSt n with cmps := (b.fbSt n).cmps.setD {} k v }

/-- Does DIRF admit a direction? -/
def dirAdmits (dirf : Nat) (up : Bool) : Bool := dirf == 0 || (dirf == 1 && up) || (dirf == 2 && !up)

/-- Does a move from p to q cross v (R327)? -/
def crosses (p q v : Int) (up : Bool) : Bool := if up then p < v && v ≤ q else p > v && v ≥ q

/-- Is v ahead of p in the direction (R329)? -/
def ahead (v p : Int) (up : Bool) : Bool := if up then v > p else v < p

/-- The move judged in this fc (R327): the count or frame, else the interpolated motion. -/
def Block.fbMove (b : Block) (c : Ctx) (n : Nat) : Int × Int :=
  match (b.fbSt n).move with
  | some (t, x, y) => if t = c.tick then (sPos x, sPos y) else (sPos (c.start.fbPos n (c.tick - 1)), sPos (b.fbPos n c.tick))
  | none => (sPos (c.start.fbPos n (c.tick - 1)), sPos (b.fbPos n c.tick))

/-- R331: the smallest k ≥ 1 for which v + k × step is ahead of p; the step has the direction's sign. -/
def cmpSteps (v p : Int) (step : Nat) (up : Bool) : Nat :=
  let d := if up then p - v else v - p
  if d < 0 then 1 else (d / step).toNat + 1

/-- What a crossing or a late match on `v` does to the compare (R331, R332), by what is in force at the fc's start; a value committed
since fc `from` replaces the sum (R129, R328, R330). -/
def fbCmpAct (c : Ctx) (n k v from_ : Nat) (up : Bool) (b : Block) : Block :=
  let step := toSigned 32 (c.start.rd (R.FB_CMP_STEP n k))
  if !c.start.on (F.FB_CMP_CTL_AA n k) then b.put (F.FB_CMP_CTL_EN n k) 0
  else if step = 0 ∨ (step > 0) ≠ (up = true) then (b.put (F.FB_CMP_CTL_EN n k) 0).flag (F.FB_CMP_CTL_STEPERR n k)
  else
    let m := cmpSteps (sPos v) (sPos (b.fbPos n c.tick)) step.natAbs up
    let b := b.bump (F.FB_CMP_CTL_MISS n k) (m - 1)
    if (b.fbCmp n k).cmt.any fun t => from_ ≤ t then b
    else b.setFbCmp n k { b.fbCmp n k with val := ofSigned 48 (sPos v + m * step), judge := some (c.tick + 1) }

/-- Is the compare's value in force behind in this fc (R329)? -/
def fbBehind (c : Ctx) (n k : Nat) (b : Block) : Bool :=
  let up := !b.on (F.FB_STAT_DIR n)
  c.start.on (F.FB_CMP_CTL_EN n k) && (c.start.fbCmp n k).judge == some c.tick && dirAdmits (c.start.get (F.FB_CMP_CTL_DIRF n k)) up
    && !ahead (sPos (c.start.fbCmp n k).val) (sPos (b.fbPos n c.tick)) up

/-- The compare is crossed (R327). -/
def fbCross (c : Ctx) (n k : Nat) (b : Block) : Block :=
  let v := (c.start.fbCmp n k).val
  let (p, q) := b.fbMove c n
  let dirf := c.start.get (F.FB_CMP_CTL_DIRF n k)
  let up := crosses p q (sPos v) true && dirAdmits dirf true
  let down := crosses p q (sPos v) false && dirAdmits dirf false
  when (n < nFB c.hw && k < 8 && c.start.on (F.FB_CMP_CTL_EN n k) && (up || down) && !b.emittedNow .fb n (8 + k) && !fbBehind c n k b)
    (fun b => fbCmpAct c n k v c.tick up (emit c .fb n (8 + k) none b)) b

/-- A value is judged behind, or its FIRE late match acts one fc later (R329, R330). -/
def fbLate (c : Ctx) (n k : Nat) (b : Block) : Block :=
  let s := b.fbCmp n k
  match s.late with
  | some (t, v) =>
    when (t ≤ c.tick) (fun b =>
      let b := b.setFbCmp n k { s with late := none }
      fbCmpAct c n k v (t - 1) (!b.on (F.FB_STAT_DIR n)) (emit c .fb n (8 + k) none b)) b
  | none =>
    when (n < nFB c.hw && k < 8 && fbBehind c n k b) (fun b =>
      let b := b.flag (F.FB_CMP_CTL_LATE n k)
      if c.start.on (F.FB_CMP_CTL_WAIT n k) then b
      else b.setFbCmp n k { s with late := some (c.tick + 1, (c.start.fbCmp n k).val) }) b

/-- A write of VALF is staged; a write of VAL commits both (R328). -/
def fbCmpStage (l : Loc) (k a v : Nat) (b : Block) : Block :=
  (b.noteWrite l a v).setFbCmp l.inst k { b.fbCmp l.inst k with stF := v % 65536 }

def fbCmpCommit (c : Ctx) (l : Loc) (k a v : Nat) (b : Block) : Block :=
  let s := b.fbCmp l.inst k
  (b.noteWrite l a v).setFbCmp l.inst k { s with val := v * 65536 + s.stF, judge := some (c.tick + 1), cmt := some c.tick }

/-- A write of CMPc_CTL: a value is judged when EN becomes 1 (R329). -/
def fbCmpCtlWrite (c : Ctx) (ag : Agent) (l : Loc) (k a v : Nat) (b : Block) : Block :=
  let was := b.on (F.FB_CMP_CTL_EN l.inst k)
  let b := b.plainWrite ag l a v
  if bit v 0 && !was then b.setFbCmp l.inst k { b.fbCmp l.inst k with judge := some (c.tick + 1) } else b

/-- A read of VAL returns the value in force and snapshots VALF (R328, R120). -/
def fbValRead (c : Ctx) (n k : Nat) (b : Block) : Nat × Block :=
  let v := (c.start.fbCmp n k).val
  (v / 65536, b.setFbCmp n k { b.fbCmp n k with snapF := v % 65536 })

/-! ### Enable and other writes -/

/-- Is the configuration refused (R323, R340)? The rule names a mode for NB and FSH only, and CRCEN for CVU only. -/
def Block.fbBad (b : Block) (hw : Hw) (n : Nat) : Bool :=
  let nb := b.get (F.FB_CFG_NB n)
  let rsn := b.get (F.FB_FRM_RSN n)
  let cvu := b.get (F.FB_CRC_CVU n)
  b.get (F.FB_CFG_MODE n) > 4 || b.get (F.FB_CFG_IDXM n) == 3 || b.get (F.FB_SPDC_SPW n) < 64
  || (b.fbSerial n && (!b.on (F.FB_SPDC_SMODE n) || nb == 0 || nb > 32 || b.get (F.FB_CFG_FSH n) > 16))
  || b.get (F.FB_SSI_DIV n) < 164 || b.get (F.FB_BT_BT n) < 6554
  || (b.on (F.FB_CRC_CRCEN n) && (cvu < 16 || !cvPresent hw cvu))
  || b.get (F.FB_FRM_PB n) + nb > 8 * (rsn + 1) || b.get (F.FB_CRC_CS n) + b.get (F.FB_CRC_CW n) + 1 > rsn

/-- EN becomes 1 (R313, R317, R321, R340). -/
def fbStartUnit (c : Ctx) (n : Nat) (b : Block) : Block :=
  let s := b.fbSt n
  let q := hallSector (b.get (F.FB_HALL_H n))
  let b := b.put (F.FB_STAT_IVAL n) 0
  let b := b.setFb n { s with frozen := false }
  let b := b.setFb n { s with
    stamps := [], last := none, delta := 0, n := 0, countAt := none, zeroed := false, frozen := false
    winRef := sPos (b.fbPos n c.tick)
    prevV := none, frame := none, reqAt := none, again := false, pauseEnd := none, lapse := none, sector := q }
  let b := b.put (F.FB_STAT_BUSY n) 0
  if b.fbHall n then b.put (F.FB_HALL_SECT n) (q.getD 7) else b

/-- EN becomes 0: the position stays where it stands, a frame is given up. -/
def fbStopUnit (n p : Nat) (b : Block) : Block :=
  (b.setFb n { b.fbSt n with
    pos := p, stamps := [], frame := none, reqAt := none, again := false, pauseEnd := none, lapse := none }).put (F.FB_STAT_BUSY n) 0

/-- A write of FBnn_CTL (R301, R302, R340). -/
def fbCtlWrite (c : Ctx) (ag : Agent) (l : Loc) (a v : Nat) (b : Block) : Block :=
  let n := l.inst
  let was := b.on (F.FB_CTL_EN n)
  let p := b.fbPos n c.tick
  let b := b.plainWrite ag l a v
  let b := if bit v 0 && !was then
      if b.fbBad c.hw n then (b.put (F.FB_CTL_EN n) 0).flag (F.FB_STAT_CFGERR n) else fbStartUnit c n b
    else if !bit v 0 && was then fbStopUnit n p b
    else b
  let b := if bit v 3 then
      let (act, b) := swArrive (FB.armIn n) b
      if act then b.put (F.FB_STAT_ARMD n) 1 else b
    else b
  if bit v 2 then
    let (act, b) := swArrive (FB.reqIn n) b
    if act then fbRequest c n b else b
  else b

/-- A write of a register that EN = 1 locks (R340); in SSI and FRAME modes IVAL is 0 (R317). -/
def fbCfgWrite (c : Ctx) (ag : Agent) (l : Loc) (a v : Nat) (b : Block) : Block :=
  let b := whileOff c (F.FB_CTL_EN l.inst) ag l a v b
  if b.fbSerial l.inst then b.put (F.FB_STAT_IVAL l.inst) 0 else b

/-- A write of FBnn_POS waits for the next fc (R324). -/
def fbPosWrite (l : Loc) (a v : Nat) (b : Block) : Block :=
  (b.noteWrite l a v).setFb l.inst { b.fbSt l.inst with write := some v }

/-- A unit at the end of an fc: LATCH takes the position in force (R324, R325), a timeout acts, the window's start moves on (R321), and
the output balls take their levels for the next fc. -/
def fbEndFc (c : Ctx) (b : Block) (n : Nat) : Block :=
  let b := if b.fc.latched.any (fun a => a.input == FB.latchIn n && a.done) then fbLatched c n b else b
  let b := fbLapse c n b
  let spw := b.get (F.FB_SPDC_SPW n)
  let b := if b.on (F.FB_CTL_EN n) && spw != 0 && c.tick % spw == 0 then
      b.setFb n { b.fbSt n with winRef := sPos (b.fbPos n c.tick) } else b
  fbBalls (c.tick + 1) n b

/-! ### Encoder emulation (R333–R338) -/

namespace EMU
def resyncIn (n : Nat) : Input := ⟨.emu, n, 0⟩
end EMU

/-- Ball code of ball k of output m: 0 A, 1 B, 2 Z. -/
def ballEmu (m k : Nat) : Nat := 0x4000 + 4 * m + k

/-- R335: the levels of A, B and Z. -/
def emuLevels (inv : Bool) (zpos zper : Nat) (o : Int) : Bool × Bool × Bool :=
  let q := o % 4
  let a := q = 1 ∨ q = 2
  let b := q = 2 ∨ q = 3
  let z := if zper = 0 then ofSigned 32 o = zpos else (o - toSigned 32 zpos) % zper = 0
  if inv then (b, a, z) else (a, b, z)

/-- Bring the balls of an output up to date (R335); a held output keeps its levels (R338). -/
def emuBalls (m : Nat) (b : Block) : Block :=
  if (b.emuSt m).held then b
  else
    let (x, y, z) := emuLevels (b.on (F.EMU_CFG_INV m)) (b.rd (R.EMU_ZPOS m)) (b.rd (R.EMU_ZPER m)) (b.emuSt m).o
    let on := b.on (F.EMU_CTL_EN m)
    let put (l : Bool) : Nat := if !b.outputs || !b.on (F.EMU_CFG_DRV m) then 0 else lvl (on && l)
    ((b.setBall (ballEmu m 0) (put x)).setBall (ballEmu m 1) (put y)).setBall (ballEmu m 2) (put z)

/-- The source position P of an output in this fc; none when the unit is absent or has EN = 0 (R333, R336). -/
def Block.emuSource (b : Block) (c : Ctx) (m : Nat) : Option Int :=
  if b.on (F.EMU_CFG_WSRC m) then some (sPos (c.start.emuSt m).wpos)
  else
    let n := b.get (F.EMU_CFG_SRC m)
    if n < nFB c.hw ∧ b.on (F.FB_CTL_EN n) then some (sPos (b.fbPos n c.tick)) else none

/-- The output takes a new reference (R333); its balls show the state of O from the next fc. -/
def emuResync (c : Ctx) (m : Nat) (b : Block) : Block :=
  let s := b.emuSt m
  let src := b.get (F.EMU_CFG_SRC m)
  let p := (b.emuSource c m).getD (sPos (b.fbPos src c.tick))
  let ofs := toSigned 32 (b.rd (R.EMU_OFS m))
  let b := b.setEmu m { s with ref := p, o := ofs, tgt := ofs, due := none }
  (b.wr (R.EMU_OUT m) (b.rd (R.EMU_OFS m))).put (F.EMU_STAT_LAG m) 0

/-- RESYNC (R333). -/
def emuResyncAction (c : Ctx) (m : Nat) (b : Block) : Block :=
  onAct (EMU.resyncIn m) (fun _ b => if c.start.on (F.EMU_CTL_EN m) then emuResync c m b else b) b

/-- A write of EMUmm_CTL (R333, R337). -/
def emuCtlWrite (c : Ctx) (ag : Agent) (l : Loc) (a v : Nat) (b : Block) : Block :=
  let m := l.inst
  let was := b.on (F.EMU_CTL_EN m)
  let b := b.plainWrite ag l a v
  let b := if bit v 0 && !was then
      if b.get (F.EMU_RATIO_N m) == 0 || b.get (F.EMU_RATIO_M m) == 0 || b.get (F.EMU_MSP_MSP m) < 2098 then
        (b.put (F.EMU_CTL_EN m) 0).flag (F.EMU_STAT_CFGERR m)
      else emuResync c m b
    else if !bit v 0 && was then b.setEmu m { b.emuSt m with due := none }
    else b
  if bit v 1 then
    let (act, b) := swArrive (EMU.resyncIn m) b
    if act && c.start.on (F.EMU_CTL_EN m) && b.on (F.EMU_CTL_EN m) then emuResync c m b else b
  else b

/-- The target count C in this fc (R334), by the registers in force at its start; as it was where there is no source (R336). -/
def Block.emuTarget (b : Block) (c : Ctx) (m : Nat) : Int :=
  match b.emuSource c m with
  | some p =>
    toSigned 32 (c.start.rd (R.EMU_OFS m))
      + (p - (b.emuSt m).ref) * (c.start.get (F.EMU_RATIO_N m) : Int) / 2 ^ 16 / (c.start.get (F.EMU_RATIO_M m) : Int)
  | none => (b.emuSt m).tgt

/-- The target, the lag, held or not, and whether an edge falls due, in an fc after that of the reference (R334, R336, R338). -/
def emuFollow (c : Ctx) (m : Nat) (b : Block) : Block :=
  if !c.start.on (F.EMU_CTL_EN m) || !b.on (F.EMU_CTL_EN m) || b.acted (EMU.resyncIn m) then b
  else
    let s := b.emuSt m
    let t := b.emuTarget c m
    let lag := (t - s.o).natAbs
    let old := b.get (F.EMU_STAT_LAG m)
    let b := if 256 ≤ lag ∧ old < 256 then b.flag (F.EMU_STAT_LAGF m) else b
    let b := b.put (F.EMU_STAT_LAG m) (min lag 0xFFFF)
    b.setEmu m { s with
      tgt := t, due := if s.due.isNone && t != s.o && !s.held then some (c.tick, t > s.o) else s.due }

/-- An output at the end of an fc: the reference of a hold that ends in it (R338), what falls due, and the balls of the next fc. -/
def emuTick (c : Ctx) (b : Block) (m : Nat) : Block :=
  let s := b.emuSt m
  let b := if s.renew then
      let b := b.setEmu m { s with held := false, renew := false }
      if b.on (F.EMU_CTL_EN m) then emuResync c m b else b
    else emuFollow c m b
  emuBalls m b

/-- The edge that fell due appears (R334, R335, R338). -/
def emuEdge (c : Ctx) (m : Nat) (b : Block) : Block :=
  let s := b.emuSt m
  match s.due with
  | none => b
  | some (u, up) =>
    let at_ := match s.lastEdge with
      | some e => max ((u + 2) * 64) (e + b.get (F.EMU_MSP_MSP m))
      | none => (u + 2) * 64
    when (b.on (F.EMU_CTL_EN m) && !s.held && tickOf at_ ≤ c.tick) (fun b =>
      let o := if up then s.o + 1 else s.o - 1
      let b := b.setEmu m { s with o := o, due := none, lastEdge := some at_ }
      emuBalls m (b.wr (R.EMU_OUT m) (ofSigned 32 o))) b

/-- A write of WPOS commits the staged fraction, in force from the next fc (R333). -/
def emuWposWrite (ag : Agent) (l : Loc) (a v : Nat) (b : Block) : Block :=
  let b := b.plainWrite ag l a v
  b.setEmu l.inst { b.emuSt l.inst with wpos := v * 65536 + b.get (F.EMU_WPOSF_FRAC l.inst) }

/-- R338: a lockup or a fence holds the output; in the fc in which the hold ends the output takes a new reference. -/
def emuForcing (b : Block) (m : Nat) : Block :=
  let must := b.engineForces (ownKey .emu m) || b.packageForces
  let s := b.emuSt m
  if must then b.setEmu m { s with held := true, renew := false, due := none }
  else if s.held then b.setEmu m { s with renew := true }
  else b

end Sys2Proof.Machine
end

