-- ==== Sys2Proof/Machine/Memory.lean ====
section
/-! DEFINITION. The memories (spec/14): granules, the K272 code, POISON, correction, scrubbing. -/

namespace Sys2Proof.Machine

/-! ### The K272 code (R557–R560) -/

/-- Multiply by x modulo g(x) = x^16 + x^15 + x^2 + 1. -/
def mulX (s : Nat) : Nat := if s ≥ 0x8000 then (s * 2 % 65536) ^^^ 0x8005 else s * 2

/-- x^m modulo g(x). -/
def xpow : Nat → Nat
  | 0 => 1
  | m + 1 => mulX (xpow m)

/-- The check of a granule's 256 bits (R557). -/
def k272 (d : Nat) : Nat :=
  (List.range 256).foldl (fun s j =>
    let s' := s ^^^ (if bit d (255 - j) then 0x8000 else 0)
    mulX s') 0

/-- Search x^m = s from m, with p = x^m. -/
def errAt (s : Nat) : Nat → Nat → Nat → Option Nat
  | 0, _, _ => none
  | k + 1, m, p => if p = s then some m else errAt s k (m + 1) (mulX p)

/-- What a syndrome says (R558). -/
inductive GranState where
  | good
  | one (m : Nat)
  | bad
  deriving DecidableEq, Repr

def decodeSyn (s : Nat) : GranState :=
  if s = 0 then .good
  else match errAt s 272 0 1 with
    | some m => .one m
    | none => .bad

/-- The syndrome of the poison mark (R560). -/
def poisonSyn : Nat := 0xFFFF

/-! ### Bytes -/

/-- What a memory byte that nothing has written holds: 0 on chip (R634), 1 bits in the flash array (R667). -/
def memDefault (a : Nat) : Byte := if 0x80000000 ≤ a then 0xFF else 0

/-- Memory is in its one canonical form: addresses rising, no byte listed that an unlisted one reads as. -/
def Memory.wf (m : List Host.Cell) : Bool := Assoc.Canon memDefault m

/-- A byte as stored. -/
def Block.memByte (b : Block) (a : Nat) : Nat :=
  match Assoc.find? b.mem a with
  | some v => v.toNat
  | none => (memDefault a).toNat

/-- Store a byte. -/
def Block.setMemByte (b : Block) (a v : Nat) : Block :=
  { b with mem := Assoc.setD b.mem (memDefault a) a (BitVec.ofNat 8 v) }

/-- n bytes from a, least significant first. -/
def numFrom (f : Nat → Nat) (a : Nat) : Nat → Nat
  | 0 => 0
  | n + 1 => f a + 256 * numFrom f (a + 1) n

/-- The 256 bits a granule holds as stored. -/
def Block.granRaw (b : Block) (g : Nat) : Nat := numFrom b.memByte (g * 32) 32

/-- The syndrome of a granule; in the flash array an erased granule is good, and a sector under an interrupted
erase is POISON (R667, R671). -/
def Block.granSyn (b : Block) (g : Nat) : Nat :=
  if 0x80000000 ≤ g * 32 then
    if b.flashInc.contains (g * 32 % 0x4000000 / 0x10000) then poisonSyn
    else
      let chk := b.flashChk.getD 0xFFFF g
      if chk = 0xFFFF ∧ b.granRaw g = 2 ^ 256 - 1 then 0 else k272 (b.granRaw g) ^^^ chk
  else b.syn.getD 0 g

/-- Does the granule deliver POISON? -/
def Block.granBad (b : Block) (g : Nat) : Bool := decodeSyn (b.granSyn g) == .bad

/-- A byte as a read delivers it: corrected (R558). -/
def Block.goodByte (b : Block) (a : Nat) : Nat :=
  match decodeSyn (b.granSyn (a / 32)) with
  | .one m => if 16 ≤ m ∧ (m - 16) / 8 = a % 32 then b.memByte a ^^^ 2 ^ ((m - 16) % 8) else b.memByte a
  | _ => b.memByte a

/-- A granule's data as a read delivers it. -/
def Block.granData (b : Block) (g : Nat) : Nat := numFrom b.goodByte (g * 32) 32

/-! ### Where memory lies (R44–R46, R547) -/

inductive MemSpace where
  | itcm (e : Nat)
  | dtcm (e : Nat)
  | tag (e : Nat)
  | cluster (c : Nat)
  | die (d : Nat)
  | flash
  deriving DecidableEq, Repr

/-- The memory at a package address, when its instance is present. -/
def memSpace (hw : Hw) (a : Nat) : Option MemSpace :=
  if 0x08000000 ≤ a ∧ a < 0x0A000000 then
    let e := (a - 0x08000000) / 0x20000
    let o := a % 0x20000
    if nEngines hw ≤ e then none
    else if o < 0x8000 then some (.itcm e)
    else if 0x10000 ≤ o ∧ o < 0x18000 then some (.dtcm e)
    else if 0x18000 ≤ o ∧ o < 0x19000 then some (.tag e)
    else none
  else if 0x10000000 ≤ a ∧ a < 0x12000000 then
    let c := (a - 0x10000000) / 0x100000
    if c < nClusters hw then some (.cluster c) else none
  else if 0x20000000 ≤ a ∧ a < 0x22000000 then
    let d := (a - 0x20000000) / 0x1000000
    if d < nDies hw then some (.die d) else none
  else if 0x80000000 ≤ a ∧ a < 0x84000000 then some .flash
  else none

/-- The window address of an engine's TCM block. -/
def tcmBase (e : Nat) : Nat := 0x08000000 + e * 0x20000

/-- An engine's private alias as a window address (R44). -/
def unalias (e a : Nat) : Nat := if a < 0x20000 then tcmBase e + a else a

/-! ### Counting (R566) -/

/-- The counter fields and address registers of the set of a granule: UNC, CORR, MUA, MCA. -/
def eccRegs (hw : Hw) (a : Nat) : Option (Fld × Fld × Nat × Nat) :=
  let rg (r : Nat) : Option (Fld × Fld × Nat × Nat) :=
    let d := r / 4
    let k := r % 4
    some (F.SUM_RG_MEC_UNC d k, F.SUM_RG_MEC_CORR d k, R.SUM_RG_MUA d k, R.SUM_RG_MCA d k)
  match memSpace hw a with
  | some (.itcm e) => rg (regionOf e)
  | some (.dtcm e) => rg (regionOf e)
  | some (.tag e) => rg (regionOf e)
  | some (.cluster c) => rg (c / 4)
  | some (.die d) => some (F.SUM_DS_MEC_UNC d, F.SUM_DS_MEC_CORR d, R.SUM_DS_MUA d, R.SUM_DS_MCA d)
  | _ => none

/-- The interrupt source of an uncorrectable read (R570). -/
def eccSource (hw : Hw) (a : Nat) : Nat :=
  match memSpace hw a with
  | some (.itcm e) => 0x0A0 + regionOf e
  | some (.dtcm e) => 0x0A0 + regionOf e
  | some (.tag e) => 0x0A0 + regionOf e
  | some (.cluster c) => 0x0A0 + c / 4
  | some (.die d) => 0x0A8 + d
  | _ => 0x0A8

/-- A read of granule g decoded it as `st`: the correction or the uncorrectable read is counted (R566), and an increment of UNC, which
saturates, raises its edge (R570). -/
def eccCount (c : Ctx) (g : Nat) (st : GranState) (b : Block) : Block :=
  match eccRegs c.hw (g * 32), st with
  | some (unc, _, mua, _), .bad =>
    when (b.get unc < 0xFFFF) (raiseEdge c (eccSource c.hw (g * 32))) ((b.bump unc 1).wr mua (g * 32))
  | some (_, corr, _, mca), .one _ => (b.bump corr 1).wr mca (g * 32)
  | _, _ => b

/-- Is an address in the flash read window? -/
def inFlash (a : Nat) : Bool := 0x80000000 ≤ a && a < 0x84000000

/-! ### Reads -/

/-- The granules that n bytes from a touch. -/
def granulesOf (a n : Nat) : List Nat :=
  let g := a / 32
  if (a + n - 1) / 32 = g then [g] else [g, g + 1]

/-- A read of n bytes of memory `src`, counted in `b`: the value (0 when POISON), whether it is POISON (R562). -/
def memRead (c : Ctx) (src : Block) (a n : Nat) (b : Block) : Nat × Bool × Block :=
  let gs := granulesOf a n
  let b := gs.foldl (fun b g => eccCount c g (decodeSyn (src.granSyn g)) b) b
  let bad := gs.any src.granBad
  (if bad then 0 else numFrom src.goodByte a n, bad, b)

/-- A read of a whole granule: its data and its poison mark (R562, R565). -/
def granRead (c : Ctx) (src : Block) (g : Nat) (b : Block) : Nat × Bool × Block :=
  (src.granData g, src.granBad g, eccCount c g (decodeSyn (src.granSyn g)) b)

/-! ### Writes -/

def Block.scrubSt (b : Block) (d : Nat) : ScrubSt := b.scrub.getD {} d
def Block.setScrub (b : Block) (d : Nat) (v : ScrubSt) : Block := { b with scrub := b.scrub.setD {} d v }

/-- A write reaches granule g: a scrubber's write-back to it is cancelled (R568). -/
def touchGran (g : Nat) (b : Block) : Block :=
  let b := { b with fc := { b.fc with touched := g :: b.fc.touched } }
  (List.range 2).foldl (fun b d =>
    let s := b.scrubSt d
    match s.pend with
    | some (p, _, _) => if p = g then b.setScrub d { s with cancel := true } else b
    | none => b) b

/-- Store the bytes of a number, `n` of them, from a. -/
def putBytes (a v : Nat) : Nat → Block → Block
  | 0, b => b
  | n + 1, b => putBytes (a + 1) (v / 256) n (b.setMemByte a (v % 256))

/-- Make a granule hold data with a syndrome. -/
def setGran (g d syn : Nat) (b : Block) : Block :=
  let b := putBytes (g * 32) d 32 b
  { b with syn := b.syn.setD 0 g syn }

/-- A write of a whole granule, good or with the poison mark (R564). -/
def granWrite (g d : Nat) (poison : Bool) (b : Block) : Block :=
  setGran g d (if poison then poisonSyn else 0) (touchGran g b)

/-- The engine whose TCMs or tag plane an address lies in. -/
def tcmOf (hw : Hw) (a : Nat) : Option Nat :=
  match memSpace hw a with
  | some (.itcm e) => some e
  | some (.dtcm e) => some e
  | some (.tag e) => some e
  | _ => none

/-- May the agent write this TCM (R30)? -/
def mayWriteTcm (b : Block) (ag : Agent) (e : Nat) : Bool :=
  match ag with
  | .engine n => n == e || (!b.enforced && n == 0)
  | .dma _ => true
  | .boot => true
  | .supervisor cl => cl == clusterOf e
  | .mnt => false
  | .host => false

/-- Note a write of n bytes and its rank in the order of R556. -/
def Block.noteWrote (b : Block) (rank a n : Nat) : Block := { b with fc := { b.fc with wrote := (a, n, rank) :: b.fc.wrote } }

/-- A write of a whole granule by an agent, judged as any other (R30, R31, R41, R47), through an odd slot and so the last of its fc
(R556); in a peripheral space nothing takes one (log entry 16). -/
def granStore (c : Ctx) (ag : Agent) (g d : Nat) (poison : Bool) (b : Block) : Block :=
  match memSpace c.hw (g * 32) with
  | some .flash => b.violate (b.setOf ag) .locked 1
  | some _ =>
    if (tcmOf c.hw (g * 32)).all (mayWriteTcm b ag) then (granWrite g d poison b).noteWrote 100 (g * 32) 32
    else b.violate (b.setOf ag) .owner 1
  | none =>
    let ls := (List.range 8).map fun k => locate c.hw (g * 32 + 4 * k)
    if ls.any (·.isNone) then b.violate (b.setOf ag) .absent 1
    else if ls.any (fun l => l.any fun l => !b.mayWrite ag l) then b.violate (b.setOf ag) .owner 1 else b

/-- The read, correction and new check of a write of less than a granule (R563), before its bytes are merged. -/
def openGran (c : Ctx) (g : Nat) (b : Block) : Block :=
  let st := decodeSyn (b.granSyn g)
  let b := eccCount c g st (touchGran g b)
  match st with
  | .good => b
  | .one _ => setGran g (b.granData g) 0 b
  | .bad => { b with syn := b.syn.setD 0 g poisonSyn }

/-- A write of n bytes, less than a granule (R563). -/
def memWrite (c : Ctx) (a v n : Nat) (b : Block) : Block :=
  putBytes a v n ((granulesOf a n).foldl (fun b g => openGran c g b) b)

/-- Has a write that comes after one of this rank already reached a byte in this fc? -/
def Block.laterWrote (b : Block) (rank i : Nat) : Bool := b.fc.wrote.any fun w => rank < w.2.2 && w.1 ≤ i && i < w.1 + w.2.1

/-- Has no such write reached any of n bytes from a? -/
def Block.unwritten (b : Block) (rank a n : Nat) : Bool := (List.range n).all fun i => !b.laterWrote rank (a + i)

/-- A write of a whole granule in the order of R556, good or with the poison mark (R564). -/
def orderedGran (rank g d : Nat) (poison : Bool) (b : Block) : Block :=
  let a := g * 32
  let x := numFrom (fun i => if b.laterWrote rank i then b.goodByte i else d / 256 ^ (i - a) % 256) a 32
  (granWrite g x poison b).noteWrote rank a 32

/-! ### Odd slots (R549, R552) -/

/-- The odd slots that an access to memory address a uses: that of the bus of the region its target lies in, and of the cluster SRAM
(100 and up); `own`: the region of an engine, whose bus its accesses use too. -/
def oddSlots (hw : Hw) (own : Option Nat) (a : Nat) : List Nat :=
  let at_ := match memSpace hw a with
    | some (.cluster cl) => [cl / 4, 100 + cl]
    | _ => (tcmOf hw a).toList.map regionOf
  (own.toList ++ at_).eraseDups

/-- The place of an agent in the round robin after the one granted last; engines by number, DMA channels from 256, scrubbers from
320. -/
def Block.oddTurn (b : Block) (k who : Nat) : Nat :=
  (who + 1024 - b.oddLast.getD 0 k - 1) % 512

/-- Is an agent granted the odd slots of an access in this fc: none is used yet, and of the agents that have been waiting for one of
them since the fc before, none comes sooner in the round robin? -/
def Block.oddFree (b : Block) (tick who : Nat) (keys : List Nat) : Bool :=
  keys.all fun k => !b.fc.odd.contains k && b.oddWant.all fun w =>
    w.1 != k || w.2.1 == who || w.2.2 + 1 < tick || b.oddTurn k who < b.oddTurn k w.2.1

/-- An agent asks for the odd slots of an access: granted, or waiting. -/
def oddGrant (tick who : Nat) (keys : List Nat) (b : Block) : Bool × Block :=
  let others := b.oddWant.filter fun w => tick ≤ w.2.2 + 1 && !(w.2.1 == who && keys.contains w.1)
  if b.oddFree tick who keys then
    (true, { b with
      fc := { b.fc with odd := keys ++ b.fc.odd }, oddWant := others
      oddLast := keys.foldl (fun l k => l.setD 0 k who) b.oddLast })
  else (false, { b with oddWant := keys.map (fun k => (k, who, tick)) ++ others })

/-- Do an access that needs odd slots, or wait for them. -/
def withOdd (tick who : Nat) (keys : List Nat) (f : Block → Block) (b : Block) : Block :=
  let (ok, b) := oddGrant tick who keys b
  if ok then f b else b

/-! ### Errors and scrubbing (R559, R567–R569) -/

/-- Bit m of a stored granule flips: below 16 a check bit, from 16 a data bit (R558). -/
def flipBit (g : Nat) (b : Block) (m : Nat) : Block :=
  let a := g * 32 + (m - 16) / 8
  if 0x80000000 ≤ g * 32 then
    if m < 16 then { b with flashChk := b.flashChk.setD 0xFFFF g (b.flashChk.getD 0xFFFF g ^^^ 2 ^ m) }
    else b.setMemByte a (b.memByte a ^^^ 2 ^ ((m - 16) % 8))
  else
    let b := { b with syn := b.syn.setD 0 g (b.syn.getD 0 g ^^^ xpow m) }
    if m < 16 then b else b.setMemByte a (b.memByte a ^^^ 2 ^ ((m - 16) % 8))

/-- The granules die d's scrubber reads, as a sequence of runs: first granule and count, in the order of R567. -/
def scrubRuns (hw : Hw) (d : Nat) : List (Nat × Nat) :=
  let es := min 128 (nEngines hw - d * 128)
  let cs := min 16 (nClusters hw - d * 16)
  ((List.range es).map fun k =>
    let t := tcmBase (d * 128 + k) / 32
    [(t, 1024), (t + 0x10000 / 32, 1024), (t + 0x18000 / 32, 128)]).flatten
  ++ [((0x10000000 + d * 16 * 0x100000) / 32, cs * 32768), ((0x20000000 + d * 0x1000000) / 32, 524288)]

/-- The granule after g in the runs; none at the end. -/
def nextGran (g : Nat) : List (Nat × Nat) → Option Nat
  | [] => none
  | (f, n) :: t =>
    if f ≤ g ∧ g < f + n then
      if g + 1 < f + n then some (g + 1) else t.head?.map (·.1)
    else nextGran g t

/-- The first granule of a die's pass. -/
def firstGran (d : Nat) : Nat := tcmBase (d * 128) / 32

/-- The granule POS names; POS at its reset value stands for the first of the pass. -/
def Block.scrubPos (b : Block) (d : Nat) : Nat :=
  let p := b.rd (R.SUM_SCR_POS d)
  if p = 0 then firstGran d else p / 32

/-- The scrubber of die d reads its next granule (R567–R569), as it stood at the start of the fc (R556): a write of this fc comes
after the read. -/
def scrubRead (c : Ctx) (d : Nat) (b : Block) : Block :=
  let s := b.scrubSt d
  let ival := 16 * 2 ^ b.get (F.SUM_SCR_CTL_RATE d)
  let g := b.scrubPos d
  when (d < nDies c.hw && b.on (F.SUM_SCR_CTL_EN d) && s.pend.isNone && s.nextAt ≤ c.tick)
      (withOdd c.tick (320 + d) (oddSlots c.hw none (g * 32)) fun b =>
    let st := decodeSyn (c.start.granSyn g)
    let b := eccCount c g st b
    let pend := match st with
      | .good => none
      | .one _ => some (g, c.start.granData g, 0)
      | .bad => if c.start.granSyn g = poisonSyn then none else some (g, c.start.granRaw g, poisonSyn)
    let b := b.setScrub d { pend := pend, cancel := b.fc.touched.contains g, nextAt := c.tick + ival }
    match nextGran g (scrubRuns c.hw d) with
    | some n => b.wr (R.SUM_SCR_POS d) (n * 32)
    | none => (b.wr (R.SUM_SCR_POS d) (firstGran d * 32)).wrapAdd (F.SUM_SCR_STAT_PASS d) 1) b

/-- The scrubber writes back what it found, unless a write came between (R568). -/
def scrubWriteback (c : Ctx) (d : Nat) (b : Block) : Block :=
  let s := b.scrubSt d
  match s.pend with
  | none => b
  | some (g, v, syn) =>
    let done (b : Block) : Block := b.setScrub d { s with pend := none, cancel := false }
    if s.cancel then (done b).flag (F.SUM_SCR_STAT_CANC d)
    else withOdd c.tick (320 + d) (oddSlots c.hw none (g * 32)) (fun b => setGran g v syn (done b)) b

end Sys2Proof.Machine
end

