-- ==== Sys2Proof/Machine/FireGen.lean ====
section
/-! DEFINITION. Fire generators and the fire assembler (spec/08). -/

namespace Sys2Proof.Machine

namespace FG
def armIn (n : Nat) : Input := ⟨.fg, n, 0⟩
def stopIn (n : Nat) : Input := ⟨.fg, n, 1⟩
end FG

namespace FA
def advIn (h : Nat) : Input := ⟨.fa, 0, h⟩
end FA

/-! ### Cells (R364, the FIRE payload table) -/

/-- A header without SEQ (R692). -/
def cellHead (kind ch lf : Nat) : Nat := kind % 16 * 2 ^ 28 + ch % 256 * 2 ^ 20 + lf % 4096

/-- Words as a payload, word 0 lowest. -/
def payloadOf : List Nat → Nat
  | [] => 0
  | w :: t => w % 2 ^ 32 + 2 ^ 32 * payloadOf t

/-- A FIRE cell. -/
def fireCell (ch k c fg pnum stamp wsel : Nat) (dir late blank : Bool) : Cell :=
  let w2 := b2n blank * 2 ^ 11 + b2n late * 2 ^ 10 + b2n dir * 2 ^ 9 + wsel % 8 * 2 ^ 6 + fineOf stamp
  { head := cellHead 2 ch (k % 64)
    payload := payloadOf [tickOf stamp, tickOf stamp / 2 ^ 32, w2, k, c, fg % 16 * 65536 + pnum % 65536, 0, 0]
    poison := false
    fire := some (fg, stamp) }

/-- A DATA cell: granule g of stream column k. -/
def dataCell (ch k g ngr d : Nat) (poison : Bool) : Cell :=
  { head := cellHead 1 ch (g * 128 + (if g = ngr then 64 else 0) + k % 64), payload := d, poison := poison, fire := none }

/-! ### Head contexts and lane queues -/

def Block.laneQueue (b : Block) (n : Nat) : List Cell := b.lq.getD [] n
def Block.setLaneQueue (b : Block) (n : Nat) (q : List Cell) : Block := { b with lq := b.lq.setD [] n q }

/-- AHEAD as it acts. -/
def Block.hcAhead (b : Block) (h : Nat) : Nat := max 1 (b.get (F.HC_CFG_AHEAD h))

/-- Does the context take columns of generator g in the present pass? -/
def Block.hcTakes (b : Block) (g h : Nat) : Bool :=
  b.on (F.HC_CFG_EN h) && b.get (F.HC_CFG_FG h) == g && !(b.hcSt h).excluded

/-- Is pass column c within the columns the head takes (R356)? -/
def hcHas (ncol csh c : Nat) : Bool := ncol == 0 || c + csh < ncol

/-- Does the ring lie within one die SRAM that is present (R363)? -/
def Block.hcRingOk (b : Block) (hw : Hw) (h : Nat) : Bool :=
  let base := b.get (F.HC_BASE_BASE h) * 32
  let len := b.get (F.HC_NSLOT_NSLOT h) * (b.get (F.HC_CFG_NGR h) + 1) * 32
  match memSpace hw base, memSpace hw (base + len - 1) with
  | some (.die d), some (.die e) => len != 0 && d == e
  | _, _ => false

/-- An event of the fire assembler, once in an fc. -/
def faEmit (c : Ctx) (e : Nat) (b : Block) : Block := if b.emittedNow .fa 0 e then b else emit c .fa 0 e none b

/-- Read a column's granules into DATA cells (R358, R366, R368). -/
def faReadColumn (c : Ctx) (h k : Nat) (b : Block) : List Cell × Block :=
  let ngr := b.get (F.HC_CFG_NGR h)
  let slot := k % b.get (F.HC_NSLOT_NSLOT h)
  let g0 := b.get (F.HC_BASE_BASE h) + slot * (ngr + 1)
  (List.range (ngr + 1)).foldl (fun (cells, b) g =>
    let (d, bad, b) := granRead c c.start (g0 + g) b
    let b := if bad then b.bump (F.HC_STAT_PSN h) 1 else b
    (cells ++ [dataCell (b.get (F.HC_CFG_CH h)) k g ngr d bad], b)) ([], b)

/-- The column k of head h gets no DATA: its FIRE cell carries BLANK (R361, R366). -/
def faBlank (h k : Nat) (b : Block) : Block := b.setHc h { b.hcSt h with blanks := (b.hcSt h).blanks ++ [k] }

/-- The DATA of pass column `col` of head h falls due in this fc: RCOL, and the stream column if it is ready, by WCOL at the fc's start;
else it is blank (R361, R362). -/
def faDataDue (c : Ctx) (h col : Nat) (b : Block) : Option Nat × Block :=
  let k := ((b.hcSt h).k0 + col) % 2 ^ 32
  let ahead := (c.start.rd (R.HC_WCOL h) + 2 ^ 32 - k) % 2 ^ 32
  let b := b.wrapAdd (F.HC_RCOL_RCOL h) 1
  if ahead = 0 ∨ 2 ^ 31 < ahead then
    (none, faEmit c 0 (faBlank h k ((b.bump (F.HC_STAT_UNDR h) 1).put F.FA_ESRC_UHC h)))
  else (some k, b)

/-- A ready column is read and queued whole, or given up (R366). -/
def faQueueData (c : Ctx) (h k : Nat) (b : Block) : Block :=
  let lane := b.get (F.HC_CFG_LANE h)
  let q := b.laneQueue lane
  if q.length + b.get (F.HC_CFG_NGR h) + 1 + 64 ≤ 1024 then
    let (cells, b) := faReadColumn c h k b
    b.setLaneQueue lane (q ++ cells)
  else faEmit c 1 (faBlank h k ((b.bump (F.HC_STAT_QDROP h) 1).put F.FA_ESRC_QHC h))

/-- The pass start at head h, in the fc in which the pass starts (R359, R361, R363). -/
def faPassStart (c : Ctx) (g ncol : Nat) (b : Block) (h : Nat) : Block :=
  if !b.on (F.HC_CFG_EN h) || b.get (F.HC_CFG_FG h) != g then b
  else if !b.hcRingOk c.hw h then (b.setHc h { b.hcSt h with excluded := true }).flag (F.HC_STAT_CFGERR h)
  else
    let b := b.setHc h { k0 := b.rd (R.HC_RCOL h), excluded := false, blanks := [] }
    let csh := b.get (F.HC_CSH_CSH h)
    (List.range (b.hcAhead h - csh)).foldl (fun b col =>
      if !hcHas ncol csh col then b
      else match faDataDue c h col b with
        | (some k, b) => faQueueData c h k b
        | (none, b) => b) b

/-- The FIRE cell of head `x` at a fire (R356, R364–R366). -/
def faFireCell (f : FaFire) (b : Block) (x : FaHead) : Block :=
  let h := x.h
  let csh := b.get (F.HC_CSH_CSH h)
  if !b.hcTakes f.fg h || f.j < csh then b
  else
    let s := b.hcSt h
    let col := f.j - csh
    let k := (s.k0 + col) % 2 ^ 32
    let lane := b.get (F.HC_CFG_LANE h)
    let q := b.laneQueue lane
    let cell := fireCell (b.get (F.HC_CFG_CH h)) k col f.fg f.pnum x.stamp f.wsel f.dir x.late (s.blanks.contains k)
    let b := b.setHc h { s with blanks := s.blanks.erase k }
    if q.length < 1024 then b.setLaneQueue lane (q ++ [cell]) else b.bump (F.HC_STAT_QDROP h) 1

/-- The DATA that fell due at a fire for head `x` (R361, R366). -/
def faFireData (c : Ctx) (b : Block) (x : FaHead) : Block :=
  match x.data with
  | some k => faQueueData c x.h k b
  | none => b

/-- Queue the cells of one fire (R365); a stopped generator's FIRE cells are discarded (R351). -/
def faQueueFire (c : Ctx) (b : Block) (f : FaFire) : Block :=
  let b := if (b.fgSt f.fg).haltAt.any (fun t => t ≤ c.tick) then b else f.heads.foldl (faFireCell f) b
  f.heads.foldl (faFireData c) b

/-- Insert a fire by generator number. -/
def insFire (f : FaFire) : List FaFire → List FaFire
  | [] => [f]
  | x :: t => if f.fg < x.fg then f :: x :: t else x :: insFire f t

/-- In the fc after their issue, the cells of the fires are queued, in ascending generator number (R365). -/
def faQueueCells (c : Ctx) (b : Block) : Block :=
  let due := b.faFires.filter fun f => f.at_ < c.tick
  let b := { b with faFires := b.faFires.filter fun f => !(f.at_ < c.tick) }
  (due.foldl (fun acc f => insFire f acc) []).foldl (faQueueFire c) b

/-- The head of a lane queue leaves in this fc (R367). -/
def faPop (c : Ctx) (n : Nat) (b : Block) : Option (Cell × Block) :=
  match b.laneQueue n with
  | [] => none
  | x :: rest =>
    let b := b.setLaneQueue n rest
    match x.fire with
    | some (_, stamp) =>
      if stamp < (c.tick + b.get (F.LQ_MRG_MRG n)) * 64 then
        some ({ x with payload := setBits x.payload 74 74 1 }, b.bump (F.LQ_STAT_LATE n) 1)
      else some (x, b)
    | none => some (x, b)

/-- ADV (R360). -/
def faAdv (c : Ctx) (h : Nat) (b : Block) : Block :=
  onAct (FA.advIn h) (fun _ b => b.wrapAdd (F.HC_WCOL_WCOL h) (c.start.get (F.HC_WINC_WINC h))) b

/-- Did the unit act in this fc at the input? -/
def Block.actDone (b : Block) (i : Input) : Bool := b.fc.latched.any fun a => a.input == i && a.done

/-- A write of WCOL; an ADV of the same fc adds WINC to it (R360). -/
def hcWcolWrite (c : Ctx) (ag : Agent) (l : Loc) (a v : Nat) (b : Block) : Block :=
  let b := b.plainWrite ag l a v
  if b.actDone (FA.advIn l.inst) then b.wrapAdd (F.HC_WCOL_WCOL l.inst) (c.start.get (F.HC_WINC_WINC l.inst)) else b

/-- A write of CFG, BASE, NSLOT or CSH: ignored while the generator's RUN is 1 (R363). -/
def hcCfgWrite (c : Ctx) (ag : Agent) (l : Loc) (a v : Nat) (b : Block) : Block :=
  if c.start.on (F.FG_STAT_RUN (b.get (F.HC_CFG_FG l.inst))) then b.noteWrite l a v else b.plainWrite ag l a v

/-! ### Passes (R342–R345, R351–R353) -/

/-- The staging set (R343). -/
def Block.fgStaged (b : Block) (n : Nat) : FgPass :=
  { pitch := b.rd (R.FG_PITCH n), xs := b.rd (R.FG_XSC n) * 2 ^ 24 + b.get (F.FG_XSF_FRAC n), ncol := b.rd (R.FG_NCOL n)
    dir := b.on (F.FG_PASS_DIR n), wsel := b.get (F.FG_PASS_WSEL n), bofs := b.rd (R.FG_BOFS n) }

/-- Pitch point j, modulo 2^56 (R342). -/
def FgPass.point (p : FgPass) (j : Nat) : Nat :=
  let step : Int := if p.dir then -((j * p.pitch : Nat) : Int) else ((j * p.pitch : Nat) : Int)
  ofSigned 56 ((p.xs : Int) + step + (if p.dir then toSigned 32 p.bofs else 0))

/-- The next pitch point is j, and shows. -/
def fgShow (n j : Nat) (p : FgPass) (b : Block) : Block :=
  let x := p.point j
  let b := b.setFg n { b.fgSt n with j := j }
  ((b.wr (R.FG_FIDX n) (j % 2 ^ 32)).wr (R.FG_NXC n) (x / 2 ^ 24)).wr (R.FG_NXF n) (x % 2 ^ 24 * 256)

/-- What ARM does, by the state (RUN, PEND) the fc began with (R343, R344); a STOP of the same fc discards it. -/
def fgArmAct (c : Ctx) (n : Nat) (b : Block) : Block :=
  if !c.start.on (F.FG_CTL_EN n) || (b.fgSt n).stop || b.acted (FG.stopIn n) then b
  else
    let p := c.start.fgStaged n
    if p.pitch = 0 ∨ c.start.on (F.FG_STAT_PEND n) then b.flag (F.FG_STAT_ARMERR n)
    else if b.on (F.FG_STAT_RUN n) then (b.setFg n { b.fgSt n with pend := some p }).put (F.FG_STAT_PEND n) 1
    else b.setFg n { b.fgSt n with next := some p }

def fgArm (c : Ctx) (n : Nat) (b : Block) : Block := onAct (FG.armIn n) (fun _ b => fgArmAct c n b) b

/-- What STOP does, and a write of EN = 0: from the next fc the passes are discarded; an ARM of this fc leaves no ARMERR (R344). -/
def fgStopAct (c : Ctx) (n : Nat) (b : Block) : Block := (b.setFg n { b.fgSt n with stop := true }).unflag c (F.FG_STAT_ARMERR n)

def fgStop (c : Ctx) (n : Nat) (b : Block) : Block := onAct (FG.stopIn n) (fun _ b => fgStopAct c n b) b

/-- Must the generator issue no fire: by a lockup, by the package (R351)? -/
def Block.fgMustHalt (b : Block) (n : Nat) : Bool := b.engineForces (ownKey .fg n) || b.packageForces

/-- The generator becomes IDLE (R344); a halt that has ended with the STOP of R351 is over. -/
def fgIdle (n : Nat) (b : Block) : Block :=
  let s := b.fgSt n
  ((b.setFg n { s with
    pass := none, pend := none, next := none, stop := false, lastEnd := none
    haltAt := if b.fgMustHalt n then s.haltAt else none }).put (F.FG_STAT_RUN n) 0).put (F.FG_STAT_PEND n) 0

/-- A generator at the end of an fc: a STOP, or a pass that starts in the next one (R343, R344). -/
def fgEndFc (c : Ctx) (b : Block) (n : Nat) : Block :=
  let s := b.fgSt n
  if s.stop then fgIdle n b
  else match s.next with
    | some p =>
      let b := b.setFg n { s with pass := some p, next := none, startAt := c.tick + 1, lastEnd := none }
      let b := (b.put (F.FG_STAT_RUN n) 1).put (F.FG_STAT_DIRA n) (b2n p.dir)
      fgShow n 0 p (b.wrapAdd (F.FG_PNUM_PNUM n) 1)
    | none => b

/-- The fc in which a pass starts (R359, R361, R363). -/
def fgBeginFc (c : Ctx) (b : Block) (n : Nat) : Block :=
  match (b.fgSt n).pass with
  | some p => if (b.fgSt n).startAt = c.tick then (List.range 64).foldl (faPassStart c n p.ncol) b else b
  | none => b

/-- Is the enable refused (R345)? -/
def Block.fgBad (b : Block) (hw : Hw) (n : Nat) : Bool :=
  let src := b.get (F.FG_CFG_FB n)
  b.get (F.FG_LEAD_MINL n) < 3 || b.get (F.FG_LEAD_LKA n) < b.get (F.FG_LEAD_MINL n) || nFB hw ≤ src
  || b.get (F.FB_CFG_MODE src) > 2 || b.on (F.FB_SPDC_SMODE src)

/-- A write of FGnn_CTL (R344, R345). -/
def fgCtlWrite (c : Ctx) (ag : Agent) (l : Loc) (a v : Nat) (b : Block) : Block :=
  let n := l.inst
  let was := b.on (F.FG_CTL_EN n)
  let b := b.plainWrite ag l a v
  let b := if bit v 0 && !was && b.fgBad c.hw n then (b.put (F.FG_CTL_EN n) 0).flag (F.FG_STAT_CFGERR n)
    else if !bit v 0 && c.start.on (F.FG_CTL_EN n) then fgStopAct c n b
    else b
  let b := if bit v 1 then
      let (act, b) := swArrive (FG.stopIn n) b
      if act then fgStopAct c n b else b
    else b
  if bit v 2 && bit v 0 && c.start.on (F.FG_CTL_EN n) then
    let (act, b) := swArrive (FG.armIn n) b
    if act then fgArmAct c n b else b
  else b

/-! ### Prediction and issue (R346–R350) -/

/-- Is the prediction valid (R346)? -/
def Block.fgPred (b : Block) (n : Nat) : Bool :=
  match (b.fgSt n).pass with
  | some p =>
    let src := b.get (F.FG_CFG_FB n)
    b.on (F.FB_STAT_IVAL src) && b.on (F.FB_STAT_DIR src) == p.dir
  | none => false

/-- The predicted crossing of a pitch point, in fine steps (R346). -/
def Block.fgCross (b : Block) (n x : Nat) (p : FgPass) : Int :=
  let src := b.get (F.FG_CFG_FB n)
  let s := b.fbSt src
  let bound := (s.pos / 2 ^ 16 + (if b.on (F.FB_STAT_DIR src) then 1 else 0)) % 2 ^ 32 * 2 ^ 24
  let d := toSigned 56 (x + 2 ^ 56 - bound)
  (s.last.getD 0 : Int) + roundDiv ((if p.dir then -d else d) * s.delta) (2 ^ 24 * s.n)

/-- R348, R357: a stamp no earlier than (t + MINL):0, and whether it was moved there. -/
def notBefore (first : Nat) (v : Int) : Nat × Bool := if v < first then (first, true) else (v.toNat, false)

/-- The stamp of head h (R357), and whether it is late. -/
def Block.faStamp (b : Block) (n h base first : Nat) (late : Bool) (p : FgPass) : Nat × Bool :=
  let s := b.fbSt (b.get (F.FG_CFG_FB n))
  let fofs := toSigned 32 (b.rd (R.HC_FOFS h))
  if late then (base, true)
  else notBefore first (base + roundDiv ((if p.dir then -fofs else fofs) * s.delta) (2 ^ 24 * s.n))

/-- What each head that follows the generator gets of fire j (R357), with the DATA that falls due at its issue (R361). -/
def faHeads (c : Ctx) (n j base first : Nat) (late : Bool) (p : FgPass) (b : Block) : List FaHead × Block :=
  ((List.range 64).filter fun h => b.hcTakes n h).foldl (fun (l, b) h =>
    let (st, lt) := b.faStamp n h base first late p
    let csh := b.get (F.HC_CSH_CSH h)
    let col := j + b.hcAhead h - csh
    let (data, b) := if csh ≤ j + b.hcAhead h && hcHas p.ncol csh col then faDataDue c h col b else (none, b)
    (l ++ [⟨h, st, lt, data⟩], b)) ([], b)

/-- The lanes bound to the generator latch the fire in the next fc (R349, R401). -/
def fgBind (c : Ctx) (n stamp wsel hop : Nat) (b : Block) : Block :=
  (List.range (nHL c.hw)).foldl (fun b m =>
    if b.on (F.HL_CFG_FGEN m) && b.get (F.HL_CFG_FG m) == n then
      { b with fires := b.fires ++ [⟨c.tick + 1, m, stamp, wsel, hop⟩] }
    else b) b

/-- The fire is issued with its base stamp (R349, R350). -/
def fgFire (c : Ctx) (n j base first : Nat) (late : Bool) (p : FgPass) (b : Block) : Block :=
  let wsel := if b.on (F.FG_WSEL_WOVR n) then b.get (F.FG_WSEL_WSEL n) else p.wsel
  let hop := match b.marks.find? (evKey .fg n 0) with
    | some m => m + 1
    | none => 0
  let b := emit c .fg n 0 none b
  let s := b.fgSt n
  let full := 16 ≤ (s.shots.filter fun t => c.tick < tickOf t).length
  let b := if full then b.flag (F.FG_STAT_SHOVF n) else b
  let b := b.setFg n { s with lst := base, shots := if full then s.shots else s.shots ++ [base] }
  let b := b.wr (R.FG_LSTL n) (tickOf base % 2 ^ 32)
  let (heads, b) := faHeads c n j base first late p b
  let fire : FaFire := ⟨c.tick, n, j, p.dir, wsel, b.get (F.FG_PNUM_PNUM n), p.ncol, heads⟩
  fgBind c n base wsel hop { b with faFires := b.faFires ++ [fire] }

/-- The generator judges pitch point FIDX, and issues or drops its fire (R347–R349, R351–R353). -/
def fgIssue (c : Ctx) (n : Nat) (b : Block) : Block :=
  let s := b.fgSt n
  match s.pass with
  | none => b
  | some p =>
    let j := s.j
    let x := p.point j
    let src := b.get (F.FG_CFG_FB n)
    let pred := b.fgPred n
    let sh := b.fgCross n x p
    let d := toSigned 56 (b.fbPos src c.tick * 256 + 2 ^ 56 - x)
    let due := if pred then sh ≤ (((c.tick + b.get (F.FG_LEAD_LKA n)) * 64 : Nat) : Int)
      else (if p.dir then -d else d) ≥ 0
    when (n < nHL c.hw && c.start.on (F.FG_CTL_EN n) && s.startAt ≤ c.tick && s.issueAt != some c.tick && s.lastEnd.isNone
        && !(s.haltAt.any fun t => t ≤ c.tick) && due) (fun b =>
      let first := (c.tick + b.get (F.FG_LEAD_MINL n)) * 64
      let late := !pred || sh < (first : Int)
      let base := if late then first else sh.toNat
      let drop := late && b.on (F.FG_CFG_SKIP n)
      let b := if late then emit c .fg n 2 none ((b.flag (F.FG_STAT_LATE n)).bump (F.FG_CNT_LCNT n) 1) else b
      let b := if drop then b.bump (F.FG_CNT_DROP n) 1 else fgFire c n j base first late p b
      let done := p.ncol != 0 && j + 1 == p.ncol
      let b := b.setFg n { b.fgSt n with
        issueAt := some c.tick, lastEnd := if done then some (if drop then c.tick else tickOf base) else none }
      fgShow n (j + 1) p b) b

/-- SHOT in the fc of a base stamp's tick (R350). -/
def fgShot (c : Ctx) (n : Nat) (b : Block) : Block :=
  let s := b.fgSt n
  match s.shots.find? (fun t => tickOf t ≤ c.tick) with
  | some t => emit c .fg n 1 (some (fineOf t)) (b.setFg n { s with shots := s.shots.erase t })
  | none => b

/-- The end of the pass's last fire, after any SHOT of the fc (R343, R353). -/
def fgPassEnd (c : Ctx) (n : Nat) (b : Block) : Block :=
  let s := b.fgSt n
  when (s.pass.isSome && (s.lastEnd.any fun t => t ≤ c.tick) && !(s.shots.any fun t => tickOf t ≤ c.tick)) (fun b =>
    let b := emit c .fg n 3 none b
    ((b.setFg n { s with pass := none, pend := none, next := s.next.or s.pend, lastEnd := none }).put (F.FG_STAT_RUN n) 0).put
      (F.FG_STAT_PEND n) 0) b

/-- A read of LSTL snapshots LSTH and LSTF (R16). -/
def fgLstRead (c : Ctx) (n : Nat) (b : Block) : Nat × Block :=
  let t := (c.start.fgSt n).lst
  (tickOf t % 2 ^ 32, (b.wr (R.FG_LSTH n) (tickOf t / 2 ^ 32)).wr (R.FG_LSTF n) (fineOf t))

/-- The FIRE cells of generator n are discarded from the lane queues (R351). -/
def fgDiscard (n : Nat) (b : Block) : Block :=
  let gone (x : Cell) : Bool := x.fire.any fun f => f.1 == n
  (List.range 8).foldl (fun b m => b.setLaneQueue m ((b.laneQueue m).filter fun x => !gone x)) b

/-- R351: a lockup or a fence stops the generator from fc e, 3 fc after it, and its FIRE cells that have not left go; the end of a
lockup's forcing acts as STOP, and the generator fires no more in that fc. -/
def fgForcing (c : Ctx) (e : Nat) (b : Block) (n : Nat) : Block :=
  let s := b.fgSt n
  if b.fgMustHalt n && s.haltAt.isNone then fgDiscard n (b.setFg n { s with haltAt := some e })
  else if e == c.tick && c.start.engineForces (ownKey .fg n) && !b.engineForces (ownKey .fg n) then fgStopAct c n b
  else if !b.fgMustHalt n && s.haltAt.isSome then b.setFg n { s with haltAt := none }
  else b

/-- Bring every output that a lockup or a fence acts on, from fc e, up to date (R189, R256, R338, R351). -/
def refreshOutputs (c : Ctx) (e : Nat) (b : Block) : Block :=
  let b := refreshForcing c.hw e b
  let b := (List.range (nEMU c.hw)).foldl emuForcing b
  (List.range (nHL c.hw)).foldl (fgForcing c e) b

/-- At the end of an fc: the causes of forcing whose time comes with the next fc take effect in it, and those that have ended no
longer act (R189, R198, O6–O8). -/
def forceEndFc (c : Ctx) (b : Block) : Block :=
  let e := c.tick + 1
  let b := (List.range 32).foldl (tgEndFc c) b
  let b := { b with fc := { b.fc with released := [] } }
  let lock := b.lockWait.any fun w => w.2 ≤ e
  let pv := b.pvWait.any fun t => t ≤ e
  if lock || pv || b.fc.recheck then
    refreshOutputs c e { b with
      lockWait := b.lockWait.filter fun w => e < w.2, pvWait := if pv then none else b.pvWait }
  else b

end Sys2Proof.Machine
end

