-- ==== Sys2Proof/Machine/Engine.lean ====
section
/-! DEFINITION. Control engines, their tasks, scheduling, activation, exceptions and lockup (spec/10, spec/12), and the
engine side of loop lanes (spec/02). -/

namespace Sys2Proof.Machine

/-! ### Which engines issue -/

/-- Is the engine's cluster kept still by its package's role (R764, R765)? -/
def Block.pairStill (b : Block) (tick e : Nat) : Bool :=
  b.on F.PV_CFG_PAIR && bit (b.rd R.PV_CKCL) (clusterOf e) &&
    (b.get F.PV_STAT_ROLE == 0 || (b.get F.PV_STAT_ROLE == 1 && b.takingSince.all (fun t => tick < t + 2048)))

/-- Is the engine dormant, absent, locked up or in isolation reset? -/
def Block.engOff (b : Block) (hw : Hw) (e : Nat) : Bool :=
  nEngines hw ≤ e || b.nt.getD 0 e == 0 || b.lockedUp.contains e || (b.engSt e).iso

/-- The doze of a region. -/
def Block.dozeSt (b : Block) (r : Nat) : DozeSt := b.doze.getD {} r
def Block.setDoze (b : Block) (r : Nat) (v : DozeSt) : Block := { b with doze := b.doze.setD {} r v }

/-- A dozing region begins to wake (R779). -/
def wakeRegion (c : Ctx) (r : Nat) (b : Block) : Block :=
  let d := b.dozeSt r
  if d.asleep && d.wake.isNone then b.setDoze r { d with wake := some c.tick } else b

/-! ### Selection (R498–R500) -/

/-- Has T00 an exception to begin? -/
def EngSt.toBegin (s : EngSt) : Bool :=
  !s.queue.isEmpty && !s.act && (s.tasks.getD {} 0).st == .wait

/-- Has T00 an exception whose handler has not yet issued: to begin, or begun and selected? -/
def EngSt.entering (s : EngSt) : Bool :=
  s.toBegin || (s.act && (s.tasks.getD {} 0).st == .ready && s.sel.any (fun x => x.task == 0))

/-- Does task j rank above task k under R498? -/
def EngSt.ranks (s : EngSt) (j k : Nat) : Bool :=
  let a := s.tasks.getD {} j
  let z := s.tasks.getD {} k
  if a.pri ≠ z.pri then z.pri < a.pri
  else if k = 0 && s.entering then false
  else if j = 0 && s.entering then true
  else if z.st = .run then false
  else if a.st = .run then true
  else if a.readySince ≠ z.readySince then a.readySince < z.readySince
  else j < k

/-- The tasks the scheduler chooses among. -/
def EngSt.candidates (s : EngSt) : List Nat :=
  (if s.toBegin && (s.tasks.getD {} 0).st != .ready then [0] else []) ++
    s.tasks.filterMap fun (k, t) => if t.st = .ready ∨ t.st = .run then some k else none

/-- The task selected in this fc, if any. -/
def EngSt.best (s : EngSt) : Option Nat :=
  s.candidates.foldl (fun acc k =>
    match acc with
    | none => some k
    | some j => if s.ranks k j then some k else acc) none

/-- What led to a selection: the rows C1–C5 of R500. -/
inductive SelCause where
  | activate | wait | raise | eret
  deriving DecidableEq, Repr

/-- The fc of the first issue of a task selected in fc t, the running task yielding in fc y (R500). -/
def firstIssue (cause : SelCause) (exc : Bool) (t y : Nat) : Nat :=
  match cause with
  | .activate => max (t + 5) (y + 4)
  | .wait => if exc then t + 6 else t + 4
  | .raise => if exc then max (t + 6) (y + 4) else y + 4
  | .eret => if exc then t + 6 else t + 4

/-- Select afresh in this fc; a selection that stands keeps its fcs (R498–R500, R780). -/
def reselect (c : Ctx) (e : Nat) (cause : SelCause) (b : Block) : Block :=
  let s := b.engSt e
  match s.best with
  | none => b.setEng e { s with sel := none }
  | some k =>
    if s.run = some k then b.setEng e { s with sel := none }
    else if s.sel.any (fun x => x.task == k) then b
    else
      let exc := k = 0 ∧ (s.tasks.getD {} 0).st = .wait
      let t := match (b.dozeSt (regionOf e)).wake with
        | some a => max c.tick (a + 12)
        | none => c.tick
      let y := match s.run with
        | some _ => max (t + 1) s.holdEnd
        | none => t + 1
      b.setEng e { s with sel := some ⟨k, c.tick, y, firstIssue cause exc t y⟩ }

/-- Issue is held until an fc by an instruction of task k that began in this fc: a yield that would fall inside it moves to its end,
and so do the first issue of the task selected and the late store errors that wait for the yield (R499, R500, R516, R520). -/
def EngSt.holdTo (s : EngSt) (tick k n : Nat) : EngSt :=
  let s := { s with holdEnd := n }
  if n ≤ tick + 1 then s
  else
    { s with
      sel := s.sel.map fun x => if x.task ≠ k ∧ tick < x.yieldAt then
          { x with yieldAt := max x.yieldAt n, first := max x.first (max x.yieldAt n + 4) } else x
      serrs := s.serrs.map fun x => if x.2.1 = k ∧ tick < x.1 then (max x.1 n, x.2) else x }

/-- Does the DRAIN that a task's last issue was still wait (R442)? -/
def EngSt.draining (s : EngSt) (tick : Nat) : Bool :=
  tick < s.issueAt || (s.modeP && !(s.stores.isEmpty && s.lastWritten.all fun w => w + 4 ≤ tick))

/-- A task stops running, READY from this fc (R499); a DRAIN it waits in starts again (R444). -/
def leaveRun (tick e k : Nat) (b : Block) : Block :=
  let s := b.engSt e
  let t := s.tasks.getD {} k
  let pc := match t.drain with
    | some p => if s.draining tick then p else t.pc
    | none => t.pc
  (b.setEng e { s with run := none }).setTask e k { t with st := .ready, readySince := tick, pc := pc, drain := none }

/-- The yields that fall due at the start of an fc. -/
def yieldTick (tick : Nat) (b : Block) (e : Nat) : Block :=
  let s := b.engSt e
  match s.sel, s.run with
  | some x, some k => if x.yieldAt ≤ tick ∧ x.task ≠ k then leaveRun tick e k b else b
  | _, _ => b

/-- The selected task issues first in this fc (R500). -/
def firstIssueNow (c : Ctx) (e : Nat) (b : Block) : Block :=
  let s := b.engSt e
  match s.sel with
  | none => b
  | some x =>
    when (x.first ≤ c.tick && !b.engOff c.hw e && !b.pairStill c.tick e && (s.tasks.getD {} x.task).st == .ready) (fun b =>
      let b := match s.run with
        | some k => leaveRun c.tick e k b
        | none => b
      let t := b.taskSt e x.task
      let b := b.setTask e x.task { t with st := .run }
      let s := b.engSt e
      b.setEng e { s with run := some x.task, sel := none, issueAt := c.tick, holdEnd := 0 }) b

/-! ### Lockup (R525, R526) -/

/-- The ball CE_LOCK_N. -/
def ballLock : Nat := 1

/-- The engine locks up; its outputs are forced 3 fc later (O7). -/
def lockup (c : Ctx) (e : Nat) (b : Block) : Block :=
  if b.lockedUp.contains e then b
  else
    let s := b.engSt e
    let b := { b with lockedUp := e :: b.lockedUp, lockWait := (e, c.tick + 3) :: b.lockWait }.setEng e
      { s with run := none, sel := none, loads := [], trap := none }
    let cl := clusterOf e
    let b := b.put (F.CL_STAT_LOCK cl) (b.get (F.CL_STAT_LOCK cl) ||| 2 ^ (e % 8))
    raiseEdge c (0x020 + cl) (b.setBall ballLock 1)

/-! ### Exceptions (R520–R525) -/

/-- The codes of the exception table. -/
def excTag : Nat := 0
def excPoison : Nat := 1
def excPriv : Nat := 2
def excIll : Nat := 3
def excAccv : Nat := 4
def excBuserr : Nat := 5
def excSerr : Nat := 6
def excDivz : Nat := 7
def excDlm : Nat := 8
def excBrk : Nat := 9
def excSys : Nat := 10
def excMchk : Nat := 11

/-- Join the queue: exceptions of one fc in ascending task number (R520). -/
def insExc (x : Exc) : List Exc → List Exc
  | [] => [x]
  | y :: t => if x.at_ = y.at_ ∧ x.task < y.task then x :: y :: t else y :: insExc x t

/-- An exception is raised for task k of engine e (R520, R508, R525). -/
def raise (c : Ctx) (e k code epc eaddr einfo : Nat) (b : Block) : Block :=
  if k = 0 then lockup c e b
  else
    let s := b.engSt e
    let t := s.tasks.getD {} k
    let b := b.setEng e { s with
      queue := insExc ⟨c.tick, k, code, epc, eaddr, einfo, t.st == .wait⟩ s.queue
      run := if s.run = some k then none else s.run
      sel := if s.sel.any (fun x => x.task == k) then none else s.sel }
    reselect c e .raise (b.setTask e k { t with st := .held, deadline := none, drain := none })

/-- The key under which an fc notes what hardware did to a task's DIRTY and ALOST (R12, R13). -/
def taskKey (e k : Nat) : Nat := 2 ^ 40 + e * 64 + k

/-- The key under which an fc notes that hardware set ESTAT.SMORE (R12). -/
def smoreKey (e : Nat) : Nat := 2 ^ 41 + e

/-- The key under which an fc notes the groups that a window write makes dirty (R748). -/
def dcKey (e k : Nat) : Nat := 2 ^ 42 + e * 64 + k

/-- Hardware writes the PC or another word of a task's group CT, which makes the group dirty (R509, R12). -/
def TaskSt.ctDirty (t : TaskSt) : TaskSt := { t with ds := t.ds ||| 32, dc := t.dc ||| 32 }

/-- Hardware set bits of a mask in this fc. -/
def Block.noteSet (b : Block) (key m : Nat) : Block :=
  { b with fc := { b.fc with hwSet := b.fc.hwSet.insert key (b.fc.hwSet.getD 0 key ||| m) } }

/-- A late store error is raised for task k, or lost (R522). -/
def serrNow (c : Ctx) (e k addr : Nat) (second : Bool) (b : Block) : Block :=
  let s := b.engSt e
  let t := s.tasks.getD {} k
  if b.engOff c.hw e then b
  else if t.st = .held ∨ t.st = .parked ∨ s.queue.any (fun x => x.task == k) then
    (b.setEng e { s with smore := true }).noteSet (smoreKey e) 1
  else raise c e k excSerr t.pc addr (b2n second) b

/-- A late store error returns for task k: raised now, or in the yield fc of a task in RUN (R499, R520). -/
def serr (c : Ctx) (e k addr : Nat) (second : Bool) (b : Block) : Block :=
  let s := b.engSt e
  if s.run = some k then b.setEng e { s with serrs := s.serrs ++ [(max (c.tick + 1) s.holdEnd, k, addr, second)] }
  else serrNow c e k addr second b

/-- The late store errors that waited for a yield in this fc, in ascending task number (R520). -/
def serrTick (c : Ctx) (b : Block) (e : Nat) : Block :=
  let s := b.engSt e
  let due := s.serrs.filter fun x => x.1 ≤ c.tick
  let b := b.setEng e { s with serrs := s.serrs.filter fun x => !(x.1 ≤ c.tick) }
  due.foldl (fun b x => serrNow c e x.2.1 x.2.2.1 x.2.2.2 b) b

/-- May a task at privilege `u` (true: U) reach an address (R527, R528)? `need` is the bit of PERM for U: 0 read, 1 write,
2 execute; the bit for S lies 3 above. -/
def EngSt.mpAllows (s : EngSt) (u : Bool) (need a : Nat) : Bool :=
  let blk := a / 256
  match (List.range 8).find? (fun n => bit (s.mpb.getD n 0) 7 && bits (s.mpb.getD n 0) 31 8 ≤ blk && blk ≤ bits (s.mpl.getD n 0) 31 8) with
  | some n => bit (s.mpb.getD n 0) (if u then need else need + 3)
  | none => !u

/-- An engine's I-TCM, through the alias or its own window. -/
def inItcm (e a : Nat) : Bool := a < 0x8000 || (tcmBase e ≤ a && a < tcmBase e + 0x8000)

/-- An engine's D-TCM, through the alias or its own window. -/
def inDtcm (e a : Nat) : Bool := (0x10000 ≤ a && a < 0x18000) || (tcmBase e + 0x10000 ≤ a && a < tcmBase e + 0x18000)

/-- Is an address absent (R40–R45)? -/
def absent (hw : Hw) (a : Nat) : Bool := (memSpace hw a).isNone && (locate hw (a / 4 * 4)).isNone

/-- May the engine fetch from an address (R414, R415)? -/
def fetchable (modeP : Bool) (e a : Nat) : Bool :=
  inItcm e a || (modeP && ((0x10000000 ≤ a && a < 0x12000000) || (0x20000000 ≤ a && a < 0x22000000) ||
    (0x80000000 ≤ a && a < 0x84000000)))

/-- The tag nibble of a D-TCM word, by its window address (R46). -/
def tagByteAddr (a : Nat) : Nat :=
  let e := (a - 0x08000000) / 0x20000
  tcmBase e + 0x18000 + (a % 0x8000) / 8

def Block.tagOf (b : Block) (a : Nat) : Nat :=
  let v := b.goodByte (tagByteAddr a)
  if (a / 4) % 2 = 0 then v % 16 else v / 16

/-- The tag of the D-TCM word at window address `a` becomes t: a write of its byte of the tag plane (R46, R563). -/
def tagWrite (c : Ctx) (a t : Nat) (b : Block) : Block :=
  let p := tagByteAddr a
  let old := b.goodByte p
  memWrite c p (if (a / 4) % 2 = 0 then old / 16 * 16 + t % 16 else t % 16 * 16 + old % 16) 1 b

/-- T00 begins the head of the queue: ESTAT, EPC, EADDR, EINFO and PC are loaded (R521); a bad vector locks the engine up
(R525). -/
def beginHead (c : Ctx) (e : Nat) (b : Block) : Block :=
  let s := b.engSt e
  match s.queue with
  | [] => b
  | x :: rest =>
    let src := (b.taskSt e x.task).priv
    let b := b.setEng e { s with
      queue := rest, act := true, etask := x.task, ecause := x.code, epriv := src, ewait := x.wait, epc := x.epc
      eaddr := x.eaddr, einfo := x.einfo }
    let va := unalias e (s.vbase + 4 * x.code)
    let t := b.taskSt e 0
    if !inDtcm e va then lockup c e b
    else
      let (w, bad, b) := memRead c c.start va 4 b
      let (_, tagBad, b) := memRead c c.start (tagByteAddr va) 1 b
      if bad || tagBad || c.start.tagOf va != 9 || !fetchable s.modeP e w || !s.mpAllows t.priv 2 w then lockup c e b
      else (b.setTask e 0 { t with pc := w, st := .ready, readySince := c.tick }.ctDirty).noteSet (taskKey e 0) 32

/-- The row EXCEPTION_ENTRY: T00 is selected while in WAIT with an exception to begin. -/
def exceptionEntry (c : Ctx) (e : Nat) (b : Block) : Block :=
  let s := b.engSt e
  when (s.toBegin && s.sel.any (fun x => x.task == 0) && !b.engOff c.hw e) (beginHead c e) b

/-! ### Activation (R496, R503–R506, R824, R752) -/

/-- An activation of the kinds given is latched at task k of engine e; a region in DOZE begins to wake (R404). -/
def activate (c : Ctx) (e k kinds irq : Nat) (b : Block) : Block :=
  let t := b.taskSt e k
  if b.engOff c.hw e || b.pairStill c.tick e then b
  else
    let lost := t.apend || t.st == .parked
    let key := taskKey e k
    let b := if lost ∧ t.st ≠ .wait then
        { b with fc := { b.fc with rcAdd := b.fc.rcAdd.insert key (b.fc.rcAdd.getD 0 key + 1) } } else b
    let b := wakeRegion c (regionOf e) b
    if (b.engSt e).takeAt.any (fun d => c.tick < d + 2048) || t.st != .wait then
      b.setTask e k { t with
        apend := t.apend || t.st != .parked
        waited := t.waited && t.st == .parked
        alost := if lost then satAdd 8 t.alost 1 else t.alost
        pendKind := if lost then t.pendKind else kinds
        pendIrq := if lost then t.pendIrq else irq }
    else
      let b := b.setTask e k { t with
        st := .ready, readySince := c.tick, acKind := kinds, acIrq := irq, atick := c.tick % 2 ^ 32, waited := false
        deadline := if t.dln = 0 then none else some (c.tick + t.dln) }
      reselect c e .activate b

/-- The row TASK_ACTIVATION: all activations that reach the task in this fc act as one (R503, R395). -/
def taskActivation (c : Ctx) (e k : Nat) (b : Block) : Block :=
  let inst := e * 64 + k
  let due := b.pendActs.filter fun p => p.inst == inst && p.due ≤ c.tick
  let b := { b with pendActs := b.pendActs.filter fun p => !(p.inst == inst && p.due ≤ c.tick) }
  let b := due.foldl (fun b p => latchTask p.inst p.kind p.irq b) b
  let acts := b.fc.taskAct.filter fun a => a.1 == inst
  when (!acts.isEmpty && k < b.nt.getD 0 e) (fun b =>
    let b := { b with fc := { b.fc with taskAct := b.fc.taskAct.filter fun a => !(a.1 == inst) } }
    let kinds := acts.foldl (fun m a => m ||| a.2.1) 0
    let irqs := acts.filter fun a => a.2.1 == 4
    activate c e k kinds (irqs.foldl (fun m a => min m a.2.2) 0x3FF * b2n (!irqs.isEmpty)) b) b

/-- A write of TACT (R503): the activation is latched in the next fc. -/
def tactWrite (c : Ctx) (e k : Nat) (b : Block) : Block :=
  if k < b.nt.getD 0 e then { b with pendActs := b.pendActs ++ [⟨c.tick + 1, e * 64 + k, 8, 0⟩] } else b

/-! ### The instructions that end an activation or an exception -/

/-- WAIT issued by task k (R88, R496, R504, R506, R524, R824); the PC is already past it. An activation latched in this fc, where
APEND was 0 before it, then finds the task in WAIT (R824). -/
def waitNow (c : Ctx) (e k : Nat) (b : Block) : Block :=
  let s := b.engSt e
  let t := s.tasks.getD {} k
  let now := t.apend && !(c.start.taskSt e k).apend
  let t0 := t
  let t := if now then { t with st := .wait, apend := false, deadline := none, waited := true, waitAt := some c.tick }
    else if t.apend then
      { t with
        apend := false, st := .ready, readySince := c.tick, acKind := t.pendKind, acIrq := t.pendIrq
        atick := c.tick % 2 ^ 32, deadline := if t.dln = 0 then none else some (c.tick + t.dln)
        waited := false, waitAt := some c.tick }
    else { t with st := .wait, deadline := none, waited := true, waitAt := some c.tick }
  let b := reselect c e .wait ((b.setEng e { s with run := none, sel := none }).setTask e k { t with linFree := true })
  if now then activate c e k t0.pendKind t0.pendIrq b else b

/-- ERET issued by T00 with ACT = 1 (R519, R523): the head of the queue begins where T00, in WAIT, is selected under R498 (R521, log entry
175). -/
def eretNow (c : Ctx) (e : Nat) (b : Block) : Block :=
  let s := b.engSt e
  let k := s.etask
  let t := s.tasks.getD {} k
  let b := if t.st = .held then
      let clamp := !s.epriv && t.ceil
      let b := if clamp then b.violate (some (regionOf e)) .priv 1 else b
      let t := { t with pc := s.epc, priv := s.epriv || t.ceil, st := if s.ewait then .wait else .ready, readySince := c.tick }
      let t := if s.ewait && t.apend then
          { t with
            apend := false, st := .ready, acKind := t.pendKind, acIrq := t.pendIrq, atick := c.tick % 2 ^ 32
            waited := false, deadline := if t.dln = 0 then none else some (c.tick + t.dln) }
        else t
      (b.setTask e k t.ctDirty).noteSet (taskKey e k) 32
    else b
  let s := b.engSt e
  let b := b.setEng e { s with act := false, run := none, sel := none }
  let t0 := b.taskSt e 0
  reselect c e .eret (b.setTask e 0 { t0 with st := .wait, deadline := none })

/-- TCMD RESTART or PARK of the task TSEL names (R496). -/
def tcmd (c : Ctx) (e : Nat) (park : Bool) (b : Block) : Block :=
  let s := b.engSt e
  let k := bits s.tsel 13 8
  let t := s.tasks.getD {} k
  if k = 0 ∨ b.nt.getD 0 e ≤ k ∨ t.st = .run ∨ (park && t.st == .parked) then b
  else
    let t := if park then { t with st := .parked, apend := false, deadline := none }
      else
        { t with
          st := .wait, pc := t.entry, rsmV := false, rsmIdx := 0, apend := false, deadline := none }.ctDirty
    let b := b.setTask e k t
    let b := if park then b else b.noteSet (taskKey e k) 32
    let s := b.engSt e
    reselect c e .activate (b.setEng e { s with sel := if s.sel.any (fun x => x.task == k) then none else s.sel })

/-! ### Engine laws (R87–R98) -/

/-- The lane whose law is task k of engine e (R58): as bound, or through a takeover. -/
def Block.laneOfTask (b : Block) (hw : Hw) (e k : Nat) : Option Nat :=
  (List.range (nEG hw)).find? fun n => b.on (F.LL_CFG_EN n) && b.on (F.LL_CFG_LAW n) &&
    (b.get (F.LL_CFG_ENG n) == e || b.laneEng n == e) && b.get (F.LL_CFG_TASK n) == k

/-- LIN6 at a delivery: whether OVR is not zero, whether a trigger was dropped since the previous delivery. -/
def Block.linFlags (b : Block) (n : Nat) : Nat := b2n (b.get (F.LL_STAT_OVR n) != 0) * 2 + b2n (b.llSt n).tripDrop

/-- LIN0–LIN6 are written and ACTIVATE is presented (R87, R88, R97). -/
def lanePresent (n : Nat) (x : LaneSnap) (b : Block) : Block :=
  let e := b.laneEng n
  let k := b.get (F.LL_CFG_TASK n)
  let flags := b.linFlags n
  let b := b.setLl n { b.llSt n with tripDrop := false }
  let b := b.setTask e k { b.taskSt e k with lin := x.xs ++ [x.last, x.seq, flags], linFree := false }
  latchTask (e * 64 + k) 2 0 b

/-- May a delivery reach the law task now: it is not the second of this fc, and a spare's tasks have begun (R752)? -/
def Block.lawOpen (b : Block) (tick e k : Nat) : Bool :=
  !(b.engSt e).takeAt.any (fun d => tick < d + 2048) && !(b.fc.taskAct.any fun a => a.1 == e * 64 + k && a.2.1 == 2)

/-- May a held snapshot reach the law task now: in the fc after its WAIT, or later while no activation has followed (R98, R505)? -/
def TaskSt.mayPresent (t : TaskSt) (tick : Nat) : Bool :=
  !t.apend && (t.waitAt.any (fun w => w + 1 == tick) || (t.waited && t.waitAt.all (fun w => w < tick)))

/-- The row LANE_ENGINE_DELIVERY (R87, R88, R98): what falls due is delivered where the task has executed WAIT since its last
activation, otherwise held; a held snapshot is delivered in the fc after the task executes WAIT, but to no task that has an activation
pending, which would lose it (R505, log entry 48). -/
def laneEngineDelivery (c : Ctx) (n : Nat) (b : Block) : Block :=
  let e := b.laneEng n
  let k := b.get (F.LL_CFG_TASK n)
  let s := b.llSt n
  let t := b.taskSt e k
  let free := b.lawOpen c.tick e k && t.linFree
  match s.heldSnap with
  | some x =>
    if free && t.mayPresent c.tick then lanePresent n x (b.setLl n { s with heldSnap := none })
    else
      match s.toEngine with
      | [] => b
      | y :: rest =>
        when (y.due ≤ c.tick) (fun b => (b.setLl n { s with toEngine := rest, heldSnap := some y }).bump (F.LL_STAT_OVR n) 1) b
  | none =>
    match s.toEngine with
    | [] => b
    | y :: rest =>
      when (y.due ≤ c.tick) (fun b =>
        if free && t.waited then lanePresent n y (b.setLl n { s with toEngine := rest })
        else b.setLl n { s with toEngine := rest, heldSnap := some y }) b

/-- The values staged in LOUT0–LOUT2 and LOUT4–LOUT7 leave the engine (R91, R92): each as last written, 0 where it never was
(log entry 121). -/
def loutCommit (c : Ctx) (e k n : Nat) (b : Block) : Block :=
  let s := b.llSt n
  let t := b.taskSt e k
  let w (i : Nat) : Nat := (t.lout.getD i {}).d.toNat
  b.setLl n { s with commits := s.commits ++ [⟨e, c.tick + 9, [w 0, w 1, w 2], [w 4, w 5, w 6, w 7]⟩] }

/-! ### Writes of declared engines (R34, R753) -/

def Block.suSt (b : Block) (cl : Nat) : SuSt := b.su.getD {} cl
def Block.setSu (b : Block) (cl : Nat) (v : SuSt) : Block := { b with su := b.su.setD {} cl v }

/-- A write of a declared engine is dropped; the isolation reset follows in the next fc (R753). -/
def zombieWrite (c : Ctx) (e : Nat) (b : Block) : Block :=
  let b := b.violate (some (regionOf e)) .owner 1
  let cl := clusterOf e
  let s := b.suSt cl
  if s.isoDue.any (fun x => x.1 == e) then b else b.setSu cl { s with isoDue := s.isoDue ++ [(e, c.tick + 1)] }

/-- A committed set reaches the lane (R92): one of an engine that is the lane's no longer is dropped and counts OWNER (R29, R34),
and one that arrives under a trip is discarded (R93). -/
def laneCommitArrive (c : Ctx) (n : Nat) (b : Block) : Block :=
  let s := b.llSt n
  match s.commits with
  | [] => b
  | d :: rest =>
    when (d.due ≤ c.tick) (fun b =>
      let b := b.setLl n { s with commits := rest }
      if d.eng != b.laneEng n then zombieWrite c d.eng b
      else if b.laneTripped n then b.bump (F.LL_STAT_TSKIP n) 1
      else b.setLl n { b.llSt n with duties := s.duties ++ [{ d with due := c.tick + 2 }] }) b

end Sys2Proof.Machine
end

