-- ==== Sys2Proof/Machine/Issue.lean ====
section
/-! DEFINITION. Issue of an instruction: when it may issue (R407–R416, R421, R430, R480), what its fetch can raise
(R42, R414, R415, R528, R562), the caches (R422–R427), and how its effect or its exception lands. -/

namespace Sys2Proof.Machine

/-! ### Caches (R422–R427) -/

/-- Put a line first among at most `ways` lines. -/
def useLine (ways n d : Nat) (l : List (Nat × Nat)) : List (Nat × Nat) :=
  ((n, d) :: l.filter fun x => x.1 != n).take ways

def EngSt.dLine (s : EngSt) (g : Nat) : Option Nat := Assoc.find? (s.dcache.getD [] (g % 64)) g

/-- The D-cache holds a granule, as its most recent line (R423). -/
def EngSt.dFill (s : EngSt) (g d : Nat) : EngSt :=
  { s with dcache := s.dcache.setD [] (g % 64) (useLine 4 g d (s.dcache.getD [] (g % 64))) }

/-- Invalidate the D-cache line of an address (R426, R427). -/
def EngSt.dDrop (s : EngSt) (a : Nat) : EngSt :=
  let g := a / 32
  { s with dcache := s.dcache.setD [] (g % 64) ((s.dcache.getD [] (g % 64)).filter fun x => x.1 != g) }

/-- A store updates a line it hits, which is a use of the line (R423). -/
def EngSt.dStore (s : EngSt) (a v : Nat) : Nat → EngSt
  | 0 => s
  | n + 1 =>
    let s := match s.dLine (a / 32) with
      | some d => s.dFill (a / 32) (setBits d (8 * (a % 32) + 7) (8 * (a % 32)) (v % 256))
      | none => s
    EngSt.dStore s (a + 1) (v / 256) n

/-- The I-cache or the line buffer holds the 64-byte line. -/
def EngSt.iHas (s : EngSt) (l : Nat) : Bool :=
  (Assoc.find? (s.icache.getD [] (l % 64)) l).isSome || (Assoc.find? s.lbuf l).isSome

/-- Invalidate the line of an address in the I-cache and the line buffer (R426, R427). -/
def EngSt.iDrop (s : EngSt) (a : Nat) : EngSt :=
  let l := a / 64
  { s with
    icache := s.icache.setD [] (l % 64) ((s.icache.getD [] (l % 64)).filter fun x => x.1 != l)
    lbuf := s.lbuf.filter fun x => x.1 != l }

/-- Read a line's two granules: its data, whether each is uncorrectable. -/
def readLine (c : Ctx) (l : Nat) (b : Block) : Nat × Bool × Bool × Block :=
  let (d0, p0, b) := granRead c c.start (2 * l) b
  let (d1, p1, b) := granRead c c.start (2 * l + 1) b
  (d0 + d1 * 2 ^ 256, p0, p1, b)

/-- The data of a line held in the I-cache or the line buffer. -/
def EngSt.iData (s : EngSt) (l : Nat) : Option Nat :=
  match Assoc.find? (s.icache.getD [] (l % 64)) l with
  | some d => some d
  | none => Assoc.find? s.lbuf l

/-- The next sequential line is requested into the line buffer (R422); no request is made at an absent address, and none is counted
(DESIGN CHOICE, log entry 166). -/
def prefetchLine (c : Ctx) (e l : Nat) (b : Block) : Block :=
  let s := b.engSt e
  if s.iHas l || (memSpace c.hw (l * 64)).isNone then b
  else
    let (d, p0, p1, b) := readLine c l b
    let s := b.engSt e
    if p0 || p1 then b else b.setEng e { s with lbuf := (s.lbuf ++ [(l, d)]).take 2 }

/-- A fetch of a halfword outside the TCMs (R422, R425, R562): is it POISON? -/
def fetchLine (c : Ctx) (e a : Nat) (b : Block) : Bool × Block :=
  let l := a / 64
  let s := b.engSt e
  match s.iData l with
  | some d =>
    let s := { s with
      icache := s.icache.setD [] (l % 64) (useLine 4 l d (s.icache.getD [] (l % 64)))
      lbuf := (l, d) :: (s.lbuf.filter fun x => x.1 == l + 1) }
    (false, prefetchLine c e (l + 1) (b.setEng e s))
  | none =>
    let (d, p0, p1, b) := readLine c l b
    if p0 || p1 then (if a % 64 < 32 then p0 else p1, b)
    else
      let s := b.engSt e
      let s := { s with
        icache := s.icache.setD [] (l % 64) (useLine 4 l d (s.icache.getD [] (l % 64)))
        lbuf := [(l, d)] }
      (false, prefetchLine c e (l + 1) (b.setEng e s))

/-! ### Exceptions at issue -/

/-- An exception: code, EADDR, EINFO, and whether EPC is the next instruction. -/
structure Trap where
  code : Nat
  eaddr : Nat := 0
  einfo : Nat := 0
  next : Bool := false
  deriving DecidableEq, Repr

/-- ILL with its subcause. -/
def ill (sub : Nat) : Trap := { code := excIll, einfo := sub }

/-- What an instruction's effect comes to: done, an exception, an exception n fc after the issue (that of an element, R520), or held at
issue for n fc (0: until what holds it ends). -/
inductive Eff where
  | done (b : Block)
  | trap (x : Trap) (b : Block)
  | late (n : Nat) (x : Trap) (b : Block)
  | hold (n : Nat)

/-- Carry on with the effect, unless an exception was raised. -/
def Eff.andThen (x : Eff) (f : Block → Eff) : Eff :=
  match x with
  | .done b => f b
  | .trap t b => .trap t b
  | .late n t b => .late n t b
  | .hold n => .hold n

/-- The fetch of one halfword at `a` by a task (R42, R414, R415, R528, R562), `second`: it is the second one; a fetch that memory
protection refuses is not judged further (log entry 137). `got`: its granule has been read for this instruction (R566). -/
def fetchHalf (c : Ctx) (e : Nat) (u second got : Bool) (a : Nat) (b : Block) : Eff :=
  let s := b.engSt e
  if !s.mpAllows u 2 a then .trap { code := excAccv, eaddr := a, einfo := 2 + 4 * b2n second } b
  else if !fetchable s.modeP e a then
    .trap { code := excIll, eaddr := a, einfo := 2 } (if absent c.hw (unalias e a) then b.violate (some (regionOf e)) .absent 1 else b)
  else if got then .done b
  else if inItcm e a then
    let (_, bad, b) := memRead c c.start (unalias e a) 2 b
    if bad then .trap { code := excPoison } b else .done b
  else if (memSpace c.hw a).isNone then
    .trap { code := excIll, eaddr := a, einfo := 2 } (b.violate (some (regionOf e)) .absent 1)
  else
    let (bad, b) := fetchLine c e a b
    if bad then .trap { code := excPoison } b else .done b

/-- Does a fetch at privilege `u` wait for a flash command's end (R669)? One that raises ACCV or ILL makes no access, and waits for
none (R414, R415, R528). -/
def Block.fetchHeld (b : Block) (e : Nat) (u : Bool) (a : Nat) : Bool :=
  let s := b.engSt e
  b.on F.FL_STAT_BUSY && s.modeP && inFlash a && s.mpAllows u 2 a && !s.iHas (a / 64)

/-- Does the fetch of an instruction wait so, in either halfword? -/
def Block.insHeld (b : Block) (e : Nat) (u : Bool) (pc len : Nat) : Bool :=
  b.fetchHeld e u pc || (len == 4 && b.fetchHeld e u ((pc + 2) % 2 ^ 32))

/-- A deadline expires and DLM is raised (R506–R508). -/
def deadlineExpiry (c : Ctx) (e k : Nat) (b : Block) : Block :=
  let s := b.engSt e
  let t := s.tasks.getD {} k
  match t.deadline with
  | none => b
  | some d =>
    let due := if t.st = .run then max (d + 1) s.holdEnd ≤ c.tick && !b.fetchHeld e t.priv t.pc else t.st == .ready && d ≤ c.tick
    when (due && !b.engOff c.hw e) (raise c e k excDlm t.pc 0 t.dln) b

/-! ### May the instruction issue? -/

/-- What the scheduler needs to know of an instruction: its length in bytes, the registers it uses (R452), those it only
moves, those it writes, its cost, whether it accesses memory, is a branch, must issue alone (R421), is microcoded, works on
the D-TCM as R480 says, is privileged (R470); a breach of an encoding or register rule (R465, R468) as its subcause; the element count of
a microcoded one (R484, R515). An accumulator counts as register 32 or 33. -/
structure Meta where
  len : Nat := 4
  uses : List Nat := []
  moves : List Nat := []
  writes : List Nat := []
  cost : Nat := 1
  mem : Bool := false
  branch : Bool := false
  alone : Bool := false
  micro : Bool := false
  wide : Bool := false
  priv : Bool := false
  bad : Option Nat := none
  elems : Nat := 0

/-- The number by which the issue rules know an accumulator (R409, R421). -/
def accReg (n : Nat) : Nat := 32 + n

/-- Is a register's result still to come (R410)? -/
def EngSt.pending (s : EngSt) (k r : Nat) : Bool :=
  s.late.any (fun x => x.task == k && x.reg == r) || s.loads.any (fun x => x.task == k && x.reg == r)

/-- May the instruction issue beside the one issued in this fc (R421)? -/
def EngSt.pairs (s : EngSt) (tick : Nat) (m : Meta) : Bool :=
  s.pair.at_ != tick || s.pair.cnt == 0 ||
    (s.modeP && s.pair.cnt == 1 && !s.pair.alone && !s.pair.branch && !m.alone && !m.micro && !(s.pair.mem && m.mem) &&
      !((m.uses ++ m.moves ++ m.writes).any fun r => r != 0 && s.pair.dests.contains r))

/-- May task k issue the instruction in this fc (R407–R410, R416, R421, R430, R440, R442, R480, R499, R507)? -/
def Block.mayIssue (b : Block) (c : Ctx) (e k : Nat) (m : Meta) : Bool :=
  let s := b.engSt e
  let t := s.tasks.getD {} k
  let rs := m.uses ++ m.moves
  let d := b.dozeSt (regionOf e)
  !b.engOff c.hw e && !b.pairStill c.tick e && !(d.asleep && d.wake.all (fun w => c.tick < w + 12)) &&
  s.issueAt ≤ c.tick && s.sel.all (fun x => c.tick < x.yieldAt) &&
  rs.all (fun r => t.avail.getD 0 r ≤ c.tick) && !((rs ++ m.writes).any fun r => r != 0 && s.pending k r) &&
  s.pairs c.tick m && (!m.wide || !s.stores.any (fun x => x.own)) &&
  t.deadline.all (fun d => c.tick ≤ d) && (t.drain.isNone || !s.modeP || (s.stores.isEmpty && s.lastWritten.all (fun w => w + 4 ≤ c.tick))) &&
  !b.insHeld e t.priv t.pc m.len

/-! ### Registers -/

/-- The word of a register: G0 reads 0 with tag INT (R447). -/
def TaskSt.reg (t : TaskSt) (r : Nat) : TWord := if r = 0 then ⟨0, 1⟩ else t.g.getD {} r

/-- The group of a register in the dirty masks (R509). -/
def regGroup (r : Nat) : Nat := r / 8

/-- Mark a group dirty. -/
def TaskSt.dirty (t : TaskSt) (grp : Nat) : TaskSt := { t with ds := t.ds ||| 2 ^ grp, dc := t.dc ||| 2 ^ grp }

/-- Write a register; a write of G0 is discarded (R447, R509). -/
def TaskSt.setReg (t : TaskSt) (r : Nat) (v : TWord) : TaskSt :=
  if r = 0 then t else { t with g := t.g.setD {} r v }.dirty (regGroup r)

def TaskSt.acc (t : TaskSt) (n : Nat) : AccV := if n = 0 then t.acc0 else t.acc1

def TaskSt.setAcc (t : TaskSt) (n : Nat) (v : AccV) : TaskSt :=
  (if n = 0 then { t with acc0 := v } else { t with acc1 := v }).dirty 4

/-- Give register r of a task its result, readable `u` fc after this issue (R409). -/
def wrReg (c : Ctx) (e k r : Nat) (v : TWord) (u : Nat) (b : Block) : Block :=
  let t := b.taskSt e k
  let av : Assoc Nat := if u ≤ 1 ∨ r = 0 then t.avail.erase r else t.avail.insert r (c.tick + u)
  b.setTask e k { t.setReg r v with avail := av }

/-- A result that is written when it arrives, `u` fc after this issue (R410, R411). -/
def wrLate (c : Ctx) (e k r : Nat) (v : TWord) (u : Nat) (b : Block) : Block :=
  let s := b.engSt e
  if r = 0 then b else b.setEng e { s with late := s.late ++ [⟨k, r, v, c.tick + u⟩] }

/-- A result is written when it arrives (R501, R509). -/
def lateWrite (e k r : Nat) (v : TWord) (b : Block) : Block :=
  (b.setTask e k ((b.taskSt e k).setReg r v)).noteSet (taskKey e k) (if r = 0 then 0 else 2 ^ regGroup r)

/-- The results that arrive at the start of an fc (R410, R501). -/
def lateTick (tick : Nat) (b : Block) (e : Nat) : Block :=
  let s := b.engSt e
  let due := s.late.filter fun x => x.due ≤ tick
  let b := b.setEng e { s with late := s.late.filter fun x => !(x.due ≤ tick) }
  due.foldl (fun b x => lateWrite e x.task x.reg x.v b) b

/-- The next instruction issues no earlier than n fc after this one. -/
def setCost (c : Ctx) (e n : Nat) (b : Block) : Block :=
  let s := b.engSt e
  b.setEng e { s with issueAt := max s.issueAt (c.tick + n) }

/-- The task continues at an address. -/
def jump (e k a : Nat) (b : Block) : Block := b.setTask e k { b.taskSt e k with pc := a % 2 ^ 32 }

/-! ### Issue -/

/-- The first register an instruction uses that carries POISON raises POISON (R451). -/
def TaskSt.poisoned (t : TaskSt) (uses : List Nat) : Option Nat := uses.find? fun r => (t.reg r).t == 15

/-- Book the issue: the fc of the next issue, the pair rules, CT dirty (R407, R421, R509). -/
def bookIssue (c : Ctx) (e k : Nat) (m : Meta) (b : Block) : Block :=
  let s := b.engSt e
  let cnt := if s.pair.at_ = c.tick then s.pair.cnt + 1 else 1
  let cost := if s.modeP && !m.alone && !m.micro && cnt == 1 then 0 else if s.modeP then 1 else m.cost
  let b := b.setEng e { s with
    issueAt := c.tick + cost, holdEnd := c.tick + (if m.micro then m.cost else 0)
    pair := ⟨c.tick, cnt, m.writes, m.mem, m.branch, m.alone || m.micro⟩ }
  b.setTask e k { (b.taskSt e k).dirty 5 with drain := none }

/-- A patch word's parity fails at a microstep (R541). -/
def notePatchFail (e : Nat) (x : Trap) (b : Block) : Block :=
  when (x.code == excMchk && x.einfo < 2 ^ 31) (fun b => (b.put (F.UC_STAT_PERR e) 1).bump (F.UC_STAT_PERRC e) 1) b

/-- Raise what an instruction at `pc` raised. -/
def raiseAt (c : Ctx) (e k pc len : Nat) (x : Trap) (b : Block) : Block :=
  let b := notePatchFail e x b
  raise c e k x.code (if x.next then (pc + len) % 2 ^ 32 else pc) x.eaddr x.einfo
    (b.setTask e k { b.taskSt e k with pc := if x.next then (pc + len) % 2 ^ 32 else pc })

/-- The fetch of an instruction: both halfwords of a long one (R464), each granule read once. -/
def fetchAll (c : Ctx) (e : Nat) (u : Bool) (pc len : Nat) (b : Block) : Eff :=
  (fetchHalf c e u false false pc b).andThen fun b =>
    if len = 2 then .done b else fetchHalf c e u true (pc % 32 < 30) ((pc + 2) % 2 ^ 32) b

/-- Can the instruction not continue at the element that RSM names (R515)? -/
def Meta.noResume (m : Meta) (t : TaskSt) : Bool := t.rsmV && (!m.micro || m.elems ≤ t.rsmIdx)

/-- The checks an instruction meets before its own: RSM (R515), encoding and register rules, privilege (R470), POISON (R451). -/
def issueChecks (t : TaskSt) (m : Meta) (b : Block) (clearV : Block → Block) : Eff :=
  if m.noResume t then .trap (ill 4) (clearV b)
  else match m.bad with
    | some sub => .trap (ill sub) b
    | none =>
      if m.priv && t.priv then .trap { code := excPriv } b
      else match t.poisoned m.uses with
        | some r => .trap { code := excPoison, einfo := r * 256 } b
        | none => .done b

/-- The exception of an element is raised in the element's fc (R482, R520). -/
def trapTick (c : Ctx) (b : Block) (e : Nat) : Block :=
  let s := b.engSt e
  match s.trap with
  | none => b
  | some x =>
    if c.tick < x.due then b
    else
      let b := b.setEng e { s with trap := none }
      when (!b.engOff c.hw e && s.run == some x.task) (raiseAt c e x.task x.pc 4 { code := x.code, eaddr := x.eaddr, einfo := x.einfo }) b

/-- Engine e's running task issues an instruction: `body` is its effect, given the task and its own address. -/
def issue (c : Ctx) (e : Nat) (m : Meta) (body : Nat → Nat → Block → Eff) (b : Block) : Block :=
  match (b.engSt e).run with
  | none => b
  | some k =>
    let t := b.taskSt e k
    let pc := t.pc
    when (b.mayIssue c e k m) (fun b0 =>
      let b := bookIssue c e k m b0
      let x := (fetchAll c e t.priv pc m.len b).andThen fun b =>
        (issueChecks t m b fun b => b.setTask e k { b.taskSt e k with rsmV := false }).andThen fun b =>
          body k pc (jump e k (pc + m.len) b)
      match x with
      | .done b => b.setEng e ((b.engSt e).holdTo c.tick k (b.engSt e).holdEnd)
      | .trap x b => raiseAt c e k pc m.len x (b.setEng e { b.engSt e with holdEnd := c.tick })
      | .late n x b =>
        let b := jump e k pc b
        b.setEng e ({ b.engSt e with issueAt := c.tick + n + 1, trap := some ⟨c.tick + n, k, pc, x.code, x.eaddr, x.einfo⟩ }.holdTo
          c.tick k (c.tick + n))
      | .hold n => if n = 0 then b0 else setCost c e n b0) b

end Sys2Proof.Machine
end

