-- ==== Sys2Proof/Machine/Operands.lean ====
section
/-! DEFINITION. Operands and their tags (R446–R456): the tag values, the tag table of R455, G0's pairing (R447), and the
exceptions an operand raises. -/

namespace Sys2Proof.Machine

/-! ### Tag values (R450) -/

namespace Tag
def raw : Nat := 0
def int : Nat := 1
def uns : Nat := 2
def frac : Nat := 3
def fix : Nat := 4
def flt : Nat := 5
def ang : Nat := 6
def time : Nat := 7
def dptr : Nat := 8
def cptr : Nat := 9
def evh : Nat := 10
def bool : Nat := 11
def poison : Nat := 15
end Tag

/-- A tag of the table, neither reserved nor POISON. -/
def plainTag (t : Nat) : Bool := t ≤ 11

/-! ### Operands -/

/-- A register operand: its number, data, tag. -/
structure Opd where
  r : Nat
  d : Nat
  t : Nat
  deriving DecidableEq, Repr

def TaskSt.opd (t : TaskSt) (r : Nat) : Opd := ⟨r, (t.reg r).d.toNat, (t.reg r).t.toNat⟩

def Opd.sgn (o : Opd) : Int := toSigned 32 o.d

/-- TAG for an operand: its register and its tag. -/
def tagTrap (o : Opd) : Trap := { code := excTag, einfo := o.r * 256 + o.t }

/-- A result word. -/
def word (v t : Nat) : TWord := ⟨BitVec.ofNat 32 v, BitVec.ofNat 4 t⟩
def wordI (v : Int) (t : Nat) : TWord := word (ofSigned 32 v) t

/-! ### The tag table (R455) -/

/-- ADD and SUB. -/
def addTags (sub : Bool) (a z : Nat) : Option Nat :=
  if a = z ∧ (a = Tag.int ∨ a = Tag.uns ∨ a = Tag.frac ∨ a = Tag.fix ∨ a = Tag.ang) then some a
  else if a = Tag.time ∧ z = Tag.int then some Tag.time
  else if a = Tag.int ∧ z = Tag.time ∧ !sub then some Tag.time
  else if a = Tag.time ∧ z = Tag.time ∧ sub then some Tag.int
  else if a = Tag.dptr ∧ z = Tag.int then some Tag.dptr
  else if a = Tag.dptr ∧ z = Tag.dptr ∧ sub then some Tag.int
  else if a = Tag.cptr ∧ z = Tag.int then some Tag.cptr
  else none

/-- INT, UNS, FRAC or FIX, both the same: MIN, MAX, DIV and the product pairs of the accumulators. -/
def numTags (a z : Nat) : Option Nat := if a = z ∧ 1 ≤ a ∧ a ≤ 4 then some a else none

/-- MUL. -/
def mulTags (a z : Nat) : Option Nat :=
  if (a = Tag.int ∧ z = Tag.frac) ∨ (a = Tag.frac ∧ z = Tag.int) then some Tag.int else numTags a z

/-- MULH and REM: INT or UNS, both the same. -/
def wholeTags (a z : Nat) : Option Nat := if a = z ∧ (a = Tag.int ∨ a = Tag.uns) then some a else none

/-- AND, OR (`ptr`: DPTR is accepted too), XOR, ANDN. -/
def logicTags (ptr : Bool) (a z : Nat) : Option Nat :=
  if a = z ∧ (a = Tag.raw ∨ a = Tag.int ∨ a = Tag.uns ∨ a = Tag.bool) then some a
  else if a = Tag.raw ∧ (z = Tag.int ∨ z = Tag.uns) then some z
  else if z = Tag.raw ∧ (a = Tag.int ∨ a = Tag.uns) then some a
  else if ptr ∧ ((a = Tag.dptr ∧ (z = Tag.int ∨ z = Tag.raw)) ∨ (z = Tag.dptr ∧ (a = Tag.int ∨ a = Tag.raw))) then some Tag.dptr
  else none

/-- ANDI, ORI, XORI: the immediate acts as the tag of the other operand (R456). -/
def logicImmTags (ptr : Bool) (a : Nat) : Option Nat :=
  if a = Tag.raw ∨ a = Tag.int ∨ a = Tag.uns ∨ a = Tag.bool ∨ (ptr ∧ a = Tag.dptr) then some a else none

/-- CMPEQ, CBEQ, CBNE: any two of the same tag. -/
def eqTags (a z : Nat) : Option Nat := if a = z ∧ plainTag a then some a else none

/-- CMPLT, CBLT, CBGE. -/
def ltTags (a z : Nat) : Option Nat :=
  if a = z ∧ (a = Tag.int ∨ a = Tag.frac ∨ a = Tag.fix ∨ a = Tag.time ∨ a = Tag.flt) then some a else none

/-- CMPLTU, CBLTU, CBGEU. -/
def ltuTags (a z : Nat) : Option Nat :=
  if a = z ∧ (a = Tag.raw ∨ a = Tag.uns ∨ a = Tag.dptr ∨ a = Tag.cptr) then some a else none

/-- Both FLT. -/
def fltTags (a z : Nat) : Option Nat := if a = Tag.flt ∧ z = Tag.flt then some a else none

/-- A pair of operands under the tag table: their tags as they act (R447) and the result's; an operand no partner could make
acceptable is the one reported, otherwise the second. -/
def pairUp (rule : Nat → Nat → Option Nat) (a z : Opd) : Except Trap (Nat × Nat × Nat) :=
  let ta := if a.r = 0 ∧ z.r ≠ 0 ∧ (rule z.t z.t).isSome then z.t else a.t
  let tz := if z.r = 0 ∧ a.r ≠ 0 ∧ (rule a.t a.t).isSome then a.t else z.t
  match rule ta tz with
  | some t => .ok (ta, tz, t)
  | none =>
    if (List.range 12).any (fun x => (rule ta x).isSome) then .error (tagTrap { z with t := tz })
    else .error (tagTrap { a with t := ta })

/-- One operand under the tag table. -/
def single (rule : Nat → Option Nat) (a : Opd) : Except Trap Nat :=
  match rule a.t with
  | some t => .ok t
  | none => .error (tagTrap a)

/-- Accept the tags of a list, giving the same tag. -/
def among (l : List Nat) (a : Nat) : Option Nat := if l.contains a then some a else none

/-- Accept the tags of a list, giving another tag. -/
def amongTo (l : List Nat) (t a : Nat) : Option Nat := if l.contains a then some t else none

/-- Any tag that is neither reserved nor POISON (R453). -/
def anyTag (a : Nat) : Option Nat := if plainTag a then some a else none

/-- An immediate of 11 bits, sign-extended (R467). -/
def imm11 (i : Nat) : Int := toSigned 11 i

/-- An immediate of 8 bits, sign-extended. -/
def imm8 (i : Nat) : Int := toSigned 8 i

/-- A short form's register field names G8–G15. -/
def short (r : Nat) : Nat := 8 + r % 8

end Sys2Proof.Machine
end

