-- ==== Sys2Proof/Machine/Alu.lean ====
section
/-! DEFINITION. Arithmetic on tagged words: results by tag (R455–R457, R466–R467, R471–R477), and the shapes of the
register-to-register instructions. -/

namespace Sys2Proof.Machine

/-! ### Results by tag -/

/-- A result of tag t: FRAC and FIX are clamped, every other tag wraps (R450, R457). -/
def byTag (t : Nat) (v : Int) : TWord :=
  if t = Tag.frac ∨ t = Tag.fix then wordI (clampInt (-(2 ^ 31)) (2 ^ 31 - 1) v) t
  else wordI v t

/-- The number an operand stands for under a tag: unsigned for UNS, otherwise signed. -/
def numOf (t d : Nat) : Int := if t = Tag.uns then (d : Int) else toSigned 32 d

/-- MIN or MAX. -/
def minMax (mx : Bool) (t a z : Nat) : TWord :=
  let less := numOf t a < numOf t z
  word (if less = mx then z else a) t

inductive LogicOp where
  | and | or | xor | andn
  deriving DecidableEq, Repr

/-- AND, OR, XOR, ANDN; BOOL acts on bit 0. -/
def logic (op : LogicOp) (t a z : Nat) : TWord :=
  let v := match op with
    | .and => a &&& z
    | .or => a ||| z
    | .xor => a ^^^ z
    | .andn => a &&& (z ^^^ 0xFFFFFFFF)
  word (if t = Tag.bool then v % 2 else v) t

/-- NOT: for BOOL 1 − a. -/
def logicNot (t a : Nat) : TWord := if t = Tag.bool then word (1 - a % 2) t else word (a ^^^ 0xFFFFFFFF) t

inductive ShiftOp where
  | sll | srl | sra | ror
  deriving DecidableEq, Repr

/-- The kinds of SHI. -/
def shiftKind : Nat → ShiftOp
  | 0 => .sll
  | 1 => .srl
  | 2 => .sra
  | _ => .ror

/-- A shift by n, 0 to 63 (R467). -/
def shift (op : ShiftOp) (t a n : Nat) : TWord :=
  match op with
  | .sll => if 32 ≤ n then word 0 t else byTag t (numOf t a * 2 ^ n)
  | .srl => word (if 32 ≤ n then 0 else a / 2 ^ n) t
  | .sra => wordI (toSigned 32 a / 2 ^ n) t
  | .ror => let k := n % 32; word (a / 2 ^ k + a % 2 ^ k * 2 ^ (32 - k)) t

/-- The tags a shift accepts. -/
def shiftTags : ShiftOp → List Nat
  | .sll => [Tag.raw, Tag.int, Tag.uns, Tag.frac, Tag.fix]
  | .srl => [Tag.raw, Tag.uns]
  | .sra => [Tag.int, Tag.frac, Tag.fix]
  | .ror => [Tag.raw, Tag.uns]

/-- Leading zeros. -/
def clz (a : Nat) : Nat := if a = 0 then 32 else 31 - a.log2

/-- Equality of two operands of one tag (R471). -/
def eqVals (t a z : Nat) : Bool := if t = Tag.flt then F32.eq a z else a == z

/-- Signed less-than of two operands of one tag (R471). -/
def ltVals (t a z : Nat) : Bool :=
  if t = Tag.flt then F32.lt a z
  else if t = Tag.time then toSigned 32 (ofSigned 32 ((a : Int) - z)) < 0
  else toSigned 32 a < toSigned 32 z

/-- The product of a pair, low word (R455, R457). -/
def mulLow (ta tz t a z : Nat) : TWord :=
  let p := numOf ta a * numOf tz z
  if t = Tag.frac then byTag t (roundShr p 31)
  else if t = Tag.fix then byTag t (roundShr p 16)
  else if ta ≠ tz then byTag t (roundShr p 31)
  else byTag t p

/-- The product of a pair, high word. -/
def mulHigh (t a z : Nat) : TWord := wordI (numOf t a * numOf t z / 2 ^ 32) t

/-- Fraction bits of a number tag. -/
def fracBits (t : Nat) : Nat := if t = Tag.frac then 31 else if t = Tag.fix then 16 else 0

/-- The quotient, truncated towards zero (R472); the divisor is not 0. -/
def quotient (t a z : Nat) : TWord := byTag t (Int.tdiv (numOf t a * 2 ^ fracBits t) (numOf t z))

/-- The remainder: the sign of the dividend (R472). -/
def remainder (t a z : Nat) : TWord := byTag t (Int.tmod (numOf t a) (numOf t z))

/-- The square root (R473). -/
def root (t a : Nat) : TWord :=
  if t = Tag.flt then word (F32.sqrt a) t
  else
    let v := numOf t a
    if v < 0 then word 0 t else word (isqrt (v.toNat * 2 ^ fracBits t)) t

/-- n × 2^−k to nearest, halves away from zero. -/
def roundAway (v : Int) (k : Nat) : Int :=
  if k = 0 then v
  else
    let m := (v.natAbs + 2 ^ (k - 1)) / 2 ^ k
    if v < 0 then -(m : Int) else m

/-- The least and greatest number of a tag. -/
def lowest (t : Nat) : Int := if t = Tag.uns then 0 else -(2 ^ 31)
def highest (t : Nat) : Int := if t = Tag.uns then 2 ^ 32 - 1 else 2 ^ 31 - 1

/-- CVT (R475). -/
def convert (t a d : Nat) : TWord :=
  if t = d then word a t
  else if d = Tag.flt then word (F32.ofInt (numOf t a) (-(fracBits t : Int))) d
  else if t = Tag.flt then wordI (clampInt (lowest d) (highest d) (F32.toFixed a (fracBits d))) d
  else
    let v := roundAway (numOf t a * 2 ^ fracBits d) (fracBits t)
    wordI (clampInt (lowest d) (highest d) v) d

/-! ### Accumulators (R448, R476, R477) -/

/-- The exact product of a pair of tag t. -/
def product (t a z : Nat) : Int := numOf t a * numOf t z

/-- ACC ± p, modulo 2^80; an accumulator of kind NONE takes the pair's kind. -/
def AccV.plus (x : AccV) (t : Nat) (p : Int) : AccV := ⟨BitVec.ofInt 80 (x.v.toNat + p), t⟩

/-- The accumulator as a number of its kind. -/
def AccV.num (x : AccV) : Int := if x.kind = Tag.uns then x.v.toNat else x.v.toInt

/-- RDA with scale s (R477). -/
def AccV.readOut (x : AccV) (s : Int) : TWord :=
  if x.kind = 0 then word 0 Tag.int
  else
    let k : Int := (if x.kind = Tag.frac then 31 else if x.kind = Tag.fix then 16 else 0) - s
    let v := if 0 < k then roundShr x.num k.toNat else x.num * 2 ^ (-k).toNat
    wordI (clampInt (lowest x.kind) (highest x.kind) v) x.kind

/-! ### Instruction shapes -/

/-- The effect of an instruction that computes a result: written `u` fc after issue. -/
def give (c : Ctx) (e k rd u : Nat) (r : Except Trap TWord) (b : Block) : Eff :=
  match r with
  | .ok v => .done (wrReg c e k rd v u b)
  | .error x => .trap x b

/-- The same, written when it arrives (R410). -/
def giveLate (c : Ctx) (e k rd u : Nat) (r : Except Trap TWord) (b : Block) : Eff :=
  match r with
  | .ok v => .done (wrLate c e k rd v u b)
  | .error x => .trap x b

/-- An instruction of two operands under a rule of the tag table. -/
def opRR (c : Ctx) (e rd ra rb len u : Nat) (rule : Nat → Nat → Option Nat) (f : Nat → Nat → Nat → Nat → Nat → TWord)
    (b : Block) : Block :=
  issue c e { len := len, uses := [ra, rb], writes := [rd] } (fun k _ b =>
    let t := b.taskSt e k
    give c e k rd u ((pairUp rule (t.opd ra) (t.opd rb)).map fun x => f x.1 x.2.1 x.2.2 (t.opd ra).d (t.opd rb).d) b) b

/-- An instruction of one operand. -/
def opR (c : Ctx) (e rd ra len : Nat) (bad : Option Nat) (rule : Nat → Option Nat) (f : Nat → Nat → Nat → TWord)
    (b : Block) : Block :=
  issue c e { len := len, uses := [ra], writes := [rd], bad := bad } (fun k _ b =>
    let o := (b.taskSt e k).opd ra
    give c e k rd 1 ((single rule o).map fun t => f o.t t o.d) b) b

/-- An instruction of two FLT operands whose result comes late. -/
def opFlt (c : Ctx) (e rd ra rb : Nat) (f : Nat → Nat → Nat) (b : Block) : Block :=
  issue c e { uses := [ra, rb], writes := [rd] } (fun k _ b =>
    let t := b.taskSt e k
    giveLate c e k rd 3 ((pairUp fltTags (t.opd ra) (t.opd rb)).map fun _ => word (f (t.opd ra).d (t.opd rb).d) Tag.flt) b) b

/-- ADD or SUB. -/
def addSub (c : Ctx) (sub : Bool) (e rd ra rb len : Nat) (b : Block) : Block :=
  opRR c e rd ra rb len 1 (addTags sub) (fun _ _ t x y =>
    let v := if sub then numOf t x - numOf t y else numOf t x + numOf t y
    byTag t v) b

/-- ADDI (R456). -/
def addImm (c : Ctx) (e rd ra len : Nat) (i : Int) (b : Block) : Block :=
  opR c e rd ra len none (fun a => addTags false a (if a = Tag.uns then Tag.uns else Tag.int)) (fun _ t x => byTag t (numOf t x + i)) b

/-- MIN or MAX. -/
def minMaxOp (c : Ctx) (mx : Bool) (e rd ra rb len : Nat) (b : Block) : Block :=
  opRR c e rd ra rb len 1 numTags (fun _ _ t x y => minMax mx t x y) b

/-- AND, OR, XOR, ANDN. -/
def logicOp (c : Ctx) (op : LogicOp) (e rd ra rb len : Nat) (b : Block) : Block :=
  opRR c e rd ra rb len 1 (logicTags (op == .and || op == .or)) (fun _ _ t x y => logic op t x y) b

/-- ANDI, ORI, XORI. -/
def logicImm (c : Ctx) (op : LogicOp) (e rd ra : Nat) (i : Int) (b : Block) : Block :=
  opR c e rd ra 4 none (logicImmTags (op == .and || op == .or)) (fun _ t x => logic op t x (ofSigned 32 i)) b

/-- A shift by register; the amount is INT or UNS. -/
def shiftReg (c : Ctx) (op : ShiftOp) (e rd ra rb : Nat) (b : Block) : Block :=
  issue c e { uses := [ra, rb], writes := [rd] } (fun k _ b =>
    let t := b.taskSt e k
    let a := t.opd ra
    let n := t.opd rb
    give c e k rd 1 (do
      let ta ← single (among (shiftTags op)) a
      let _ ← single (among [Tag.int, Tag.uns]) n
      pure (shift op ta a.d (n.d % 64))) b) b

/-- A shift by an immediate amount. -/
def shiftImm (c : Ctx) (kind n e rd ra len : Nat) (bad : Option Nat) (b : Block) : Block :=
  opR c e rd ra len bad (among (shiftTags (shiftKind kind))) (fun _ t x => shift (shiftKind kind) t x (n % 32)) b

/-- A product, readable after 2 fc. -/
def mulOp (c : Ctx) (e rd ra rb len : Nat) (b : Block) : Block :=
  opRR c e rd ra rb len 2 mulTags (fun ta tz t x y => mulLow ta tz t x y) b

inductive MacOp where
  | add | sub | set
  deriving DecidableEq, Repr

/-- MAC, MSU, MACZ (R476). -/
def macOp (c : Ctx) (op : MacOp) (e acc ra rb len : Nat) (b : Block) : Block :=
  issue c e { len := len, uses := [ra, rb], moves := if op = .set then [] else [accReg acc], writes := [accReg acc] } (fun k _ b =>
    let t := b.taskSt e k
    let a := t.opd ra
    let z := t.opd rb
    match pairUp numTags a z with
    | .error x => .trap x b
    | .ok (_, _, g) =>
      let x := t.acc acc
      let p := product g a.d z.d
      if op != .set && x.kind != 0 && x.kind != g then .trap (tagTrap { a with t := g }) b
      else
        let v := match op with
          | .add => x.plus g p
          | .sub => x.plus g (-p)
          | .set => ({} : AccV).plus g p
        .done (b.setTask e k (t.setAcc acc v))) b

end Sys2Proof.Machine
end

