-- ==== Sys2Proof/Machine/Spool.lean ====
section
/-! DEFINITION. The spool manager (spec/21): drives, NVMe commands, spool addresses, jobs and extents, read streams. -/

namespace Sys2Proof.Machine

def Block.dmSt (b : Block) (n : Nat) : DmSt := b.dm.getD {} n
def Block.setDm (b : Block) (n : Nat) (v : DmSt) : Block := { b with dm := b.dm.setD {} n v }

/-! ### Drives (R733, R735, R741) -/

/-- A drive enters a state; each change raises an edge (R733). -/
def peEnter (c : Ctx) (n st : Nat) (b : Block) : Block :=
  if b.get (F.PE_STAT_STATE n) = st then b else raiseEdge c (0x060 + n) (b.put (F.PE_STAT_STATE n) st)

/-- Issue an NVMe command: its number, the new state. -/
def nvIssue (c : Ctx) (drive : Nat) (kind : NvKind) (addr len : Nat) (b : Block) : Nat × Block :=
  let s := b.sp
  (s.nextId, { b with sp := { s with nv := s.nv ++ [⟨s.nextId, drive, c.tick, kind, addr, len⟩], nextId := s.nextId + 1 } })

/-- Mark a block of a channel's stream as arrived. -/
def blockReady (ch blk : Nat) (bad : Bool) (b : Block) : Block :=
  let s := b.dmSt ch
  b.setDm ch { s with stream := s.stream.map fun x => if x.blk = blk ∧ !x.ready then { x with ready := true, bad := bad } else x }

/-- A WRITE's or a COMMIT's command has ended. -/
def hostCmdEnd (id : Nat) (failed : Bool) (b : Block) : Block :=
  let h := b.hp
  { b with hp := { h with
      writes := h.writes.map fun w => if w.cmds.contains id then { w with cmds := w.cmds.erase id, failed := w.failed || failed } else w
      commits := h.commits.map fun w => if w.cmds.contains id then { w with cmds := w.cmds.erase id, failed := w.failed || failed } else w } }

/-- An outstanding command ends, well or badly (R603, R735). -/
def nvEnd (x : NvCmd) (failed : Bool) (b : Block) : Block :=
  let b := { b with sp := { b.sp with nv := b.sp.nv.filter fun y => y.id != x.id } }
  match x.kind with
  | .read ch blk => if failed then blockReady ch blk true b else b
  | .write _ _ => hostCmdEnd x.id failed b
  | .flush _ _ => hostCmdEnd x.id failed b
  | .trim => b
  | .smart => b
  | .admin => b

/-- Every outstanding command of a drive ends badly. -/
def driveEnds (n : Nat) (b : Block) : Block := (b.sp.nv.filter fun x => x.drive == n).foldl (fun b x => nvEnd x true b) b

/-- The row NVME_COMPLETION (R735). -/
def nvComplete (c : Ctx) (id : Nat) (ok : Bool) (b : Block) : Block :=
  match b.sp.nv.find? (fun x => x.id == id) with
  | none => b
  | some x =>
    let b := nvEnd x (!ok) b
    if ok then b else raiseEdge c (0x062 + x.drive) (b.bump (F.PE_CNT_CERR x.drive) 1)

/-- Has an NVMe command been outstanding for its time (R735)? -/
def Ctx.nvLate (c : Ctx) (x : NvCmd) : Bool := x.at_ + max 1 (c.start.get F.SP_CFG_TMO) * 2 ^ 20 ≤ c.tick

/-- The row NVME_TIMEOUT (R735): the command's time ends in this fc; a completion of this fc is still taken. -/
def nvTimeout (c : Ctx) (id : Nat) (b : Block) : Block :=
  when (b.sp.nv.any fun x => x.id == id && c.nvLate x) (fun b => { b with sp := { b.sp with lapse := id :: b.sp.lapse } }) b

/-- A command that its fc of expiry has not completed puts its drive in FAILED (R735). -/
def nvExpire (c : Ctx) (b : Block) (id : Nat) : Block :=
  match b.sp.nv.find? (fun x => x.id == id) with
  | none => b
  | some x => driveEnds x.drive (peEnter c x.drive 3 (raiseEdge c (0x062 + x.drive) (b.bump (F.PE_CNT_TOUT x.drive) 1)))

/-- The spool manager at the end of an fc: what has lapsed expires, the oldest command first. -/
def spEndFc (c : Ctx) (b : Block) : Block :=
  let l := b.sp.lapse.reverse
  l.foldl (nvExpire c) { b with sp := { b.sp with lapse := [] } }

/-- The drive's initialisation begins (R733). -/
def driveInit (c : Ctx) (n : Nat) (b : Block) : Block :=
  (nvIssue c n .admin 0 0 (peEnter c n 1 (driveEnds n b))).2

/-- The row SP_DRIVE_LINK_UP. -/
def driveLinkUp (c : Ctx) (n gen width : Nat) (b : Block) : Block :=
  when (bit (peMask c.hw) n && b.get (F.PE_STAT_STATE n) == 0) (fun b =>
    driveInit c n (((b.put (F.PE_STAT_GEN n) gen).put (F.PE_STAT_WIDTH n) width).put F.PW_PLL_P 1)) b

/-- The row SP_DRIVE_READY: the drive meets the support table, or not. -/
def driveReady (c : Ctx) (n : Nat) (ok : Bool) (cap : Nat) (lba4k : Bool) (b : Block) : Block :=
  when (bit (peMask c.hw) n && b.get (F.PE_STAT_STATE n) == 1) (fun b =>
    let b := { b with sp := { b.sp with nv := b.sp.nv.filter fun x => !(x.drive == n && x.kind == .admin) } }
    if ok then peEnter c n 2 ((b.wr (R.PE_CAP n) cap).put (F.PE_STAT_LBA4K n) (b2n lba4k)) else peEnter c n 4 b) b

/-- The link to a drive goes down (R733, R771). -/
def driveLinkDown (c : Ctx) (n : Nat) (b : Block) : Block :=
  when (bit (peMask c.hw) n && b.get (F.PE_STAT_STATE n) != 0) (fun b => driveEnds n (peEnter c n 0 b)) b

/-- A write of SP_PEn_CTL (R733). -/
def peCtlWrite (c : Ctx) (ag : Agent) (l : Loc) (a v : Nat) (b : Block) : Block :=
  let b := b.plainWrite ag l a v
  let st := b.get (F.PE_STAT_STATE l.inst)
  if bit v 0 ∧ (st = 2 ∨ st = 3 ∨ st = 4) then driveInit c l.inst b else b

/-- The row SP_HEALTH_POLL (R741). -/
def healthPoll (c : Ctx) (n cw pused temp : Nat) (b : Block) : Block :=
  when (bit (peMask c.hw) n && b.get (F.PE_STAT_STATE n) == 2 && (b.sp.polled.find? n).all (fun t => t + 2 ^ 30 ≤ c.tick)) (fun b =>
    let old := b.get (F.PE_HLTH_CW n)
    let b := { b with sp := { b.sp with polled := b.sp.polled.insert n c.tick } }
    let b := b.wr (R.PE_HLTH n) (cw % 256 * 2 ^ 24 + pused % 256 * 65536 + temp % 65536)
    if cw % 256 ≠ 0 ∧ cw % 256 ≠ old then raiseEdge c (0x064 + n) b else b) b

/-! ### Spool addresses (R734) -/

def Block.peCap (b : Block) (n : Nat) : Nat := b.rd (R.PE_CAP n) * 4096

/-- Do the addresses stripe over both drives? -/
def Block.striped (b : Block) (hw : Hw) : Bool := b.on F.SP_CFG_STRIPE && peMask hw == 3

/-- The size of a striped spool. -/
def Block.stripeSize (b : Block) : Nat := min (2 * min (b.peCap 0) (b.peCap 1) / 131072 * 131072) (2 ^ 44)

/-- Drive and drive address of a spool address within the spool. -/
def Block.spoolMap (b : Block) (hw : Hw) (a : Nat) : Option (Nat × Nat) :=
  if b.striped hw then
    if a < b.stripeSize then some (a / 2 ^ 17 % 2, a / 2 ^ 18 * 2 ^ 17 + a % 2 ^ 17) else none
  else
    let n := a / 2 ^ 43
    if bit (peMask hw) n ∧ n < 2 ∧ a % 2 ^ 43 < min (b.peCap n) (2 ^ 43) then some (n, a % 2 ^ 43) else none

/-- The spool's size in bytes, as HELLO gives it. -/
def Block.spoolSize (b : Block) (hw : Hw) : Nat :=
  if b.striped hw then b.stripeSize
  else (List.range 2).foldl (fun s n => if bit (peMask hw) n then s + min (b.peCap n) (2 ^ 43) else s) 0

/-! ### Jobs (R736, R737) -/

/-- The extents of a job: start and length in bytes. -/
def Block.extents (b : Block) (j : Nat) : List (Nat × Nat) :=
  (List.range (min 16 (b.get (F.JOB_CTL_NX j)))).map fun k => (b.rd (R.JOB_XS j k) * 4096, b.rd (R.JOB_XL j k) * 4096)

/-- The bytes a job's extents hold. -/
def extentBytes (l : List (Nat × Nat)) : Nat := l.foldl (fun s x => s + x.2) 0

/-- The spool address of an offset of a job: the first extent whose cumulative length exceeds it. -/
def extentAddr : List (Nat × Nat) → Nat → Option Nat
  | [], _ => none
  | (s, n) :: t, o => if o < n then some (s + o) else extentAddr t (o - n)

/-- Does an extent lie within the spool? -/
def Block.inSpool (b : Block) (hw : Hw) (s n : Nat) : Bool :=
  n == 0 || ((b.spoolMap hw s).isSome && (b.spoolMap hw (s + n - 1)).isSome &&
    (b.striped hw || s / 2 ^ 43 == (s + n - 1) / 2 ^ 43))

/-- The drives that hold a job. -/
def Block.jobDrives (b : Block) (hw : Hw) (j : Nat) : List Nat :=
  (List.range 2).filter fun d => (b.extents j).any fun x =>
    x.2 != 0 && (if b.striped hw then x.1 / 2 ^ 17 % 2 == d || x.1 / 2 ^ 17 != (x.1 + x.2 - 1) / 2 ^ 17
      else x.1 / 2 ^ 43 == d || (x.1 + x.2 - 1) / 2 ^ 43 == d)

/-- The bytes of drive d below a spool address (R734). -/
def driveBelow (striped : Bool) (d a : Nat) : Nat :=
  if striped then a / 2 ^ 18 * 2 ^ 17 + min (2 ^ 17) (a % 2 ^ 18 - d * 2 ^ 17) else min (2 ^ 43) (a - d * 2 ^ 43)

/-- What a job's extents take on the drives: drive, drive address, bytes. -/
def Block.jobSpans (b : Block) (hw : Hw) (j : Nat) : List (Nat × Nat × Nat) :=
  (List.range 2).flatMap fun d => (b.extents j).filterMap fun x =>
    let lo := driveBelow (b.striped hw) d x.1
    let hi := driveBelow (b.striped hw) d (x.1 + x.2)
    if lo < hi then some (d, lo, hi - lo) else none

/-- Dataset Management commands deallocate a job's extents, one for each span on a drive that is READY (R737, log entry 32). -/
def jobTrim (c : Ctx) (j : Nat) (b : Block) : Block :=
  ((b.jobSpans c.hw j).filter fun x => b.get (F.PE_STAT_STATE x.1) == 2).foldl
    (fun b x => (nvIssue c x.1 .trim x.2.1 x.2.2 b).2) b

/-- A write of SP_JOBj_CTL (R737). -/
def jobCtlWrite (c : Ctx) (l : Loc) (a v : Nat) (b : Block) : Block :=
  let j := l.inst
  let old := b.get (F.JOB_CTL_STATE j)
  let want := bits v 31 30
  let nx := bits v 4 0
  let b := b.noteWrite l a v
  let b := if bit v 28 ∧ bits (b.fc.hwSet.getD 0 a) 28 28 = 0 then b.put (F.JOB_CTL_JERR j) 0 else b
  let b := if old = 0 then b.put (F.JOB_CTL_NX j) nx
    else if nx ≠ b.get (F.JOB_CTL_NX j) then b.flag (F.JOB_CTL_JERR j) else b
  if want = old then b
  else if old = 0 ∧ want = 1 then
    if 1 ≤ nx ∧ nx ≤ 16 ∧ (b.extents j).all (fun x => b.inSpool c.hw x.1 x.2) then b.put (F.JOB_CTL_STATE j) 1
    else b.flag (F.JOB_CTL_JERR j)
  else if want = 0 ∧ old ≠ 0 then
    (if bit v 29 then jobTrim c j b else b).put (F.JOB_CTL_STATE j) 0
  else b.flag (F.JOB_CTL_JERR j)

/-- A write of an extent register (R737). -/
def jobExtentWrite (ag : Agent) (l : Loc) (a v : Nat) (b : Block) : Block :=
  if b.get (F.JOB_CTL_STATE l.inst) = 0 then b.plainWrite ag l a v else (b.noteWrite l a v).flag (F.JOB_CTL_JERR l.inst)

/-- A read of SP_JOBj_LENL snapshots LENH (R16). -/
def jobLenRead (c : Ctx) (j : Nat) (b : Block) : Nat × Block :=
  let n := c.start.jobLen.getD 0 j
  (n % 2 ^ 32, b.wr (R.JOB_LENH j) (n / 2 ^ 32))

/-! ### Read streams (R738, R739) -/

/-- Blocks per stream. -/
def Block.streamNB (b : Block) : Nat :=
  let n := b.get F.SP_CFG_NB
  if 2 ≤ n ∧ n ≤ 4 then n else 4

/-- Request a block: a block the spool cannot give is there at once, and bad (R603). -/
def blockRequest (c : Ctx) (ch blk : Nat) (b : Block) : StreamBlk × Block :=
  match b.spoolMap c.hw (blk * 65536) with
  | some (d, a) =>
    if b.get (F.PE_STAT_STATE d) = 2 then (⟨blk, false, false⟩, (nvIssue c d (.read ch blk) a 65536 b).2) else (⟨blk, true, true⟩, b)
  | none => (⟨blk, true, true⟩, b)

/-- The stream moves to a block: what lies before it is freed, what is missing after it is requested. -/
def streamSeek (c : Ctx) (ch blk : Nat) (b : Block) : Block :=
  let old := (b.dmSt ch).stream
  let keep := if old.any (fun x => x.blk == blk) then old else []
  let (l, b) := (List.range b.streamNB).foldl (fun (acc : List StreamBlk × Block) k =>
    let n := (blk + k) % 2 ^ 28
    match keep.find? (fun x => x.blk == n) with
    | some x => (acc.1 ++ [x], acc.2)
    | none =>
      let (x, b) := blockRequest c ch n acc.2
      (acc.1 ++ [x], b)) ([], b)
  b.setDm ch { b.dmSt ch with stream := l }

/-- Where a channel's stream holds a block (the slot is the model's choice, log entry 30). -/
def Block.streamAddr (b : Block) (ch blk : Nat) : Nat :=
  b.get (F.SP_RB_BASE (ch / 32)) * 2 ^ 18 + 0x40000 * (ch % 8) + blk % b.streamNB * 65536

/-- The row SP_BLOCK_ARRIVAL: the block's bytes, the first in the lowest bits; the spool manager's writes are judged as the host
port's are (log entry 30). -/
def blockArrival (c : Ctx) (ch blk data : Nat) (b : Block) : Block :=
  when ((b.dmSt ch).stream.any fun x => x.blk == blk && !x.ready) (fun b =>
    let b := { b with sp := { b.sp with nv := b.sp.nv.filter fun x => x.kind != .read ch blk } }
    let g := b.streamAddr ch blk / 32
    let b := (List.range 2048).foldl (fun b i => granStore c .host (g + i) (bits data (256 * i + 255) (256 * i)) false b) b
    blockReady ch blk false b) b

/-- Every stream is invalidated (R739). -/
def streamsDrop (b : Block) : Block :=
  b.dm.foldl (fun b (n, s) => b.setDm n { s with stream := [] }) b

end Sys2Proof.Machine
end

