-- ==== Sys2Proof/Machine/Dma.lean ====
section
/-! DEFINITION. DMA channels (spec/16): states, descriptors, pacing, hand-back.  The movement of an element is in
Machine/DmaElement.lean. -/

namespace Sys2Proof.Machine

def dmRunIn (n : Nat) : Input := ⟨.dm, n, 0⟩
def dmHaltIn (n : Nat) : Input := ⟨.dm, n, 1⟩

/-- STATE: 0 IDLE, 1 RUNNING, 2 PACED, 3 HALTED. -/
def Block.dmState (b : Block) (n : Nat) : Nat := b.get (F.DM_STAT_STATE n)

/-- Is the channel a spool-port channel (R590)? -/
def dmSpool (hw : Hw) (n : Nat) : Bool := peMask hw != 0 && n % 32 < 8

/-! ### Pacing (R604) -/

/-- The level a channel follows. -/
def Block.dmLevel (b : Block) (n : Nat) : Nat :=
  let p := b.get (F.DM_CFG_PINST n)
  if b.get (F.DM_CFG_PKIND n) = 1 then (b.adSt p).fifo.length
  else (b.rd (R.HC_WCOL p) + 2 ^ 32 - b.rd (R.HC_RCOL p)) % 2 ^ 32

def Block.dmMayRun (b : Block) (n : Nat) : Bool :=
  let k := b.get (F.DM_CFG_PKIND n)
  k == 0 || (if k = 1 then b.get (F.DM_PACE_PSTART n) ≤ b.dmLevel n else b.dmLevel n ≤ b.get (F.DM_PACE_PSTART n))

def Block.dmMustPause (b : Block) (n : Nat) : Bool :=
  let k := b.get (F.DM_CFG_PKIND n)
  k != 0 && (if k = 1 then b.dmLevel n ≤ b.get (F.DM_PACE_PSTOP n) else b.get (F.DM_PACE_PSTOP n) ≤ b.dmLevel n)

/-! ### RUN, HALT, ABORT (R606, R607) -/

/-- Would a RUN from IDLE be refused? -/
def Block.dmBadCfg (b : Block) (hw : Hw) (n : Nat) : Bool :=
  let base := b.rd (R.DM_RBASE n)
  let last := base + (b.get (F.DM_RLEN_RLEN n) + 1) * 32 - 1
  let k := b.get (F.DM_CFG_PKIND n)
  let p := b.get (F.DM_CFG_PINST n)
  let start := b.get (F.DM_PACE_PSTART n)
  let stop := b.get (F.DM_PACE_PSTOP n)
  let ring := match memSpace hw base with
    | none => true
    | some .flash => true
    | some (.tag _) => true
    | some x => memSpace hw last != some x
  ring || k == 3 || (k == 1 && (nAD hw ≤ p || start ≤ stop)) || (k == 2 && stop ≤ start)

/-- The channel pauses in this fc (R605). -/
def dmPause (c : Ctx) (n : Nat) (b : Block) : Block :=
  (b.setDm n { b.dmSt n with fresh := true, pauseAt := some c.tick }).put (F.DM_STAT_STATE n) 2

/-- RUN takes effect. -/
def dmRun (c : Ctx) (n : Nat) (b : Block) : Block :=
  let s := b.dmSt n
  match b.dmState n with
  | 0 =>
    if b.dmBadCfg c.hw n then b.flag (F.DM_STAT_CFGERR n)
    else (b.setDm n { elemAt := s.elemAt }).put (F.DM_STAT_STATE n) 1
  | 3 =>
    if s.desc.isSome ∧ !s.fin ∧ !c.start.dmMayRun n then dmPause c n b
    else (b.setDm n { s with fresh := true, pauseAt := none }).put (F.DM_STAT_STATE n) 1
  | _ => (b.setDm n { s with rpWas := b.on (F.DM_STAT_RPEND n) }).put (F.DM_STAT_RPEND n) 1

/-- The RUN of this fc is discarded (R606). -/
def dmUndoRun (c : Ctx) (n : Nat) (b : Block) : Block :=
  let st := c.start.dmState n
  if st = 0 ∨ st = 3 then
    ((b.setDm n (c.start.dmSt n)).put (F.DM_STAT_STATE n) st).unflag c (F.DM_STAT_CFGERR n)
  else b.put (F.DM_STAT_RPEND n) (b2n (b.dmSt n).rpWas)

/-- HALT takes effect: at the end of the element in progress, if there is one (R606). -/
def dmHalt (c : Ctx) (n : Nat) (b : Block) : Block :=
  let b := if b.fc.latched.any (fun a => a.input == dmRunIn n && a.done) then dmUndoRun c n b else b
  if b.dmState n = 1 ∧ (b.dmSt n).move.isSome then b.setDm n { b.dmSt n with halt := true }
  else if b.dmState n = 1 ∨ b.dmState n = 2 then
    (b.setDm n { b.dmSt n with pauseAt := none }).put (F.DM_STAT_STATE n) 3
  else b

/-- ABORT: a descriptor in use is handed back with ABORT. -/
def dmAbort (n : Nat) (b : Block) : Block :=
  let s := b.dmSt n
  if b.dmState n = 0 then b
  else if s.desc.isSome then b.setDm n { s with acc := max s.acc 4, fin := true, stop := true, pauseAt := none }
  else b.put (F.DM_STAT_STATE n) 0

/-- The rows DMA_RUN and DMA_HALT: the action latched in this fc. -/
def dmRunAct (c : Ctx) (n : Nat) (b : Block) : Block :=
  onAct (dmRunIn n) (fun _ b => if b.acted (dmHaltIn n) then b else dmRun c n b) b
def dmHaltAct (c : Ctx) (n : Nat) (b : Block) : Block := onAct (dmHaltIn n) (fun _ b => dmHalt c n b) b

/-- A software arrival at HALT or RUN. -/
def dmSwHalt (c : Ctx) (n : Nat) (b : Block) : Block :=
  let (go, b) := swArrive (dmHaltIn n) b
  if go then dmHalt c n b else b
def dmSwRun (c : Ctx) (n : Nat) (b : Block) : Block :=
  let (go, b) := swArrive (dmRunIn n) b
  if go ∧ !b.acted (dmHaltIn n) then dmRun c n b else b

/-- A write of DMnn_CTL. -/
def dmCtlWrite (c : Ctx) (ag : Agent) (l : Loc) (a v : Nat) (b : Block) : Block :=
  let n := l.inst
  let b := b.plainWrite ag l a v
  let b := if bit v 1 then dmSwHalt c n b else b
  let b := if bit v 0 then dmSwRun c n b else b
  if bit v 2 then dmAbort n b else b

/-- A write of a configuration register: ignored while STATE is not IDLE (R607). -/
def dmCfgWrite (ag : Agent) (l : Loc) (a v : Nat) (b : Block) : Block :=
  if b.dmState l.inst = 0 then b.plainWrite ag l a v else b.noteWrite l a v

/-! ### Descriptors (R601, R611) -/

/-- The fields of a descriptor's words. -/
def descLen (w : List Nat) : Nat := bits (w.getD 0 0) 12 8 + 1
def descSsp (w : List Nat) : Bool := bit (w.getD 0 0) 18
def descStep (w : List Nat) (k : Nat) : Int :=
  let x := w.getD (4 + k / 2) 0
  toSigned 16 (if k % 2 = 0 then bits x 31 16 else bits x 15 0)
def descSrc (w : List Nat) : Nat := if descSsp w then bits (w.getD 7 0) 11 0 * 2 ^ 32 + w.getD 1 0 else w.getD 1 0

/-- Is a descriptor in error by the rules judged at fetch (R596, R600, R601)? -/
def descBad (hw : Hw) (n : Nat) (w : List Nat) : Bool :=
  let w0 := w.getD 0 0
  let w7 := w.getD 7 0
  let len := descLen w
  let swap := bits w0 25 24
  let marked := bits w0 17 13 != 0 || bits w0 7 0 != 0 || bits w7 31 12 != 0 || (!descSsp w && bits w7 11 0 != 0)
  let apart (x y : Int) : Bool := (x - y) % 4 != 0
  marked || 11 < bits w0 22 19 ||
  (swap == 1 && len % 2 != 0) || (2 ≤ swap && len % 4 != 0) ||
  (bit w0 23 && (apart (w.getD 1 0) (w.getD 2 0) || (List.range 3).any fun k => apart (descStep w k) (descStep w (k + 3)))) ||
  (descSsp w && (!dmSpool hw n || len != 32 || w.getD 1 0 % 32 != 0 || (List.range 3).any fun k => descStep w k % 32 != 0))

/-- The row DMA_DESCRIPTOR_FETCH (R606, R611). -/
def dmFetch (c : Ctx) (n : Nat) (b : Block) : Block :=
  let s := b.dmSt n
  let a := b.rd (R.DM_RBASE n) + b.get (F.DM_IDX_IDX n) * 32
  when (n < nDM c.hw && b.dmState n == 1 && s.desc.isNone) (withOdd c.tick (256 + n) (oddSlots c.hw none a) fun b =>
    let (d, bad, b) := granRead c c.start (a / 32) b
    if bad then (b.flag (F.DM_STAT_DPSN n)).put (F.DM_STAT_STATE n) 0
    else
      let w := (List.range 8).map fun k => bits d (32 * k + 31) (32 * k)
      if bit (w.getD 0 0) 31 then
        let err := descBad c.hw n w
        (b.setDm n { s with desc := some (a, w), acc := if err then 2 else 0, fin := err, stop := err }).wr (R.DM_PROG n) 0
      else if b.on (F.DM_STAT_RPEND n) then b.put (F.DM_STAT_RPEND n) 0
      else (b.flag (F.DM_STAT_EMPTY n)).put (F.DM_STAT_STATE n) 0) b

/-- The row DMA_PACE_RESUME (R604, R605). -/
def dmResume (c : Ctx) (n : Nat) (b : Block) : Block :=
  let s := b.dmSt n
  when (b.dmState n == 2 && !s.fin && c.start.dmMayRun n) (fun b =>
    (b.setDm n { s with fresh := false, pauseAt := none }).put (F.DM_STAT_STATE n) 1) b

/-- The row DMA_PACE_TIMEOUT (R605). -/
def dmTimeout (c : Ctx) (n : Nat) (b : Block) : Block :=
  let s := b.dmSt n
  let t := b.get (F.DM_PTMO_PTMO n)
  when (b.dmState n == 2 && !s.fin && t != 0 && s.pauseAt.any (fun p => p + t * 1024 ≤ c.tick) && !c.start.dmMayRun n) (fun b =>
    b.setDm n { s with acc := max s.acc 3, fin := true, stop := true, pauseAt := none }) b

/-- The tag of a D-TCM word that a hand-back writes is not stated: it is free (log entry 3). -/
def dmHandTag (c : Ctx) (a : Nat) (b : Block) : Block :=
  match memSpace c.hw a with
  | some (.dtcm _) =>
    let (v, b) := b.free
    tagWrite c a v b
  | _ => b

/-- The row DMA_HANDBACK (R606, R608–R610). -/
def dmHandback (c : Ctx) (n : Nat) (b : Block) : Block :=
  let s := b.dmSt n
  match s.desc with
  | none => b
  | some (a, w) =>
    when (s.fin && s.move.isNone && s.elemAt.all (fun t => t ≤ c.tick)) (withOdd c.tick (256 + n) (oddSlots c.hw none a) fun b =>
      let w0 := w.getD 0 0
      let b := (dmHandTag c a (memWrite c a (setBits (setBits w0 31 31 0) 30 28 s.acc) 4 b)).noteWrote 100 a 4
      let b := if bit w0 27 ∨ s.acc ≠ 0 then emit c .dm n 0 none b else b
      let b := (b.bump (F.DM_CNT_CNT n) 1).put (F.DM_STAT_LSTS n) s.acc
      let b := if s.acc ≠ 0 then b.flag (F.DM_STAT_ERR n) else b
      let b := b.put (F.DM_IDX_IDX n) ((b.get (F.DM_IDX_IDX n) + 1) % (b.get (F.DM_RLEN_RLEN n) + 1))
      let b := b.setDm n { s with desc := none, acc := 0, fin := false, stop := false }
      if s.stop ∨ bit w0 26 then b.put (F.DM_STAT_STATE n) 0 else b) b

end Sys2Proof.Machine
end

