-- ==== Sys2Proof/Machine/Interrupt.lean ====
section
/-! DEFINITION. The interrupt controllers (spec/15): batches, target sets, delivery. -/

namespace Sys2Proof.Machine

def Block.icSt (b : Block) (d n : Nat) : IcSrc := b.icSrc.getD {} (d * 1024 + n)
def Block.setIc (b : Block) (d n : Nat) (v : IcSrc) : Block := { b with icSrc := b.icSrc.setD {} (d * 1024 + n) v }

/-- Begin a batch whose timer starts in fc p (R573). -/
def icBegin (d n p : Nat) (b : Block) : Block :=
  let b := b.setIc d n { b.icSt d n with p := p, byTime := false, dueAt := none }
  ((b.put (F.IC_SRC_STAT_PEND d n) 1).put (F.IC_SRC_STAT_DUE d n) 0).put (F.IC_SRC_STAT_CNT d n) 1

/-- Empty a batch (R576, R579). -/
def icEmpty (d n : Nat) (b : Block) : Block :=
  let b := b.setIc d n { b.icSt d n with p := 0, byTime := false, dueAt := none }
  ((b.put (F.IC_SRC_STAT_PEND d n) 0).put (F.IC_SRC_STAT_DUE d n) 0).put (F.IC_SRC_STAT_CNT d n) 0

/-- Does the batch reach its count threshold (R574)?  The threshold is the one in force in this fc (R584). -/
def Block.icCounted (b : Block) (c : Ctx) (d n : Nat) : Bool :=
  max 1 (c.start.get (F.IC_SRC_CFG_CCNT d n)) ≤ b.get (F.IC_SRC_STAT_CNT d n)

/-- A batch that has reached its count threshold is due, and not by time (R574, R575). -/
def icJudge (c : Ctx) (d n : Nat) (b : Block) : Block :=
  let s := b.icSt d n
  if b.icCounted c d n then
    let due := if b.on (F.IC_SRC_STAT_DUE d n) then s.dueAt else some c.tick
    (b.setIc d n { s with dueAt := due, byTime := false }).put (F.IC_SRC_STAT_DUE d n) 1
  else if s.dueAt = some c.tick then b.setIc d n { s with byTime := false }
  else b

/-- An edge reaches source n of die d's controller in this fc (R571–R575); after a CLR of this fc it only waits for the next fc,
where its batch begins (R576, `icBeginFc`). -/
def icEdge (c : Ctx) (d n : Nat) (b : Block) : Block :=
  let s := b.icSt d n
  when (c.start.on (F.IC_SRC_CFG_EN d n) && s.edgeAt != some c.tick) (fun b =>
    let b := b.setIc d n { s with edgeAt := some c.tick }
    if s.clrAt = some c.tick then b
    else if b.on (F.IC_SRC_STAT_PEND d n) then
      let b := if b.get (F.IC_SRC_STAT_CNT d n) = 255 then b.flag (F.IC_SRC_STAT_SAT d n)
        else b.put (F.IC_SRC_STAT_CNT d n) (b.get (F.IC_SRC_STAT_CNT d n) + 1)
      icJudge c d n b
    else icJudge c d n (icBegin d n c.tick b)) b

/-- The row IC_EDGE: an edge on its way arrives. -/
def icEdgeArrives (c : Ctx) (d n : Nat) (b : Block) : Block :=
  when (b.edges.any fun x => x.die == d && x.src == n && x.due ≤ c.tick) (fun b =>
    icEdge c d n { b with edges := b.edges.filter fun x => !(x.die == d && x.src == n && x.due ≤ c.tick) }) b

/-- The batch timer expires, in the fc p + CTIM × 1,024 and in no other (R574, R575). -/
def icTimer (c : Ctx) (d n : Nat) (b : Block) : Block :=
  let s := b.icSt d n
  let t := c.start.get (F.IC_SRC_CFG_CTIM d n)
  when (b.on (F.IC_SRC_STAT_PEND d n) && !b.on (F.IC_SRC_STAT_DUE d n) && t != 0 && s.p + t * 1024 == c.tick) (fun b =>
    (b.setIc d n { s with dueAt := some c.tick, byTime := s.edgeAt != some c.tick }).put (F.IC_SRC_STAT_DUE d n) 1) b

/-- What an fc begins with: an edge that reached the source in the fc of a CLR starts a batch in the fc after (R576), due at once where
one edge is enough, and a batch is due whose count reaches a threshold that a write has lowered (R574, R584). -/
def icBeginFc (c : Ctx) (d n : Nat) (b : Block) : Block :=
  let s := c.start.icSt d n
  let fresh := s.clrAt.any (fun t => t + 1 == c.tick) && s.edgeAt == s.clrAt
  let b := if fresh then icBegin d n c.tick b else b
  if b.on (F.IC_SRC_STAT_PEND d n) && b.icCounted c d n then icJudge c d n b else b

/-- Take back the edge that a batch took in this fc: the batch is as this fc found it. -/
def icUnEdge (c : Ctx) (d n : Nat) (b : Block) : Block :=
  let s := b.icSt d n
  let s0 := c.start.icSt d n
  let back (f : Fld) (b : Block) : Block := b.put f (c.start.get f)
  let b := b.setIc d n { s with p := s0.p, byTime := s0.byTime, dueAt := s0.dueAt }
  let b := b.put (F.IC_SRC_STAT_SAT d n) (min (c.start.get (F.IC_SRC_STAT_SAT d n)) (b.get (F.IC_SRC_STAT_SAT d n)))
  icTimer c d n (icBeginFc c d n (back (F.IC_SRC_STAT_CNT d n) (back (F.IC_SRC_STAT_DUE d n) (back (F.IC_SRC_STAT_PEND d n) b))))

/-- CMD.CLR (R576): the batch is empty from the next fc (`icEndFc`); an edge of this fc is not its own, it starts a new batch there.
A batch that this fc has delivered is gone already. -/
def icClear (c : Ctx) (d n : Nat) (b : Block) : Block :=
  let s := b.icSt d n
  let b := when (s.edgeAt == some c.tick && s.outAt != some c.tick) (icUnEdge c d n) b
  b.setIc d n { b.icSt d n with clrAt := some c.tick }

/-- At the end of the fc of a CLR the batch is emptied (R576). -/
def icEndFc (c : Ctx) (d n : Nat) (b : Block) : Block := when ((b.icSt d n).clrAt == some c.tick) (icEmpty d n) b

/-- Is a delivery selected in an earlier fc still on its way to a task (R579, R582)? -/
def Block.icComing (b : Block) (c : Ctx) (inst : Nat) : Bool :=
  (b.pendActs.any fun p => p.inst == inst && p.kind == 4 && p.due < c.tick + 4) || b.fc.taskAct.any fun a => a.1 == inst && a.2.1 == 4

/-- Is an entry's target enabled in this fc (R577, R578)? With WQ = 1 a task for which a delivery is on its way is not, so that none finds
it outside WAIT (R582). -/
def Block.icTarget (b : Block) (c : Ctx) (d s k : Nat) : Bool :=
  let e := c.start.get (F.IC_SET_T_ENG d s k)
  let t := c.start.get (F.IC_SET_T_TASK d s k)
  let m := if t < 32 then c.start.rd (R.IC_EMSKL d (e % 128)) else c.start.rd (R.IC_EMSKH d (e % 128))
  c.start.on (F.IC_SET_T_V d s k) && bit m (t % 32) && e < nEngines c.hw && !b.lockedUp.contains e && !(b.engSt e).iso &&
    (!c.start.on (F.IC_SET_CTL_WQ d s) ||
      (t < b.nt.getD 0 e && (b.taskSt e t).st == .wait && !b.icComing c (e * 64 + t)))

/-- The due sources of a set. -/
def Block.icDue (b : Block) (c : Ctx) (d s : Nat) : List Nat :=
  b.icSrc.filterMap fun (key, _) =>
    let n := key % 1024
    if key / 1024 = d ∧ b.on (F.IC_SRC_STAT_DUE d n) ∧ c.start.get (F.IC_SRC_CFG_SET d n) = s then some n else none

/-- The first number after `last` among a list, wrapping at `top`. -/
def nextAfter (top last : Nat) (l : List Nat) : Option Nat :=
  (List.range top).findSome? fun j =>
    let n := (last + 1 + j) % top
    if l.contains n then some n else none

/-- The same for the due sources, without walking the 1,024 numbers: the least above `last`, else the least. -/
def nextDue (last : Nat) (l : List Nat) : Option Nat :=
  let least (l : List Nat) : Option Nat := l.foldl (fun a n => match a with
    | none => some n
    | some m => some (min m n)) none
  match least (l.filter fun n => last < n) with
  | some n => some n
  | none => least l

/-- A target set selects a due source and an enabled target (R579–R583). -/
def icDeliver (c : Ctx) (d s : Nat) (b : Block) : Block :=
  let off := c.start.on (F.IC_CTL_GDIS d) && b.on (F.IC_CTL_GDIS d)
  match nextDue (b.get (F.IC_SET_LAST_SRC d s)) (b.icDue c d s),
      nextAfter 8 (b.get (F.IC_SET_CTL_PTR d s)) ((List.range 8).filter (b.icTarget c d s)) with
  | some n, some k =>
    when (d < nDies c.hw && !off && b.icLast.find? (d * 64 + s) != some c.tick) (fun b =>
      let st := b.icSt d n
      let late := c.start.on (F.IC_SRC_STAT_DUE d n) && st.edgeAt == some c.tick
      let cnt := if late then c.start.get (F.IC_SRC_STAT_CNT d n) else b.get (F.IC_SRC_STAT_CNT d n)
      let byTime := if late then (c.start.icSt d n).byTime else st.byTime
      let inst := c.start.get (F.IC_SET_T_ENG d s k) * 64 + c.start.get (F.IC_SET_T_TASK d s k)
      let b := { b with
        pendActs := b.pendActs ++ [(⟨c.tick + 4, inst, 4, n⟩ : PendAct)]
        icLast := b.icLast.insert (d * 64 + s) c.tick }
      let b := b.setIc d n { st with outAt := some c.tick }
      let b := when late (fun b => b.put (F.IC_SRC_STAT_SAT d n)
        (min (c.start.get (F.IC_SRC_STAT_SAT d n)) (b.get (F.IC_SRC_STAT_SAT d n)))) b
      let b := b.wr (R.IC_SET_LAST d s) (n * 65536 + b2n byTime * 256 + cnt)
      let b := b.put (F.IC_SET_CTL_PTR d s) k
      let b := icEmpty d n b
      if late then icJudge c d n (icBegin d n c.tick b) else b) b
  | _, _ => b

/-- NDUE (IC_STAT). -/
def Block.icNdue (b : Block) (d : Nat) : Nat :=
  (b.icSrc.filter fun (key, _) => key / 1024 == d && b.on (F.IC_SRC_STAT_DUE d (key % 1024))).length

/-! ### Writes -/

/-- A write of IC_SRCnnn_CMD. -/
def icCmdWrite (c : Ctx) (ag : Agent) (l : Loc) (a v : Nat) (b : Block) : Block :=
  let n := (l.off - 0x2000) / 0x10
  let b := b.lkWrite (c.start.lkLocked l) ag l a v
  let b := if bit v 0 then icEdge c l.inst n b else b
  if bit v 1 then icClear c l.inst n b else b

/-- A write of IC_SRCnnn_CFG: EN = 0 acts as CLR (R576). -/
def icCfgWrite (c : Ctx) (ag : Agent) (l : Loc) (a v : Nat) (b : Block) : Block :=
  let n := (l.off - 0x2000) / 0x10
  let b := b.lkWrite (c.start.lkLocked l) ag l a v
  if b.on (F.IC_SRC_CFG_EN l.inst n) then b else icClear c l.inst n b

/-- Would R586 accept a target entry? -/
def Block.icEntryOk (b : Block) (hw : Hw) (d v : Nat) : Bool :=
  let e := bits v 29 22
  !bit v 31 || (e / 128 == d && e < nEngines hw && bits v 21 16 < b.nt.getD 0 e)

/-- A write of a target entry (R588): one that R586 would refuse is ignored, locked or not, and then would change nothing that the lock
keeps. -/
def icTargetWrite (c : Ctx) (ag : Agent) (l : Loc) (a v : Nat) (b : Block) : Block :=
  if b.icEntryOk c.hw l.inst v then b.lkWrite (c.start.lkLocked l) ag l a v
  else (b.noteWrite l a v).flag (F.IC_STAT_CFGERR l.inst)

end Sys2Proof.Machine
end

