-- ==== Sys2Proof/Machine/Flash.lean ====
section
/-! DEFINITION. In-package flash (spec/19): the selector, the commands, their ends and cuts, the status store. -/

namespace Sys2Proof.Machine

/-! ### Granules and sectors (R666, R667) -/

def flashBase : Nat := 0x80000000

/-- The granule number of flash byte offset o. -/
def flashGran (o : Nat) : Nat := (flashBase + o) / 32

/-- Is a granule blank: all 272 bits 1 (R667)? -/
def Block.flashBlank (b : Block) (g : Nat) : Bool := b.flashChk.getD 0xFFFF g == 0xFFFF && b.granRaw g == 2 ^ 256 - 1

/-- Program a blank granule with its check. -/
def flashPut (g d : Nat) (b : Block) : Block :=
  let b := putBytes (g * 32) d 32 b
  { b with flashChk := b.flashChk.setD 0xFFFF g (k272 (d % 2 ^ 256)) }

/-- Erase a sector whole. -/
def flashWipe (s : Nat) (b : Block) : Block :=
  let lo := flashBase + s * 0x10000
  { b with
    mem := b.mem.filter fun x => !(lo ≤ x.1 && x.1 < lo + 0x10000)
    flashChk := b.flashChk.filter fun x => !(lo ≤ x.1 * 32 && x.1 * 32 < lo + 0x10000) }

/-- The sectors of the active slot and of the active boot block, as the selector names them (R666). -/
def activeSector (slot bb s : Nat) : Bool :=
  (if slot = 0 then 65 ≤ s && s ≤ 448 else 449 ≤ s && s ≤ 832) || (if bb = 0 then 1 ≤ s && s ≤ 32 else 33 ≤ s && s ≤ 64)

/-! ### The status store (R671, R680, R681) -/

/-- FL_SST and FL_PINTA show the status store. -/
def flShow (b : Block) : Block :=
  let word (j : Nat) : Nat := (List.range 16).foldl (fun w i =>
    let s := 16 * j + i
    w + (if b.flashInc.contains s then 1 else if b.flashPint.contains s then 2 else 0) * 4 ^ i) 0
  let js := (b.flashInc ++ b.flashPint).map (· / 16)
  let b := (List.range 64).foldl (fun b j => if js.contains j ∨ b.rd (R.FL_SST j) ≠ 0 then b.wr (R.FL_SST j) (word j) else b) b
  match b.flashPinta with
  | some g => b.wr R.FL_PINTA (g * 32 % 2 ^ 26 + 1)
  | none => b.put F.FL_PINTA_V 0

/-- A PROG has not verified or was cut: its sector is PINT, FL_PINTA names the granule. -/
def flPint (g : Nat) (b : Block) : Block :=
  let s := g * 32 % 0x4000000 / 0x10000
  flShow { b with flashPint := if b.flashPint.contains s then b.flashPint else s :: b.flashPint, flashPinta := some (g % 0x200000) }

/-- What a PROG cut or unverified leaves in its granule (R682): blank, the new data or an uncorrectable granule; free. -/
def flCutGran (g d : Nat) (b : Block) : Block :=
  let (v, b) := b.free
  let (u, b) := b.free
  flPint g (match v % 3 with
    | 0 => b
    | 1 => flashPut g d b
    | _ =>
      let b := putBytes (g * 32) u 32 b
      { b with flashChk := b.flashChk.setD 0xFFFF g (k272 (u % 2 ^ 256) ^^^ 0xFFFF) })

/-- The erase of a sector begins: its INCOMPLETE mark is written. -/
def flMark (s : Nat) (b : Block) : Block :=
  flShow { b with flashInc := if b.flashInc.contains s then b.flashInc else s :: b.flashInc }

/-- The erase of a sector has verified: the sector is erased, INCOMPLETE and PINT clear (R680, R682). -/
def flErased (s : Nat) (b : Block) : Block :=
  let b := flashWipe s b
  flShow { b with
    flashInc := b.flashInc.filter (· != s)
    flashPint := b.flashPint.filter (· != s)
    flashPinta := b.flashPinta.filter fun g => g * 32 / 0x10000 != s }

/-! ### The selector (R684–R687) -/

/-- A selector granule's data. -/
def selData (g slot bb swaps : Nat) : Nat :=
  let w2 := slot * 256 + bb
  0x534C4543 + g * 2 ^ 32 + w2 * 2 ^ 64 + (2 ^ 32 - 1 - w2) * 2 ^ 96 + swaps % 2 ^ 32 * 2 ^ 128

/-- The data of copy k of generation g, when the copy is valid (R684). -/
def Block.selCopy (b : Block) (g k : Nat) : Option Nat :=
  let n := flashGran ((682 * k + g) * 32)
  if b.granBad n then none
  else
    let d := b.granData n
    let w2 := bits d 95 64
    if d = selData g (bits w2 8 8) (bits w2 0 0) (bits d 159 128) then some d else none

/-- The data of a generation on which two valid copies agree (R684). -/
def Block.selGen (b : Block) (g : Nat) : Option Nat :=
  let x := b.selCopy g 0
  let y := b.selCopy g 1
  let z := b.selCopy g 2
  if x.isSome ∧ (x = y ∨ x = z) then x else if y.isSome ∧ y = z then y else none

/-- The generations of which some copy is not blank (R685). -/
def Block.selUsed (b : Block) : List Nat :=
  let listed := (b.mem.filterMap fun x => if flashBase ≤ x.1 ∧ x.1 < flashBase + 0xFFC0 then some ((x.1 - flashBase) / 32) else none)
    ++ (b.flashChk.filterMap fun x => if flashBase / 32 ≤ x.1 ∧ x.1 < flashBase / 32 + 2046 then some (x.1 - flashBase / 32) else none)
  (listed.map (· % 682)).eraseDups

/-- The free generations: how many, and the lowest. -/
def Block.selFree (b : Block) : Nat :=
  match b.selUsed with
  | [] => 682
  | l => 681 - l.foldl max 0

/-- The selection: its generation and data. -/
def Block.selection (b : Block) : Option (Nat × Nat) :=
  b.selUsed.foldl (fun acc g =>
    match b.selGen g, acc with
    | none, _ => acc
    | some d, none => some (g, d)
    | some d, some (h, _) => if h < g then some (g, d) else acc) none

/-- The selector is read and shown in FL_SEL (R687). -/
def flSelRead (b : Block) : Block :=
  let free := b.selFree * 2 ^ 20
  match b.selection with
  | some (g, d) => b.wr R.FL_SEL (2 ^ 31 + free + g * 1024 + bits d 72 72 * 256 + bits d 64 64)
  | none => b.wr R.FL_SEL free

/-- The selector is read after a swap or SELINIT; FREE falling below 16 raises an edge. -/
def flSelUpdate (c : Ctx) (b : Block) : Block :=
  let old := b.get F.FL_SEL_FREE
  let b := flSelRead b
  if 16 ≤ old ∧ b.get F.FL_SEL_FREE < 16 then raiseEdge c 0x073 b else b

/-! ### Commands (R672–R677) -/

def flOK : Nat := 0
def flNOTBLANK : Nat := 1
def flPROT : Nat := 2
def flACTIVE : Nat := 3
def flADDR : Nat := 4
def flVERIFY : Nat := 5
def flCUT : Nat := 6
def flSELFULL : Nat := 7
def flSELOK : Nat := 8
def flINCOMP : Nat := 9
def flBADCMD : Nat := 10
def flNBLANK : Nat := 11

/-- The area of a sector as FL_PROT enables it in RUN (R673). -/
def Block.flEnabled (b : Block) (s : Nat) : Bool :=
  if s ≤ 64 then b.on F.FL_PROT_BB else if s ≤ 832 then b.on F.FL_PROT_IMG else b.on F.FL_PROT_UA

/-- Is the device in RUN? -/
def Block.inRun (b : Block) : Bool := b.get F.BOOT_STATUS_STATE == 1
def Block.inHold (b : Block) : Bool := b.get F.BOOT_STATUS_STATE == 2

/-- Why a command is refused, the first check of R673 that fails; `free`: it is not judged against FL_PROT. -/
def Block.flRefusal (b : Block) (free : Bool) (op a : Nat) : Option Nat :=
  let s := a / 0x10000
  let change := op == 1 || op == 2
  let judged := !free && b.inRun
  if op = 0 ∨ 6 < op then some flBADCMD
  else if bits a 31 26 ≠ 0 ∨ (op = 1 ∧ a % 32 ≠ 0) then some flADDR
  else if change ∧ s = 0 then some flPROT
  else if change ∧ b.on F.FL_SEL_VALID ∧ activeSector (b.get F.FL_SEL_SLOT) (b.get F.FL_SEL_BB) s then some flACTIVE
  else if judged ∧ ((change ∧ !b.flEnabled s) ∨ ((op = 4 ∨ op = 5) ∧ !b.on F.FL_PROT_SEL)) then some flPROT
  else if (op = 4 ∨ op = 5) ∧ b.selFree = 0 then some flSELFULL
  else if op = 6 ∧ b.selection.isSome ∧ b.selFree ≠ 0 then some flSELOK
  else if op = 1 ∧ b.flashInc.contains s then some flINCOMP
  else none

/-- A command ends, or is refused: DONE, RES, NPUL, the edges (R677). -/
def flFinish (c : Ctx) (res npul : Nat) (b : Block) : Block :=
  let b := { b with flCmd := none }
  let b := ((b.put F.FL_STAT_BUSY 0).put F.FL_STAT_RES res).put F.FL_STAT_NPUL npul
  let b := raiseEdge c 0x070 (b.flag F.FL_STAT_DONE)
  if res = flOK then b else raiseEdge c 0x071 b

/-- The data of FL_DATA0–FL_DATA7. -/
def Block.flData (b : Block) : Nat := (List.range 8).foldl (fun d k => d + b.rd (R.FL_DATA k) * 2 ^ (32 * k)) 0

/-- What a swap or SELINIT writes: the generation and its data (R685, R686). -/
def Block.selNext (b : Block) (op data : Nat) : Nat × Nat :=
  if op = 6 then (0, selData 0 (bits data 8 8) (bits data 0 0) 0)
  else
    let g := 682 - b.selFree
    match b.selection with
    | some (_, d) => (g, selData g (bits d 72 72 ^^^ b2n (op == 5)) (bits d 64 64 ^^^ b2n (op == 4)) (bits d 159 128 + 1))
    | none => (g, selData g (b2n (op == 5)) (b2n (op == 4)) 1)

/-- The controller takes a command: the result of a refusal, or none when it is accepted (R672–R674). -/
def flTake (c : Ctx) (host free : Bool) (op a data : Nat) (b : Block) : Option Nat × Block :=
  let b := b.put F.FL_STAT_OP op
  match b.flRefusal free op a with
  | some r => (some r, flFinish c r 0 b)
  | none =>
    let dirty := op == 1 && !b.flashBlank (flashGran a)
    let (g, sel) := b.selNext op data
    let d := if op = 4 ∨ op = 5 ∨ op = 6 then sel else data
    let b := { b with flCmd := some ⟨op, a % 2 ^ 26, d, host, c.tick, dirty, g⟩ }
    let b := b.put F.FL_STAT_BUSY 1
    (none, if op = 2 then flMark (a % 2 ^ 26 / 0x10000) b else if op = 6 then flMark 0 b else b)

/-- A write of FL_CMD (R672, R675); BUSY counts in the fc in which it clears. -/
def flCmdWrite (c : Ctx) (ag : Agent) (l : Loc) (a v : Nat) (b : Block) : Block :=
  let b := b.plainWrite ag l a v
  if b.on F.FL_STAT_BUSY || c.start.on F.FL_STAT_BUSY then b.flag F.FL_STAT_CBUSY
  else (flTake c false (ag == .boot) (v % 16) (b.rd R.FL_ADDR) b.flData b).2

/-- Copy k of the generation a command writes. -/
def FlCmd.copyGran (x : FlCmd) (k : Nat) : Nat := flashGran ((682 * k + x.gen) * 32)

/-- The copies below k are written. -/
def flCopies (x : FlCmd) (k : Nat) (b : Block) : Block :=
  (List.range k).foldl (fun b j => flashPut (x.copyGran j) x.data b) b

/-- The first copy whose granule is not blank (R685). -/
def flDirtyCopy (x : FlCmd) (b : Block) : Option Nat :=
  if x.op = 6 then none else (List.range 3).find? fun k => !b.flashBlank (x.copyGran k)

/-- The work of the command as it ends: `fail`: the step whose verify fails, counting SELINIT's erase as step 0 and its copies from
1.  The result, the new state. -/
def flWork (x : FlCmd) (fail : Option Nat) (b : Block) : Nat × Block :=
  let s := x.addr / 0x10000
  match x.op with
  | 1 =>
    if x.notBlank then (flNOTBLANK, b)
    else match fail with
      | some _ => (flVERIFY, flCutGran (flashGran x.addr) x.data b)
      | none => (flOK, flashPut (flashGran x.addr) x.data b)
  | 2 =>
    match fail with
    | some _ => (flVERIFY, b)
    | none => (flOK, flErased s b)
  | 3 =>
    if b.flashInc.contains s then
      let (v, b) := b.free
      (if v % 2 = 0 then flOK else flNBLANK, b)
    else
      let lo := flashBase + s * 0x10000
      let used := b.mem.any (fun y => lo ≤ y.1 && y.1 < lo + 0x10000) || b.flashChk.any (fun y => lo ≤ y.1 * 32 && y.1 * 32 < lo + 0x10000)
      (if used then flNBLANK else flOK, b)
  | op =>
    let first := if op = 6 then 1 else 0
    match flDirtyCopy x b with
    | some k => (flNOTBLANK, flCopies x k b)
    | none =>
      match fail with
      | some k =>
        if k < first then (flVERIFY, b)
        else
          let b := if op = 6 then flErased 0 b else b
          let j := min (k - first) 2
          (flVERIFY, flCutGran (x.copyGran j) x.data (flCopies x j b))
      | none =>
        let b := if op = 6 then flErased 0 b else b
        (flOK, flCopies x 3 b)

/-- The pulses NPUL shows: a PROG has at most 8 and an ERASE at most 60, all of them where it has not verified (R676); a blank check
and BLANK use none. -/
def FlCmd.pulses (x : FlCmd) (res npul : Nat) : Nat :=
  if x.notBlank ∨ x.op = 3 then 0
  else if x.op = 1 then (if res = flVERIFY then 8 else min npul 8)
  else if x.op = 2 then (if res = flVERIFY then 60 else min npul 60)
  else npul

/-- A command ends (R676, R677, R687); a PROG refused by its blank check ends after 2 fc (R674). -/
def flEnd (c : Ctx) (npul : Nat) (fail : Option Nat) (b : Block) : Block :=
  match b.flCmd with
  | none => b
  | some x =>
    when (!x.notBlank || x.at_ + 2 ≤ c.tick) (fun b =>
      let (res, b) := flWork x fail b
      let b := if res = flNOTBLANK then b.violate none .notblank 1 else b
      let b := flFinish c res (x.pulses res npul) b
      if 4 ≤ x.op then flSelUpdate c b else b) b

/-- A pulse is ended early: what the command leaves (R678–R680, R682, R685, R686).  `k`: the step under way. -/
def flCut (x : FlCmd) (k : Nat) (b : Block) : Block :=
  match x.op with
  | 1 => if x.notBlank then b else flCutGran (flashGran x.addr) x.data b
  | 2 => b
  | 3 => b
  | 6 =>
    if k = 0 then b
    else
      let j := min (k - 1) 2
      flCutGran (x.copyGran j) x.data (flCopies x j (flErased 0 b))
  | _ =>
    let j := min k 2
    flCutGran (x.copyGran j) x.data (flCopies x j b)

/-- A brown-out warning of VDD_F ends the command with CUT (R678). -/
def flBrownout (c : Ctx) (k npul : Nat) (b : Block) : Block :=
  match b.flCmd with
  | none => b
  | some x =>
    let b := flFinish c flCUT (x.pulses flCUT npul) (flCut x k b)
    if 4 ≤ x.op then flSelUpdate c b else b

/-- A package reset ends the pulse in progress; which step was under way is free (R679, R680). -/
def flReset (b : Block) : Block :=
  match b.flCmd with
  | none => b
  | some x =>
    let (v, b) := b.free
    { flCut x (v % 4) b with flCmd := none }

/-- The status table and the selector are read after a package reset (R681, R687). -/
def flLoad (b : Block) : Block := flSelRead (flShow b)

end Sys2Proof.Machine
end

