-- ==== Sys2Proof/Machine/HostPort.lean ====
section
/-! DEFINITION. The host port (spec/21): link, frames, sessions, KSP requests, the mailbox, configuration writes, and the
attestation report of spec/18. -/

namespace Sys2Proof.Machine

/-! ### Bytes -/

/-- n bytes, most significant first. -/
def beBytes : Nat → Nat → List Nat
  | 0, _ => []
  | n + 1, v => (v / 256 ^ n) % 256 :: beBytes n v

/-- Bytes, the first in the lowest bits. -/
def leBits (l : List Nat) : Nat := l.foldr (fun x n => x % 256 + 256 * n) 0

/-! ### The port (R713–R716, R660) -/

/-- The port runs in RUN and in HOLD, while its lane's link is up; it ignores requests after a RETRY (R662) and once a reset is due. -/
def Block.hostOn (b : Block) : Bool := (b.inRun || b.inHold) && b.on F.HP_STAT_LINK && !b.retry && b.resetDue.isNone

/-- The port's IPv4 address (R660, R716). -/
def Block.hostIp (b : Block) (hw : Hw) : Nat :=
  if b.inRun then b.rd R.HP_IPA
  else
    let h := hw.ser % 65024
    169 * 2 ^ 24 + 254 * 65536 + (1 + h / 256) * 256 + h % 256

/-- The port's MAC address (R660, R716). -/
def Block.hostMac (b : Block) (hw : Hw) : Nat :=
  let own := b.rd R.HP_MACH % 65536 * 2 ^ 32 + b.rd R.HP_MACL
  if b.inRun ∧ own ≠ 0 then own else 2 * 2 ^ 40 + hw.ser % 2 ^ 40

/-- HP_STAT and the mailbox's head registers show the port's state. -/
def hpShow (b : Block) : Block :=
  let h := b.hp
  let b := (b.put F.HP_STAT_NSESS h.sess.length).put F.HP_STAT_MBFILL h.mail.length
  match h.mail with
  | [] => (List.range 64).foldl (fun b k => b.wr (R.HP_MBD k) 0) (b.wr R.HP_MBS 0)
  | x :: _ =>
    let b := b.wr R.HP_MBS (2 ^ 31 + x.bytes.length % 512 * 65536 + x.tag)
    (List.range 64).foldl (fun b k =>
      b.wr (R.HP_MBD k) (leBits ((List.range 4).map fun i => x.bytes.getD (4 * k + 3 - i) 0))) b

/-- Count in HP_CNT0; the first increment after a read raises an edge. -/
def hpCount (c : Ctx) (f : Fld) (b : Block) : Block :=
  let first := b.get f == 0
  let b := b.bump f 1
  if first then raiseEdge c 0x05B b else b

/-- The port sends. -/
def hpSend (x : HostOut) (b : Block) : Block := { b with hostOut := b.hostOut ++ [x] }

/-- May the lane (SL6, or SL7) carry the host port? -/
def Block.hostLane (b : Block) (hw : Hw) (seven : Bool) : Bool :=
  let n := if seven then 7 else 6
  bit (slMask hw) n && (if b.inHold then !seven else b.inRun && b.get (F.GL_CFG_ROLE n) == 3)

/-- The row HP_LINK_CHANGE (R713, R714). -/
def hpLinkChange (c : Ctx) (seven up : Bool) (b : Block) : Block :=
  when (b.hostLane c.hw seven) (fun b =>
    let h := b.hp
    let was := b.on F.HP_STAT_LINK
    let h := if seven then { h with up7 := up } else { h with up6 := up }
    let link := h.up6 || h.up7
    let b := ({ b with hp := h }.put F.HP_STAT_LINK (b2n link)).put F.HP_STAT_LANE (b2n (!h.up6 && h.up7))
    if link = was then b
    else
      let b := raiseEdge c 0x058 b
      if link then hpSend (.gratuitous (b.hostMac c.hw) (b.hostIp c.hw)) b else b) b

/-- The row HP_ARP_REQUEST: a request for the port's own address is answered. -/
def hpArp (c : Ctx) (mac ip target : Nat) (b : Block) : Block :=
  when b.hostOn (fun b =>
    if target = b.hostIp c.hw then hpSend (.arp mac ip (b.hostMac c.hw) (b.hostIp c.hw)) b else hpCount c F.HP_CNT0_DISC b) b

/-- The row HP_ICMP_ECHO. -/
def hpEcho (c : Ctx) (mac ip : Nat) (data : List Nat) (b : Block) : Block :=
  when b.hostOn (hpSend (.echo mac ip (b.hostMac c.hw) (b.hostIp c.hw) data)) b

/-- The row HP_FRAME_DISCARD: 0 a bad FCS, 1 another check, 2 on the lane not in use, 3 outside the ACL (R713, R715, R716). -/
def hpDiscard (c : Ctx) (why : Nat) (b : Block) : Block :=
  when b.hostOn (fun b =>
    match why with
    | 0 => hpCount c F.HP_CNT0_FCS b
    | 1 => hpCount c F.HP_CNT0_DISC b
    | 3 => if b.inRun then hpCount c F.HP_CNT0_ACL b else b
    | _ => b) b

/-! ### Responses and sessions (R717–R721) -/

/-- A response message: its header, then its body. -/
def kspMsg (w : KspWho) (status : Nat) (body : List Nat) : List Nat :=
  [0x4B, 0x53, 1, (w.typ + 0x80) % 256, 0, 0] ++ beBytes 2 status ++ beBytes 4 w.sess ++ beBytes 4 w.seq ++ body

/-- Keep a result with its session. -/
def kspKeep (w : KspWho) (msg : List Nat) (b : Block) : Block :=
  let h := b.hp
  { b with hp := { h with sess := h.sess.map fun s =>
      if s.num = w.sess then { s with results := s.results.map fun r => if r.1 = w.seq then (r.1, some msg) else r } else s } }

/-- A request has been performed: its response is kept and sent. -/
def kspDone (w : KspWho) (status : Nat) (body : List Nat) (b : Block) : Block :=
  let m := kspMsg w status body
  hpSend (.ksp w.ip w.port m) (kspKeep w m b)

/-- Is a earlier than z in serial arithmetic modulo 2^32? -/
def serialLt (a z : Nat) : Bool :=
  let d := (z + 2 ^ 32 - a % 2 ^ 32) % 2 ^ 32
  0 < d && d < 2 ^ 31

/-- Insert a SEQ among the kept ones, newest first. -/
def seqInsert (q : Nat) : List (Nat × Option (List Nat)) → List (Nat × Option (List Nat))
  | [] => [(q, none)]
  | x :: t => if serialLt x.1 q then (q, none) :: x :: t else x :: seqInsert q t

/-- Judge a request: `none` when it has been discarded or answered already (R716, R717, R719, R721). -/
def kspAdmit (c : Ctx) (h : KspHead) (typ : Nat) (held : Bool) (b : Block) : Option KspWho × Block :=
  let w : KspWho := ⟨h.sess, h.seq, h.ip, h.port, h.typ⟩
  let say (st : Nat) : Option KspWho × Block := (none, hpSend (.ksp h.ip h.port (kspMsg w st [])) b)
  let flagsOk := h.flags == 0 || (typ == 2 && h.flags == 1)
  if !b.hostOn then (none, b)
  else if b.inRun ∧ (h.ip &&& b.rd R.HP_ACLM) ≠ (b.rd R.HP_ACLA &&& b.rd R.HP_ACLM) then (none, hpCount c F.HP_CNT0_ACL b)
  else if !h.good ∨ h.typ ≠ typ ∨ !flagsOk ∨ (typ = 1 ∧ h.sess ≠ 0) then say 5
  else if b.inHold ∧ !held then say 6
  else if typ = 1 then (some w, b)
  else
    match b.hp.sess.find? (fun s => s.num == h.sess && s.ip == h.ip && s.port == h.port) with
    | none => say 3
    | some s =>
      let put (x : KspSess) : Block := { b with hp := { b.hp with sess := b.hp.sess.map fun y => if y.num = s.num then x else y } }
      let s := { s with last := c.tick }
      match s.results.find? (fun r => r.1 == h.seq) with
      | some (_, some m) => (none, hpSend (.ksp h.ip h.port m) (put s))
      | some (_, none) => (none, hpSend (.ksp h.ip h.port (kspMsg w 1 [])) (put s))
      | none =>
        if 64 ≤ s.results.length ∧ s.results.all (fun r => serialLt h.seq r.1) then
          (none, hpSend (.ksp h.ip h.port (kspMsg w 4 [])) (put s))
        else (some w, put { s with results := (seqInsert h.seq s.results).take 64 })

/-- Perform an admitted request. -/
def kspRun (c : Ctx) (h : KspHead) (typ : Nat) (held : Bool) (f : KspWho → Block → Block) (b : Block) : Block :=
  match kspAdmit c h typ held b with
  | (some w, b) => f w b
  | (none, b) => b

/-- The session whose last request is oldest. -/
def oldestSess : List KspSess → Option Nat
  | [] => none
  | s :: t => match oldestSess t with
    | none => some s.num
    | some n => if t.any (fun x => x.num == n && x.last < s.last) then some n else some s.num

/-- HELLO (R718); the session number is the model's count (log entry 31). -/
def kspHello (c : Ctx) (h : KspHead) (b : Block) : Block :=
  kspRun c h 1 true (fun w b =>
    let p := b.hp
    let l := p.sess.filter fun s => !(s.ip == w.ip && s.port == w.port)
    let l := if 4 ≤ l.length then l.filter fun s => some s.num != oldestSess l else l
    let b := hpShow { b with hp := { p with sess := l ++ [⟨w.ip, w.port, p.nextSess, c.tick, []⟩], nextSess := p.nextSess + 1 } }
    let body := [presValue c.hw 0 % 256, presValue c.hw 0 / 256 % 256, if b.inRun then 1 else 2, 0] ++ beBytes 8 c.hw.ser ++
      beBytes 4 (b.rd R.BOOT_IMGVER) ++ beBytes 2 8192 ++ beBytes 2 64 ++ beBytes 8 (b.spoolSize c.hw)
    hpSend (.ksp w.ip w.port (kspMsg { w with sess := p.nextSess } 0 body)) b) b

/-- Has a session had no request for its time (R718)? -/
def Ctx.sessLate (c : Ctx) (s : KspSess) : Bool :=
  let t := c.start.get F.HP_CFG_SESTO
  t != 0 && s.last + t * 2 ^ 24 ≤ c.tick

/-- The row SESSION_TIMEOUT (R718): the session's time ends in this fc; a request of this fc is still taken, and keeps it open. -/
def sessionTimeout (c : Ctx) (num : Nat) (b : Block) : Block :=
  when (b.hp.sess.any fun s => s.num == num && c.sessLate s) (fun b => { b with hp := { b.hp with lapse := num :: b.hp.lapse } }) b

/-- At the end of its fc a session whose time has ended closes. -/
def sessEndFc (c : Ctx) (b : Block) : Block :=
  let h := b.hp
  if h.lapse.isEmpty then b
  else hpShow { b with hp := { h with sess := h.sess.filter (fun s => !(h.lapse.contains s.num && c.sessLate s)), lapse := [] } }

/-! ### WRITE and COMMIT (R723–R727) -/

/-- The spool addresses of a span's 4,096-byte units. -/
def Block.spanUnits (b : Block) (j off n : Nat) : List (Option Nat) :=
  (List.range (n / 4096)).map fun k => extentAddr (b.extents j) (off + 4096 * k)

/-- Drive, drive address and length of the NVMe Writes of a span: units that follow each other on one drive share one. -/
def nvSpans : List (Nat × Nat) → List (Nat × Nat × Nat)
  | [] => []
  | (d, a) :: t => match nvSpans t with
    | (d', a', n) :: r => if d = d' ∧ a + 4096 = a' then (d, a, n + 4096) :: r else (d, a, 4096) :: (d', a', n) :: r
    | [] => [(d, a, 4096)]

/-- Issue several commands for one request: their numbers. -/
def nvIssueAll (c : Ctx) (kind : NvKind) (l : List (Nat × Nat × Nat)) (b : Block) : List Nat × Block :=
  l.foldl (fun acc x =>
    let (id, b) := nvIssue c x.1 kind x.2.1 x.2.2 acc.2
    (acc.1 ++ [id], b)) ([], b)

/-- Place data, padded with zero bytes, in granules from an address (R724, R725). -/
def bufferPut (c : Ctx) (a : Nat) (data : List Nat) (n : Nat) (b : Block) : Block :=
  let d := leBits data
  (List.range (n / 32)).foldl (fun b i => granStore c .host (a / 32 + i) (bits d (256 * i + 255) (256 * i)) false b) b

/-- WRITE (R723–R725); each WRITE holds one 8 KiB slot of the write buffer (log entry 32). -/
def kspWrite (c : Ctx) (h : KspHead) (job off len : Nat) (data : List Nat) (b : Block) : Block :=
  let fin := h.flags == 1
  let shape := off % 4096 == 0 && data.length == len && job < 256 &&
    (len == 4096 || len == 8192 || (fin && len % 32 == 0 && 32 ≤ len && len ≤ 8192))
  kspRun c { h with good := h.good && shape } 2 false (fun w b =>
    let n := (len + 4095) / 4096 * 4096
    let units := b.spanUnits job off n
    let places := (units.filterMap id).filterMap (b.spoolMap c.hw)
    let used := b.hp.writes.map (·.slot)
    if peMask c.hw = 0 ∨ c.start.get (F.JOB_CTL_STATE job) ≠ 1 then kspDone w 7 [] b
    else if extentBytes (b.extents job) < off + len then kspDone w 8 [] b
    else if places.length ≠ units.length ∨ places.any (fun p => b.get (F.PE_STAT_STATE p.1) != 2) then kspDone w 9 [] b
    else
      match (List.range (b.get F.HP_WBSZ_SZ)).find? fun s => !used.contains s with
      | none => kspDone w 2 [] b
      | some slot =>
        let b := bufferPut c (b.rd R.HP_WBUF + slot * 8192) data n b
        let (ids, b) := nvIssueAll c (.write w.sess w.seq) (nvSpans places) b
        { b with hp := { b.hp with writes := b.hp.writes ++ [⟨w, job, slot, ids, false⟩] } }) b

/-- A COMMIT's Flushes are issued, once the WRITEs before it are answered (R726). -/
def commitIssue (c : Ctx) (w : KspWho) (b : Block) : Block :=
  match b.hp.commits.find? (fun x => x.who == w) with
  | none => b
  | some x =>
    if !x.before.isEmpty ∨ x.issued then b
    else
      let ds := b.jobDrives c.hw x.job
      let up := ds.filter fun d => b.get (F.PE_STAT_STATE d) == 2
      let (ids, b) := nvIssueAll c (.flush w.sess w.seq) (up.map fun d => (d, 0, 0)) b
      let y := { x with issued := true, cmds := ids, failed := up.length != ds.length }
      { b with hp := { b.hp with commits := b.hp.commits.map fun z => if z.who = w then y else z } }

/-- The row KSP_WRITE_DONE (R725). -/
def kspWriteDone (c : Ctx) (sess seq : Nat) (b : Block) : Block :=
  match b.hp.writes.find? (fun x => x.who.sess == sess && x.who.seq == seq && x.cmds.isEmpty) with
  | none => b
  | some x =>
    let p := b.hp
    let b := { b with hp := { p with
      writes := p.writes.filter fun y => y.who != x.who
      commits := p.commits.map fun y => { y with before := y.before.filter (· != x.who) } } }
    let b := kspDone x.who (if x.failed then 9 else 0) [] b
    (b.hp.commits.map (·.who)).foldl (fun b w => commitIssue c w b) b

/-- COMMIT (R726). -/
def kspCommit (c : Ctx) (h : KspHead) (job len : Nat) (b : Block) : Block :=
  kspRun c { h with good := h.good && job < 256 } 3 false (fun w b =>
    if peMask c.hw = 0 ∨ c.start.get (F.JOB_CTL_STATE job) ≠ 1 then kspDone w 7 [] b
    else if extentBytes (b.extents job) < len then kspDone w 8 [] b
    else
      let before := (b.hp.writes.filter fun x => x.job == job).map (·.who)
      commitIssue c w { b with hp := { b.hp with commits := b.hp.commits ++ [⟨w, job, len, before, false, [], false⟩] } }) b

/-- The row KSP_COMMIT_DONE (R726, R739). -/
def kspCommitDone (c : Ctx) (sess seq : Nat) (b : Block) : Block :=
  match b.hp.commits.find? (fun x => x.who.sess == sess && x.who.seq == seq && x.issued && x.cmds.isEmpty) with
  | none => b
  | some x =>
    let b := { b with hp := { b.hp with commits := b.hp.commits.filter fun y => y.who != x.who } }
    if x.failed then kspDone x.who 9 [] b
    else
      let b := { b with jobLen := b.jobLen.setD 0 x.job x.len }
      let b := streamsDrop ((b.put (F.JOB_CTL_STATE x.job) 2).wr (R.JOB_LENL x.job) (x.len % 2 ^ 32))
      kspDone x.who 0 [] (raiseEdge c 0x059 b)

/-! ### The mailbox (R728–R730) -/

/-- JOBCMD. -/
def kspJobcmd (c : Ctx) (h : KspHead) (data : List Nat) (b : Block) : Block :=
  kspRun c { h with good := h.good && 1 ≤ data.length && data.length ≤ 256 } 4 false (fun w b =>
    let p := b.hp
    if 16 ≤ p.mail.length ∨ !b.on F.HP_MBCFG_EN then kspDone w 2 [] b
    else
      let inst := b.get F.HP_MBCFG_ENG * 64 + b.get F.HP_MBCFG_TASK
      let b := { b with
        pendActs := b.pendActs ++ [(⟨c.tick + 10, inst, 1, 0⟩ : PendAct)]
        hp := { p with
          mail := p.mail ++ [⟨p.mbTag, w, data⟩], mbTag := (p.mbTag + 1) % 65536
          headAt := if p.mail.isEmpty then c.tick else p.headAt } }
      hpShow b) b

/-- The head entry is answered and removed. -/
def mailPop (c : Ctx) (status : Nat) (body : List Nat) (b : Block) : Block :=
  match b.hp.mail with
  | [] => b
  | x :: rest => hpShow (kspDone x.who status body { b with hp := { b.hp with mail := rest, headAt := c.tick } })

/-- Byte i of the reply registers; beyond HP_MBR62 no byte is stated and it is free (log entry 3). -/
def replyByte (b : Block) (spare i : Nat) : Nat :=
  if i < 252 then bits (b.rd (R.HP_MBR (i / 4))) (31 - 8 * (i % 4)) (24 - 8 * (i % 4)) else spare / 256 ^ (i - 252) % 256

/-- A write of HP_MBRC (R729). -/
def mailReplyWrite (c : Ctx) (ag : Agent) (l : Loc) (a v : Nat) (b : Block) : Block :=
  let b := b.plainWrite ag l a v
  match b.hp.mail with
  | x :: _ =>
    if x.tag = v % 65536 then
      let len := b.rd (R.HP_MBR 63) % 512
      let (spare, b) := if 252 < len then b.free else (0, b)
      mailPop c 0 (beBytes 2 (v / 65536) ++ beBytes 2 len ++ (List.range len).map (replyByte b spare)) b
    else b.flag F.HP_STAT_MBERR
  | [] => b.flag F.HP_STAT_MBERR

/-- Has the mailbox's head had no reply for its time (R730)? -/
def Block.mailLate (b : Block) (c : Ctx) : Bool :=
  !b.hp.mail.isEmpty && b.hp.headAt + c.start.get F.HP_CFG_MBTO * 1024 ≤ c.tick

/-- The row MAILBOX_TIMEOUT (R730): the head's time ends in this fc; a reply written in this fc is still taken. -/
def mailTimeout (c : Ctx) (b : Block) : Block :=
  when (b.mailLate c) (fun b => { b with hp := { b.hp with mailLapse := b.hp.mail.head?.map (·.tag) } }) b

/-- At the end of its fc a head without a reply is answered NOREPLY. -/
def mailEndFc (c : Ctx) (b : Block) : Block :=
  if b.hp.mailLapse.isNone then b
  else
    let go := b.hp.mail.head?.map (·.tag) == b.hp.mailLapse
    let b := { b with hp := { b.hp with mailLapse := none } }
    when go (fun b => raiseEdge c 0x05A (hpCount c F.HP_CNT0_MBTO (mailPop c 11 [] b))) b

/-! ### READSTAT, ATTEST -/

/-- READSTAT (R717): the registers and the job as the fc found them (log entry 117). -/
def kspReadstat (c : Ctx) (h : KspHead) (job : Nat) (b : Block) : Block :=
  kspRun c { h with good := h.good && (job < 256 || job == 0xFFFF) } 5 true (fun w b =>
    let regs := [R.BOOT_STATUS, R.BOOT_INFO, R.BOOT_RESET, R.FL_SEL, R.FL_STAT, R.HP_STAT, R.PE_STAT 0, R.PE_STAT 1]
    let j := if job < 256 ∧ peMask c.hw ≠ 0 then
        [c.start.get (F.JOB_CTL_STATE job), c.start.get (F.JOB_CTL_NX job)] ++ beBytes 8 (c.start.jobLen.getD 0 job)
      else [0, 0] ++ beBytes 8 0
    kspDone w 0 (regs.flatMap (fun a => beBytes 4 (c.start.rd a)) ++ beBytes 2 job ++ j ++ List.replicate 20 0) b) b

/-- The bytes a run of registers shows, the first byte of each in [7:0]. -/
def Block.regBytes (b : Block) (f : Nat → Nat) (n : Nat) : List Nat :=
  (List.range n).flatMap fun k => (List.range 4).map fun i => bits (b.rd (f k)) (8 * i + 7) (8 * i)

/-- The attestation report of R665, before its signature. -/
def attestReport (c : Ctx) (nonce : List Nat) (b : Block) : List Nat :=
  let st := if b.inRun then 1 else 2
  beBytes 4 0x4B415452 ++ beBytes 2 1 ++ [presValue c.hw 0 % 256, presValue c.hw 0 / 256 % 256] ++ beBytes 8 c.hw.ser ++
    beBytes 2 c.hw.romRev ++ [st, b.get F.BOOT_STATUS_CAUSE, b.get F.BOOT_STATUS_SRC, b.get F.BOOT_STATUS_KSLOT] ++
    [b.keysWord % 256, 0] ++ beBytes 4 (b.rd R.BOOT_IMGVER) ++ beBytes 4 (if b.on F.PV_CFG_PAIR then b.rd R.PV_EPOCH else 0) ++
    b.regBytes R.BOOT_HASH 8 ++ (List.range 32).map (fun i => nonce.getD i 0 % 256) ++ beBytes 8 b.always.ltb ++ beBytes 8 c.tick ++
    (List.range 64).map (fun i => c.hw.idk.getD i 0 % 256)

/-- ATTEST (R665). -/
def kspAttest (c : Ctx) (h : KspHead) (nonce : List Nat) (b : Block) : Block :=
  kspRun c { h with good := h.good && nonce.length == 32 } 8 true (fun w b =>
    let r := attestReport c nonce b
    let sig := Config.sm2Sign r
    kspDone w 0 (r ++ (List.range 64).map fun i => sig.getD i 0 % 256) b) b

/-! ### Configuration writes (R722, R731) -/

/-- Base and size of the area a TARGET names: the slot or block that is not active, the user area. -/
def Block.cfgArea (b : Block) (target : Nat) : Option (Nat × Nat) :=
  match target with
  | 0 => some (if b.get F.FL_SEL_SLOT = 0 then 449 * 0x10000 else 65 * 0x10000, 384 * 0x10000)
  | 1 => some (if b.get F.FL_SEL_BB = 0 then 33 * 0x10000 else 0x10000, 32 * 0x10000)
  | 2 => some (833 * 0x10000, 191 * 0x10000)
  | _ => none

/-- A request joins the queue of configuration requests. -/
def cfgQueue (x : CfgReq) (b : Block) : Block := { b with hp := { b.hp with cfgs := b.hp.cfgs ++ [x] } }

/-- CFGWRITE with OP 0. -/
def kspErase (c : Ctx) (h : KspHead) (target len off : Nat) (b : Block) : Block :=
  kspRun c { h with good := h.good && len == 0 && (b.cfgArea target).any fun x => off < x.2 } 6 true (fun w b =>
    cfgQueue ⟨w, 2, off, [], 0, some target⟩ b) b

/-- CFGWRITE with OP 1. -/
def kspProgram (c : Ctx) (h : KspHead) (target len off : Nat) (data : List Nat) (b : Block) : Block :=
  let shape := data.length == len && len % 32 == 0 && 0 < len && len ≤ 8192 && off % 32 == 0
  kspRun c { h with good := h.good && shape && (b.cfgArea target).any fun x => off + len ≤ x.2 } 6 true (fun w b =>
    let d := leBits data
    cfgQueue ⟨w, 1, off, (List.range (len / 32)).map fun i => bits d (256 * i + 255) (256 * i), 0, some target⟩ b) b

/-- CFGSWAP. -/
def kspSwap (c : Ctx) (h : KspHead) (target : Nat) (b : Block) : Block :=
  kspRun c { h with good := h.good && target < 2 } 7 true (fun w b =>
    cfgQueue ⟨w, if target = 0 then 5 else 4, 0, [], 0, none⟩ b) b

/-- The request at the head of the queue has got a result. -/
def cfgResult (res : Nat) (b : Block) : Block :=
  match b.hp.cfgs with
  | [] => b
  | x :: rest =>
    let done := if x.op = 1 ∧ res = flOK then x.done + 1 else x.done
    if x.op = 1 ∧ res = flOK ∧ 1 < x.grans.length then
      { b with hp := { b.hp with cfgs := { x with addr := x.addr + 32, grans := x.grans.drop 1, done := done } :: rest } }
    else
      let body := if x.op = 1 ∨ x.op = 2 then [res, 0] ++ beBytes 2 done else [res, 0, 0, 0]
      kspDone x.who (if res = flOK then 0 else 10) body { b with hp := { b.hp with cfgs := rest } }

/-- A request about to issue its first command: the area it names, as the selector has it now. -/
def CfgReq.placed (x : CfgReq) (b : Block) : CfgReq :=
  match x.target with
  | some t => { x with addr := x.addr + ((b.cfgArea t).map (·.1)).getD 0, target := none }
  | none => x

/-- At the end of an fc in which the controller was not busy and took no register write, the host port's next command reaches it
(R675, R731). -/
def hostFlashTick (c : Ctx) (b : Block) : Block :=
  match b.hp.cfgs with
  | [] => b
  | x :: rest =>
    when (!b.on F.FL_STAT_BUSY && !c.start.on F.FL_STAT_BUSY) (fun b =>
      let x := x.placed b
      let b := { b with hp := { b.hp with cfgs := x :: rest } }
      match flTake c true b.inHold x.op x.addr (x.grans.headD 0) b with
      | (some r, b) => cfgResult r b
      | (none, b) => b) b

/-- A command of the host port has ended: its request goes on. -/
def afterFlash (was : Option FlCmd) (b : Block) : Block :=
  match was with
  | some x => if x.host ∧ b.flCmd.isNone then cfgResult (b.get F.FL_STAT_RES) b else b
  | none => b

/-- The rows FL_COMMAND_END and FL_BROWNOUT_CUT. -/
def flCommandEnd (c : Ctx) (npul : Nat) (fail : Option Nat) (b : Block) : Block := afterFlash b.flCmd (flEnd c npul fail b)
def flBrownoutCut (c : Ctx) (k npul : Nat) (b : Block) : Block := afterFlash b.flCmd (flBrownout c k npul b)

/-- KSP RESET, up to what it does (R661, R732): whether it is to be done. -/
def kspResetAsk (c : Ctx) (h : KspHead) (magic : Nat) (b : Block) : Bool × Block :=
  match kspAdmit c { h with good := h.good && magic == 0x52535421 } 9 true b with
  | (none, b) => (false, b)
  | (some w, b) =>
    if b.inRun ∧ !b.on F.HP_CFG_RSTEN then (false, kspDone w 12 [] b) else (true, kspDone w 0 [] b)

end Sys2Proof.Machine
end

