-- ==== Sys2Proof/Machine/CheckValue.lean ====
section
/-! DEFINITION. Check-value units (spec/17). -/

namespace Sys2Proof.Machine

def Block.cvSt (b : Block) (n : Nat) : CvSt := b.cv.getD {} n
def Block.setCv (b : Block) (n : Nat) (v : CvSt) : Block := { b with cv := b.cv.setD {} n v }

/-- Is the unit of the COMPARE class? -/
def cvCompare (n : Nat) : Bool := 16 ≤ n

/-- W: values 0 and 33–63 act as 32. -/
def Block.cvWidth (b : Block) (n : Nat) : Nat :=
  let w := b.get (F.CV_CFG_WIDTH n)
  if w = 0 ∨ 32 < w then 32 else w

/-- A W-bit number's bits in reverse order. -/
def reflectBits (w v : Nat) : Nat :=
  (List.range w).foldl (fun r i => r * 2 + bits v i i) 0

/-- One bit into the running value (R618). -/
def crcBit (w poly c b : Nat) : Nat :=
  let fb := bits c (w - 1) (w - 1) ^^^ b
  let c := c * 2 % 2 ^ w
  if fb = 1 then c ^^^ poly else c

/-- One byte into the running value (R618). -/
def crcByte (w poly : Nat) (refin : Bool) (c b : Nat) : Nat :=
  let b := if refin then reflectBits 8 b else b
  (List.range 8).foldl (fun c i => crcBit w poly c (bits b (7 - i) (7 - i))) c

/-- A register of W bits (R619). -/
def Block.cvReg (b : Block) (n a : Nat) : Nat := b.rd a % 2 ^ b.cvWidth n

/-- The alive-count bits a byte holds, byte number `p` of the message (R625). -/
def cvAlive (n p x : Nat) (b : Block) : Block :=
  let pos := b.get (F.CV_CFG_ALVPOS n)
  let w := if b.on (F.CV_CFG_ALVW n) then 8 else 4
  let s := b.cvSt n
  let s := (List.range 8).foldl (fun (s : CvSt) j =>
    let i := 8 * p + j
    if pos ≤ i ∧ i < pos + w then
      { s with alv := setBits s.alv (i - pos) (i - pos) (bits x j j), known := setBits s.known (i - pos) (i - pos) 1 }
    else s) s
  b.setCv n s

/-- A message begins (START, or a client's first byte). -/
def cvBegin (n : Nat) (client : Option CvClient) (b : Block) : Block :=
  let b := b.wr (R.CV_RUN n) (b.cvReg n (R.CV_INIT n))
  let b := (b.setCv n { b.cvSt n with client := client, alv := 0, known := 0, exps := [] }).put (F.CV_ALV_BPOS n) 0
  b.put (F.CV_STAT_OPEN n) 1

/-- Absorb one byte; an expected byte is kept out of the CRC (R618, R627). -/
def cvByte (n x : Nat) (expected : Bool) (b : Block) : Block :=
  let x := x % 256
  let b := cvAlive n (b.get (F.CV_ALV_BPOS n)) x b
  let b := b.wrapAdd (F.CV_ALV_BPOS n) 1
  if expected then b
  else b.wr (R.CV_RUN n) (crcByte (b.cvWidth n) (b.cvReg n (R.CV_POLY n)) (b.on (F.CV_CFG_REFIN n)) (b.cvReg n (R.CV_RUN n)) x)

/-- The alive count of the message, `none` when it is too short; bits absorbed before a write of RUN opened the message are
free (log entry 3). -/
def cvCount (n : Nat) (b : Block) : Option Nat × Block :=
  let w := if b.on (F.CV_CFG_ALVW n) then 8 else 4
  let s := b.cvSt n
  if 8 * b.get (F.CV_ALV_BPOS n) < b.get (F.CV_CFG_ALVPOS n) + w then (none, b)
  else if s.known = 2 ^ w - 1 then (some s.alv, b)
  else
    let (v, b) := b.free
    (some (s.alv ||| (v % 2 ^ w &&& (2 ^ w - 1 - s.known))), b)

/-- Judge the alive count (R626): the verdict as AV codes it. -/
def cvJudge (n : Nat) (b : Block) : Nat × Block :=
  let w := if b.on (F.CV_CFG_ALVW n) then 8 else 4
  let take (a : Nat) (b : Block) : Block := (b.put (F.CV_ALV_LAST n) a).put (F.CV_ALV_V n) 1
  match cvCount n b with
  | (none, b) => (3, b)
  | (some a, b) =>
    let last := b.get (F.CV_ALV_LAST n)
    if !b.on (F.CV_ALV_V n) ∨ a = (last + 1) % 2 ^ w then (0, take a b)
    else if a = last % 2 ^ w then (1, b)
    else (2, take a b)

/-- END is applied, or a client's last byte (R618): OPEN is 0, and the results stand, from the next fc (R622). -/
def cvEnd (n : Nat) (b : Block) : Block := b.setCv n { b.cvSt n with fin := true }

/-- The expected value of a message, from its expected bytes (R627). -/
def cvExpected (expo : Bool) (l : List Nat) : Nat :=
  (if expo then leNum l.reverse else leNum l) % 2 ^ 32

/-- The results of a message (R618, R622, R627–R630): RES, CM, AV, the counters, the edge. -/
def cvResult (c : Ctx) (n : Nat) (b : Block) : Block :=
  let w := b.cvWidth n
  let s := b.cvSt n
  let r := b.cvReg n (R.CV_RUN n)
  let res := (if b.on (F.CV_CFG_REFOUT n) then reflectBits w r else r) ^^^ b.cvReg n (R.CV_XOR n)
  let b := if s.client.isSome then b.wr (R.CV_EXP n) (cvExpected (b.on (F.CV_CFG_EXPO n)) s.exps) else b
  let b := b.wr (R.CV_RES n) res
  let cm := cvCompare n && res != b.rd (R.CV_EXP n)
  let (av, b) := if b.on (F.CV_CFG_ACHK n) && !cm then cvJudge n b else (0, b)
  let b := (b.put (F.CV_STAT_CM n) (b2n cm)).put (F.CV_STAT_AV n) av
  let b := if cm then b.bump (F.CV_STAT_CRCERR n) 1 else b
  let b := if av ≠ 0 then b.bump (F.CV_STAT_ALVERR n) 1 else b
  let b := b.setCv n { b.cvSt n with client := none, fin := false }
  if cvCompare n ∧ b.on (F.CV_CFG_IRQE n) ∧ (cm ∨ av ≠ 0) then raiseEdge c (0x040 + (n - 16)) b else b

/-! ### Software (R619–R624, R631) -/

/-- A software step while a client's message is open is ignored (R631). -/
def cvUnlessClient (n : Nat) (f : Block → Block) (b : Block) : Block :=
  if b.on (F.CV_STAT_OPEN n) ∧ (b.cvSt n).client.isSome then b.flag (F.CV_STAT_SEQERR n) else f b

def cvStart (n : Nat) (b : Block) : Block := cvUnlessClient n (cvBegin n none) b

/-- DATA (R619, R621). -/
def cvData (n v : Nat) (b : Block) : Block :=
  cvUnlessClient n (fun b =>
    if b.on (F.CV_STAT_OPEN n) then
      let k := match b.get (F.CV_CTL_DW n) with
        | 0 => 1
        | 1 => 2
        | _ => 4
      (List.range k).foldl (fun b j => cvByte n (bits v (8 * j + 7) (8 * j)) false b) b
    else b.flag (F.CV_STAT_SEQERR n)) b

/-- END (R621). -/
def cvFinish (n : Nat) (b : Block) : Block := if b.on (F.CV_STAT_OPEN n) then cvEnd n b else b.flag (F.CV_STAT_SEQERR n)

/-- A write of RUN (R623); the alive bits absorbed before it are not known any more. -/
def cvRun (n v : Nat) (b : Block) : Block :=
  cvUnlessClient n (fun b =>
    let b := (b.wr (R.CV_RUN n) (v % 2 ^ b.cvWidth n)).put (F.CV_STAT_OPEN n) 1
    b.setCv n { b.cvSt n with client := none, alv := 0, known := 0, exps := [] }) b

/-- Apply a software write to a unit, by its offset (R619–R624). -/
def cvApply (n off v : Nat) (b : Block) : Block :=
  let a := R.CV_CFG n + off
  match off with
  | 0x00 => if b.on (F.CV_STAT_OPEN n) then b
            else b.wr a (setBits (setBits v 15 6 0) 31 31 (b2n (cvCompare n)) - (if cvCompare n then 0 else bits v 26 25 * 2 ^ 25))
  | 0x10 =>
    let b := b.put (F.CV_CTL_DW n) v
    let b := if bit v 2 then cvStart n b else b
    if bit v 3 then cvFinish n b else b
  | 0x14 => cvData n v b
  | 0x18 => cvRun n v b
  | 0x1C => b
  | 0x20 => if cvCompare n then b.wr a v else b
  | 0x24 => b.wr a (setBits v 15 9 0)
  | 0x28 => if bit v 5 then b.put (F.CV_STAT_SEQERR n) (b2n (bit (b.fc.hwSet.getD 0 a) 5)) else b
  | _ => if b.on (F.CV_STAT_OPEN n) then b else b.wr a v

/-- The rank of a write within the fc it is applied in (R620): RUN, ALV and the clearing of STAT,
then START, DATA, END. -/
def cvRank (off : Nat) : Nat := if off = 0x18 ∨ off = 0x24 ∨ off = 0x28 then 0 else if off = 0x14 then 2 else 1

/-- Apply the writes of the fc before, in the order of R620; a CTL word with both START and END straddles DATA. -/
def cvTick (b : Block) : Block :=
  let q := b.cvq
  let b := { b with cvq := [] }
  let at_ (r : Nat) : List (Nat × Nat × Nat) := q.filter fun x => cvRank x.2.1 == r
  let b := (at_ 0 ++ at_ 1).foldl (fun b x =>
    if x.2.1 = 0x10 then cvApply x.1 x.2.1 (setBits x.2.2 3 3 0) b else cvApply x.1 x.2.1 x.2.2 b) b
  let b := (at_ 2).foldl (fun b x => cvApply x.1 x.2.1 x.2.2 b) b
  (at_ 1).foldl (fun b x => if x.2.1 = 0x10 ∧ bit x.2.2 3 then cvFinish x.1 b else b) b

/-- What a read of a unit's register shows, by the bits of R619. -/
def Block.cvShow (b : Block) (n off w : Nat) : Nat :=
  if off = 0x04 ∨ off = 0x08 ∨ off = 0x0C ∨ off = 0x18 then w % 2 ^ b.cvWidth n
  else if off = 0x20 ∧ !cvCompare n then 0 else w

/-! ### Clients (R617, R627, R629, R631) -/

/-- A client's byte, `expected` or checked. -/
def cvClientByte (n : Nat) (x : Nat × Bool) (b : Block) : Block :=
  let b := cvByte n x.1 x.2 b
  if x.2 then b.setCv n { b.cvSt n with exps := (b.cvSt n).exps ++ [x.1 % 256] } else b

/-- A client's message begins with its first byte; one that begins while a message is open is discarded, and counted as a mismatch
(R631). -/
def cvClientBegin (n : Nat) (who : CvClient) (b : Block) : Bool × Block :=
  if b.on (F.CV_STAT_OPEN n) then (false, b.bump (F.CV_STAT_CRCERR n) 1) else (true, cvBegin n (some who) b)

/-- Is the client's message open at the unit? -/
def Block.cvHas (b : Block) (n : Nat) (who : CvClient) : Bool :=
  b.on (F.CV_STAT_OPEN n) && (b.cvSt n).client == some who && !(b.cvSt n).fin

/-- The check-value unit that the frame engine of feedback unit n presents its response to (R310). -/
def Block.fbCv (b : Block) (hw : Hw) (n : Nat) : Option Nat :=
  let u := b.get (F.FB_CRC_CVU n)
  if b.on (F.FB_CRC_CRCEN n) && cvPresent hw u && cvCompare u then some u else none

/-- The frame engine presents one byte of the response (R310). -/
def fbShow (u n : Nat) (b : Block) (x : Nat × Bool) : Block :=
  let first := (b.fbSt n).shown == 0
  let b := b.setFb n { b.fbSt n with shown := (b.fbSt n).shown + 1 }
  let (ok, b) := if first then cvClientBegin u (.fb n) b else (!(b.fbSt n).cvGone && b.cvHas u (.fb n), b)
  if ok then cvClientByte u x b else b.setFb n { b.fbSt n with cvGone := true }

/-- A byte of the response is presented in the fc in which it is complete, the last one apart (R310). -/
def fbShowTick (c : Ctx) (b : Block) (n : Nat) : Block :=
  let s := b.fbSt n
  match b.fbCv c.hw n with
  | some u =>
    let i := s.chars.length - 1
    if s.reqAt.isSome && !s.chars.isEmpty && tickOf s.charCtr == c.tick && i < b.get (F.FB_FRM_RSN n) then
      (b.fbCvLeft n).foldl (fbShow u n) b
    else b
  | none => b

/-- The row CV_CLIENT_MESSAGE: the frame engine of feedback unit n presents what is left of its frame, and ends the message (R310, R617);
a message that was discarded gives a mismatch (R631). What a client whose message software has ended gets the spec does not state. -/
def cvFbMessage (c : Ctx) (n : Nat) (b : Block) : Block :=
  match (b.fbSt n).frame, b.fbCv c.hw n with
  | some f, some u =>
    when (f.wait && !f.left.isEmpty) (fun b =>
      let b := b.setFb n { b.fbSt n with frame := some { f with left := [] } }
      let b := f.left.foldl (fbShow u n) b
      if !(b.fbSt n).cvGone then cvEnd u b
      else if b.on (F.CV_STAT_OPEN u) then fbVerdict n true false b
      else
        let (v, b) := b.free
        fbVerdict n (v % 2 == 1) false b) b
  | _, _ => b

/-- At the end of the fc in which END was applied, OPEN becomes 0 (R622). -/
def cvEndFc (b : Block) (n : Nat) : Block := if (b.cvSt n).fin then b.put (F.CV_STAT_OPEN n) 0 else b

end Sys2Proof.Machine
end

