-- ==== Sys2Proof/Machine/Coding.lean ====
section
/-! DEFINITION. The line code of a Golbex lane in role TWIN or HEAD (R690–R693): RS(544,514) over GF(2^10), its symbol order and the
PAM4 Gray mapping. The spec names IEEE 802.3 Clause 119 for them; what that clause says is log entry 135's (PRESUMED). -/

namespace Sys2Proof.Machine

/-- A product in GF(2^10) = GF(2)[x] / (x^10 + x^3 + 1). -/
def gfMul (a b : Nat) : Nat :=
  ((List.range 10).foldl (fun (p, a) i =>
    (if bit b i then p ^^^ a else p, if bit a 9 then (a * 2 % 1024) ^^^ 9 else a * 2)) (0, a)).1

/-- α^k, α = x. -/
def gfAlpha (k : Nat) : Nat := (List.range k).foldl (fun a _ => gfMul a 2) 1

/-- Two polynomials' sum, coefficient by coefficient. -/
def gfAdd : List Nat → List Nat → List Nat
  | [], l => l
  | l, [] => l
  | a :: s, b :: t => (a ^^^ b) :: gfAdd s t

/-- The code generator polynomial ∏ (x − α^j), j = 0 to 29, highest coefficient first. -/
def rsGenerator : List Nat := (List.range 30).foldl (fun g j => gfAdd (g ++ [0]) (0 :: g.map (gfMul (gfAlpha j)))) [1]

/-- One data symbol into the remainder of the division by the generator, highest coefficient first. -/
def rsStep (g : List Nat) (rem : List Nat) (s : Nat) : List Nat :=
  let fb := s ^^^ rem.headD 0
  gfAdd (rem.drop 1 ++ [0]) ((g.drop 1).map (gfMul fb))

/-- The 30 parity symbols of a message, its first symbol the highest coefficient. -/
def rsParity (msg : List Nat) : List Nat := msg.foldl (rsStep rsGenerator) (List.replicate 30 0)

/-- The 10-bit symbols of a bit stream, the first bit in bit 0. -/
def symbolsOf (v n : Nat) : List Nat := (List.range n).map fun i => bits v (10 * i + 9) (10 * i)

/-- Symbols as a bit stream. -/
def symbolBits : List Nat → Nat
  | [] => 0
  | s :: t => s % 1024 + 1024 * symbolBits t

/-- A codeword, 5,440 bits, of 5,140 data bits; the first bit sent is bit 0. -/
def rsCodeword (data : Nat) : Nat :=
  let msg := symbolsOf data 514
  symbolBits (msg ++ rsParity msg)

/-- The PAM4 level, 0 to 3, of bits 2i and 2i + 1 of a codeword, Gray-coded; `inv` exchanges the levels about the middle (TXINV, R690). -/
def pam4 (cw i : Nat) (inv : Bool) : Nat :=
  let lv := match bit cw (2 * i), bit cw (2 * i + 1) with
    | false, false => 0
    | false, true => 1
    | true, true => 2
    | true, false => 3
  if inv then 3 - lv else lv

/-- The 320 bits of a cell, in the order in which they enter the coded stream (R692). -/
def cellBits (head payload check crc : Nat) : Nat :=
  head % 2 ^ 32 + payload % 2 ^ 256 * 2 ^ 32 + check % 65536 * 2 ^ 288 + crc % 65536 * 2 ^ 304

/-- A stream of data bits, `len` of them, with a cell after them: what is left over, and the codeword that is full, if one is (R691). -/
def streamCell (stream len cell : Nat) : Nat × Nat × Option Nat :=
  let v := stream + cell * 2 ^ len
  if len + 320 < 5140 then (v, len + 320, none) else (v / 2 ^ 5140, len + 320 - 5140, some (rsCodeword (v % 2 ^ 5140)))

end Sys2Proof.Machine
end

