-- ==== Sys2Proof/Machine/Golbex.lean ====
section
/-! DEFINITION. Golbex lanes (spec/20): lane states, transmission, SYNC, registers.  What a received cell leads to is in
Machine/LinkRx.lean. -/

namespace Sys2Proof.Machine

def Block.glSt (b : Block) (n : Nat) : GlSt := b.gl.getD {} n
def Block.setGl (b : Block) (n : Nat) (v : GlSt) : Block := { b with gl := b.gl.setD {} n v }

/-- Roles (R688). -/
def Block.glTwin (b : Block) (n : Nat) : Bool := b.get (F.GL_CFG_ROLE n) == 1
def Block.glHead (b : Block) (n : Nat) : Bool := b.get (F.GL_CFG_ROLE n) == 2
def Block.glCells (b : Block) (n : Nat) : Bool := b.glTwin n || b.glHead n

/-- The lane's interrupt edge (R702). -/
def glEdge (c : Ctx) (n : Nat) (b : Block) : Block := raiseEdge c (0x050 + n) b

/-- The lane that holds the twin link's shared state. -/
def Block.glHome (b : Block) (n : Nat) : Nat := if b.glTwin n then 0 else n

/-! ### Lane states (R700) -/

/-- The lane leaves UP: TV is cleared (R710). -/
def glLeave (n st : Nat) (b : Block) : Block := (b.put (F.GL_STAT_LSTATE n) st).put (F.GL_STAT_TV n) 0

/-- EN set on a TWIN or HEAD lane. -/
def glEnable (n : Nat) (b : Block) : Block :=
  let b := b.put (F.GL_CTL_EN n) 1
  if b.glCells n ∧ b.get (F.GL_STAT_LSTATE n) = 0 then
    (b.setGl n { b.glSt n with snum := 0, sent := [], syncDue := false }).put (F.GL_STAT_LSTATE n) 1
  else b

/-- EN cleared. -/
def glDisable (n : Nat) (b : Block) : Block :=
  (glLeave n 0 (b.put (F.GL_CTL_EN n) 0)).put (F.GL_STAT_TXRDY n) 0

/-- CTL.RESYNC. -/
def glResync (n : Nat) (b : Block) : Block :=
  when (b.on (F.GL_CTL_EN n) && b.glCells n) (glLeave n 1) b

def glTrainDone (n : Nat) (b : Block) : Block :=
  when (b.get (F.GL_STAT_LSTATE n) == 1) (fun b =>
    let b := if b.on (F.GL_STAT_TXRDY n) then b else b.setGl n { b.glSt n with stream := 0, filled := 0 }
    (b.put (F.GL_STAT_LSTATE n) 2).put (F.GL_STAT_TXRDY n) 1) b

def glCodewordLock (n : Nat) (b : Block) : Block :=
  when (b.get (F.GL_STAT_LSTATE n) == 2) (fun b => b.put (F.GL_STAT_LSTATE n) 3) b

/-- The lane reaches UP: SEQ counters and expected values start again (R695, R696), those of the channels that the twin lanes share only
where the other lane is not UP (log entry 158); no SYNC is echoed yet (R708). -/
def glCellLock (c : Ctx) (n : Nat) (b : Block) : Block :=
  when (b.get (F.GL_STAT_LSTATE n) == 3) (fun b =>
    let s := b.glSt n
    let b := b.setGl n { s with echo := none, base := some c.tick, badCw := 0, badHead := 0, seq := s.seq.erase (0x100 + n) }
    let alone := !b.glTwin n || b.get (F.GL_STAT_LSTATE (1 - n)) != 4
    let h := b.glHome n
    let b := if alone then b.setGl h { b.glSt h with seq := [], rx := [], unseen := [] }
      else b.setGl h { b.glSt h with rx := (b.glSt h).rx.erase (0x100 + n) }
    glEdge c n (b.put (F.GL_STAT_LSTATE n) 4)) b

/-- UP ends: the lane searches codewords again, LOL counts. -/
def glLose (c : Ctx) (n : Nat) (b : Block) : Block :=
  when (b.get (F.GL_STAT_LSTATE n) == 4) (fun b => glEdge c n ((glLeave n 2 b).bump (F.GL_ERR1_LOL n) 1)) b

/-- UP ends after 4 consecutive uncorrectable codewords, or 8 consecutive failed header CRCs. -/
def glLossOfLock (c : Ctx) (n : Nat) (b : Block) : Block :=
  when (4 ≤ (b.glSt n).badCw || 8 ≤ (b.glSt n).badHead) (glLose c n) b

/-! ### Transmission (R694, R695, R701) -/

/-- A header with the channel's next SEQ, and the counter advanced. -/
def glSeq (n head : Nat) (b : Block) : Nat × Block :=
  let h := b.glHome n
  let ch := bits head 27 20
  let s := b.glSt h
  let k := s.seq.getD 0 ch
  (setBits head 19 12 k, b.setGl h { s with seq := s.seq.setD 0 ch ((k + 1) % 256) })

/-- A twin-link cell is queued on both lanes with one SEQ (R699); `src`: the lane whose software committed it, 2 for none. -/
def twinQueue (prio src head payload : Nat) (b : Block) (poison : Bool := false) : Block :=
  let (head, b) := glSeq 0 head b
  (List.range 2).foldl (fun b n =>
    if b.glTwin n then b.setGl n { b.glSt n with tq := (b.glSt n).tq ++ [⟨prio, src, head, payload, poison⟩] } else b) b

/-- The payload of the SYNC that departs at `dep` (R708). -/
def syncPayload (dep snum epoch : Nat) (echo : Option (Nat × Nat)) : Nat :=
  let (ev, es, t2) := match echo with
    | some (s, t) => (1, s, t)
    | none => (0, 0, 0)
  payloadOf [tickOf dep, tickOf dep / 2 ^ 32, snum % 256 * 65536 + fineOf t2 * 256 + fineOf dep, tickOf t2, tickOf t2 / 2 ^ 32,
    ev * 2 ^ 31 + es % 256, 0, epoch]

/-- The CRC-16 of a header (R693). -/
def headCrc (head : Nat) : Nat :=
  (List.range 4).foldl (fun c k => crcByte 16 0x1021 false c (bits head (8 * k + 7) (8 * k))) 0xFFFF

/-- The check of a sent cell (R692): K272, with the poison mark of R560. -/
def sentCheck (payload : Nat) (poison : Bool) : Nat := k272 payload ^^^ (if poison then 0xFFFF else 0)

/-- The lane hands a cell to its transmitter, which codes it into its stream (R691–R693). -/
def glSend (n head payload : Nat) (poison : Bool) (b : Block) : Block :=
  let s := b.glSt n
  let (stream, filled, cw) := streamCell s.stream s.filled (cellBits head payload (sentCheck payload poison) (headCrc head))
  b.setGl n { s with out := some ⟨head, payload, poison⟩, stream := stream, filled := filled, codeword := cw.or s.codeword }

/-- PAM4 symbol i of the last codeword at the transmit balls (R690, R691). -/
def Block.glPam (b : Block) (n i : Nat) : Option Nat := (b.glSt n).codeword.map fun cw => pam4 cw i (b.on (F.GL_CFG_TXINV n))

/-- A SYNC leaves, its first header bit 72 fc later at `fine` (R698, R708). -/
def glSendSync (c : Ctx) (n fine : Nat) (b : Block) : Block :=
  let s := b.glSt n
  let dep := mkTime (c.tick + 72) fine
  let k := s.seq.getD 0 (0x100 + n)
  let p := syncPayload dep s.snum (if b.glTwin n then b.rd R.PV_EPOCH else 0) s.echo
  let b := b.setGl n { s with
    syncDue := false, snum := (s.snum + 1) % 256, sent := ((s.snum, dep) :: s.sent).take 4
    seq := s.seq.setD 0 (0x100 + n) ((k + 1) % 256) }
  glSend n (setBits (cellHead 3 0xFF 0) 19 12 k) p false b

/-- The first cell by priority, oldest first. -/
def firstTwin (l : List TwinCell) : Option TwinCell :=
  l.foldl (fun a x => match a with
    | none => some x
    | some y => if x.prio < y.prio then some x else a) none

/-- The head of a lane queue leaves (R367, R695). -/
def faDepart (c : Ctx) (n : Nat) (b : Block) : Block :=
  match faPop c n b with
  | some (x, b) =>
    let (head, b) := glSeq n x.head b
    glSend n head x.payload x.poison b
  | none => b

/-- A cell slot carries the first cell that is ready (R701). -/
def glSlot (c : Ctx) (n fine : Nat) (b : Block) : Block :=
  let s := b.glSt n
  when (b.on (F.GL_STAT_TXRDY n) && b.glCells n) (fun b =>
    if s.syncDue then glSendSync c n fine b
    else if b.glTwin n then
      match firstTwin s.tq with
      | some x =>
        let b := b.setGl n { s with tq := s.tq.erase x }
        let b := if x.src = n then b.put (F.GL_STAT_TXBUSY n) 0 else b
        glSend n x.head (setBits x.payload 255 224 (b.rd R.PV_EPOCH)) x.poison b
      | none => glSend n (cellHead 15 0 0) 0 false b
    else if !(b.laneQueue n).isEmpty then faDepart c n b
    else
      match s.sw with
      | some x =>
        let b := (b.setGl n { s with sw := none }).put (F.GL_STAT_TXBUSY n) 0
        let (head, b) := glSeq n x.head b
        glSend n head x.payload false b
      | none => glSend n (cellHead 15 0 0) 0 false b) b

/-- The row FA_CELL_DEPART: the slot falls to the lane queue. -/
def faCellDepart (c : Ctx) (n : Nat) (b : Block) : Block :=
  when (b.on (F.GL_STAT_TXRDY n) && b.glHead n && !(b.glSt n).syncDue) (faDepart c n) b

/-- A SYNC falls due (R708). -/
def glSyncDue (c : Ctx) (n : Nat) (b : Block) : Block :=
  when (b.on (F.GL_STAT_TXRDY n) && b.glCells n && c.tick % 4096 == 0) (fun b =>
    b.setGl n { b.glSt n with syncDue := true }) b

/-- Has no SYNC updated DLY and OFS for the lane's time (R711)? -/
def Block.glLate (b : Block) (c : Ctx) (n : Nat) : Bool :=
  let t := c.start.get (F.GL_CFG_SYNCTO n)
  t != 0 && b.get (F.GL_STAT_LSTATE n) == 4 && (b.glSt n).base.any fun x => x + t * 4096 ≤ c.tick

/-- The row GL_SYNC_TIMEOUT: the time ends in this fc; a SYNC of this fc is still taken (R711). -/
def glSyncTimeout (c : Ctx) (n : Nat) (b : Block) : Block :=
  when (b.glLate c n) (fun b => b.setGl n { b.glSt n with lapse := true }) b

/-- A lane at the end of an fc: SLOST where its time has ended; the FIFO holds 64 cells once the reads of the fc have removed theirs
(R703, R705, R711). -/
def glEndFc (c : Ctx) (b : Block) (n : Nat) : Block :=
  let s := b.glSt n
  let b := if !s.lapse then b
    else
      let b := b.setGl n { s with lapse := false }
      when (b.glLate c n) (fun b =>
        glEdge c n (((b.setGl n { b.glSt n with base := none }).flag (F.GL_STAT_SLOST n)).put (F.GL_STAT_TV n) 0)) b
  when (64 < (b.glSt n).fifo.length) (fun b =>
    glEdge c n ((b.setGl n { b.glSt n with fifo := (b.glSt n).fifo.take 64 }).flag (F.GL_STAT_RXOVF n))) b

/-! ### Registers -/

/-- A write of GLn_CTL. -/
def glCtlWrite (ag : Agent) (l : Loc) (a v : Nat) (b : Block) : Block :=
  let n := l.inst
  let b := b.plainWrite ag l a v
  let b := if bit v 0 then glEnable n b else glDisable n b
  if bit v 1 then glResync n b else b

/-- A write of GLn_TXH (R706); TXBUSY counts in the fc in which the cell leaves. -/
def glTxCommit (c : Ctx) (l : Loc) (a v : Nat) (b : Block) : Block :=
  let n := l.inst
  let v := setBits v 19 12 0
  let b := b.noteWrite l a v
  let kind := bits v 31 28
  if !b.glCells n then b
  else if (kind ≠ 7 ∧ kind ≠ 8) ∨ 0xFD < bits v 27 20 ∨ b.on (F.GL_STAT_TXBUSY n) ∨ c.start.on (F.GL_STAT_TXBUSY n) then
    b.flag (F.GL_STAT_TXERR n)
  else
    let p := payloadOf ((List.range 8).map fun k => b.rd (R.GL_TXW n k))
    let b := (b.wr a v).put (F.GL_STAT_TXBUSY n) 1
    if b.glTwin n then twinQueue 2 n v p b else b.setGl n { b.glSt n with sw := some ⟨v, p, false⟩ }

/-- A write of GLn_TXWk: ignored while TXBUSY is 1 (R706). -/
def glTxwWrite (c : Ctx) (ag : Agent) (l : Loc) (a v : Nat) (b : Block) : Block :=
  if c.start.on (F.GL_STAT_TXBUSY l.inst) then b.noteWrite l a v else b.plainWrite ag l a v

/-- A read of GLn_RXS (R705): a cell accepted in this fc enters the FIFO after the removal, so that a FIFO empty at the start of the
fc shows none. -/
def glRxsRead (c : Ctx) (n : Nat) (b : Block) : Nat × Block :=
  let s := b.glSt n
  match s.fifo with
  | [] => (0, b)
  | x :: rest =>
    if (c.start.glSt n).fifo.isEmpty then (0, b)
    else (2 ^ 31 + b2n x.cm * 2 ^ 30 + x.av % 4 * 2 ^ 28, b.setGl n { s with fifo := rest })

/-- A read of GLn_OFSL: OFSH, DLY and SNUM are snapshot with it, as they stood at the start of the fc. -/
def glOfslRead (c : Ctx) (n : Nat) (b : Block) : Nat × Block :=
  let s := c.start.glSt n
  let rsn := match s.echo with
    | some (k, _) => k
    | none => 0
  let b := (b.wr (R.GL_OFSH n) (s.ofs / 2 ^ 32)).wr (R.GL_DLY n) s.dly
  (s.ofs % 2 ^ 32, b.wr (R.GL_SNUM n) (rsn * 256 + (s.snum + 255) % 256 * b2n (!s.sent.isEmpty)))

/-- What the receive registers and RXFILL show. -/
def Block.glShow (b : Block) (n off w : Nat) : Nat :=
  let s := b.glSt n
  if off ≠ 0 ∧ off ≠ 8 ∧ !b.glCells n then 0
  else if off = 0x08 then setBits w 16 10 s.fifo.length
  else match s.fifo with
    | [] => if 0x80 ≤ off ∧ off ≤ 0xA0 then 0 else w
    | x :: _ => if off = 0xA0 then x.head else if 0x80 ≤ off ∧ off < 0xA0 then bits x.payload (8 * (off - 0x80) + 31) (8 * (off - 0x80)) else w

end Sys2Proof.Machine
end

