-- ==== Sys2Proof/Machine/Spares.lean ====
section
/-! DEFINITION. The save layout (spec/12) and the cluster supervisors (spec/22): heartbeats, checkpoints, spare takeover,
isolation reset. -/

namespace Sys2Proof.Machine

/-! ### The save layout (R509–R511) -/

/-- A tagged word from numbers. -/
def tw (d t : Nat) : TWord := ⟨BitVec.ofNat 32 d, BitVec.ofNat 4 t⟩

/-- Word 2 of an accumulator in the layout: kind and bits 79–64. -/
def AccV.top (a : AccV) : Nat := a.kind * 65536 + bits a.v.toNat 79 64

/-- RSM and TCTL as words. -/
def TaskSt.rsmWord (t : TaskSt) : Nat := b2n t.rsmV * 2 ^ 31 + t.rsmIdx % 65536
def TaskSt.tctl (t : TaskSt) : Nat := t.pri % 8 * 4096 + b2n t.ceil * 256 + b2n t.priv

/-- Word j of the save layout. -/
def TaskSt.saveWord (t : TaskSt) (j : Nat) : TWord :=
  if j < 31 then t.reg (j + 1)
  else match j with
    | 31 => tw (bits t.acc0.v.toNat 31 0) 0
    | 32 => tw (bits t.acc0.v.toNat 63 32) 0
    | 33 => tw t.acc0.top 0
    | 34 => tw (bits t.acc1.v.toNat 31 0) 0
    | 35 => tw (bits t.acc1.v.toNat 63 32) 0
    | 36 => tw t.acc1.top 0
    | 37 => tw t.pc 9
    | 38 => tw t.rsmWord 2
    | 39 => t.rsw
    | 40 => tw t.tctl 2
    | _ => {}

/-- Bits hi..lo of an accumulator made v. -/
def AccV.part (a : AccV) (hi lo v : Nat) : AccV := { a with v := BitVec.ofNat 80 (setBits a.v.toNat hi lo v) }

/-- Make a save word hold a value, with no dirty bit. -/
def TaskSt.putWord (t : TaskSt) (j : Nat) (v : TWord) : TaskSt :=
  let d := v.d.toNat
  if j < 31 then { t with g := t.g.setD {} (j + 1) v }
  else match j with
    | 31 => { t with acc0 := t.acc0.part 31 0 d }
    | 32 => { t with acc0 := t.acc0.part 63 32 d }
    | 33 => { t with acc0 := { t.acc0.part 79 64 d with kind := bits d 18 16 } }
    | 34 => { t with acc1 := t.acc1.part 31 0 d }
    | 35 => { t with acc1 := t.acc1.part 63 32 d }
    | 36 => { t with acc1 := { t.acc1.part 79 64 d with kind := bits d 18 16 } }
    | 37 => { t with pc := d }
    | 38 => { t with rsmV := bit d 31, rsmIdx := bits d 15 0 }
    | 39 => { t with rsw := v }
    | 40 => { t with priv := bit d 0 }
    | _ => t

/-- The group of a save word, and a group's first word and length. -/
def wordGroup (j : Nat) : Nat :=
  if j < 7 then 0 else if j < 15 then 1 else if j < 23 then 2 else if j < 31 then 3 else if j < 37 then 4 else 5
def groupFirst (g : Nat) : Nat := [0, 7, 15, 23, 31, 37].getD g 41
def groupLen (g : Nat) : Nat := [7, 8, 8, 8, 6, 4].getD g 0

/-- The save words of the groups in a mask, in order. -/
def groupWords (m : Nat) : List Nat :=
  ((List.range 6).filter (bit m)).flatMap fun g => (List.range (groupLen g)).map fun k => groupFirst g + k

/-! ### Heartbeats (R742–R745) -/

/-- A store to SU_CLcc_HBe. -/
def heartbeat (c : Ctx) (cl k : Nat) (b : Block) : Block :=
  let s := b.suSt cl
  b.setSu cl { s with hb := s.hb.insert k c.tick }

/-- The engine watched under HBEN bit k. -/
def Block.watchedEng (b : Block) (cl k : Nat) : Nat := b.standIn (8 * cl + k)

/-- The fc from which the silence of bit k is counted (R743, R750). -/
def Block.hbFrom (b : Block) (cl k : Nat) : Option Nat :=
  match (b.suSt cl).hb.find? k with
  | some h => some h
  | none => b.fcS

/-! ### Checkpoints (R746–R749) -/

/-- Is a task in WAIT or READY? -/
def TaskSt.resting (t : TaskSt) : Bool := t.st == .wait || t.st == .ready

/-- A snapshot of task k of engine e, as the fc found the task (R747, R748); what a window write of this fc makes dirty is no part of it
and stays dirty. -/
def ckSnapshot (c : Ctx) (e k : Nat) (b : Block) : Block :=
  let cl := clusterOf e
  let s := b.suSt cl
  let t := c.start.taskSt e k
  let en := c.start.engSt e
  let ckp := b.get (F.CL_CKP_CKP cl)
  let watched := b.on (F.CL_CFG_EN cl) &&
    ((List.range 8).any fun j => bit (b.get (F.CL_CFG_HBEN cl)) j && b.watchedEng cl j == e)
  let quiet := !(en.late.any fun x => x.task == k) && !(en.loads.any fun x => x.task == k)
  let fresh := (s.period.find? (e % 8 * 64 + k)) != some (c.tick / ckp)
  when (ckp != 0 && watched && quiet && fresh && t.resting && (b.taskSt e k).resting && t.dc != 0 && k < b.nt.getD 0 e) (fun b =>
    let x : Snap := ⟨e % 8, k, t.st == .ready, t.dc, (List.range 41).map t.saveWord⟩
    let b := b.setSu cl { s with snaps := s.snaps ++ [x], period := s.period.insert (e % 8 * 64 + k) (c.tick / ckp) }
    b.setTask e k { b.taskSt e k with dc := b.fc.hwSet.getD 0 (dcKey e k) }) b

/-- The address of a task's record. -/
def Block.recordAddr (b : Block) (cl e k : Nat) : Nat :=
  0x10000000 + cl * 0x100000 + b.get (F.CL_CKB_OFS cl) * 32 + (64 * e + k) * 192

/-- The 48 words of a record as they stand. -/
def Block.recordWords (b : Block) (a : Nat) : List Nat := (List.range 48).map fun w => numFrom b.goodByte (a + 4 * w) 4

/-- The tag of save word j in a record. -/
def recordTag (ws : List Nat) (j : Nat) : Nat := bits (ws.getD (42 + j / 8) 0) (4 * (j % 8) + 3) (4 * (j % 8))

/-- A record with a capture merged into it (R749). -/
def mergeRecord (ws : List Nat) (x : Snap) : List Nat :=
  let js := groupWords x.groups
  let ws := js.foldl (fun (ws : List Nat) j =>
    let v := x.words.getD j {}
    let tagw := setBits (ws.getD (42 + j / 8) 0) (4 * (j % 8) + 3) (4 * (j % 8)) v.t.toNat
    (ws.set (j + 1) v.d.toNat).set (42 + j / 8) tagw) ws
  let w0 := ws.getD 0 0
  let gv := bits w0 29 24 ||| x.groups
  ws.set 0 (2 ^ 31 + b2n x.ready * 2 ^ 30 + gv * 2 ^ 24 + (bits w0 15 0 + 1) % 65536)

/-- A record as it is read: its 48 words, and of each of its six granules whether it carries the poison mark (R562). -/
structure Rec where
  words : List Nat
  marks : List Bool := []

/-- Does word w of a record lie in a marked granule? -/
def Rec.bad (r : Rec) (w : Nat) : Bool := r.marks.getD (w / 8) false

/-- A record is read from `src`, granule by granule, each read counted in `b` (R562, R566). -/
def recordRead (c : Ctx) (src : Block) (a : Nat) (b : Block) : Rec × Block :=
  let gs := (List.range 6).map fun g => a / 32 + g
  (⟨src.recordWords a, gs.map src.granBad⟩, gs.foldl (fun b g => (granRead c src g b).2.2) b)

/-- A record with a capture merged into it keeps the mark of each granule of which it keeps a word (R749, R564). -/
def Rec.merge (r : Rec) (x : Snap) : Rec :=
  let js := groupWords x.groups
  let fresh (w : Nat) : Bool :=
    if w = 0 then false else if w < 42 then js.contains (w - 1) else (List.range 8).all fun i => js.contains (8 * (w - 42) + i)
  ⟨mergeRecord r.words x, (List.range 6).map fun g => r.marks.getD g false && !((List.range 8).all fun i => fresh (8 * g + i))⟩

/-- Store a record, granule by granule, the one with word 0 last (R749), in the order of R556 with other writes of the fc. -/
def storeRecord (a : Nat) (r : Rec) (b : Block) : Block :=
  ((List.range 6).reverse).foldl (fun b g =>
    orderedGran 100 (a / 32 + g) (payloadOf ((r.words.drop (8 * g)).take 8)) (r.marks.getD g false) b) b

/-- A completed record goes out as seven CKPT cells (R762), marked where they carry words of a marked granule (R562). -/
def sendRecord (cl e k : Nat) (r : Rec) (b : Block) : Block :=
  (List.range 7).foldl (fun b f =>
    twinQueue 3 2 (cellHead 4 cl (f * 512 + k * 8 + e)) (payloadOf ((r.words.drop (7 * f)).take 7)) b
      (poison := (List.range 7).any fun i => 7 * f + i < 48 && r.bad (7 * f + i))) b

/-- Is Sporeline sending for a cluster (R762)? -/
def Block.sporeSends (b : Block) (cl : Nat) : Bool :=
  b.on F.PV_CFG_PAIR && b.get F.PV_STAT_ROLE == 2 && bit (b.rd R.PV_CKCL) cl

/-- The oldest snapshot is written into its record (R749, R762). -/
def ckRecordWrite (c : Ctx) (cl : Nat) (b : Block) : Block :=
  let s := b.suSt cl
  match s.snaps with
  | [] => b
  | x :: rest =>
    let a := b.recordAddr cl x.eng x.task
    let (r, b) := recordRead c c.start a b
    let r := r.merge x
    let b := storeRecord a r (b.setSu cl { s with snaps := rest })
    if b.sporeSends cl then sendRecord cl x.eng x.task r b else b

/-- Save word j as a record gives it: a tagged one, of a register or RSW, is POISON, data 0, where it or its tag lies in a marked granule
(R562, log entry 177). -/
def Rec.word (r : Rec) (j : Nat) : TWord :=
  if (j < 31 || j == 39) && (r.bad (j + 1) || r.bad (42 + j / 8)) then tw 0 15 else tw (r.words.getD (j + 1) 0) (recordTag r.words j)

/-- A task of engine e is restored from a record (R751). -/
def restoreTask (tick e k : Nat) (r : Rec) (b : Block) : Block :=
  let t := b.taskSt e k
  let ws := r.words
  let w0 := ws.getD 0 0
  if bit w0 31 then
    let t : TaskSt := { pri := t.pri, ceil := t.ceil, dln := t.dln, entry := t.entry, apend := t.apend, alost := t.alost
                        pendKind := t.pendKind, pendIrq := t.pendIrq, lin := t.lin, lout := t.lout }
    let t := (groupWords (bits w0 29 24)).foldl (fun (t : TaskSt) j => t.putWord j (r.word j)) t
    let t := { t with priv := bit (ws.getD 41 0) 0 || t.ceil }
    b.setTask e k { t with
      st := if bit w0 30 then .ready else .wait, readySince := tick, ds := 0, dc := 0x3F, waited := !bit w0 30 }
  else b.setTask e k { t with st := .wait, pc := t.entry, rsmV := false, rsmIdx := 0 }

/-- The same, from the record at an address. -/
def restoreFrom (c : Ctx) (tick e k a : Nat) (b : Block) : Block :=
  let (r, b) := recordRead c c.start a b
  restoreTask tick e k r b

/-! ### Spare takeover (R33, R405, R585, R750–R754) -/

/-- Every entry of the ownership table that the dead engine owns moves (R33). -/
def moveOwners (hw : Hw) (dead spare : Nat) (b : Block) : Block :=
  (ownKinds hw).foldl (fun b (base, n, _) =>
    (List.range n).foldl (fun b i =>
      let k := base + 4 * i
      if ownEntry hw k (ownKinds hw) = some true ∧ b.owner k = dead then
        { b with own := b.own.setD 0 k spare, moved := k :: b.moved }
      else b) b) b

/-- A fork word that names a task of the dead engine names the same task of the spare (R405). -/
def moveFork (dead spare w : Nat) : Nat :=
  if bit w 31 ∧ bits w 30 24 = 0x30 ∧ bits w 23 8 / 64 = dead then setBits w 23 8 (spare * 64 + bits w 23 8 % 64) else w

/-- The registers of forks and interrupt targets that name the dead engine are changed, and its activations still to be latched, or latched
in this fc, are the spare's (R405, R585). -/
def moveForks (hw : Hw) (dead spare : Nat) (b : Block) : Block :=
  let b := (List.range (nEV hw)).foldl (fun b n =>
    (List.range 8).foldl (fun b k =>
      let w := moveFork dead spare (b.rd (R.EV_DST n k))
      if w = b.rd (R.EV_DST n k) then b else b.wr (R.EV_DST n k) w) b) b
  let moved (i : Nat) : Nat := if i / 64 = dead then spare * 64 + i % 64 else i
  let acts := b.fc.taskAct.map fun a => (moved a.1, a.2)
  let lat := b.fc.latched.map fun a => if a.input.unit = .task then { a with input := ⟨.task, moved a.input.inst, a.input.inp⟩ } else a
  let pend := b.pendActs.map fun p => ({ p with inst := moved p.inst } : PendAct)
  let b : Block := { b with pendActs := pend, fc := { b.fc with taskAct := acts, latched := lat } }
  let d := dead / 128
  let b := (List.range 64).foldl (fun b s =>
    (List.range 8).foldl (fun b k =>
      if b.on (F.IC_SET_T_V d s k) ∧ b.get (F.IC_SET_T_ENG d s k) = dead then b.put (F.IC_SET_T_ENG d s k) spare else b) b) b
  (b.wr (R.IC_EMSKL d (spare % 128)) (b.rd (R.IC_EMSKL d (dead % 128)))).wr (R.IC_EMSKH d (spare % 128))
    (b.rd (R.IC_EMSKH d (dead % 128)))

/-- The dead engine's configuration is copied into the spare (R750). -/
def copyConfig (tick dead spare : Nat) (b : Block) : Block :=
  let x := b.engSt dead
  let y := b.engSt spare
  let tasks := x.tasks.map fun (k, t) =>
    (k, ({ pri := t.pri, ceil := t.ceil, dln := t.dln, entry := t.entry } : TaskSt))
  let b := b.setEng spare { y with
    tasks := tasks, modeP := x.modeP, vbase := x.vbase, mpb := x.mpb, mpl := x.mpl, mplock := x.mplock, takeAt := some tick }
  { b with nt := b.nt.setD 0 spare (b.nt.getD 0 dead) }

/-- Forcing applied by the dead engine's lockup lasts to D + 2,048 for what has moved (R192, R750). -/
def holdForcing (dead spare : Nat) (b : Block) : Block :=
  if b.lockedUp.contains dead then
    { b with heldKeys := (b.moved.filter fun k => b.owner k == spare) ++ b.heldKeys }
  else b

/-- Is engine e's own heartbeat store performed in this fc (R743)? -/
def Block.beating (b : Block) (c : Ctx) (cl k e : Nat) : Bool :=
  (b.engSt e).stores.any fun x => x.addr == R.CL_HB cl k && !x.written && x.due.any fun d => d ≤ c.tick

/-- What declares bit k of cluster cl: 1 by lockup (R744), 0 by silence (R743).  The spare is watched under the bit of the engine it
stands for, from D + 2,048 (R745, R750). -/
def Block.declares (b : Block) (c : Ctx) (cl k : Nat) : Option Nat :=
  let e := b.watchedEng cl k
  let su := b.suSt cl
  let unused := b.on (F.CL_CFG_SPV cl) && b.get (F.CL_CFG_SPARE cl) == e % 8 && (!b.on (F.CL_STAT_TKO cl) || k == e % 8 || !su.begun)
  if !b.on (F.CL_CFG_EN cl) || !bit (b.get (F.CL_CFG_HBEN cl)) k || su.declared.contains (e % 8) || unused ||
      b.nt.getD 0 e == 0 || (b.engSt e).iso || b.fcS.isNone then none
  else if b.on (F.CL_CFG_LKD cl) && b.lockedUp.contains e then some 1
  else if (b.hbFrom cl k).any (fun h => h + b.get (F.CL_HBW_HBW cl) ≤ c.tick) && !b.beating c cl k e then some 0
  else none

/-- The row ENGINE_DECLARED_DEAD, bit k of cluster cl (R743–R745, R750). -/
def declareDead (c : Ctx) (cl k : Nat) (b : Block) : Block :=
  match b.declares c cl k with
  | none => b
  | some cause =>
    let e := b.watchedEng cl k
    let s := b.suSt cl
    let b := b.setSu cl { s with declared := (e % 8) :: s.declared }
    let b := (b.put (F.CL_STAT_DEAD cl) (e % 8)).put (F.CL_STAT_DCAUSE cl) cause
    let b := b.wr (R.CL_DTICK cl) (c.tick % 2 ^ 32)
    let b := raiseEdge c cl b
    let b := b.setEng e { b.engSt e with dead := true }
    if b.on (F.CL_CFG_SPV cl) && !b.on (F.CL_STAT_TKO cl) then
      let sp := 8 * cl + b.get (F.CL_CFG_SPARE cl)
      let b := b.put (F.CL_STAT_TKO cl) 1
      let b := copyConfig c.tick e sp (moveForks c.hw e sp (moveOwners c.hw e sp b))
      let b := holdForcing e sp b
      let b := { b with taken := (cl, e, sp) :: b.taken }
      let b := b.setSu cl { b.suSt cl with takeover := some (c.tick, e, sp), begun := false }
      wakeRegion c (regionOf sp) b
    else b.put (F.CL_STAT_NOSP cl) 1

/-- A granule of a TCM copied, poison mark and all (R750, R562). -/
def copyGran (c : Ctx) (src dst : Nat) (b : Block) : Block :=
  let (d, bad, b) := granRead c c.start src b
  granWrite dst d bad b

/-- The j-th granule of an engine's TCMs: I-TCM, D-TCM, tag plane. -/
def tcmGran (e j : Nat) : Nat :=
  let t := tcmBase e / 32
  if j < 1024 then t + j else if j < 2048 then t + 0x10000 / 32 + (j - 1024) else t + 0x18000 / 32 + (j - 2048)

/-- What a takeover does in an fc of its own accord: two granules copied, the records loaded (R750). -/
def takeoverTick (c : Ctx) (b : Block) (p : Nat × SuSt) : Block :=
  let tick := c.tick
  match p.2.takeover with
  | none => b
  | some (d, e, sp) =>
    if d < tick ∧ tick ≤ d + 1088 then
      let j := 2 * (tick - d - 1)
      copyGran c (tcmGran e (j + 1)) (tcmGran sp (j + 1)) (copyGran c (tcmGran e j) (tcmGran sp j) b)
    else if tick = d + 1280 then
      (List.range (b.nt.getD 0 sp)).foldl (fun b k => restoreFrom c tick sp k (b.recordAddr p.1 (e % 8) k) b) b
    else b

/-- The row SPARE_TASKS_BEGIN (R192, R258, R338, R351, R750, R752). -/
def spareBegin (c : Ctx) (cl : Nat) (b : Block) : Block :=
  let s := b.suSt cl
  match s.takeover with
  | none => b
  | some (d, e, sp) =>
    when (!s.begun && d + 2048 ≤ c.tick) (fun b =>
      let b := b.setSu cl { s with begun := true, hb := s.hb.insert (e % 8) (d + 2048) }
      let b := b.setEng sp { b.engSt sp with takeAt := none }
      let b := { b with heldKeys := b.heldKeys.filter fun k => !(b.owner k == sp) }
      let b := (List.range (b.nt.getD 0 sp)).foldl (fun b k =>
        let t := b.taskSt sp k
        if t.st = .wait ∧ t.apend then
          b.setTask sp k { t with
            apend := false, st := .ready, readySince := c.tick, acKind := t.pendKind, acIrq := t.pendIrq
            atick := c.tick % 2 ^ 32, waited := false
            deadline := if t.dln = 0 then none else some (c.tick + t.dln) }
        else b) b
      refreshOutputs c c.tick (reselect c sp .activate b)) b

/-- The engine enters isolation reset (R753, R754). -/
def isoReset (c : Ctx) (e : Nat) (b : Block) : Block :=
  let cl := clusterOf e
  let s := b.suSt cl
  when (s.isoDue.any fun x => x.1 == e && x.2 ≤ c.tick) (fun b =>
    let b := b.setSu cl { s with isoDue := s.isoDue.filter fun x => x.1 != e }
    let b := b.setEng e { b.engSt e with iso := true, stores := [], loads := [], late := [], serrs := [], trap := none, run := none, sel := none }
    b.put (F.CL_STAT_ISO cl) (b.get (F.CL_STAT_ISO cl) ||| 2 ^ (e % 8))) b

end Sys2Proof.Machine
end

