-- ==== Sys2Proof/Machine/Pair.lean ====
section
/-! DEFINITION. The redundant pair (spec/22): epochs, heartbeats, Sporeline, Privet. -/

namespace Sys2Proof.Machine

def Block.role (b : Block) : Nat := b.get F.PV_STAT_ROLE

/-- PERMIT_OUT as a ball. -/
def ballPermitOut : Nat := 2

def pvOut (on : Bool) (b : Block) : Block := (b.put F.PV_STAT_POUT (b2n on)).setBall ballPermitOut (lvl on)

/-- Permission is lost, or FENCED is set, or both (R757, R766); interrupt sources 0x079, 0x07A; outputs that were not forced
are 3 fc later (O8). -/
def pvStandby (c : Ctx) (fence : Bool) (b : Block) : Block :=
  let lost := b.on F.PV_STAT_PERM
  let b := pvOut false ((b.put F.PV_STAT_ROLE 0).put F.PV_STAT_PERM 0)
  let b := { b with takingSince := none, pv := { b.pv with epochDue := [] } }
  let b := if lost then raiseEdge c 0x07A b else b
  let b := if fence && !b.on F.PV_STAT_FENCED then raiseEdge c 0x079 (b.put F.PV_STAT_FENCED 1) else b
  if lost then { b with pvWait := some (c.tick + 3) } else b

/-- A cell that ranks above the package is accepted (R757). -/
def pvAdopt (c : Ctx) (epoch : Nat) (b : Block) : Block :=
  pvStandby c (b.on F.PV_STAT_EVER) (b.wr R.PV_EPOCH epoch)

/-- The engines of the Sporeline clusters. -/
def Block.sporeEngines (b : Block) (hw : Hw) : List Nat :=
  (List.range (nEngines hw)).filter fun e => bit (b.rd R.PV_CKCL) (clusterOf e)

/-- The kept state of a lane is written into its law unit (R765). -/
def pvLoadLane (hw : Hw) (b : Block) (p : Nat × List Nat) : Block :=
  let n := p.1
  let w (i : Nat) : Nat := p.2.getD i 0
  if n < nEG hw ∧ !b.on (F.LL_CFG_LAW n) ∧ p.2.length = 14 then
    let u := b.get (F.LL_CFG_LU n)
    let b := (List.range 8).foldl (fun b k => b.wr (R.LU_S u k) (w k)) b
    let b := b.setLu u { b.luSt u with ys := [w 8, w 9, w 10], acc := w 11 + w 12 % 65536 * 2 ^ 32 }
    b.put (F.LL_CTL_M n) (w 13 % 2)
  else b

/-- A pair takeover begins in this fc T (R760, R765). -/
def pvTakeover (c : Ctx) (b : Block) : Block :=
  let old := b.rd R.PV_EPOCH
  let b := (b.wr R.PV_EPOCH (old + 1)).put F.PV_STAT_ROLE 1
  let b := pvOut true (b.wr R.PV_PDTICK (c.tick % 2 ^ 32))
  let b := { b with
    takingSince := some c.tick
    pv := { b.pv with saved := old, epochDue := [c.tick, c.tick + 4096, c.tick + 8192, c.tick + 12288] } }
  let b := raiseEdge c 0x078 b
  let b := (b.sporeEngines c.hw).foldl (fun b e =>
    (List.range (b.nt.getD 0 e)).foldl (fun b k =>
      restoreFrom c c.tick e k (b.recordAddr (clusterOf e) (e % 8) k) b) b) b
  b.pv.lanes.foldl (pvLoadLane c.hw) b

/-- May the package begin a takeover? -/
def Block.pvReady (b : Block) : Bool := b.on F.PV_CFG_PAIR && b.role == 0 && !b.on F.PV_STAT_FENCED && b.fcS.isSome

/-- Has the partner been silent for 16,384 fc (R759)? -/
def Block.pvSilent (b : Block) (c : Ctx) : Bool := b.pvReady && max (b.fcS.getD 0) (b.pv.lastHb.getD 0) + 16384 ≤ c.tick

/-- The row PARTNER_DEAD (R759): the silence is complete in this fc; a HEARTBEAT accepted in this fc is still taken. -/
def partnerDead (c : Ctx) (b : Block) : Block :=
  when (b.pvSilent c) (fun b => { b with pv := { b.pv with lapse := true } }) b

/-- The row PERMIT_GAINED (R765): PERMIT_IN, as synchronised, is low and has been for HOLD fc; no row says when it fell, and the model
asks that it has not risen in that time (log entry 99). -/
def permitGained (c : Ctx) (b : Block) : Block :=
  let hold := b.get F.PV_CFG_HOLD
  let low := b.pv.pinSince.all fun p => p + hold ≤ c.tick
  when (b.role == 1 && b.takingSince.any (fun t => t + 2048 ≤ c.tick) && low) (fun b =>
    let b := ((b.put F.PV_STAT_ROLE 2).put F.PV_STAT_PERM 1).put F.PV_STAT_EVER 1
    let b := { b with takingSince := none, pv := { b.pv with pinSince := none } }.put F.PV_STAT_PIN 0
    refreshOutputs c c.tick (raiseEdge c 0x07A { b with pvWait := none })) b

/-- The row PERMIT_IN_RISE (R765, R766), as synchronised; a package without PAIR holds its permission from S (R657). -/
def permitInRise (c : Ctx) (b : Block) : Block :=
  let b := { b with pv := { b.pv with pinSince := some c.tick } }.put F.PV_STAT_PIN 1
  if b.on F.PV_CFG_PAIR ∧ b.on F.PV_STAT_PERM then pvStandby c true b else b

/-- The row TAKING_WITHDRAW (R767). -/
def takingWithdraw (c : Ctx) (b : Block) : Block :=
  let hold := 4 * b.get F.PV_CFG_HOLD
  let due := match b.takingSince, b.pv.pinSince with
    | some t, some p => max t p + hold ≤ c.tick
    | _, _ => false
  when (b.role == 1 && !b.on F.PV_CFG_PREF && b.on F.PV_STAT_PIN && due) (fun b =>
    let b := b.wr R.PV_EPOCH b.pv.saved
    raiseEdge c 0x07B ((pvStandby c false b).bump F.PV_CNT_WDRAW 1)) b

/-- The row TAKEOVER_ENGINES_ISSUE (R765). -/
def takeoverIssue (c : Ctx) (b : Block) : Block :=
  when (b.role != 0 && b.takingSince.any (fun t => t + 2048 ≤ c.tick)) (fun b =>
    (b.sporeEngines c.hw).foldl (fun b e => reselect c e .activate b) b) b

/-! ### Cells to the partner (R758, R762) -/

/-- Is some twin lane's transmitter ready? -/
def Block.twinReady (b : Block) : Bool := (List.range 2).any fun n => b.glTwin n && b.on (F.GL_STAT_TXRDY n)

/-- The row PAIR_HEARTBEAT_DUE. -/
def heartbeatDue (c : Ctx) (b : Block) : Block :=
  when (b.on F.PV_CFG_PAIR && b.twinReady && c.tick % 4096 == 0) (fun b =>
    let w0 := b2n b.pv.rstReq * 256 + b.get F.PV_CFG_PREF * 8 + b.get F.PV_STAT_FENCED * 4 + b.get F.PV_STAT_PERM * 2 +
      b2n (b.role == 2)
    let p := payloadOf [w0, b.pv.hbNum, c.tick, c.tick / 2 ^ 32]
    let b := { b with pv := { b.pv with rstReq := false, hbNum := (b.pv.hbNum + 1) % 2 ^ 32 } }
    twinQueue 1 2 (cellHead 6 0xFE 0) p b) b

/-- The row EPOCH_CELL_DUE. -/
def epochDue (c : Ctx) (b : Block) : Block :=
  match b.pv.epochDue with
  | [] => b
  | t :: rest =>
    when (t ≤ c.tick && b.twinReady) (fun b =>
      let tt := b.takingSince.getD t
      let p := payloadOf [b.get F.PV_CFG_PREF * 8, tt, tt / 2 ^ 32]
      twinQueue 0 2 (cellHead 5 0xFE 0) p { b with pv := { b.pv with epochDue := rest } }) b

/-- The permit logic at the end of an fc: a partner still silent is dead, the takeover begins, the EPOCH cell of fc T is due
(R758–R760). -/
def pvEndFc (c : Ctx) (b : Block) : Block :=
  if !b.pv.lapse then b
  else
    let b := { b with pv := { b.pv with lapse := false } }
    when (b.pvSilent c) (fun b => epochDue c (pvTakeover c b)) b

/-- The row SPORELINE_LANE_STATE for lane n (R762). -/
def sporeLane (c : Ctx) (n : Nat) (b : Block) : Block :=
  let u := b.get (F.LL_CFG_LU n)
  when (c.tick % 65536 == 0 && b.on (F.LL_CFG_EN n) && !b.on (F.LL_CFG_LAW n) && b.sporeSends (clusterOf (b.owner (ownLU u)))) (fun b =>
    let s := b.luSt u
    let ws := ((List.range 8).map fun k => b.rd (R.LU_S u k)) ++ s.ys ++ [s.acc % 2 ^ 32, s.acc / 2 ^ 32, b.get (F.LL_CTL_M n)]
    let b := twinQueue 3 2 (cellHead 4 0x20 n) (payloadOf (ws.take 7)) b
    twinQueue 3 2 (cellHead 4 0x20 (512 + n)) (payloadOf (ws.drop 7)) b) b

/-- PV_CTL.TRST (R761) and RESEND (R763). -/
def pvTrst (b : Block) : Block := { b with pv := { b.pv with rstReq := true } }

def pvResend (c : Ctx) (b : Block) : Block :=
  (List.range (nClusters c.hw)).foldl (fun b cl =>
    if b.sporeSends cl then
      (List.range 8).foldl (fun b e =>
        (List.range 64).foldl (fun b k =>
          if b.nt.getD 0 (8 * cl + e) ≤ k then b
          else
            let (r, b) := recordRead c c.start (b.recordAddr cl e k) b
            if bit (r.words.getD 0 0) 31 then sendRecord cl e k r b else b) b) b
    else b) b

def pvCtlWrite (c : Ctx) (l : Loc) (a v : Nat) (b : Block) : Block :=
  let b := b.noteWrite l a v
  let b := if bit v 0 then pvTrst b else b
  if bit v 1 then pvResend c b else b

/-! ### Sporeline reception (R763) -/

/-- A record or lane state is lost. -/
def rdrop (c : Ctx) (b : Block) : Block := raiseEdge c 0x07B (b.bump F.PV_CNT_RDROP 1)

/-- The offset of a twin lane with TV = 1, in fc: the lane of the cell if it has one (log entry 12). -/
def Block.twinOffset (b : Block) (n : Nat) : Option Int :=
  let f (k : Nat) : Option Int :=
    if b.glTwin k ∧ b.on (F.GL_STAT_TV k) then some ((toSigned 64 (b.glSt k).ofs + 32) / 64) else none
  match f n with
  | some o => some o
  | none => f (1 - n)

/-- A record's words with every TIME word translated. -/
def translate (o : Int) (ws : List Nat) : List Nat :=
  (List.range 41).foldl (fun (ws : List Nat) j =>
    if recordTag ws j = 7 then ws.set (j + 1) (ofSigned 32 ((ws.getD (j + 1) 0 : Nat) - o)) else ws) ws

/-- A complete record or lane state is kept. -/
def sporeStore (c : Ctx) (n ch key : Nat) (ws : List Nat) (b : Block) : Block :=
  if ch = 0x20 then { b with pv := { b.pv with lanes := b.pv.lanes.insert (key % 128) (ws.take 14) } }
  else
    match b.twinOffset n with
    | some o => storeRecord (b.recordAddr ch (key % 8) (key / 8)) ⟨translate o (ws.take 48), []⟩ b
    | none => rdrop c b

/-- The assembly on a channel after a cell that is no continuation of it: a new record from fragment 0, or a record whose first
fragments are missing, dropped. -/
def fragBegin (c : Ctx) (ch f key seq : Nat) (ws : List Nat) (b : Block) : Block :=
  let set (x : Frag) (b : Block) : Block := { b with pv := { b.pv with frags := b.pv.frags.insert ch x } }
  if f = 0 then set ⟨key, 1, (seq + 1) % 256, ws, false⟩ b else rdrop c (set ⟨key, f + 1, (seq + 1) % 256, [], true⟩ b)

/-- A CKPT cell is accepted on lane n (R763): each record or lane state that misses a fragment is dropped once. -/
def sporeReceive (c : Ctx) (n head payload : Nat) (b : Block) : Block :=
  if b.role ≠ 0 ∨ b.on F.PV_STAT_FENCED then b
  else
    let ch := bits head 27 20
    let seq := bits head 19 12
    let f := bits head 11 9
    let key := bits head 8 0
    let last := if ch = 0x20 then 1 else 6
    let ws := (List.range 7).map fun k => bits payload (32 * k + 31) (32 * k)
    let set (x : Frag) (b : Block) : Block := { b with pv := { b.pv with frags := b.pv.frags.insert ch x } }
    match b.pv.frags.find? ch with
    | none => fragBegin c ch f key seq ws b
    | some x =>
      let next := { x with next := f + 1, seq := (seq + 1) % 256 }
      if x.key = key ∧ x.next ≤ f then
        if x.lost then set next b
        else if x.next = f ∧ x.seq = seq then
          if f = last then sporeStore c n ch key (x.words ++ ws) { b with pv := { b.pv with frags := b.pv.frags.erase ch } }
          else set { next with words := x.words ++ ws } b
        else rdrop c (set { next with lost := true } b)
      else fragBegin c ch f key seq ws (if x.lost then b else rdrop c b)

/-! ### HEARTBEAT and EPOCH cells (R756, R757, R760, R761) -/

/-- Does a twin-link cell rank above the package (R756)? -/
def Block.ranksAbove (b : Block) (kind w0 epoch : Nat) : Bool :=
  b.rd R.PV_EPOCH < epoch ||
    (b.rd R.PV_EPOCH == epoch && (kind == 5 || kind == 6) && bit w0 3 && !b.on F.PV_CFG_PREF)

/-- What an accepted twin-link cell means to the permit logic. -/
def pvCell (c : Ctx) (head payload : Nat) (b : Block) : Block :=
  if !b.on F.PV_CFG_PAIR then b
  else
    let kind := bits head 31 28
    let w0 := bits payload 31 0
    let epoch := bits payload 255 224
    let own := b.rd R.PV_EPOCH
    let above := b.ranksAbove kind w0 epoch
    let adopts := above && (own < epoch || b.role != 0 || b.on F.PV_STAT_PERM)
    let first := kind = 6 ∧ b.on F.PV_CFG_PREF ∧ own = 0 ∧ bits w0 0 0 = 0 ∧ b.pvReady
    let held := b.on F.PV_STAT_PERM
    let b := if adopts then pvAdopt c epoch b else b
    if kind = 6 then
      let b := { b with pv := { b.pv with lastHb := some c.tick } }
      let b := if first && !adopts then pvTakeover c b else b
      if bit w0 8 && !held && (above || (bit w0 0 && own == epoch)) then { b with pv := { b.pv with twinRst := true } } else b
    else b

end Sys2Proof.Machine
end

