-- ==== Sys2Proof/Machine/LinkRx.lean ====
section
/-! DEFINITION. Reception on a Golbex lane (R696, R697, R699, R703, R704, R709). -/

namespace Sys2Proof.Machine

/-- May the lane receive a cell of the type (the cell-type table, R697 test 5)? -/
def typeReceived (twin : Bool) (kind : Nat) : Bool :=
  kind == 3 || kind == 7 || kind == 8 || (twin && (kind == 4 || kind == 5 || kind == 6))

/-- A payload as its check corrects it: uncorrectable, the payload, whether it was corrected. -/
def checkPayload (payload check : Nat) : Bool × Nat × Bool :=
  match decodeSyn (k272 payload ^^^ check % 65536) with
  | .good => (false, payload, false)
  | .one m => (false, if 16 ≤ m then payload ^^^ 2 ^ (m - 16) else payload, true)
  | .bad => (true, payload, false)

/-- The sequence judgement of an accepted cell (R696). -/
def rxSeq (c : Ctx) (n key seq : Nat) (b : Block) : Block :=
  let h := b.glHome n
  let s := b.glSt h
  let gap := (s.rx.find? key).any fun e => e != seq
  let b := b.setGl h { s with rx := s.rx.insert key ((seq + 1) % 256) }
  if gap then glEdge c n (b.bump (F.GL_ERR0_SEQG n) 1) else b

/-- Is the cell the second good copy of one accepted on the other twin lane (R699)? -/
def Block.seenOnOther (b : Block) (n ch seq : Nat) : Bool :=
  (b.glSt 0).unseen.any fun x => x.1 == 1 - n && x.2.1 == ch && x.2.2 == seq

/-- Note a copy: the first is remembered, the second removes it and what the other lane sent before it on the channel. -/
def noteCopy (n ch seq : Nat) (second : Bool) (b : Block) : Block :=
  let s := b.glSt 0
  let l := if second then
      let mine := (s.unseen.filter fun x => x.1 == 1 - n && x.2.1 == ch).dropWhile fun x => x.2.2 != seq
      (s.unseen.filter fun x => !(x.1 == 1 - n && x.2.1 == ch)) ++ mine.drop 1
    else s.unseen ++ [(n, ch, seq)]
  b.setGl 0 { s with unseen := l }

/-- The value of a signed 64-bit variable (R709). -/
def i64 (x : Int) : Int := toSigned 64 (ofSigned 64 x)

/-- An accepted SYNC (R708–R710); `a4`: its arrival in fine steps. -/
def rxSync (c : Ctx) (n payload a4 : Nat) (b : Block) : Block :=
  let w (k : Nat) : Nat := bits payload (32 * k + 31) (32 * k)
  let b3 := mkTime (w 0 + w 1 * 2 ^ 32) (bits (w 2) 5 0)
  let b2 := mkTime (w 3 + w 4 * 2 ^ 32) (bits (w 2) 13 8)
  let s := b.glSt n
  let b := b.setGl n { s with echo := some (bits (w 2) 23 16, a4) }
  match s.sent.find? fun x => x.1 == bits (w 5) 7 0 with
  | some (_, a1) =>
    if bit (w 5) 31 then
      let up := i64 ((b2 : Int) - a1)
      let down := i64 ((a4 : Int) - b3)
      let dly := i64 (up + down) / 2 + 72 * 64
      let ofs := i64 (up - down) / 2
      (b.setGl n { b.glSt n with dly := ofSigned 32 dly, ofs := ofSigned 64 ofs, base := some c.tick }).put (F.GL_STAT_TV n) 1
    else b
  | none => b

/-- A cell enters the FIFO (R703), after what this fc removes; one too many is lost at the end of the fc (`glEndFc`). -/
def rxPush (n head payload : Nat) (cm : Bool) (av : Nat) (b : Block) : Block :=
  b.setGl n { b.glSt n with fifo := (b.glSt n).fifo ++ [⟨head, payload, cm, av⟩] }

/-- A CTRL cell is presented as one message, bytes 30 and 31 the expected value; it waits for the verdict (R704). -/
def rxPresent (u n head payload : Nat) (b : Block) : Block :=
  let (ok, b) := cvClientBegin u (.lane n head payload) b
  if !ok then rxPush n head payload true 0 b
  else cvEnd u ((List.range 32).foldl (fun b j => cvClientByte u (bits payload (8 * j + 7) (8 * j), 30 ≤ j) b) b)

/-- A CTRL or ACK cell is taken (R703, R704). -/
def rxQueue (c : Ctx) (n head payload : Nat) (b : Block) : Block :=
  let u := b.get (F.GL_CFG_CVU n)
  if bits head 31 28 = 7 ∧ b.on (F.GL_CFG_CVEN n) ∧ cvPresent c.hw u ∧ cvCompare u then rxPresent u n head payload b
  else rxPush n head payload false 0 b

/-- A check-value unit at which END was applied in the fc before writes its results, and its client takes its verdict (R622, R629,
R704). -/
def cvResultTick (c : Ctx) (b : Block) (u : Nat) : Block :=
  if !(b.cvSt u).fin then b
  else
    let who := (b.cvSt u).client
    let b := cvResult c u b
    let cm := b.on (F.CV_STAT_CM u)
    let av := b.get (F.CV_STAT_AV u)
    match who with
    | some (.fb m) => fbVerdict m cm (av != 0) b
    | some (.lane n head payload) => rxPush n head payload cm av b
    | none => b

/-- Both copies of a cell are accepted in this fc and SL0's comes second: the copy on SL0 is taken (R699), so that what entered SL1's FIFO
enters SL0's, and a cell that waits for its verdict waits as SL0's. -/
def rxRetake (head payload : Nat) (b : Block) : Block :=
  let s := b.glSt 1
  let b := if s.fifo.getLast?.any (fun x => x.head == head && x.payload == payload) then
      let b := b.setGl 1 { s with fifo := s.fifo.dropLast }
      b.setGl 0 { b.glSt 0 with fifo := (b.glSt 0).fifo ++ s.fifo.getLast?.toList }
    else b
  { b with cv := b.cv.map fun p =>
      (p.1, if p.2.client = some (.lane 1 head payload) then { p.2 with client := some (.lane 0 head payload) } else p.2) }

/-- Deliver an accepted cell (R703). -/
def rxDeliver (c : Ctx) (n head payload arrive : Nat) (b : Block) : Block :=
  let kind := bits head 31 28
  let b := if b.glTwin n then pvCell c head payload b else b
  if kind = 3 then rxSync c n payload arrive b
  else if kind = 4 then sporeReceive c n head payload b
  else if kind = 7 ∨ kind = 8 then rxQueue c n head payload b
  else b

/-- A cell's codeword verdict is noted (R697, R700).  `rs`: 0 its codewords are good, 1 one more was corrected, 2 one more could not
be, 3 it lies in one already counted. -/
def rxCodeword (c : Ctx) (n rs : Nat) (b : Block) : Block :=
  let s := b.glSt n
  match rs with
  | 0 => b.setGl n { s with badCw := 0 }
  | 1 => (b.setGl n { s with badCw := 0 }).bump (F.GL_ERR1_FECC n) 1
  | 2 => glEdge c n ((b.setGl n { s with badCw := s.badCw + 1 }).bump (F.GL_ERR1_FECU n) 1)
  | _ => b

/-- A header CRC is judged (R697, R700). -/
def rxHeader (c : Ctx) (n : Nat) (good : Bool) (b : Block) : Block :=
  let s := b.glSt n
  if good then b.setGl n { s with badHead := 0 }
  else glEdge c n ((b.setGl n { s with badHead := s.badHead + 1 }).bump (F.GL_ERR0_HCRC n) 1)

/-- A cell whose payload decodes, IDLE apart (R697, tests 5 and 6; R699: the second copy counts nothing). -/
def rxJudged (c : Ctx) (n head payload arrive : Nat) (fixed : Bool) (b : Block) : Block :=
  let twin := b.glTwin n
  let kind := bits head 31 28
  let ch := bits head 27 20
  let seq := bits head 19 12
  let second := twin && kind != 3 && b.seenOnOther n ch seq
  let stale := twin && decide (bits payload 255 224 < b.rd R.PV_EPOCH)
  let b := if fixed && !(typeReceived twin kind && !stale && second) then b.bump (F.GL_CORR_CORR n) 1 else b
  if !typeReceived twin kind then glEdge c n (b.bump (F.GL_ERR0_UNEXP n) 1)
  else if stale then b.violate none .epoch 1
  else if second then
    noteCopy n ch seq true (if n = 0 ∧ !c.start.seenOnOther n ch seq then rxRetake head payload b else b)
  else
    let b := if twin && kind != 3 then noteCopy n ch seq false b else b
    rxDeliver c n head payload arrive (rxSeq c n (if kind = 3 then 0x100 + n else ch) seq b)

/-- The row GL_CELL_ACCEPT: a cell is judged 88 fc after the fc in which its first header bit reached the receive balls, at the instant
`arrive` (R697, R698). -/
def glAccept (c : Ctx) (n head crc payload check rs arrive : Nat) (b : Block) : Block :=
  when (b.glCells n && b.get (F.GL_STAT_LSTATE n) == 4 && tickOf arrive + 88 == c.tick) (fun b =>
    let b := rxCodeword c n rs b
    if rs = 2 ∨ rs = 3 then b
    else
      let good := headCrc head == crc
      let b := rxHeader c n good b
      if !good then b
      else
        let (bad, payload, fixed) := checkPayload payload check
        if bad then glEdge c n (b.bump (F.GL_ERR0_PSN n) 1)
        else if bits head 31 28 = 15 then b
        else rxJudged c n head payload arrive fixed b) b

end Sys2Proof.Machine
end

