-- ==== Sys2Proof/Machine/Power.lean ====
section
/-! DEFINITION. Clocks, DOZE, SLEEP requests, watchdog, brown-out, thermal sensors (spec/23), and the boundary-scan TAP
(spec/24). -/

namespace Sys2Proof.Machine

/-! ### Clocks (R769–R775) -/

/-- The row LCLK_EDGE (R110, R774, R785, R786): LTB counts, the WAKE balls (`w`: those seen high) are sampled, the correlation
set is latched, the watchdog counts; in SLEEP only the Lichen domain runs. -/
def lclkEdge (c : Ctx) (w : Nat) (b : Block) : Block :=
  let ltb := (b.always.ltb + 1) % 2 ^ 48
  let b := { b with always := { b.always with ltb := ltb, wakePrev := b.always.wake, wake := w % 16 } }
  if b.always.sleeping then b else
  let b := { b with tb := { b.tb with lct := c.tick, lcl := ltb } }
  if b.inRun ∧ b.on F.PW_WDT_CTL_EN then b.wr R.PW_WDT_CNT (b.rd R.PW_WDT_CNT + 1) else b

/-- The lanes a lane PLL serves (R770). -/
def pllLanes (k : Nat) : List Nat :=
  if k = 4 then [6] else if k = 5 then [7] else [2 * (k - 1), 2 * (k - 1) + 1]

/-- Does an enabled unit use a PLL (R769): a lane PLL when a lane it serves has EN = 1 or the host port runs on it, PLLP where the spool
manager has a port to bring up? -/
def Block.pllUsed (b : Block) (hw : Hw) (k : Nat) : Bool :=
  if k = 0 then true
  else if k = 6 then b.inRun && peMask hw != 0
  else (pllLanes k).any fun n => bit (slMask hw) n && (b.on (F.GL_CTL_EN n) || (6 ≤ n && b.hostLane hw (n == 7)))

/-- The row PLL_LOCK: 0 PLLF, 1–5 PLLL0–PLLL4, 6 PLLP. -/
def pllLock (c : Ctx) (k : Nat) (b : Block) : Block :=
  let held := b.always.sleeping || b.always.rstLow || !b.always.low.isEmpty
  when (k < 7 && !(k == 0 && held) && b.pllUsed c.hw k) (fun b => b.put ⟨R.PW_PLL, k, k⟩ 1) b

/-- A PLL that no enabled unit uses stops (R769). -/
def pllEndFc (c : Ctx) (b : Block) : Block :=
  (List.range 7).foldl (fun b k => if b.on ⟨R.PW_PLL, k, k⟩ ∧ !b.pllUsed c.hw k then b.put ⟨R.PW_PLL, k, k⟩ 0 else b) b

/-- The row LANE_PLL_UNLOCK (R771). -/
def pllUnlock (c : Ctx) (k : Nat) (b : Block) : Block :=
  when (1 ≤ k && k ≤ 6 && b.on ⟨R.PW_PLL, k, k⟩) (fun b =>
    let b := raiseEdge c 0x093 ((b.put ⟨R.PW_PLL, k, k⟩ 0).flag F.PW_PLL_ULK)
    if k = 6 then driveLinkDown c 1 (driveLinkDown c 0 b)
    else
      let b := (pllLanes k).foldl (fun b n => glLose c n b) b
      if 4 ≤ k then hpLinkChange c (k == 5) false b else b) b

/-- The row LCLK_QUALIFY (R772), once for each power-on of VDD_L. -/
def lclkQualify (ok : Bool) (b : Block) : Block :=
  when (!b.always.lclkDone) (fun b => { b with always := { b.always with lclkDone := true } }.put F.PW_LSTAT_LSRC (b2n (!ok))) b

/-- The row CRYSTAL_LOSS (R773). -/
def crystalLoss (c : Ctx) (b : Block) : Block :=
  when (!b.on F.PW_LSTAT_LSRC) (fun b =>
    let b := (b.put F.PW_LSTAT_LSRC 1).flag F.PW_LSTAT_XLOSS
    if b.always.sleeping then b else raiseEdge c 0x092 b) b

/-- A read of PW_LTBL (R775). -/
def ltblRead (c : Ctx) (b : Block) : Nat × Block :=
  let t := c.start.always.ltb
  (t % 2 ^ 32, b.wr R.PW_LTBH (t / 2 ^ 32))

/-! ### DOZE (R776–R781) -/

/-- Is a task idle (R776)? -/
def TaskSt.idle (t : TaskSt) : Bool := t.st == .wait || t.st == .parked

/-- Is an engine idle? -/
def Block.engIdle (b : Block) (hw : Hw) (e : Nat) : Bool :=
  let s := b.engSt e
  b.engOff hw e || (s.tasks.all (fun x => x.2.idle) && s.queue.isEmpty && s.stores.isEmpty && s.loads.isEmpty)

/-- Is region r idle in this fc? -/
def Block.regionIdle (b : Block) (hw : Hw) (r : Nat) : Bool :=
  (b.eng.all fun x => regionOf x.1 != r || b.engIdle hw x.1) && !(b.fc.taskAct.any fun a => regionOf (a.1 / 64) == r)

/-- At the end of each fc: a region whose time has come dozes if it is idle still, and its idle run is kept (R777). -/
def idleTick (c : Ctx) (b : Block) : Block :=
  (List.range (nRegions c.hw)).foldl (fun b r =>
    let d := b.dozeSt r
    if d.lapse then b.setDoze r (if b.regionIdle c.hw r then { asleep := true } else {})
    else if b.regionIdle c.hw r then (if d.idleSince.isSome then b else b.setDoze r { d with idleSince := some c.tick })
    else b.setDoze r { d with idleSince := none }) b

/-- The row DOZE_ENTRY (R777): the region's idle run is long enough in this fc; it enters unless this fc ends the run. -/
def dozeEntry (c : Ctx) (r : Nat) (b : Block) : Block :=
  let d := b.dozeSt r
  let dly := c.start.get F.PW_DOZE_DLY
  let dly := if dly = 0 then 16 else dly
  when (r < nRegions c.hw && bit (c.start.get F.PW_DOZE_EN) r && !d.asleep && d.idleSince.any (fun t => t + dly ≤ c.tick))
    (fun b => b.setDoze r { d with lapse := true }) b

/-- The row DOZE_WAKE (R779): an activation is at hand for the region, or software has cleared its EN bit. -/
def dozeWake (c : Ctx) (r : Nat) (b : Block) : Block :=
  let called := (b.fc.taskAct.any fun a => regionOf (a.1 / 64) == r) ||
    b.pendActs.any fun p => regionOf (p.inst / 64) == r && p.due ≤ c.tick
  when (called || !bit (b.get F.PW_DOZE_EN) r) (wakeRegion c r) b

/-- The row REGION_AWAKE (R779). -/
def regionAwake (c : Ctx) (r : Nat) (b : Block) : Block :=
  when ((b.dozeSt r).wake.any fun a => a + 12 ≤ c.tick) (fun b => b.setDoze r {}) b

/-- What PW_RGSTAT shows. -/
def Block.rgstat (b : Block) (hw : Hw) : Nat :=
  (List.range (nRegions hw)).foldl (fun w r =>
    let d := b.dozeSt r
    w + b2n d.asleep * 2 ^ r + b2n d.wake.isSome * 2 ^ (8 + r)) 0

/-! ### SLEEP and the watchdog (R782–R789) -/

/-- The wake time. -/
def Block.wakeTime (b : Block) : Nat := b.rd R.PW_WKTH % 65536 * 2 ^ 32 + b.rd R.PW_WKTL

/-- A write of PW_WKTL is staged (R17). -/
def wktlWrite (l : Loc) (a v : Nat) (b : Block) : Block :=
  { b.noteWrite l a v with always := { b.always with wktLow := v } }

/-- A write of PW_WKTH commits both words of the wake time (R17). -/
def wkthWrite (l : Loc) (a v : Nat) (b : Block) : Block :=
  ((b.noteWrite l a v).wr R.PW_WKTL b.always.wktLow).wr R.PW_WKTH (v % 65536)

/-- A read of PW_WKTL takes the snapshot of the high word (R16). -/
def wktlRead (c : Ctx) (b : Block) : Nat × Block :=
  (c.start.rd R.PW_WKTL, { b with always := { b.always with wktSnap := c.start.rd R.PW_WKTH % 65536 } })

/-- Has the wake timer reached its time? -/
def Block.timerDue (b : Block) : Bool := b.on F.PW_WAKE_WKEN && b.wakeTime ≤ b.always.ltb

/-- Does an enabled WAKE ball show its asserted level? A WAKE ball's level comes with `wakeHigh`, the balls seen high. -/
def Block.wakeAsserted (b : Block) (wakeHigh : Nat) : Bool :=
  (List.range 4).any fun k => bit (b.get F.PW_WAKE_EN) k && bit wakeHigh k == bit (b.get F.PW_WAKE_POL) k

/-- Has an event that ends SLEEP occurred (R785)?  `k`: a WAKE ball, or 4 for the wake timer. -/
def Block.wakeEvent (b : Block) (k : Nat) : Bool :=
  b.always.sleeping &&
    (if k < 4 then
      bit (b.get F.PW_WAKE_EN) k && bit b.always.wake k == bit (b.get F.PW_WAKE_POL) k &&
        bit b.always.wakePrev k == bit (b.get F.PW_WAKE_POL) k
    else k == 4 && b.timerDue)

/-- A write of PW_CTL (R782, R783). -/
def pwCtlWrite (ag : Agent) (l : Loc) (a v : Nat) (b : Block) : Block :=
  let b := b.plainWrite ag l a v
  if bits v 31 16 ≠ 0x534C ∨ !bit v 0 then b
  else if b.wakeAsserted b.always.wake ∨ b.timerDue ∨ (b.on F.PV_CFG_PAIR ∧ b.on F.PV_STAT_PERM) then b.flag F.PW_STAT_SLPREF
  else { b with resetDue := some 16 }

/-- A write of PW_WDT_KICK (R786). -/
def wdtKick (ag : Agent) (l : Loc) (a v : Nat) (b : Block) : Block :=
  let b := b.plainWrite ag l a v
  if v = 0x4B49 then { b with wdHalf := false }.wr R.PW_WDT_CNT 0 else b.flag F.PW_WDT_CTL_BADK

/-- The timeout: lower values act as 16. -/
def Block.wdtTo (b : Block) : Nat := max 16 (b.get F.PW_WDT_TO_TO)

/-- The row WATCHDOG_HALF (R788). -/
def wdtHalf (c : Ctx) (b : Block) : Block :=
  when (b.inRun && b.on F.PW_WDT_CTL_EN && !b.wdHalf && b.wdtTo / 2 ≤ b.rd R.PW_WDT_CNT) (fun b =>
    raiseEdge c 0x090 { b with wdHalf := true }) b

/-- Has the watchdog's time ended (R787)? -/
def Block.wdtExpired (b : Block) : Bool := b.inRun && b.on F.PW_WDT_CTL_EN && b.wdtTo ≤ b.rd R.PW_WDT_CNT

/-- The row WATCHDOG_EXPIRY: the time ends in this fc; a kick of this fc is still taken (R787). -/
def wdtExpiry (b : Block) : Block := when b.wdtExpired (fun b => { b with wdLapse := true }) b

/-- At the end of its fc an expiry asserts the package reset. -/
def wdtEndFc (b : Block) : Block :=
  if !b.wdLapse then b
  else
    let b := { b with wdLapse := false }
    when b.wdtExpired (fun b => { b with resetDue := some 3 }) b

/-! ### Brown-out warnings and thermal sensors (R790–R792) -/

/-- The row BROWNOUT_WARN; in SLEEP only VDD_L's detector acts (R784). -/
def brownoutWarn (c : Ctx) (rail : Nat) (b : Block) : Block :=
  when (rail < 10 && (!b.always.sleeping || rail == 9)) (fun b => raiseEdge c 0x091 (b.flag ⟨R.PW_BOR, rail, rail⟩)) b

/-- Is sensor k present? -/
def tsPresent (hw : Hw) (k : Nat) : Bool := k < nRegions hw || (8 ≤ k && k < 16)

/-- The row THERMAL_CONVERSION (R791, R792); `v`: the reading, 16 bits. -/
def thermal (c : Ctx) (k v : Nat) (b : Block) : Block :=
  when (tsPresent c.hw k && c.tick % 65536 == 0) (fun b =>
    let b := b.put (F.PW_TS_TEMP k) v
    let t := toSigned 16 v
    let hi := toSigned 16 (b.get (F.PW_TS_THR_HI k))
    if hi ≤ t then (if b.on (F.PW_TS_ABOVE k) then b else raiseEdge c (0x080 + k) (b.put (F.PW_TS_ABOVE k) 1))
    else if t < hi - b.get (F.PW_TS_THR_HYS k) then b.put (F.PW_TS_ABOVE k) 0
    else b) b

/-! ### Boundary scan (R817, R818) -/

/-- TRST_N low: the TAP is in reset; IDCODE is then the instruction (PRESUMED: IEEE 1149.1, log entry 33). -/
def tapReset (b : Block) : Block := { b with tap := { b.tap with inst := 1, tdo := 0 } }

/-- An instruction takes force as BYPASS: one register bit between TDI and TDO. -/
def tapBypass (b : Block) : Block := { b with tap := { b.tap with inst := 0, tdo := 0 } }

/-- The IDCODE value. -/
def idcode (hw : Hw) : Nat := hw.step % 16 * 2 ^ 28 + pick hw 0x2560 0x1280 0x0640 * 2 ^ 12 + 0x2C7 * 2 + 1

def tapIdcode (c : Ctx) (b : Block) : Block := { b with tap := { b.tap with inst := 1, tdo := idcode c.hw } }

/-- SAMPLE/PRELOAD: the balls are captured, the boundary cells loaded. -/
def tapSample (cells : List (Nat × Nat)) (b : Block) : Block :=
  { b with tap := { b.tap with
      inst := 2, captured := b.balls
      cells := cells.foldl (fun (m : Assoc Nat) x => m.setD 0 x.1 (x.2 % 3)) [] } }

/-- EXTEST, CLAMP and HIGHZ act only while RST_N is held low; otherwise as BYPASS. -/
def tapDrive (inst : Nat) (b : Block) : Block :=
  if b.always.rstLow then
    { b with balls := if inst = 5 then [] else b.tap.cells, tap := { b.tap with inst := inst } }
  else tapBypass b

end Sys2Proof.Machine
end

