-- ==== Sys2Proof/Machine/Bus.lean ====
section
/-! DEFINITION. What a write and a read of a package address do, whoever makes it: presence, ownership, lock (R11–R17, R26–R34,
R40–R47, R51), and the unit that the address belongs to. -/

namespace Sys2Proof.Machine

/-! ### Register writes -/

/-- A software write of a register, by its unit's own rule where it has one. -/
def unitWrite (c : Ctx) (ag : Agent) (l : Loc) (a v : Nat) (b : Block) : Block :=
  let o := l.off
  let n := l.inst
  match l.unit with
  | .cc =>
    if o = 0 then ccCtlWrite ag l a v b else if o = 0xC then ccStageWrite true l a v b
    else if o = 0x10 then ccStageWrite false l a v b else if o = 0x14 then ccCommitWrite l a v b else b.plainWrite ag l a v
  | .cp => if o = 0 then cpCtlWrite c ag l a v b else b.plainWrite ag l a v
  | .eg =>
    if o = 0 then egCfgWrite c ag l a v b else if o = 4 then egCtlWrite c ag l a v b
    else if o = 0xC then egStageWrite true l a v b else if o = 0x10 then egStageWrite false l a v b
    else if o = 0x14 then egCommitWrite c l a v b else if o = 0x38 then egCntWrite c ag l a v b
    else if o = 0x18 ∨ (0x20 ≤ o ∧ o ≤ 0x34) then egShadowWrite c ag l a v b else b.plainWrite ag l a v
  | .tg => if o = 0 then tgCtlWrite c ag l a v b else b.plainWrite ag l a v
  | .ad =>
    if o = 0 then whileOff c (F.AD_CTL_EN n) ag l a v b else if o = 4 then adCtlWrite c ag l a v b else b.plainWrite ag l a v
  | .ac => if o = 4 then acCtlWrite ag l a v b else b.plainWrite ag l a v
  | .sd =>
    if o = 0 ∨ o = 8 then whileOff c (F.SD_CTL_EN n) ag l a v b else if o = 4 then sdCtlWrite c ag l a v b
    else b.plainWrite ag l a v
  | .ll => if o = 0x18 then llCtlWrite c ag l a v b else b.plainWrite ag l a v
  | .lu =>
    if 0x80 ≤ o ∧ o < 0xC0 then luKWrite ag l a v b else if 0xC0 ≤ o ∧ o < 0xE0 then luStateWrite c l a v b
    else b.plainWrite ag l a v
  | .hl =>
    if o = 0 ∨ o = 0x1C then hlCfgWrite c ag l a v b else if o = 4 then hlCtlWrite c ag l a v b
    else if 0x40 ≤ o ∧ o < 0x60 then hlWfWrite ag l a v b else b.plainWrite ag l a v
  | .hlpt => hlPtWrite ag l a v b
  | .fb =>
    if 0x100 ≤ o then
      let k := (o - 0x100) / 0x10
      match o % 0x10 with
      | 0 => fbCmpCtlWrite c ag l k a v b
      | 4 => fbCmpCommit c l k a v b
      | 8 => fbCmpStage l k a v b
      | _ => b.plainWrite ag l a v
    else if o = 4 then fbCtlWrite c ag l a v b
    else if o = 0 ∨ o = 0x28 ∨ o = 0x48 ∨ o = 0x4C ∨ o = 0x50 ∨ o = 0x5C then fbCfgWrite c ag l a v b
    else if o = 0x10 then fbPosWrite l a v b else b.plainWrite ag l a v
  | .emu =>
    if o = 0 then whileOff c (F.EMU_CTL_EN n) ag l a v b else if o = 4 then emuCtlWrite c ag l a v b
    else if o = 0x1C then emuWposWrite ag l a v b else b.plainWrite ag l a v
  | .fg =>
    if o = 4 then fgCtlWrite c ag l a v b else if o = 0 ∨ o = 0xC then whileOff c (F.FG_CTL_EN n) ag l a v b
    else b.plainWrite ag l a v
  | .hc => if o = 0x14 then hcWcolWrite c ag l a v b else if o < 0x10 then hcCfgWrite c ag l a v b else b.plainWrite ag l a v
  | .ev =>
    if o = 4 then evSwWrite c ag l a v b else if o = 8 then evSrcWrite c ag l a v b
    else if 0x20 ≤ o then evDstWrite c ag l a v b else evPlainWrite c ag l a v b
  | .ic =>
    if 0x2000 ≤ o then
      match o % 0x10 with
      | 0 => icCfgWrite c ag l a v b
      | 8 => icCmdWrite c ag l a v b
      | _ => b.plainWrite ag l a v
    else if 0x1000 ≤ o ∧ o % 0x40 < 0x20 then icTargetWrite c ag l a v b else b.lkWrite (c.start.lkLocked l) ag l a v
  | .dm =>
    if o = 4 then dmCtlWrite c ag l a v b
    else if o = 0 ∨ o = 0xC ∨ o = 0x10 ∨ o = 0x14 ∨ o = 0x1C ∨ o = 0x20 then dmCfgWrite ag l a v b else b.plainWrite ag l a v
  | .cv => { b.noteWrite l a v with cvq := b.cvq ++ [(n, o, v)] }
  | .cl => if 0x100 ≤ o then heartbeat c n ((o - 0x100) / 4) (b.plainWrite ag l a v) else b.plainWrite ag l a v
  | .fl => if o = 0 then flCmdWrite c ag l a v b else b.plainWrite ag l a v
  | .gl =>
    if o = 4 then glCtlWrite ag l a v b else if o = 0x60 then glTxCommit c l a v b
    else if 0x40 ≤ o ∧ o < 0x60 then glTxwWrite c ag l a v b else b.plainWrite ag l a v
  | .hp => if o = 0x34 then mailReplyWrite c ag l a v b else b.plainWrite ag l a v
  | .pe => if o = 8 then peCtlWrite c ag l a v b else b.plainWrite ag l a v
  | .job => if o = 0 then jobCtlWrite c l a v b else if 0x10 ≤ o then jobExtentWrite ag l a v b else b.plainWrite ag l a v
  | .pv => if o = 0x18 then pvCtlWrite c l a v b else b.plainWrite ag l a v
  | .pw =>
    if o = 0 then pwCtlWrite ag l a v b
    else if o = 8 then
      (List.range (nRegions c.hw)).foldl (fun b r => if bit v r then b else wakeRegion c r b) (b.plainWrite ag l a v)
    else if o = 0x28 then wdtKick ag l a v b else if o = 0x44 then wktlWrite l a v b else if o = 0x48 then wkthWrite l a v b
    else b.plainWrite ag l a v
  | _ => b.plainWrite ag l a v

/-! ### Register reads -/

/-- What a register shows beside the word it holds: the bits that follow its unit's state. -/
def Block.regShow (b : Block) (c : Ctx) (l : Loc) (w : Nat) : Nat :=
  let o := l.off
  let n := l.inst
  match l.unit with
  | .pres => presValue c.hw o
  | .own =>
    match ownEntry c.hw o (ownKinds c.hw) with
    | some true => 2 ^ 31 + b2n (c.start.moved.contains o) * 65536 + c.start.owner o % 256
    | _ => 0
  | .boot =>
    if o = 0xC then b.keysWord
    else if o = 0x10 then c.hw.ser % 2 ^ 32 else if o = 0x14 then c.hw.ser / 2 ^ 32 % 2 ^ 32
    else if 0x80 ≤ o then leNum ((List.range 4).map fun j => c.hw.idk.getD (o - 0x80 + j) 0 % 256) else w
  | .tb => b.tbReg o
  | .cc => if o = 0xC then (b.ccSt n).snapF else if o = 0x14 then (b.ccSt n).snapH else w
  | .cp => if 0xC ≤ o then b.cpSnap n o else w
  | .eg => if o = 0xC then (b.egSt n).cmp.snapF else if o = 0x14 then (b.egSt n).cmp.snapH else w
  | .tg => if o = 4 then setBits w 2 2 (b2n (b.tgAsserted n)) else w
  | .ad => if o = 8 then setBits w 12 8 (b.adSt n).fifo.length else w
  | .ac => if o = 0x18 then setBits (setBits w 27 16 (b.acDacv n)) 1 1 (b2n (acBlanked c n)) else w
  | .lu => if o = 0xEC then ofSigned 32 (toSigned 16 (b.luSt n).ahiSnap) else w
  | .hl => if o = 8 then b.hlStat c n else w
  | .fb => if 0x100 ≤ o ∧ o % 0x10 = 8 then (b.fbCmp n ((o - 0x100) / 0x10)).snapF else w
  | .fg => if o = 8 then setBits w 4 4 (b2n (b.fgPred n)) else w
  | .lq => if o = 4 then setBits w 20 10 (b.laneQueue n).length else w
  | .ev => if o = 0xC then setBits w 11 8 (b.chanLat n) else w
  | .ic => if o = 4 then setBits w 26 16 (b.icNdue n) else w
  | .dm => if o = 0 then setBits w 31 31 (b2n (dmSpool c.hw n)) else w
  | .cv => b.cvShow n o w
  | .uc => if o = 0 then c.hw.romRev % 65536 * 65536 + (if isKd2 c.hw then 1 else 2) else w
  | .vc => if o = 0x20 then b.vcNz (if n = 8 then none else some n) else w
  | .gl => b.glShow n o w
  | .sp => if o = 0 ∧ peMask c.hw ≠ 3 then setBits w 31 31 0 else w
  | .pw => if o = 0xC then b.rgstat c.hw else if o = 0x48 then b.always.wktSnap else w
  | _ => w

/-- A read whose access codes alone decide what it leaves (R11, R13): what the register held at the start of the fc (log entry 117). -/
def plainRead (c : Ctx) (l : Loc) (a : Nat) (b : Block) : Nat × Block :=
  (c.start.regShow c l (readWord (c.start.rd a) l.fields), b.afterRead l a)

/-- A read of a register that shows what the last read of another one has taken. -/
def snapRead (c : Ctx) (l : Loc) (a : Nat) (b : Block) : Nat × Block :=
  (b.regShow c l (readWord (b.rd a) l.fields), b.afterRead l a)

/-- A read of a carrier's or a compare channel's low tick word takes the snapshot (R120). -/
def CmpSt.snapFrom (s z : CmpSt) : CmpSt := { s with snapF := z.snap.snapF, snapH := z.snap.snapH }

/-- A read of LUnn_ALO (R16). -/
def luAloRead (c : Ctx) (n : Nat) (b : Block) : Nat × Block :=
  let acc := (c.start.luSt n).acc
  (acc % 2 ^ 32, b.setLu n { b.luSt n with ahiSnap := acc / 2 ^ 32 % 65536 })

/-- A read of CCnnnn_CMPL (R120). -/
def ccCmplRead (c : Ctx) (n : Nat) (b : Block) : Nat × Block :=
  ((c.start.ccSt n).low, b.setCc n ((b.ccSt n).snapFrom (c.start.ccSt n)))

/-- A read of BOOT_SERL: the serial number stands, and so does its high word (R16). -/
def bootSerlRead (c : Ctx) (b : Block) : Nat × Block := (c.hw.ser % 2 ^ 32, b)

/-- A read of BOOT_TSTL takes the high word of S (R16). -/
def bootTstlRead (b : Block) : Nat × Block :=
  match b.fcS with
  | some s => (s % 2 ^ 32, b.wr R.BOOT_TSTH (s / 2 ^ 32))
  | none => (0, b)

/-- A read of a register, by its unit's own rule where it has one. -/
def unitRead (c : Ctx) (l : Loc) (a : Nat) (b : Block) : Nat × Block :=
  let o := l.off
  let n := l.inst
  match l.unit with
  | .boot =>
    if o = 0x10 then bootSerlRead c b else if o = 0x1C then bootTstlRead b else if o = 0x20 then snapRead c l a b
    else plainRead c l a b
  | .tb => if o = 0 then tbLoRead c b else if o = 0x10 then tbLctRead c b else snapRead c l a b
  | .cc =>
    if o = 0x10 then ccCmplRead c n b else if o = 0xC ∨ o = 0x14 then snapRead c l a b else plainRead c l a b
  | .cp => if o = 8 then cpRiseRead c n b else if 0xC ≤ o then snapRead c l a b else plainRead c l a b
  | .eg =>
    if o = 0x10 then
      ((c.start.egSt n).cmp.low, b.setEg n { b.egSt n with cmp := (b.egSt n).cmp.snapFrom (c.start.egSt n).cmp })
    else if o = 0xC ∨ o = 0x14 then snapRead c l a b else plainRead c l a b
  | .ad =>
    if o = 0xC then
      let (v, b) := adFifoRead c n b
      (v, { b with fc := { b.fc with reads := a :: b.fc.reads } })
    else plainRead c l a b
  | .sd => if o = 0xC then sdResRead c n b else plainRead c l a b
  | .lu => if o = 0xE8 then luAloRead c n b else if o = 0xEC then snapRead c l a b else plainRead c l a b
  | .hl =>
    if o = 0x60 then hlEnergyRead c n false b else if o = 0x64 then hlEnergyRead c n true b else plainRead c l a b
  | .fb =>
    if o = 0x10 then fbPosRead c n b else if o = 0x14 ∨ o = 0x18 then snapRead c l a b
    else if 0x100 ≤ o ∧ o % 0x10 = 4 then fbValRead c n ((o - 0x100) / 0x10) b
    else if 0x100 ≤ o ∧ o % 0x10 = 8 then snapRead c l a b else plainRead c l a b
  | .fg => if o = 0x34 then fgLstRead c n b else if o = 0x38 ∨ o = 0x3C then snapRead c l a b else plainRead c l a b
  | .gl =>
    if o = 0xA4 ∧ b.glCells n then glRxsRead c n b else if o = 0x1C ∧ b.glCells n then glOfslRead c n b
    else if o = 0x18 ∨ o = 0x20 ∨ o = 0x24 then snapRead c l a b else plainRead c l a b
  | .job => if o = 4 then jobLenRead c n b else if o = 8 then snapRead c l a b else plainRead c l a b
  | .pw =>
    if o = 0x50 then ltblRead c b else if o = 0x44 then wktlRead c b else if o = 0x48 ∨ o = 0x54 then snapRead c l a b
    else plainRead c l a b
  | _ => plainRead c l a b

/-! ### Accesses -/

/-- The address an agent's access reaches: an engine's private alias is its own window (R44). -/
def busAddr (ag : Agent) (a : Nat) : Nat :=
  match ag with
  | .engine e => unalias e a
  | _ => a

/-- Is the agent an engine that its supervisor has declared dead, writing beyond its own TCMs (R753)? -/
def Block.deadWriter (b : Block) (hw : Hw) (ag : Agent) (a : Nat) : Option Nat :=
  match ag with
  | .engine e => if (b.engSt e).dead && tcmOf hw a != some e then some e else none
  | _ => none

/-- The tags of the D-TCM words that n bytes from a touch become t. -/
def tagWords (c : Ctx) (a n t : Nat) (b : Block) : Block :=
  match memSpace c.hw a with
  | some (.dtcm _) =>
    let b := tagWrite c (a / 4 * 4) t b
    if (a + n - 1) / 4 = a / 4 then b else tagWrite c ((a + n - 1) / 4 * 4) t b
  | _ => b

/-- A write to memory that exists, tag `t` for the words of a D-TCM (R46, R47, R437, R460). -/
def memStore (c : Ctx) (a v n t : Nat) (b : Block) : Block := tagWords c a n t (memWrite c a v n b)

/-- The place of a write among those that reach a granule in one fc (R556): the engine's own port, the cluster calendar, the region
calendars in ascending region number, the odd slot. -/
def portRank (ag : Agent) (a : Nat) (b : Block) : Nat :=
  match ag with
  | .engine e =>
    let cl := if a < 0x0A000000 then some ((a - 0x08000000) / 0x100000)
      else if 0x10000000 ≤ a ∧ a < 0x12000000 then some ((a - 0x10000000) / 0x100000) else none
    if tcmBase e ≤ a ∧ a < tcmBase e + 0x20000 then 0
    else if (b.engSt e).modeP then 100
    else if cl = some (clusterOf e) then 1
    else 2 + regionOf e
  | _ => 100

/-- A write of memory in the order of R556: where a later one has reached a byte already, that byte and its word's tag stand. -/
def orderedStore (c : Ctx) (rank a v n t : Nat) (b : Block) : Block :=
  let late (i : Nat) : Bool := b.laterWrote rank i
  let b' := if !(List.range n).any (fun i => late (a + i)) then memStore c a v n t b
    else
      let x := numFrom (fun i => if late i then b.goodByte i else v / 256 ^ (i - a) % 256) a n
      [a / 4 * 4, (a + n - 1) / 4 * 4].eraseDups.foldl (fun b w =>
        if (List.range 4).any (fun i => late (w + i)) then b else tagWords c w 1 t b) (memWrite c a x n b)
  b'.noteWrote rank a n

/-- A write of n bytes within one granule (R26–R34, R41, R47, R51): one that spans two registers is judged at both, and counts once. -/
def busWrite (c : Ctx) (ag : Agent) (a v n t : Nat) (b : Block) : Block :=
  let a := busAddr ag a
  match b.deadWriter c.hw ag a with
  | some e => if absent c.hw a then b.violate (b.setOf ag) .absent 1 else zombieWrite c e b
  | none =>
    match memSpace c.hw a with
    | some .flash => b.violate (b.setOf ag) .locked 1
    | some _ =>
      match tcmOf c.hw a with
      | some e => if mayWriteTcm b ag e then orderedStore c (portRank ag a b) a v n t b else b.violate (b.setOf ag) .owner 1
      | none => orderedStore c (portRank ag a b) a v n t b
    | none =>
      let w := a / 4 * 4
      let l2 := if 4 < a % 4 + n then locate c.hw (w + 4) else locate c.hw w
      match locate c.hw w, l2 with
      | some l, some l2 =>
        if !b.mayWrite ag l || !b.mayWrite ag l2 then b.violate (b.setOf ag) .owner 1
        else if n ≠ 4 ∨ a % 4 ≠ 0 then b
        else unitWrite c ag l a (v % 2 ^ 32) b
      | _, _ => b.violate (b.setOf ag) .absent 1

/-- A read of one register, by its word address; an absent one reads 0 (R40). -/
def regWordRead (c : Ctx) (a : Nat) (b : Block) : Nat × Block :=
  match locate c.hw a with
  | none => (0, b)
  | some l => unitRead c l a b

/-- A read of n bytes within one granule: the value, whether it is POISON (R15, R40); an engine gets 0 with POISON, any other
reader the bytes with the mark (R562). A narrow read of a register has the whole register's read effects, and one that spans two
registers reads both (log entry 116); one access counts ABSENT once (R51). -/
def busRead (c : Ctx) (ag : Agent) (a n : Nat) (b : Block) : Nat × Bool × Block :=
  let a := busAddr ag a
  if (memSpace c.hw a).isSome then
    let (v, p, b) := memRead c c.start a n b
    (match ag with
     | .engine _ => v
     | _ => numFrom c.start.goodByte a n, p, b)
  else
    let w := a / 4 * 4
    let two : Bool := 4 < a % 4 + n
    let b := if (locate c.hw w).isNone || (two && (locate c.hw (w + 4)).isNone) then b.violate (b.setOf ag) .absent 1 else b
    let (lo, b) := regWordRead c w b
    if !two then (bits lo (8 * (a % 4 + n) - 1) (8 * (a % 4)), false, b)
    else
      let (hi, b) := regWordRead c (w + 4) b
      let x := lo + hi * 2 ^ 32
      (bits x (8 * (a % 4 + n) - 1) (8 * (a % 4)), false, b)

/-- The bytes of the first part of an access that crosses a granule (R435); all of them where it does not. -/
def firstPart (a n : Nat) : Nat := min n (32 - a % 32)

/-- A write of n bytes, in two parts where it crosses a granule (R435). -/
def busStore (c : Ctx) (ag : Agent) (a v n t : Nat) (b : Block) : Block :=
  let k := firstPart a n
  let b := busWrite c ag a (v % 256 ^ k) k t b
  if k = n then b else busWrite c ag ((a + k) % 2 ^ 32) (v / 256 ^ k) (n - k) t b

/-- A read of n bytes, in two parts where it crosses a granule. -/
def busLoad (c : Ctx) (ag : Agent) (a n : Nat) (b : Block) : Nat × Bool × Block :=
  let k := firstPart a n
  let (lo, p, b) := busRead c ag a k b
  if k = n then (lo, p, b)
  else
    let (hi, q, b) := busRead c ag ((a + k) % 2 ^ 32) (n - k) b
    (lo + hi * 256 ^ k, p || q, b)

/-! ### The access commands -/

/-- Is a flash command running in this fc: from the fc that accepts it to the fc in which BUSY clears (R669)? -/
def Block.flashBusy (b : Block) (c : Ctx) : Bool := b.on F.FL_STAT_BUSY || c.start.on F.FL_STAT_BUSY

/-- Does an access of the flash read window wait for a command's end (R669)? -/
def Block.flashHeld (b : Block) (c : Ctx) (a : Nat) : Bool := b.flashBusy c && inFlash a

/-- Does an MNT write reach the bus (R663)? -/
def Block.mntReady (b : Block) : Bool := b.fcS.isSome

/-- A software write of a word by an agent: the maintenance port's writes are ignored before S (R663). -/
def regStore (c : Ctx) (ag : Agent) (a v : Nat) (b : Block) : Block :=
  when (ag != .mnt || b.mntReady) (busWrite c ag a v 4 0) b

/-- A read of a word is performed: the value the agent sees, tagged RAW (R40). -/
def readNow (c : Ctx) (ag : Agent) (a : Nat) (b : Block) : Block :=
  let (v, p, b) := busLoad c ag a 4 b
  b.answer v (if p then 15 else 0)

/-- A software read of a word by an agent; one of the flash read window waits while a command runs, and behind those that wait
(R669). -/
def regLoad (c : Ctx) (ag : Agent) (a : Nat) (b : Block) : Block :=
  if b.flashHeld c a || (inFlash a && !b.flashQ.isEmpty) then { b with flashQ := b.flashQ ++ [⟨ag, a, c.tick⟩] } else readNow c ag a b

end Sys2Proof.Machine
end

