-- ==== Sys2Proof/Machine/LoadStore.lean ====
section
/-! DEFINITION. Loads, stores and DRAIN of an engine (R429–R444, R458–R462, R528, R551, R562). -/

namespace Sys2Proof.Machine

/-! ### Targets and slots -/

/-- Is an address in the engine's own TCMs or tag plane, by alias or window? -/
def ownTcm (e a : Nat) : Bool :=
  let w := unalias e a
  inItcm e w || inDtcm e w || (tcmBase e + 0x18000 ≤ w && w < tcmBase e + 0x19000)

/-- A fabric figure (R439): the cluster calendar or the region calendar, B, K. -/
structure Figure where
  cluster : Bool
  b : Nat
  k : Nat
  deriving DecidableEq, Repr

/-- The figure between an engine and a cluster's memories. -/
def clusterFigure (e cl : Nat) : Figure :=
  if cl = clusterOf e then ⟨true, 6, 2⟩
  else if cl / 4 = regionOf e then ⟨false, 12, 4⟩
  else if cl / 16 = e / 128 then ⟨false, 18, 6⟩
  else ⟨false, 44, 18⟩

/-- The figure between an engine and a control die's own memory and registers. -/
def dieFigure (e d : Nat) : Figure := if d = e / 128 then ⟨false, 20, 6⟩ else ⟨false, 44, 18⟩

/-- The figure of an address (R439); an absent one follows R43. -/
def figureOf (e a : Nat) : Figure :=
  if 0x08000000 ≤ a ∧ a < 0x0A000000 then clusterFigure e ((a - 0x08000000) / 0x100000)
  else if 0x10000000 ≤ a ∧ a < 0x12000000 then clusterFigure e ((a - 0x10000000) / 0x100000)
  else if 0x20000000 ≤ a ∧ a < 0x22000000 then dieFigure e ((a - 0x20000000) / 0x1000000)
  else if 0x50000000 ≤ a ∧ a < 0x52000000 then dieFigure e ((a - 0x50000000) / 0x1000000)
  else if 0x80000000 ≤ a ∧ a < 0x84000000 then ⟨false, 96, 10⟩
  else ⟨false, 28, 10⟩

/-- The owned slot of an access (R551). -/
def slotAt (p n i : Nat) (prev : Option Nat) : Nat :=
  let s := i + ((n % p + p - i % p) % p)
  match prev with
  | some x => if x < s then s else s + p * ((x - s) / p + 1)
  | none => s

/-- The figures of an access: that of the slower target, 2 fc more where it is split (R435). -/
def accessFigure (e a n : Nat) : Figure × Nat :=
  let k := firstPart a n
  let f := figureOf e a
  if k = n then (f, 0)
  else
    let g := figureOf e ((a + k) % 2 ^ 32)
    ({ f with b := max f.b g.b, k := if f.b ≤ g.b then g.k else f.k }, 2)

/-- A mode D access takes its slot: W + i, and the engine with the slot taken (R438). -/
def EngSt.takeSlot (s : EngSt) (e i : Nat) (f : Figure) : Nat × EngSt :=
  if f.cluster then
    let t := slotAt 8 e i s.lastC
    (t, { s with lastC := some t })
  else
    let t := slotAt 32 e i s.lastR
    (t, { s with lastR := some t })

/-! ### Judging -/

/-- The memory-protection judgement of an access, each half on its own addresses (R436, R528). -/
def mpJudge (s : EngSt) (u wr : Bool) (a n : Nat) : Option Trap :=
  let need := b2n wr
  let k := firstPart a n
  if !s.mpAllows u need a then some { code := excAccv, eaddr := a, einfo := b2n wr }
  else if k ≠ n ∧ !s.mpAllows u need ((a + k) % 2 ^ 32) then some { code := excAccv, eaddr := a, einfo := b2n wr + 4 }
  else none

/-- Does a buffered store overlap n bytes from a? -/
def StoreEnt.meets (x : StoreEnt) (e a n : Nat) : Bool :=
  let y := unalias e x.addr
  let a := unalias e a
  a < y + x.n && y < a + n

/-- Do n bytes from a lie within a buffered store? -/
def StoreEnt.covers (x : StoreEnt) (e a n : Nat) : Bool :=
  let y := unalias e x.addr
  let a := unalias e a
  y ≤ a && a + n ≤ y + x.n

/-- The youngest buffered store that overlaps n bytes from a. -/
def EngSt.lastMeeting (s : EngSt) (e a n : Nat) : Option StoreEnt := s.stores.reverse.find? fun x => x.meets e a n

/-! ### Loads -/

/-- A loaded value, extended (R459). -/
def extend (n : Nat) (sext : Bool) (v : Nat) : Nat := if sext then ofSigned 32 (toSigned (8 * n) v) else v

/-- Does an access lie within one word of a D-TCM? -/
def taggedWord (hw : Hw) (a n : Nat) : Bool :=
  match memSpace hw a with
  | some (.dtcm _) => a % 4 + n ≤ 4
  | _ => false

/-- A read of a package address by an engine: the value with its tag (R40, R437, R459, R562); whether the address is absent is asked of
the first byte's (DESIGN CHOICE, log entry 163). -/
def taggedLoad (c : Ctx) (e a n hint : Nat) (b : Block) : TWord × Block :=
  let w := unalias e a
  let gone := absent c.hw w
  let (v, bad, b) := busLoad c (.engine e) w n b
  if taggedWord c.hw w n then
    let (_, tbad, b) := memRead c c.start (tagByteAddr w) 1 b
    (if bad || tbad then word 0 Tag.poison else word v (c.start.tagOf w), b)
  else (if bad then word 0 Tag.poison else word v (if gone then Tag.raw else hint), b)

/-- The tag a forwarded load takes (R432). -/
def forwardTag (hw : Hw) (e a hint : Nat) (x : StoreEnt) : Nat :=
  match memSpace hw (unalias e a) with
  | some (.dtcm _) => x.v.t.toNat
  | _ => hint

/-- A load's value from the store that covers it. -/
def forwarded (c : Ctx) (e a n hint : Nat) (sext : Bool) (x : StoreEnt) : TWord :=
  let v := x.v.d.toNat / 256 ^ (unalias e a - unalias e x.addr) % 256 ^ n
  word (extend n sext v) (forwardTag c.hw e a hint x)

/-- Is an address served by the D-cache (R423, R424)? -/
def cacheable (hw : Hw) (a : Nat) : Bool :=
  match memSpace hw a with
  | some (.cluster _) => true
  | some (.die _) => true
  | some .flash => true
  | _ => false

/-- The value of n bytes whose granules the D-cache holds, and the engine with those lines used. -/
def EngSt.dHit (s : EngSt) (a n : Nat) : Option (Nat × EngSt) :=
  match (granulesOf a n).map s.dLine with
  | [some d] => some (bits d (8 * (a % 32 + n) - 1) (8 * (a % 32)), s.dFill (a / 32) d)
  | [some d, some z] =>
    some (bits (d + z * 2 ^ 256) (8 * (a % 32 + n) - 1) (8 * (a % 32)), (s.dFill (a / 32) d).dFill (a / 32 + 1) z)
  | _ => none

/-- Hold the next issue for n fc, and the yield with it (R435, R499). -/
def holdIssue (c : Ctx) (e n : Nat) (b : Block) : Block :=
  let b := setCost c e n b
  b.setEng e { b.engSt e with holdEnd := c.tick + n }

/-- A load from the engine's own TCM has its value: after 2 fc, a split one after 4 with issue held for 3 (R429, R435). -/
def ownResult (c : Ctx) (e k rd a n : Nat) (v : TWord) (b : Block) : Block :=
  if firstPart a n = n then wrReg c e k rd v 2 b else holdIssue c e 3 (wrReg c e k rd v 4 b)

/-- A load from the engine's own TCM (R429, R435). -/
def ownLoad (c : Ctx) (e k rd a n hint : Nat) (sext : Bool) (b : Block) : Block :=
  let (v, b) := taggedLoad c e a n hint b
  ownResult c e k rd a n { v with d := BitVec.ofNat 32 (extend n sext v.d.toNat) } b

/-- A fabric load is issued (R438–R440). -/
def fabricLoad (c : Ctx) (e k pc rd a n hint : Nat) (sext : Bool) (got : Option TWord) (b : Block) : Block :=
  let s := b.engSt e
  let (f, more) := accessFigure e a n
  let fill := s.modeP && cacheable c.hw a && got.isNone
  if s.modeP then b.setEng e { s with loads := s.loads ++ [⟨k, pc, rd, a, n, sext, hint, none, none, got, fill⟩] }
  else
    let (t, s) := s.takeSlot e c.tick f
    b.setEng e { s with loads := s.loads ++ [⟨k, pc, rd, a, n, sext, hint, some (t + f.b - f.k), some (t + f.b + more), got, fill⟩] }

/-- How long a fabric load is held where four are outstanding: until the fc after the oldest has given its result (R440); none
where it is not held. -/
def loadHeld (c : Ctx) (e : Nat) (s : EngSt) : Option Nat :=
  if 4 ≤ s.loads.length then
    some (match s.loads.head?.bind (·.due) with
      | some d => d + 1 - c.tick
      | none => 0)
  else if 4 ≤ (c.start.engSt e).loads.length then some 1 else none

/-- A load instruction (R428–R440, R459–R462). -/
def loadOp (c : Ctx) (n : Nat) (sext : Bool) (e rd ra hint : Nat) (i : Int) (len : Nat) (b : Block) : Block :=
  issue c e { len := len, uses := [ra], writes := [rd], mem := true, bad := if plainTag hint then none else some 1 }
    (fun k pc b =>
      let s := b.engSt e
      let t := b.taskSt e k
      let o := t.opd ra
      let a := ofSigned 32 ((o.d : Int) + i)
      if o.t ≠ Tag.dptr then .trap (tagTrap o) b
      else match mpJudge s t.priv false a n with
        | some x => .trap x b
        | none =>
          match (if s.modeP && cacheable c.hw a then s.dHit a n else none), s.lastMeeting e a n with
          | some (v, s), _ => .done (wrReg c e k rd (word (extend n sext v) hint) 3 (b.setEng e s))
          | none, some x =>
            if x.covers e a n then
              let v := forwarded c e a n hint sext x
              if ownTcm e a then .done (ownResult c e k rd a n v b)
              else match loadHeld c e s with
                | some h => .hold h
                | none => .done (fabricLoad c e k pc rd a n hint sext (some v) b)
            else .hold (if ownTcm e a then 4 else 0)
          | none, none =>
            if ownTcm e a then .done (ownLoad c e k rd a n hint sext b)
            else match loadHeld c e s with
              | some h => .hold h
              | none => .done (fabricLoad c e k pc rd a n hint sext none b)) b

/-- An outstanding load is performed at its target. -/
def performLoad (c : Ctx) (e : Nat) (x : LoadEnt) (b : Block) : LoadEnt × Block :=
  match x.got with
  | some _ => (x, b)
  | none =>
    let (v, b) := taggedLoad c e x.addr x.n x.hint b
    let v := { v with d := BitVec.ofNat 32 (extend x.n x.sext v.d.toNat) }
    let late := inFlash x.addr && x.perf.any (fun p => p < c.tick)
    ({ x with got := some v, due := if late then some (c.tick + 10) else x.due }, b)

/-- Is an address that of FBnn_POS, whose read gives the count in force in its fc (R326)? -/
def posReg (hw : Hw) (a : Nat) : Bool :=
  match locate hw (a / 4 * 4) with
  | some l => l.unit == .fb && l.off == 0x10
  | none => false

/-- The loads of an engine that a predicate names and whose fc has come are performed (R439). -/
def performDue (c : Ctx) (p : LoadEnt → Bool) (b : Block) (e : Nat) : Block :=
  let (l, b) := (b.engSt e).loads.foldl (fun (z : List LoadEnt × Block) x =>
    if x.perf.any (fun p => p ≤ c.tick) && p x then
      let (x, b) := performLoad c e x z.2
      (z.1 ++ [x], b)
    else (z.1 ++ [x], z.2)) ([], b)
  b.setEng e { b.engSt e with loads := l }

/-- The loads of an engine performed in this fc, those of the flash read window apart (R669), and those of a position, which are
performed at its end (R326). -/
def loadTick (c : Ctx) (b : Block) (e : Nat) : Block := performDue c (fun x => !inFlash x.addr && !posReg c.hw x.addr) b e

/-- The loads of a position performed in this fc, once its counts are taken (R326). -/
def loadEndTick (c : Ctx) (b : Block) (e : Nat) : Block := performDue c (fun x => posReg c.hw x.addr) b e

/-- Load i of engine e is performed at die F. -/
def flashLoad (c : Ctx) (b : Block) (at_ : Nat × Nat × Nat) : Block :=
  let (_, e, i) := at_
  match (b.engSt e).loads[i]? with
  | some x =>
    let (x, b) := performLoad c e x b
    b.setEng e { b.engSt e with loads := (b.engSt e).loads.set i x }
  | none => b

/-- The loads of the flash read window that have reached die F and are not performed: the fc they arrived in, engine, index. -/
def Block.flashLoads (b : Block) (c : Ctx) : List (Nat × Nat × Nat) :=
  b.eng.flatMap fun p => (List.range p.2.loads.length).filterMap fun i =>
    match p.2.loads[i]? with
    | some x => (match x.perf with
      | some t => if t ≤ c.tick ∧ inFlash x.addr ∧ x.got.isNone then some (t, p.1, i) else none
      | none => none)
    | none => none

/-- The earliest of a list of arrivals. -/
def firstArrival (l : List (Nat × Nat × Nat)) : Option (Nat × Nat × Nat) :=
  l.foldl (fun m x => match m with
    | some y => if y.1 ≤ x.1 then some y else some x
    | none => some x) none

/-- At the end of an fc in which no flash command runs: the loads that reach die F in it are performed, and of the accesses that were
held the one that arrived first (R669; of two of one fc, an engine's before a held read, the engines in ascending order). -/
def flashEndFc (c : Ctx) (b : Block) : Block :=
  if b.flashBusy c then b
  else
    let l := b.flashLoads c
    let b := (l.filter fun x => x.1 == c.tick).foldl (flashLoad c) b
    match firstArrival (l.filter fun x => x.1 < c.tick), b.flashQ with
    | some x, [] => flashLoad c b x
    | none, r :: q => readNow c r.ag r.addr { b with flashQ := q }
    | some x, r :: q => if x.1 ≤ r.at_ then flashLoad c b x else readNow c r.ag r.addr { b with flashQ := q }
    | none, [] => b

/-- The line a load missed is filled, unless a granule of it is uncorrectable (R423, R425), with the engine's stores that are still
buffered (R441). -/
def fillLine (c : Ctx) (e : Nat) (x : LoadEnt) (b : Block) : Block :=
  if !x.fill then b
  else
    let b := (granulesOf x.addr x.n).foldl (fun b g =>
      if c.start.granBad g then b else b.setEng e ((b.engSt e).dFill g (c.start.granData g))) b
    let s := b.engSt e
    b.setEng e (s.stores.foldl (fun s x => if x.own then s else s.dStore x.addr x.v.d.toNat x.n) s)

/-- Do an access of engine e at its target: a timed one in its own slot, one of mode P in an odd slot, for which it may wait (R416,
R549–R552). -/
def engSlot (c : Ctx) (e a : Nat) (timed : Bool) (f : Block → Block) (b : Block) : Block :=
  if timed then f b else withOdd c.tick e (oddSlots c.hw (some (regionOf e)) (unalias e a)) f b

/-- The row FABRIC_LOAD_RESULT: result i of engine e arrives; `err`: 1 or 2, a bus error on that half (R410, R436, R501). -/
def fabricLoadResult (c : Ctx) (e i err : Nat) (b : Block) : Block :=
  match (b.engSt e).loads[i]? with
  | none => b
  | some x =>
    let ready := x.due.all (fun d => d ≤ c.tick) && (x.got.isSome || x.perf.isNone) && (x.got.isSome || !b.flashHeld c x.addr)
    when ready (engSlot c e x.addr (x.perf.isSome || x.got.isSome) fun b =>
      let s := b.engSt e
      let b := b.setEng e { s with loads := s.loads.eraseIdx i }
      let t := b.taskSt e x.task
      if err ≠ 0 then
        if t.st = .held ∨ t.st = .parked then b
        else raise c e x.task excBuserr x.pc x.addr (4 * b2n (err == 2)) b
      else
        let (x, b) := performLoad c e x b
        let b := fillLine c e x b
        lateWrite e x.task x.reg (x.got.getD {}) b) b

/-! ### Stores -/

/-- The tag a store carries (R437, R460). -/
def storeTag (hw : Hw) (e a n t : Nat) : Nat :=
  match memSpace hw (unalias e a) with
  | some (.dtcm _) => if n = 4 ∧ a % 4 = 0 then t else Tag.raw
  | _ => Tag.raw

/-- A store enters the buffer (R429, R430, R435, R439); one to the flash read window, whose row of R439 has no figure for a store,
is written as one to a register of die A, B = 28 (log entry 118). -/
def bufferStore (c : Ctx) (e k a n : Nat) (v : TWord) (b : Block) : Block :=
  let s := b.engSt e
  let split := firstPart a n ≠ n
  let own := ownTcm e a && ownTcm e ((a + n - 1) % 2 ^ 32)
  if own then
    let b := b.setEng e { s with stores := s.stores ++ [⟨k, a, n, v, true, some (c.tick + if split then 5 else 3), false⟩] }
    if split then holdIssue c e 3 b else b
  else if s.modeP then
    let s := if cacheable c.hw a then s.dStore a v.d.toNat n else s
    b.setEng e { s with stores := s.stores ++ [⟨k, a, n, v, false, none, false⟩] }
  else
    let (f, more) := accessFigure e a n
    let f := if 0x80000000 ≤ a ∧ a < 0x84000000 then { f with b := 28 } else f
    let (t, s) := s.takeSlot e c.tick f
    b.setEng e { s with stores := s.stores ++ [⟨k, a, n, v, false, some (t + f.b + more), false⟩] }

/-- A store instruction (R430, R435–R437, R451, R460–R462). -/
def storeOp (c : Ctx) (n : Nat) (e rs ra t : Nat) (i : Int) (len : Nat) (b : Block) : Block :=
  issue c e { len := len, uses := [ra], moves := [rs], mem := true, bad := if t = 0 then none else some 1 } (fun k _ b =>
    let s := b.engSt e
    let t := b.taskSt e k
    let o := t.opd ra
    let d := t.opd rs
    let a := ofSigned 32 ((o.d : Int) + i)
    if d.t = Tag.poison then .trap { code := excPoison, eaddr := a, einfo := rs * 256 } b
    else if o.t ≠ Tag.dptr then .trap (tagTrap o) b
    else if !plainTag d.t then .trap (tagTrap d) b
    else match mpJudge s t.priv true a n with
      | some x => .trap x b
      | none =>
        if 8 ≤ s.stores.length then .hold 0
        else .done (bufferStore c e k a n (word (d.d % 256 ^ n) (storeTag c.hw e a n d.t)) b)) b

/-- A buffered store is written at its target. -/
def writeEnt (c : Ctx) (e : Nat) (x : StoreEnt) (b : Block) : Block :=
  busStore c (.engine e) x.addr x.v.d.toNat x.n x.v.t.toNat b

/-- The stores to the engine's own TCM written in this fc; the entries written in the fc before are free (R429, R430). -/
def storeTick (c : Ctx) (b : Block) (e : Nat) : Block :=
  let s := b.engSt e
  let left := s.stores.filter fun x => !x.written
  let due (x : StoreEnt) : Bool := x.own && x.due.any (fun d => d ≤ c.tick)
  let b := b.setEng e { s with stores := left.map fun x => if due x then { x with written := true } else x }
  left.foldl (fun b x => if due x then writeEnt c e x b else b) b

/-- The memory a store goes to, for the order of R441. -/
def storeTarget (hw : Hw) (e a : Nat) : Nat :=
  let w := unalias e a
  match memSpace hw w with
  | some (.itcm n) => n
  | some (.dtcm n) => 0x1000 + n
  | some (.tag n) => 0x2000 + n
  | some (.cluster n) => 0x3000 + n
  | some (.die n) => 0x4000 + n
  | some .flash => 0x5000
  | none => 0x6000 + w / 2 ^ 24

/-- May entry i, x, of the engine's buffer be written in this fc: its fc has come, no older store to the same memory is still to be
written, and no older load of its bytes is still to be performed (R439, R441)? -/
def EngSt.storeReady (s : EngSt) (c : Ctx) (e i : Nat) (x : StoreEnt) : Bool :=
  !x.own && !x.written && !s.iso && x.due.all (fun d => d ≤ c.tick) &&
    !((s.stores.take i).any fun y => !y.written && storeTarget c.hw e y.addr == storeTarget c.hw e x.addr) &&
    !(s.loads.any fun l => l.got.isNone && x.meets e l.addr l.n)

/-- Entry i has left the buffer for its target in this fc (R442). -/
def EngSt.storeGone (s : EngSt) (tick i : Nat) (x : StoreEnt) : EngSt :=
  { s with stores := s.stores.set i { x with written := true }, lastWritten := some tick }

/-- The row FABRIC_STORE_WRITTEN: entry i of engine e's buffer is written (R439, R441, R442). -/
def fabricStoreWritten (c : Ctx) (e i : Nat) (b : Block) : Block :=
  let s := b.engSt e
  match s.stores[i]? with
  | none => b
  | some x =>
    when (s.storeReady c e i x) (engSlot c e x.addr x.due.isSome fun b => writeEnt c e x (b.setEng e (s.storeGone c.tick i x))) b

/-- A store ends in a bus error on one half; the other half is written (log entry 176). -/
def writeHalf (c : Ctx) (e : Nat) (x : StoreEnt) (second : Bool) (b : Block) : Block :=
  let k := firstPart x.addr x.n
  let v := x.v.d.toNat
  if second then busWrite c (.engine e) x.addr (v % 256 ^ k) k x.v.t.toNat b
  else if k = x.n then b
  else busWrite c (.engine e) ((x.addr + k) % 2 ^ 32) (v / 256 ^ k) (x.n - k) x.v.t.toNat b

/-- The row SERR_RETURN: the oldest buffered store of task k to an address, whose turn has come, ends in a bus error on its first or
second half; it counts as written in this fc, and SERR is raised (R436, R442, R520). -/
def storeError (c : Ctx) (e k addr : Nat) (second : Bool) (b : Block) : Block :=
  let s := b.engSt e
  match s.stores.findIdx? (fun x => x.task == k && x.addr == addr && !x.own && !x.written) with
  | none => b
  | some i =>
    match s.stores[i]? with
    | none => b
    | some x =>
      when (s.storeReady c e i x && !(second && firstPart addr x.n == x.n)) (engSlot c e x.addr x.due.isSome fun b =>
        serr c e k addr second (writeHalf c e x second (b.setEng e (s.storeGone c.tick i x)))) b

/-! ### DRAIN and EVR -/

/-- DRAIN (R442–R444). -/
def drainOp (c : Ctx) (e len : Nat) (b : Block) : Block :=
  issue c e { len := len, mem := true } (fun k pc b =>
    let s := b.engSt e
    let last := s.stores.foldl (fun m x => max m (x.due.getD 0)) c.tick
    let b := b.setTask e k { b.taskSt e k with drain := some pc }
    .done (setCost c e (last - c.tick + 4) b)) b

/-- The address EVR writes for channel n: EVnnnn_SW, on the channel's home die (R478). -/
def evrAddr (n : Nat) : Nat := if n < 1024 then 0x50000004 + 0x40 * n else 0x51000004 + 0x40 * (n - 1024)

/-- EVR, a store of the task, judged as one (R478, R528). -/
def evrOp (c : Ctx) (e ra : Nat) (b : Block) : Block :=
  issue c e { uses := [ra], mem := true } (fun k _ b =>
    let t := b.taskSt e k
    let o := t.opd ra
    if o.t ≠ Tag.evh then .trap (tagTrap o) b
    else if 2048 ≤ o.d then .done (b.violate (some (regionOf e)) .absent 1)
    else match mpJudge (b.engSt e) t.priv true (evrAddr o.d) 4 with
      | some x => .trap x b
      | none =>
        if 8 ≤ (b.engSt e).stores.length then .hold 0
        else .done (bufferStore c e k (evrAddr o.d) 4 (word 1 Tag.raw) b)) b

end Sys2Proof.Machine
end

