-- ==== Sys2Proof/Machine/Control.lean ====
section
/-! DEFINITION. Branches and their prediction (R417–R420, R466, R471), and the instructions that act on the pipeline, the
caches and the task itself (R426, R427, R469, R523, R524). -/

namespace Sys2Proof.Machine

/-! ### Prediction in mode P (R417–R420) -/

/-- The counter of a branch; reset makes it 0b01. -/
def EngSt.counter (s : EngSt) (pc : Nat) : Nat := s.bht.getD 1 (pc / 2 % 256)

/-- The counter moves one step towards the outcome. -/
def EngSt.train (s : EngSt) (pc : Nat) (taken : Bool) : EngSt :=
  let v := s.counter pc
  { s with bht := s.bht.setD 1 (pc / 2 % 256) (if taken then min 3 (v + 1) else v - 1) }

/-- The target the BTB holds for a branch. -/
def EngSt.target (s : EngSt) (pc : Nat) : Option Nat := Assoc.find? s.btb pc

/-- The BTB entry of a branch is used: it becomes the most recent (R419). -/
def EngSt.useTarget (s : EngSt) (pc : Nat) : EngSt :=
  match s.target pc with
  | some t => { s with btb := useLine 16 pc t s.btb }
  | none => s

/-- A taken branch that missed is entered (R419). -/
def EngSt.enterTarget (s : EngSt) (pc t : Nat) : EngSt :=
  match s.target pc with
  | some _ => s.useTarget pc
  | none => { s with btb := useLine 16 pc t s.btb }

/-- The branches of R417. -/
inductive BranchKind where
  | conditional | direct | register
  deriving DecidableEq, Repr

/-- The cost of a branch in mode P. -/
def EngSt.costP (s : EngSt) (kind : BranchKind) (pc t : Nat) (taken : Bool) : Nat :=
  match kind with
  | .conditional =>
    let predicted := 2 ≤ s.counter pc
    if predicted ≠ taken then 5
    else if !taken then 1
    else if (s.target pc).isSome then 1 else 3
  | .direct => if (s.target pc).isSome then 1 else 3
  | .register => if s.target pc = some t then 1 else 5

/-- The branch resolves: its cost, the engine after it (R417–R420). -/
def EngSt.resolve (s : EngSt) (kind : BranchKind) (pc t : Nat) (taken : Bool) : Nat × EngSt :=
  if s.modeP then
    let n := s.costP kind pc t taken
    let s := if kind = .conditional then s.train pc taken else s
    (n, if taken then s.enterTarget pc t else s.useTarget pc)
  else (if taken then 3 else 1, s)

/-- A branch of task k at pc goes to t, or falls through. -/
def branchTo (c : Ctx) (e k : Nat) (kind : BranchKind) (pc t : Nat) (taken : Bool) (b : Block) : Block :=
  let (n, s) := (b.engSt e).resolve kind pc t taken
  let b := setCost c e n (b.setEng e s)
  if taken then jump e k t b else b

/-- The target of an offset in halfwords (R466). -/
def offsetTarget (pc : Nat) (ofs : Int) : Nat := ofSigned 32 ((pc : Int) + 2 * ofs)

/-- A compare-and-branch instruction; `rule` and `test` say which tags it accepts and when it is taken. -/
def compareBranch (c : Ctx) (e ra rb ofs : Nat) (rule : Nat → Nat → Option Nat) (test : Nat → Nat → Nat → Bool)
    (b : Block) : Block :=
  issue c e { uses := [ra, rb], branch := true } (fun k pc b =>
    let t := b.taskSt e k
    match pairUp rule (t.opd ra) (t.opd rb) with
    | .error x => .trap x b
    | .ok (_, _, g) =>
      .done (branchTo c e k .conditional pc (offsetTarget pc (toSigned 15 ofs)) (test g (t.opd ra).d (t.opd rb).d) b)) b

/-- CBZ, CBNZ. -/
def zeroBranch (c : Ctx) (nz : Bool) (e ra ofs : Nat) (b : Block) : Block :=
  issue c e { len := 2, uses := [ra], branch := true } (fun k pc b =>
    let o := (b.taskSt e k).opd ra
    match single anyTag o with
    | .error x => .trap x b
    | .ok _ => .done (branchTo c e k .conditional pc (offsetTarget pc (toSigned 8 ofs)) ((o.d == 0) != nz) b)) b

/-- Signed or unsigned comparison is not taken on a NaN, CBGE included (R471). -/
def geVals (t a z : Nat) : Bool :=
  if t = Tag.flt then F32.lt z a || F32.eq a z else !ltVals t a z

/-- A jump to a PC-relative target; `link`: the register that takes the link, if any. -/
def jumpDirect (c : Ctx) (e len : Nat) (link : Option Nat) (ofs : Int) (b : Block) : Block :=
  issue c e { len := len, writes := link.toList, branch := true } (fun k pc b =>
    let b := match link with
      | some rd => wrReg c e k rd (word (pc + 4) Tag.cptr) 1 b
      | none => b
    .done (branchTo c e k .direct pc (offsetTarget pc ofs) true b)) b

/-- A jump to the CPTR in a register, whose bit 0 is ignored (R466). -/
def jumpRegister (c : Ctx) (e len : Nat) (link : Option Nat) (ra : Nat) (b : Block) : Block :=
  issue c e { len := len, uses := [ra], writes := link.toList, branch := true } (fun k pc b =>
    let o := (b.taskSt e k).opd ra
    if o.t ≠ Tag.cptr then .trap (tagTrap o) b
    else
      let b := match link with
        | some rd => wrReg c e k rd (word (pc + 4) Tag.cptr) 1 b
        | none => b
      .done (branchTo c e k .register pc (o.d / 2 * 2) true b)) b

/-! ### NOP, WAIT, ERET, BRK, SYS, undefined encodings -/

def nopOp (c : Ctx) (e len : Nat) (b : Block) : Block := issue c e { len := len } (fun _ _ b => .done b) b

/-- WAIT; in T00 while ACT = 1 it raises ILL (R524). -/
def waitOp (c : Ctx) (e len : Nat) (b : Block) : Block :=
  issue c e { len := len, alone := true } (fun k _ b =>
    if k = 0 ∧ (b.engSt e).act then .trap (ill 1) b else .done (waitNow c e k b)) b

/-- ERET: accepted only in T00 with ACT = 1 (R523). -/
def eretOp (c : Ctx) (e len : Nat) (b : Block) : Block :=
  issue c e { len := len, cost := 4, alone := true, priv := true } (fun k _ b =>
    if k = 0 ∧ (b.engSt e).act then .done (eretNow c e b) else .trap (ill 1) b) b

/-- BRK and SYS: EPC is the next instruction (R520). -/
def raiseOp (c : Ctx) (e len code info : Nat) (b : Block) : Block :=
  issue c e { len := len, alone := true } (fun _ _ b => .trap { code := code, einfo := info, next := true } b) b

/-- An undefined encoding raises ILL (R465). -/
def undefinedOp (c : Ctx) (e len : Nat) (b : Block) : Block :=
  issue c e { len := len, bad := some 1 } (fun _ _ b => .done b) b

/-! ### Cache maintenance (R426, R427) -/

/-- DINV: the D-cache line of the address in the operand. -/
def dinvOp (c : Ctx) (e ra : Nat) (b : Block) : Block :=
  issue c e { uses := [ra], mem := true } (fun k _ b =>
    let o := (b.taskSt e k).opd ra
    let s := b.engSt e
    if o.t ≠ Tag.dptr then .trap (tagTrap o) b
    else .done (if s.modeP then b.setEng e (s.dDrop o.d) else b)) b

/-- IINV: the I-cache and line-buffer lines of the address in the operand. -/
def iinvOp (c : Ctx) (e ra : Nat) (b : Block) : Block :=
  issue c e { uses := [ra], mem := true } (fun k _ b =>
    let o := (b.taskSt e k).opd ra
    let s := b.engSt e
    if o.t ≠ Tag.dptr ∧ o.t ≠ Tag.cptr then .trap (tagTrap o) b
    else .done (if s.modeP then b.setEng e (s.iDrop o.d) else b)) b

/-- DINVA (`data`) and IINVA: the whole cache, holding issue for 64 fc in mode P. -/
def invAllOp (c : Ctx) (data : Bool) (e : Nat) (b : Block) : Block :=
  issue c e { mem := true, priv := true } (fun _ _ b =>
    let s := b.engSt e
    if s.modeP then
      .done (setCost c e 64 (b.setEng e (if data then { s with dcache := [] } else { s with icache := [], lbuf := [] })))
    else .done b) b

/-! ### Moves, tags, conversions, accumulators -/

/-- MOV and GETT read their source without using it (R452). -/
def moveOp (c : Ctx) (e rd ra len : Nat) (f : TWord → TWord) (b : Block) : Block :=
  issue c e { len := len, moves := [ra], writes := [rd] } (fun k _ b =>
    .done (wrReg c e k rd (f ((b.taskSt e k).reg ra)) 1 b)) b

/-- CHKT. -/
def chktOp (c : Ctx) (e ra t : Nat) (b : Block) : Block :=
  issue c e { uses := [ra] } (fun k _ b =>
    let o := (b.taskSt e k).opd ra
    if plainTag o.t ∧ o.t = t then .done b else .trap (tagTrap o) b) b

/-- CVT: late where FLT is involved. -/
def cvtOp (c : Ctx) (e rd ra t : Nat) (b : Block) : Block :=
  issue c e { uses := [ra], writes := [rd], bad := if 1 ≤ t ∧ t ≤ 5 then none else some 1 } (fun k _ b =>
    let o := (b.taskSt e k).opd ra
    let r := (single (among [Tag.int, Tag.uns, Tag.frac, Tag.fix, Tag.flt]) o).map fun g => convert g o.d t
    if o.t = Tag.flt ∨ t = Tag.flt then giveLate c e k rd 3 r b else give c e k rd 1 r b) b

/-- LIL and LIS: a constant with a tag. -/
def constOp (c : Ctx) (e rd len v t : Nat) (b : Block) : Block :=
  issue c e { len := len, writes := [rd], bad := if plainTag t then none else some 1 } (fun k _ b =>
    .done (wrReg c e k rd (word v t) 1 b)) b

/-- LIH: the high halfword of Gd, which keeps its tag. -/
def lihOp (c : Ctx) (e rd i : Nat) (b : Block) : Block :=
  opR c e rd rd 4 none anyTag (fun _ t x => word (x % 2 ^ 16 + i * 2 ^ 16) t) b

/-- RDA. -/
def rdaOp (c : Ctx) (e rd acc t : Nat) (b : Block) : Block :=
  issue c e { moves := [accReg acc], writes := [rd] } (fun k _ b =>
    .done (wrReg c e k rd (((b.taskSt e k).acc acc).readOut (toSigned 4 t)) 1 b)) b

/-- CLRA. -/
def clraOp (c : Ctx) (e acc : Nat) (b : Block) : Block :=
  issue c e { writes := [accReg acc] } (fun k _ b => .done (b.setTask e k ((b.taskSt e k).setAcc acc {}))) b

end Sys2Proof.Machine
end

