-- ==== Sys2Proof/Machine/AluCmds.lean ====
section
/-! DEFINITION. The commands of arithmetic, logic, tags, constants (R455–R475). -/

namespace Sys2Proof.Machine

/-- ADD (R455). -/
def execAdd (e : Fin 256) (rd ra rb : Reg) (s : State) : Host.Outcome State Fault Refusal :=
  s.run fun c b => addSub c false e.val rd.val ra.val rb.val 4 b

/-- SUB (R455). -/
def execSub (e : Fin 256) (rd ra rb : Reg) (s : State) : Host.Outcome State Fault Refusal :=
  s.run fun c b => addSub c true e.val rd.val ra.val rb.val 4 b

/-- MIN (R455). -/
def execMin (e : Fin 256) (rd ra rb : Reg) (s : State) : Host.Outcome State Fault Refusal :=
  s.run fun c b => minMaxOp c false e.val rd.val ra.val rb.val 4 b

/-- MAX (R455). -/
def execMax (e : Fin 256) (rd ra rb : Reg) (s : State) : Host.Outcome State Fault Refusal :=
  s.run fun c b => minMaxOp c true e.val rd.val ra.val rb.val 4 b

/-- NEG (R455). -/
def execNeg (e : Fin 256) (rd ra : Reg) (s : State) : Host.Outcome State Fault Refusal :=
  s.run fun c b => opR c e.val rd.val ra.val 4 none (among [Tag.int, Tag.frac, Tag.fix, Tag.ang]) (fun _ t x => byTag t (-numOf t x)) b

/-- ABS (R455). -/
def execAbs (e : Fin 256) (rd ra : Reg) (s : State) : Host.Outcome State Fault Refusal :=
  s.run fun c b => opR c e.val rd.val ra.val 4 none (among [Tag.int, Tag.frac, Tag.fix]) (fun _ t x => byTag t (numOf t x).natAbs) b

/-- AND (R455). -/
def execAnd (e : Fin 256) (rd ra rb : Reg) (s : State) : Host.Outcome State Fault Refusal :=
  s.run fun c b => logicOp c .and e.val rd.val ra.val rb.val 4 b

/-- OR (R455). -/
def execOr (e : Fin 256) (rd ra rb : Reg) (s : State) : Host.Outcome State Fault Refusal :=
  s.run fun c b => logicOp c .or e.val rd.val ra.val rb.val 4 b

/-- XOR (R455). -/
def execXor (e : Fin 256) (rd ra rb : Reg) (s : State) : Host.Outcome State Fault Refusal :=
  s.run fun c b => logicOp c .xor e.val rd.val ra.val rb.val 4 b

/-- ANDN (R455). -/
def execAndn (e : Fin 256) (rd ra rb : Reg) (s : State) : Host.Outcome State Fault Refusal :=
  s.run fun c b => logicOp c .andn e.val rd.val ra.val rb.val 4 b

/-- NOT (R455). -/
def execNot (e : Fin 256) (rd ra : Reg) (s : State) : Host.Outcome State Fault Refusal :=
  s.run fun c b => opR c e.val rd.val ra.val 4 none (among [Tag.raw, Tag.int, Tag.uns, Tag.bool]) (fun _ t x => logicNot t x) b

/-- SLL (R467). -/
def execSll (e : Fin 256) (rd ra rb : Reg) (s : State) : Host.Outcome State Fault Refusal :=
  s.run fun c b => shiftReg c .sll e.val rd.val ra.val rb.val b

/-- SRL (R467). -/
def execSrl (e : Fin 256) (rd ra rb : Reg) (s : State) : Host.Outcome State Fault Refusal :=
  s.run fun c b => shiftReg c .srl e.val rd.val ra.val rb.val b

/-- SRA (R467). -/
def execSra (e : Fin 256) (rd ra rb : Reg) (s : State) : Host.Outcome State Fault Refusal :=
  s.run fun c b => shiftReg c .sra e.val rd.val ra.val rb.val b

/-- ROR (R467). -/
def execRor (e : Fin 256) (rd ra rb : Reg) (s : State) : Host.Outcome State Fault Refusal :=
  s.run fun c b => shiftReg c .ror e.val rd.val ra.val rb.val b

/-- CLZ (R455). -/
def execClz (e : Fin 256) (rd ra : Reg) (s : State) : Host.Outcome State Fault Refusal :=
  s.run fun c b => opR c e.val rd.val ra.val 4 none (amongTo [Tag.raw, Tag.int, Tag.uns] Tag.int) (fun _ t x => word (clz x) t) b

/-- SEXTB (R455). -/
def execSextb (e : Fin 256) (rd ra : Reg) (s : State) : Host.Outcome State Fault Refusal :=
  s.run fun c b => opR c e.val rd.val ra.val 4 none (amongTo [Tag.raw, Tag.int, Tag.uns] Tag.int) (fun _ t x => wordI (toSigned 8 x) t) b

/-- SEXTH (R455). -/
def execSexth (e : Fin 256) (rd ra : Reg) (s : State) : Host.Outcome State Fault Refusal :=
  s.run fun c b => opR c e.val rd.val ra.val 4 none (amongTo [Tag.raw, Tag.int, Tag.uns] Tag.int) (fun _ t x => wordI (toSigned 16 x) t) b

/-- ZEXTB (R455). -/
def execZextb (e : Fin 256) (rd ra : Reg) (s : State) : Host.Outcome State Fault Refusal :=
  s.run fun c b => opR c e.val rd.val ra.val 4 none (amongTo [Tag.raw, Tag.int, Tag.uns] Tag.uns) (fun _ t x => word (x % 2 ^ 8) t) b

/-- ZEXTH (R455). -/
def execZexth (e : Fin 256) (rd ra : Reg) (s : State) : Host.Outcome State Fault Refusal :=
  s.run fun c b => opR c e.val rd.val ra.val 4 none (amongTo [Tag.raw, Tag.int, Tag.uns] Tag.uns) (fun _ t x => word (x % 2 ^ 16) t) b

/-- CMPEQ (R471). -/
def execCmpeq (e : Fin 256) (rd ra rb : Reg) (s : State) : Host.Outcome State Fault Refusal :=
  s.run fun c b => opRR c e.val rd.val ra.val rb.val 4 1 eqTags (fun _ _ t x y => word (b2n (eqVals t x y)) Tag.bool) b

/-- CMPLT (R471). -/
def execCmplt (e : Fin 256) (rd ra rb : Reg) (s : State) : Host.Outcome State Fault Refusal :=
  s.run fun c b => opRR c e.val rd.val ra.val rb.val 4 1 ltTags (fun _ _ t x y => word (b2n (ltVals t x y)) Tag.bool) b

/-- CMPLTU (R471). -/
def execCmpltu (e : Fin 256) (rd ra rb : Reg) (s : State) : Host.Outcome State Fault Refusal :=
  s.run fun c b => opRR c e.val rd.val ra.val rb.val 4 1 ltuTags (fun _ _ _ x y => word (b2n (decide (x < y))) Tag.bool) b

/-- MOV (R455). -/
def execMov (e : Fin 256) (rd ra : Reg) (s : State) : Host.Outcome State Fault Refusal :=
  s.run fun c b => moveOp c e.val rd.val ra.val 4 id b

/-- GETT (R455). -/
def execGett (e : Fin 256) (rd ra : Reg) (s : State) : Host.Outcome State Fault Refusal :=
  s.run fun c b => moveOp c e.val rd.val ra.val 4 (fun w => word w.t.toNat Tag.int) b

/-- SETT (R455). -/
def execSett (e : Fin 256) (rd ra : Reg) (t : TagNo) (s : State) : Host.Outcome State Fault Refusal :=
  s.run fun c b => opR c e.val rd.val ra.val 4 (if plainTag t.val then none else some 1) (fun g => (anyTag g).map fun _ => t.val) (fun _ g x => word x g) b

/-- CHKT (R455). -/
def execChkt (e : Fin 256) (ra : Reg) (t : TagNo) (s : State) : Host.Outcome State Fault Refusal :=
  s.run fun c b => chktOp c e.val ra.val t.val b

/-- CVT (R475). -/
def execCvt (e : Fin 256) (rd ra : Reg) (t : TagNo) (s : State) : Host.Outcome State Fault Refusal :=
  s.run fun c b => cvtOp c e.val rd.val ra.val t.val b

/-- ADDI (R456). -/
def execAddi (e : Fin 256) (rd ra : Reg) (imm : BitVec 11) (s : State) : Host.Outcome State Fault Refusal :=
  s.run fun c b => addImm c e.val rd.val ra.val 4 (imm11 imm.toNat) b

/-- ANDI (R456). -/
def execAndi (e : Fin 256) (rd ra : Reg) (imm : BitVec 11) (s : State) : Host.Outcome State Fault Refusal :=
  s.run fun c b => logicImm c .and e.val rd.val ra.val (imm11 imm.toNat) b

/-- ORI (R456). -/
def execOri (e : Fin 256) (rd ra : Reg) (imm : BitVec 11) (s : State) : Host.Outcome State Fault Refusal :=
  s.run fun c b => logicImm c .or e.val rd.val ra.val (imm11 imm.toNat) b

/-- XORI (R456). -/
def execXori (e : Fin 256) (rd ra : Reg) (imm : BitVec 11) (s : State) : Host.Outcome State Fault Refusal :=
  s.run fun c b => logicImm c .xor e.val rd.val ra.val (imm11 imm.toNat) b

/-- SHI (R467). -/
def execShi (e : Fin 256) (rd ra : Reg) (imm : BitVec 11) (s : State) : Host.Outcome State Fault Refusal :=
  s.run fun c b => shiftImm c (bits imm.toNat 6 5) (bits imm.toNat 4 0) e.val rd.val ra.val 4 (if bits imm.toNat 10 7 = 0 then none else some 1) b

/-- LIL (R467). -/
def execLil (e : Fin 256) (rd : Reg) (t : TagNo) (imm : BitVec 16) (s : State) : Host.Outcome State Fault Refusal :=
  s.run fun c b => constOp c e.val rd.val 4 (imm.toNat % 2 ^ 16) t.val b

/-- LIH (R467). -/
def execLih (e : Fin 256) (rd : Reg) (imm : BitVec 16) (s : State) : Host.Outcome State Fault Refusal :=
  s.run fun c b => lihOp c e.val rd.val (imm.toNat % 2 ^ 16) b

end Sys2Proof.Machine
end

