-- ==== Sys2Proof/Machine/AnalogCmds.lean ====
section
/-! DEFINITION. The commands of analog inputs (spec/05). -/

namespace Sys2Proof.Machine

/-- Does the next bit of demodulator n complete a decimation (R237, R240)? -/
def Block.sdCompletes (b : Block) (n : Nat) : Bool := b.get (F.SD_CFG_DEC n) ≤ (b.sdSt n).cnt + 1

/-- AD_START (R205). -/
def execAdStart (n : Fin 32) (s : State) : Host.Outcome State Fault Refusal :=
  s.run fun c b => adStart c n.val b

/-- AD_SOFTWARE_START (R214). -/
def execAdSoftwareStart (ag : Agent) (n : Fin 32) (v : Word) (s : State) : Host.Outcome State Fault Refusal :=
  s.run fun c b => regStore c ag (R.AD_CTL n.val) v.toNat b

/-- AD_CONVERSION_END (R205): `x`, the voltage of the entry's ball at the sample instant. -/
def execAdConversionEnd (n : Fin 32) (x : Volts) (s : State) : Host.Outcome State Fault Refusal :=
  s.run fun c b => adEnd c n.val (voltsCode x) b

/-- AD_STOP (R213). -/
def execAdStop (n : Fin 32) (s : State) : Host.Outcome State Fault Refusal :=
  s.run fun c b => adStop c n.val b

/-- AD_EN_CLEAR_WRITE (R215). -/
def execAdEnClearWrite (ag : Agent) (n : Fin 32) (v : Word) (s : State) : Host.Outcome State Fault Refusal :=
  s.run fun c b => regStore c ag (R.AD_CTL n.val) v.toNat b

/-- AD_FLUSH (R220). -/
def execAdFlush (n : Fin 32) (s : State) : Host.Outcome State Fault Refusal :=
  s.run fun c b => adFlush c n.val b

/-- AD_FLUSH_WRITE (R220). -/
def execAdFlushWrite (ag : Agent) (n : Fin 32) (v : Word) (s : State) : Host.Outcome State Fault Refusal :=
  s.run fun c b => regStore c ag (R.AD_CTL n.val) v.toNat b

/-- AD_FIFO_READ (R219). -/
def execAdFifoRead (ag : Agent) (n : Fin 32) (s : State) : Host.Outcome State Fault Refusal :=
  s.run fun c b => regLoad c ag (R.AD_FIFO n.val) b

/-- AC_OUTPUT_CHANGE (R224): `x`, the voltage the ball has now. -/
def execAcOutputChange (n : Fin 64) (x : Volts) (s : State) : Host.Outcome State Fault Refusal :=
  s.run fun c b => acOutput c n.val x.v.toInt x.vref.toInt b

/-- AC_ASSERT (R231). -/
def execAcAssert (n : Fin 64) (s : State) : Host.Outcome State Fault Refusal :=
  s.run fun c b => acAssert c n.val b

/-- AC_DEASSERT (R231). -/
def execAcDeassert (n : Fin 64) (s : State) : Host.Outcome State Fault Refusal :=
  s.run fun c b => acDeassert c n.val b

/-- AC_RAMP (R227). -/
def execAcRamp (n : Fin 64) (s : State) : Host.Outcome State Fault Refusal :=
  s.run fun c b => acRamp c n.val b

/-- AC_BLANK (R230). -/
def execAcBlank (n : Fin 64) (s : State) : Host.Outcome State Fault Refusal :=
  s.run fun c b => acBlank c n.val b

/-- AC_BLANK_END (R230). -/
def execAcBlankEnd (n : Fin 64) (s : State) : Host.Outcome State Fault Refusal :=
  s.run fun c b => acBlankEnd c n.val b

/-- SD_RESULT (R240). -/
def execSdResult (n : Fin 32) (x : SdEdge) (s : State) : Host.Outcome State Fault Refusal :=
  s.run fun c b => when (sdRuns c n.val && sdEdge c n.val x.up b && b.sdCompletes n.val) (sdBit c n.val x.x) b

/-- SD_SYNC (R243). -/
def execSdSync (n : Fin 32) (s : State) : Host.Outcome State Fault Refusal :=
  s.run fun c b => sdSync c n.val b

/-- SD_CLOCK_LOSS (R244). -/
def execSdClockLoss (n : Fin 32) (s : State) : Host.Outcome State Fault Refusal :=
  s.run fun c b => sdLoss c n.val b

/-- SD_CLOCK_LOSS_END (R244). -/
def execSdClockLossEnd (n : Fin 32) (x : SdEdge) (s : State) : Host.Outcome State Fault Refusal :=
  s.run fun c b => when (sdRuns c n.val && sdEdge c n.val x.up b && (b.sdSt n.val).loss) (sdBit c n.val x.x) b

/-- SD_ENABLE (R245). -/
def execSdEnable (ag : Agent) (n : Fin 32) (v : Word) (s : State) : Host.Outcome State Fault Refusal :=
  s.run fun c b => regStore c ag (R.SD_CTL n.val) v.toNat b

/-- SD_RES_READ (R241). -/
def execSdResRead (ag : Agent) (n : Fin 32) (s : State) : Host.Outcome State Fault Refusal :=
  s.run fun c b => regLoad c ag (R.SD_RES n.val) b

/-- SD_BIT_SAMPLE (R237). -/
def execSdBitSample (n : Fin 32) (x : SdEdge) (s : State) : Host.Outcome State Fault Refusal :=
  s.run fun c b => when (sdRuns c n.val && sdEdge c n.val x.up b) (sdBit c n.val x.x) b

end Sys2Proof.Machine
end

