-- ==== Sys2Proof/Machine/Image.lean ====
section
/-! DEFINITION. The configuration image: its bytes, header, sections, verification (R641–R651, R658). -/

namespace Sys2Proof.Machine

/-! ### Reading -/

/-- An image where it is stored: its bytes, and whether a byte's granule is uncorrectable. -/
structure Image where
  byte : Nat → Nat
  bad : Nat → Bool

/-- An image in the flash array from byte offset o. -/
def flashImage (b : Block) (o : Nat) : Image :=
  ⟨fun i => b.goodByte (flashBase + o + i), fun i => b.granBad ((flashBase + o + i) / 32)⟩

/-- An image in the external flash. -/
def ospiImage (l : List Nat) : Image := ⟨fun i => l.getD i 0xFF % 256, fun _ => false⟩

/-- Why Fiddlehead stops: the HOLD cause, and the section and offset of BOOT_INFO where the spec says them. -/
structure BootFail where
  cause : Nat
  info : Option (Nat × Nat) := none
  deriving DecidableEq, Repr

abbrev Boot := Except BootFail

/-- A check at an offset of a section. -/
def need (p : Bool) (cause sect ofs : Nat) : Boot Unit := if p then .ok () else .error ⟨cause, some (sect, ofs)⟩

/-- n bytes from o, read for section `sect` (POISON, R643). -/
def Image.take (im : Image) (sect o n : Nat) : Boot (List Nat) :=
  match (List.range n).find? fun i => im.bad (o + i) with
  | some i => .error ⟨0x05, some (sect, (o + i) / 32 * 32)⟩
  | none => .ok ((List.range n).map fun i => im.byte (o + i))

/-- A little-endian number of n bytes at offset o of a byte list. -/
def le (l : List Nat) (o n : Nat) : Nat := leNum ((l.drop o).take n)

/-! ### The header (R640–R643) -/

structure Header where
  kslot : Nat
  flags : Nat
  len : Nat
  nsec : Nat
  ver : Nat
  digest : List Nat
  pubkey : List Nat
  bytes : List Nat

/-- MAGIC, little-endian. -/
def imageMagic : Nat := 0x4854524B

/-- The header is read and judged; `top`: the longest image allowed. -/
def Image.header (im : Image) (hw : Hw) (top : Nat) : Boot Header := do
  let h ← im.take 0xFF 0 256
  need (le h 0 4 == imageMagic) 0x10 0xFF 0
  need (le h 4 2 == 1) 0x11 0xFF 4
  let n := le h 8 4
  need (n ≤ top && n % 32 == 0 && 0x160 ≤ n) 0x12 0xFF 8
  need (le h 0xE 1 == pick hw 1 2 3) 0x13 0xFF 0xE
  need (le h 0xF 1 ≤ hw.step % 256) 0x14 0xFF 0xF
  let k := le h 6 1
  need (k ≤ 3) 0x15 0xFF 6
  let f := le h 7 1
  need (bits f 3 1 == 0 && !bit f (4 + k)) 0x15 0xFF 7
  need (le h 0x14 12 == 0) 0x15 0xFF 0x14
  pure ⟨k, f, n, le h 0xC 2, le h 0x10 4, (h.drop 0x20).take 32, (h.drop 0x40).take 64, h⟩

/-- The key slot, the key hash, the signature (R647, steps 1–3). -/
def Header.verify (h : Header) (im : Image) (b : Block) : Boot Unit := do
  let k := b.always.keys.getD h.kslot {}
  need (k.st != 0) 0x20 0xFF 6
  need (k.st == 1) 0x21 0xFF 6
  need (Config.sm3 h.pubkey == k.hash) 0x22 0xFF 0x40
  let sig ← im.take (h.nsec - 1) (h.len - 80) 64
  if Config.sm2Verify h.pubkey h.bytes sig then .ok () else .error ⟨0x23, none⟩

/-- The SM3 digest of the sections before SIGNATURE. -/
def Header.sum (h : Header) (im : Image) : Boot (List Nat) := do
  let l ← im.take 0xFF 0x100 (h.len - 96 - 0x100)
  pure (Config.sm3 l)

/-! ### The sections (R649, R650) -/

structure Section where
  idx : Nat
  typ : Nat
  at_ : Nat
  len : Nat
  inst : Nat
  deriving DecidableEq, Repr

/-- Where a section's payload starts. -/
def Section.pay (s : Section) : Nat := s.at_ + 16

/-- The types of an image, SIGNATURE apart. -/
def imageTypes : List Nat :=
  [0x10, 0x11, 0x12, 0x18, 0x20, 0x21, 0x28, 0x29, 0x30, 0x31, 0x38, 0x40, 0x48, 0x50, 0x58, 0x60, 0x68, 0x70]

/-- May a section follow another? -/
def Section.after (s p : Section) : Bool :=
  if s.typ = p.typ then (s.typ == 0x10 || s.typ == 0x11) && p.inst < s.inst else p.typ < s.typ

/-- The sections from offset o, the n-th first: `n` sections are left. -/
def Image.sections (im : Image) (h : Header) (types : List Nat) : Nat → Nat → Option Section → Boot (List Section)
  | 0, _, _ => .error ⟨0x30, some (0xFF, 0xC)⟩
  | n + 1, o, prev => do
    let i := h.nsec - (n + 1)
    need (o + 16 ≤ h.len) 0x30 i o
    let x ← im.take i o 16
    let s : Section := ⟨i, le x 0 1, o, le x 4 4, le x 8 4⟩
    let last := n == 0
    need (if last then s.typ == 0x7F && o + 96 == h.len else types.contains s.typ) 0x30 i o
    need (prev.all fun p => s.after p) 0x30 i o
    need (le x 1 1 == 1) 0x30 i (o + 1)
    need (le x 2 2 == 0) 0x30 i (o + 2)
    need (if last then s.len == 64 else o + 16 + s.len + 96 ≤ h.len) 0x30 i (o + 4)
    need (s.inst == 0 || s.typ == 0x10 || s.typ == 0x11) 0x30 i (o + 8)
    need (le x 12 4 == 0) 0x30 i (o + 12)
    let stop := o + 16 + s.len
    let next := (stop + 31) / 32 * 32
    let pad ← im.take i stop (next - stop)
    need (pad.all (· == 0)) 0x30 i stop
    if last then pure [s]
    else do
      let l ← im.sections h types n next (some s)
      pure (s :: l)

/-- The whole structure of an image; what must be present is. -/
def Image.structured (im : Image) (h : Header) : Boot (List Section) := do
  let l ← im.sections h imageTypes h.nsec 0x100 none
  if [0x12, 0x31, 0x50, 0x68].all fun t => l.any fun s => s.typ == t then pure l else .error ⟨0x31, none⟩

/-! ### The boot record (R658) -/

/-- A failure inside the boot record: BOOTREC, but for an uncorrectable granule. -/
def asBootrec (x : Boot Nat) : Boot Nat :=
  match x with
  | .ok v => .ok v
  | .error f => .error ⟨if f.cause = 0x05 then 0x05 else 0x06, f.info.map fun p => (0xFF, p.2)⟩

/-- MINVER of the boot record in the block at flash offset o; 0 where the block holds none. -/
def bootMinver (hw : Hw) (b : Block) (o : Nat) : Boot Nat := do
  let im := flashImage b o
  let m ← asBootrec ((im.take 0xFF 0 4).map (leNum ·))
  if m ≠ imageMagic then pure 0
  else asBootrec do
    let h ← im.header hw 0x200000
    h.verify im b
    need (h.nsec == 2) 0x06 0xFF 0xC
    let l ← im.sections h [0x7E] 2 0x100 none
    let d ← h.sum im
    need (d == h.digest) 0x06 0xFF 0x20
    match l with
    | s :: _ => do
      let p ← im.take 0xFF s.pay s.len
      need (s.len == 8 && le p 4 4 == 0) 0x06 0xFF (s.pay + 4)
      pure (le p 0 4)
    | [] => .error ⟨0x06, none⟩

end Sys2Proof.Machine
end

