-- ==== Sys2Proof/Machine/Transform.lean ====
section
/-! DEFINITION. The transforms of R485: exact rotations, and the functions that the spec bounds without fixing every bit. -/

namespace Sys2Proof.Machine

/-! ### Bounded results -/

/-- An exact value by its floor, and whether the floor is the value. -/
structure Exact where
  floor : Int
  exact : Bool
  deriving DecidableEq, Repr

/-- The negative of an exact value, and it added to an integer. -/
def Exact.neg (x : Exact) : Exact := if x.exact then ⟨-x.floor, true⟩ else ⟨-x.floor - 1, false⟩
def Exact.plus (x : Exact) (n : Int) : Exact := ⟨x.floor + n, x.exact⟩

/-- One of the integers within k units of a value: choice d says which. -/
def Exact.near (x : Exact) (k d : Nat) : Int :=
  if x.exact then x.floor - k + ((d % (2 * k + 1) : Nat) : Int) else x.floor - k + 1 + ((d % (2 * k) : Nat) : Int)

/-- √n. -/
def sqrtOf (n : Nat) : Exact := let r := isqrt n; ⟨r, r * r == n⟩

/-! ### Numbers with 160 fraction bits -/

/-- π. -/
def piFix : Nat := 0x3243f6a8885a308d313198a2e03707344a4093822

/-- The terms of the sine's series from term k on. -/
def sinTerms (x2 : Int) : Nat → Nat → Int → Int
  | 0, _, _ => 0
  | n + 1, k, t => t + sinTerms x2 n (k + 1) (-(t * x2 / 2 ^ 160) / ((2 * k + 2) * (2 * k + 3) : Nat))

/-- 2^31 sin of r units of 2^−32 turn, for r up to a quarter turn: exact only at both ends. -/
def sinQuarter (r : Nat) : Exact :=
  if r = 0 then ⟨0, true⟩
  else if r = 2 ^ 30 then ⟨2 ^ 31, true⟩
  else
    let x : Int := (r * piFix / 2 ^ 31 : Nat)
    ⟨sinTerms (x * x / 2 ^ 160) 30 0 x / 2 ^ 129, false⟩

/-- 2^31 sin of an angle. -/
def sinOf (a : Nat) : Exact :=
  let r := a % 2 ^ 30
  match a / 2 ^ 30 % 4 with
  | 0 => sinQuarter r
  | 1 => sinQuarter (2 ^ 30 - r)
  | 2 => (sinQuarter r).neg
  | _ => (sinQuarter (2 ^ 30 - r)).neg

/-- tan(x/2) from tan x. -/
def halfTan (u : Nat) : Nat := u * 2 ^ 160 / (2 ^ 160 + isqrt (2 ^ 320 + u * u))

/-- The terms of the arctangent's series from term k on. -/
def atanTerms (u2 : Int) : Nat → Nat → Int → Int
  | 0, _, _ => 0
  | n + 1, k, p => p / ((2 * k + 1 : Nat) : Int) + atanTerms u2 n (k + 1) (-(p * u2 / 2 ^ 160))

/-- The angle of lo over hi, 0 < lo < hi, in units of 2^−32 turn: never exact. -/
def atanOf (lo hi : Nat) : Exact :=
  let u := halfTan (halfTan (halfTan (lo * 2 ^ 160 / hi)))
  let a := atanTerms ((u * u / 2 ^ 160 : Nat) : Int) 30 0 u
  ⟨8 * a * 2 ^ 31 / (piFix : Int), false⟩

/-- The angle of (x, y) in the first quadrant, not both 0. -/
def quadrantAngle (y x : Nat) : Exact :=
  if y = 0 then ⟨0, true⟩
  else if x = 0 then ⟨2 ^ 30, true⟩
  else if x = y then ⟨2 ^ 29, true⟩
  else if y < x then atanOf y x
  else (atanOf x y).neg.plus (2 ^ 30)

/-- atan2(y, x) in units of 2^−32 turn, not both 0. -/
def angleOf (y x : Int) : Exact :=
  let q := quadrantAngle y.natAbs x.natAbs
  if 0 ≤ y then (if 0 ≤ x then q else q.neg.plus (2 ^ 31))
  else (if x < 0 then q.plus (2 ^ 31) else q.neg.plus (2 ^ 32))

/-! ### The transforms (R485) -/

/-- The microcoded instructions; `num` is the number by which Config's constants name one. -/
inductive MicroKind where
  | clarke | park | ipark | sincos | atan2 | mtx3 | div | rem | sqrt | ldm | stm | saveg | loadg | bcopy | vmac | firq
  deriving DecidableEq, Repr

def MicroKind.num : MicroKind → Nat
  | .clarke => 0
  | .park => 1
  | .ipark => 2
  | .sincos => 3
  | .atan2 => 4
  | .mtx3 => 5
  | .div => 6
  | .rem => 7
  | .sqrt => 8
  | .ldm => 9
  | .stm => 10
  | .saveg => 11
  | .loadg => 12
  | .bcopy => 13
  | .vmac => 14
  | .firq => 15

/-- CLARKE's β: within 1 unit of (a + 2b)/√3. -/
def clarkeBeta (a z : Nat) : TWord :=
  let x := toSigned 32 a + 2 * toSigned 32 z
  let n := x.natAbs * x.natAbs
  let m := sqrtOf (n / 3)
  let m : Exact := { m with exact := m.exact && n % 3 == 0 }
  let v := if x < 0 then m.neg else m
  byTag Tag.frac (v.near 1 (Config.approx MicroKind.clarke.num 1 a z))

/-- The exact sum of two products, rounded and saturated (R77, R485). -/
def sumProd (p q : Int) : TWord := byTag Tag.frac (roundShr (p + q) 31)

/-- PARK: d and q from α, β, sin, cos. -/
def parkD (al be sn cs : Nat) : TWord := sumProd (frac al * frac cs) (frac be * frac sn)
def parkQ (al be sn cs : Nat) : TWord := sumProd (frac be * frac cs) (-(frac al * frac sn))

/-- IPARK: α and β from d, q, sin, cos. -/
def iparkAlpha (d q sn cs : Nat) : TWord := sumProd (frac d * frac cs) (-(frac q * frac sn))
def iparkBeta (d q sn cs : Nat) : TWord := sumProd (frac d * frac sn) (frac q * frac cs)

/-- SINCOS: an output within 2 units; output 0 is the sine, 1 the cosine. -/
def sincosOut (k a : Nat) : TWord :=
  byTag Tag.frac ((sinOf (a + k * 2 ^ 30)).near 2 (Config.approx MicroKind.sincos.num k a 0))

/-- ATAN2: the angle within 4 units, modulo a turn. -/
def atanAngle (y x : Nat) : TWord :=
  if y = 0 ∧ x = 0 then word 0 Tag.ang
  else wordI ((angleOf (toSigned 32 y) (toSigned 32 x)).near 4 (Config.approx MicroKind.atan2.num 0 y x)) Tag.ang

/-- ATAN2: the magnitude within 2 units, saturated. -/
def atanMag (t y x : Nat) : TWord :=
  let a := (toSigned 32 y).natAbs
  let z := (toSigned 32 x).natAbs
  if a = 0 ∧ z = 0 then word 0 t
  else wordI (clampInt (-(2 ^ 31)) (2 ^ 31 - 1) ((sqrtOf (a * a + z * z)).near 2 (Config.approx MicroKind.atan2.num 1 y x))) t

/-- A row of MTX3. -/
def rowProd (t : Nat) (m v : List Nat) : TWord :=
  byTag t (roundShr (((m.zip v).map fun x => toSigned 32 x.1 * toSigned 32 x.2).foldl (· + ·) 0) (fracBits t))

end Sys2Proof.Machine
end

