-- ==== Sys2Proof/Machine/Micro.lean ====
section
/-! DEFINITION. The microcoded instructions (R479–R490, R510–R515, R533–R543): elements, boundaries, RESUME, patches, and
each instruction's elements. -/

namespace Sys2Proof.Machine

/-! ### The D-TCM's wide port (R480, R481, R528) -/

/-- Do n words from a lie wholly in the engine's own D-TCM? -/
def ownWords (e a n : Nat) : Bool :=
  let w := unalias e a
  n == 0 || (tcmBase e + 0x10000 ≤ w && w + 4 * n ≤ tcmBase e + 0x18000)

/-- A word of the engine's D-TCM in `src` with its tag, the read counted in `b`; a word that is not aligned carries RAW (R437). -/
def wideFrom (c : Ctx) (src : Block) (e a : Nat) (b : Block) : TWord × Block :=
  let w := unalias e a
  let (v, bad, b) := memRead c src w 4 b
  if w % 4 ≠ 0 then (if bad then word 0 Tag.poison else word v Tag.raw, b)
  else
    let t := src.tagOf w
    let (_, tbad, b) := memRead c src (tagByteAddr w) 1 b
    (if bad || tbad then word 0 Tag.poison else word v t, b)

/-- A word of the engine's D-TCM as it stands, with its tag. -/
def wideRead (c : Ctx) (e a : Nat) (b : Block) : TWord × Block := wideFrom c b e a b

/-- What the wide port reads granules from: the memory at the start of the fc (R556), or, where the engine's own port has written one
of them in this fc, as an earlier element did, the memory as it stands (log entry 76). -/
def Block.wideSrc (b : Block) (c : Ctx) (gs : List Nat) : Block :=
  if gs.any fun g => b.fc.wrote.any fun w => w.2.2 == 0 && (granulesOf w.1 w.2.1).contains g then b else c.start

/-- The wide port reads a word (R480, R556). -/
def wideLoad (c : Ctx) (e a : Nat) (b : Block) : TWord × Block :=
  wideFrom c (b.wideSrc c (granulesOf (unalias e a) 4)) e a b

/-- A word is stored in the engine's D-TCM with its tag, through the engine's own port (R556). -/
def wideWrite (c : Ctx) (e a : Nat) (v : TWord) (b : Block) : Block :=
  let w := unalias e a
  orderedStore c 0 w v.d.toNat 4 (if w % 4 = 0 then v.t.toNat else Tag.raw) b

/-- A memory word used as an operand under a register: POISON, or TAG unless its tag is accepted. -/
def memOpd (r : Nat) (ok : Nat → Bool) (v : TWord) : Option Trap :=
  if v.t.toNat = Tag.poison then some { code := excPoison, einfo := r * 256 }
  else if ok v.t.toNat then none else some { code := excTag, einfo := r * 256 + v.t.toNat }

/-- Judge a word access of an element, then go on. -/
def judged (e k : Nat) (wr : Bool) (a : Nat) (b : Block) (f : Block → Eff) : Eff :=
  match mpJudge (b.engSt e) (b.taskSt e k).priv wr a 4 with
  | some x => .trap x b
  | none => f b

/-! ### Patches and their parity (R535–R542) -/

/-- The patch word an enabled match register of a kind names for an address. -/
def Block.matchIdx (b : Block) (e kind addr : Nat) : Option Nat :=
  (List.range 16).findSome? fun k =>
    if b.on (F.UC_MATCH_EN e k) ∧ b.get (F.UC_MATCH_KIND e k) = kind ∧ b.get (F.UC_MATCH_ADDR e k) = addr then
      some (b.get (F.UC_MATCH_IDX e k)) else none

/-- Does the parity of patch word i fail, in any of its groups of 16 bits (R540)? -/
def parityBad (l : List Nat) (i : Nat) : Bool := l.any fun k => k / 16 == i

/-- What a microstep at a ROM microaddress finds: the EINFO of a patch word whose parity fails, `none` inside for an address
that the spec does not give (R538, R541). -/
def Block.stepParity (b : Block) (hw : Hw) (e a : Nat) : Option (Option Nat) :=
  let s := b.engSt e
  let nano (m : Nat) : Option (Option Nat) :=
    match b.matchIdx e 1 (bits m 16 8) with
    | some i => if parityBad s.badNano i then some (some (2 ^ 30 + bits m 16 8)) else none
    | none => none
  match b.matchIdx e 0 a with
  | some i =>
    if parityBad s.badMicro i then some (some a)
    else if isKd2 hw then none
    else
      let m := b.rd (R.UC_ID e + 0x400 + 4 * i)
      if bit m 17 then (if parityBad s.badNano (bits m 12 8) then some none else none) else nano m
  | none => if isKd2 hw then none else nano (Config.romMicro a)

/-- Is a microstep at a ROM microaddress substituted (R536–R538)? -/
def Block.stepPatched (b : Block) (hw : Hw) (e a : Nat) : Bool :=
  (b.matchIdx e 0 a).isSome || (!isKd2 hw && (b.matchIdx e 1 (bits (Config.romMicro a) 16 8)).isSome)

/-- Is any of some microsteps substituted? -/
def Block.anyPatched (b : Block) (hw : Hw) (e : Nat) (addrs : List Nat) : Bool :=
  (List.range 16).any (fun k => b.on (F.UC_MATCH_EN e k)) && addrs.any fun a => b.stepPatched hw e (a % 2048)

/-- MCHK at element 0 of every microcoded instruction while a match register's parity has failed (R542). -/
def matchCheck (e : Nat) (b : Block) : Eff :=
  match (b.engSt e).badMatch.foldl (fun m k => match m with | none => some k | some x => some (min x k)) none with
  | some k => .trap { code := excMchk, einfo := 2 ^ 31 + k } b
  | none => .done b

/-- MCHK at the first of some microsteps that uses a patch word whose parity fails (R541). -/
def microCheck (c : Ctx) (e : Nat) (addrs : List Nat) (b : Block) : Eff :=
  let s := b.engSt e
  if s.badMicro.isEmpty && s.badNano.isEmpty then .done b
  else match addrs.findSome? fun a => b.stepParity c.hw e (a % 2048) with
    | none => .done b
    | some (some v) => .trap { code := excMchk, einfo := v } b
    | some none =>
      let (v, b) := b.free
      .trap { code := excMchk, einfo := 2 ^ 30 + v % 512 } b

/-! ### Elements, boundaries, RESUME (R479–R484, R513–R515) -/

/-- A microcoded instruction on given operands: its element count, its elements, whether an element is there at
all (SAVEG and LOADG skip words), whether RSM and RSW are left as the last element made them (LOADG of CT), for an intermediate
word its operand words; its result registers where the last element writes them, else what an element that uses a
substituted word leaves in place of the values it writes (log entry 74). -/
structure Micro where
  elems : Nat
  step : Nat → Block → Eff
  here : Nat → Bool := fun _ => true
  keeps : Bool := false
  ops : List Nat := []
  dst : List (Nat × Nat) := []
  blur : Nat → Block → Block := fun _ b => b

/-- Does the instruction have an intermediate word (R484)? -/
def MicroKind.hasWord : MicroKind → Bool
  | .sincos => true
  | .atan2 => true
  | .div => true
  | .rem => true
  | .sqrt => true
  | _ => false

/-- The microsteps of an element body, one fc each (R533): with `extra` they make the costs of R469, extra + body × elements. -/
def MicroKind.body : MicroKind → Nat
  | .ldm | .stm | .saveg | .loadg | .vmac | .firq => 1
  | _ => 2

/-- The microsteps of prologue and epilogue together. -/
def MicroKind.extra : MicroKind → Nat
  | .ldm | .bcopy | .firq => 2
  | .stm | .saveg | .loadg => 1
  | .vmac => 3
  | _ => 0

/-- The microsteps of the prologue: such that the first and the last boundary lie within 2 fc of the issue and of the completion (R479);
where no split does both, the spec's rules cannot all hold, and one of the two does (log entry 6). -/
def MicroKind.prologue (kind : MicroKind) : Nat :=
  let hi := 2 - kind.body
  let lo := kind.extra + kind.body - 2
  let v := Config.prologue kind.num
  if lo ≤ hi then lo + v % (hi - lo + 1) else hi + v % (lo - hi + 1)

/-- The fc that boundary k of n elements falls in after its issue, beyond the bodies before it: in a VMAC of 3 or more it grows by one
at a boundary past the first, so that R479 holds throughout (log entry 6). -/
def MicroKind.lead (kind : MicroKind) (n k : Nat) : Nat :=
  if k = 0 then 0
  else if kind = .vmac ∧ 3 ≤ n then (if k < 2 + Config.vmacStep n % (n - 2) then 1 else 2)
  else kind.prologue

/-- How many elements are there from j up to k. -/
def Micro.between (m : Micro) (j k : Nat) : Nat := ((List.range k).filter fun i => j ≤ i && m.here i).length

/-- The fc from an issue that begins at element j to boundary k (R479, R533); both boundaries are offset alike where the instruction
was left at j. -/
def Micro.span (m : Micro) (kind : MicroKind) (j k : Nat) : Nat :=
  kind.lead m.elems k - kind.lead m.elems j + kind.body * m.between j k

/-- The cost of an issue that begins at element j: the full cost, or what is left of it (R469, R514). -/
def Micro.cost (m : Micro) (kind : MicroKind) (j : Nat) : Nat :=
  kind.extra - kind.lead m.elems j + kind.body * m.between j m.elems

/-- n microaddresses from an instruction's entry on. -/
def microRange (kind : MicroKind) (o n : Nat) : List Nat := (List.range n).map fun i => Config.microEntry kind.num + o + i

/-- The microsteps of an instruction before its elements, and those after them (R533). -/
def MicroKind.leadIn (kind : MicroKind) : List Nat := microRange kind 0 kind.prologue
def MicroKind.leadOut (kind : MicroKind) : List Nat := microRange kind (kind.prologue + kind.body) (kind.extra - kind.prologue)

/-- The microsteps in element j: the body, the same for every element; with the first the prologue, unless the instruction was left
before j, with the last the epilogue (R533). -/
def Micro.addrs (m : Micro) (kind : MicroKind) (fresh : Bool) (j : Nat) : List Nat :=
  (if fresh && m.between 0 j = 0 then kind.leadIn else []) ++ microRange kind kind.prologue kind.body ++
    (if m.between (j + 1) m.elems = 0 then kind.leadOut else [])

/-- Does an element of the instruction use a substituted word? -/
def Block.elemPatched (b : Block) (hw : Hw) (e : Nat) (kind : MicroKind) (m : Micro) (j : Nat) : Bool :=
  (List.range 16).any (fun k => b.on (F.UC_MATCH_EN e k)) && b.anyPatched hw e (m.addrs kind true j)

/-- The element a task begins at (R514). -/
def TaskSt.firstElem (t : TaskSt) : Nat := if t.rsmV then t.rsmIdx else 0

/-- The intermediate word before element j on given operands. -/
def Micro.mid (m : Micro) (kind : MicroKind) (j : Nat) : TWord :=
  if kind.hasWord then
    let v := Config.midWord kind.num j m.ops
    word v (v / 2 ^ 32 % 12)
  else {}

/-- A free word with a free tag. -/
def freeWord (b : Block) : TWord × Block :=
  let (v, b) := b.free
  (word v (v / 2 ^ 32 % 12), b)

/-- The progress of an instruction left before element j is recorded (R513); `lost`: its intermediate word is not stated. -/
def recordProgress (kind : MicroKind) (m : Micro) (lost : Bool) (e k j : Nat) (b : Block) : Block :=
  let (w, b) := if lost && kind.hasWord then freeWord b else (m.mid kind j, b)
  b.setTask e k { b.taskSt e k with rsmV := true, rsmIdx := j, rsw := w }

/-- When a microcoded instruction's result is readable: with the next instruction in mode D (R411), after its figure in mode P
(R409). -/
def EngSt.after (s : EngSt) (n : Nat) : Nat := if s.modeP then n else 1

/-- A microcoded instruction whose figure is u gives register r its result. -/
def microReg (c : Ctx) (e k r : Nat) (v : TWord) (u : Nat) (b : Block) : Block := wrReg c e k r v ((b.engSt e).after u) b

/-- Write the result registers of a transform. -/
def giveAll (c : Ctx) (e k u : Nat) : List (Nat × TWord) → Block → Block
  | [], b => b
  | (r, v) :: l, b => giveAll c e k u l (microReg c e k r v u b)

/-- Results the spec does not state: free values with the tags it states, or, `tags`, with free ones. -/
def giveFree (c : Ctx) (e k u : Nat) (tags : Bool) : List (Nat × Nat) → Block → Block
  | [], b => b
  | (r, t) :: l, b =>
    let (v, b) := freeWord b
    giveFree c e k u tags l (microReg c e k r (if tags then v else { v with t := BitVec.ofNat 4 t }) u b)

/-- An instruction continued with an intermediate word that is not the one it was left with on these operands: its results
are not stated. -/
def Micro.astray (m : Micro) (kind : MicroKind) (t : TaskSt) : Bool :=
  kind.hasWord && t.firstElem != 0 && t.rsw != m.mid kind t.firstElem

/-- An exception at element j of an instruction begun at element `first`: raised in the element's own fc in mode D (R482, R520), where
the spec gives its fc. -/
def elemTrap (e : Nat) (kind : MicroKind) (m : Micro) (first j : Nat) (x : Trap) (b : Block) : Eff :=
  let n := m.span kind first j
  if (b.engSt e).modeP || n = 0 then .trap x b else .late n x b

/-- Do n elements from j: where one raises an exception, the progress is recorded there (R482). -/
def runElems (c : Ctx) (e k : Nat) (kind : MicroKind) (m : Micro) (lost : Bool) (first : Nat) : Nat → Nat → Block → Eff
  | 0, _, b => .done b
  | n + 1, j, b =>
    if !m.here j then runElems c e k kind m lost first n (j + 1) b
    else
      match (microCheck c e (m.addrs kind (first == 0) j) b).andThen (m.step j) with
      | .done b => runElems c e k kind m lost first n (j + 1) (if b.elemPatched c.hw e kind m j then m.blur j b else b)
      | .trap x b => elemTrap e kind m first j x (recordProgress kind m lost e k j b)
      | .late n x b => .late n x b
      | .hold n => .hold n

/-- A register, a word of the D-TCM, an accumulator takes a free value. -/
def blurReg (c : Ctx) (e k r u : Nat) (b : Block) : Block :=
  let (v, b) := freeWord b
  microReg c e k r v u b
def blurWord (c : Ctx) (e a : Nat) (b : Block) : Block :=
  let (v, b) := freeWord b
  wideWrite c e a v b
def blurAcc (e k acc : Nat) (b : Block) : Block :=
  let (v, b) := b.free
  let t := b.taskSt e k
  b.setTask e k (t.setAcc acc ⟨BitVec.ofNat 80 v, v / 2 ^ 80 % 5⟩)

/-- An element that does nothing but the last, which gives the results. -/
def atLast (n : Nat) (f : Block → Block) (j : Nat) (b : Block) : Eff := .done (if j + 1 = n then f b else b)

/-- A microcoded instruction of the running task: `ops` gives its elements on the operands, or the exception they raise;
`stop`: the boundary at which it is left (R499), where it is not completed. -/
def microOp (c : Ctx) (e : Nat) (kind : MicroKind) (m : Meta) (stop : Option Nat) (ops : Nat → Block → Except Trap Micro)
    (b : Block) : Block :=
  let k := (b.engSt e).run.getD 0
  let cost := match ops k b with
    | .ok u => u.cost kind ((b.taskSt e k).firstElem)
    | .error _ => 1
  issue c e { m with micro := true, cost := cost } (fun k pc b =>
    let t := b.taskSt e k
    match ops k b with
    | .error x => .trap x b
    | .ok u =>
      let first := t.firstElem
      let last := match stop with
        | some j => if first < j ∧ j < u.elems ∧ u.here j then j else u.elems
        | none => u.elems
      let patched := !u.dst.isEmpty && (List.range u.elems).any fun j => b.elemPatched c.hw e kind u j
      let lost := u.astray kind t || patched
      let u := if lost then { u with step := atLast u.elems (giveFree c e k (u.cost kind 0) patched u.dst) } else u
      match matchCheck e b with
      | .trap x b => .trap x (recordProgress kind u lost e k 0 b)
      | _ =>
        (if u.between first u.elems = 0 then microCheck c e (kind.leadIn ++ kind.leadOut) b else .done b).andThen fun b =>
          (runElems c e k kind u lost first (last - first) first b).andThen fun b =>
            if last = u.elems then
              .done (if u.keeps then b else b.setTask e k { b.taskSt e k with rsmV := false })
            else
              let n := c.tick + u.span kind first last
              let b := recordProgress kind u lost e k last (jump e k pc b)
              .done (b.setEng e { b.engSt e with issueAt := n, holdEnd := n })) b

/-! ### Register constraints (R468) -/

/-- The registers of a group of n from r. -/
def regsFrom (r n : Nat) : List Nat := (List.range n).map (r + ·)

/-- The register constraints: destination groups from G1 on, all groups up to G31, no overlap. -/
def regRules (dst : List Nat) (grouped : Bool) (src : List Nat) : Option Nat :=
  if (dst ++ src).any (31 < ·) || (grouped && dst.contains 0) || dst.any src.contains then some 3 else none

/-- An unused bit of T that is set. -/
def tRules (t : Nat) (m : Option Nat) : Option Nat := if 2 ≤ t then some 1 else m

/-! ### Register transforms -/

/-- The operands, all FRAC; G0 paired with a FRAC acts as FRAC (R447). -/
def fracPair (a z : Opd) : Except Trap Unit :=
  (pairUp (fun x y => if x = Tag.frac ∧ y = Tag.frac then some x else none) a z).map fun _ => ()

/-- CLARKE. -/
def clarkeOp (c : Ctx) (e rd ra rb : Nat) (stop : Option Nat) (b : Block) : Block :=
  microOp c e .clarke
    { uses := [ra, rb], writes := regsFrom rd 2, bad := regRules (regsFrom rd 2) true [ra, rb], elems := 3 } stop
    (fun k b => do
      let t := b.taskSt e k
      fracPair (t.opd ra) (t.opd rb)
      let a := (t.opd ra).d
      pure {
        elems := 3, step := atLast 3 (giveAll c e k 6 [(rd, word a Tag.frac), (rd + 1, clarkeBeta a (t.opd rb).d)])
        dst := [(rd, Tag.frac), (rd + 1, Tag.frac)] }) b

/-- PARK and IPARK: four operands in two pairs. -/
def parkOp (c : Ctx) (kind : MicroKind) (e rd ra rb : Nat) (stop : Option Nat)
    (f g : Nat → Nat → Nat → Nat → TWord) (b : Block) : Block :=
  let src := regsFrom ra 2 ++ regsFrom rb 2
  microOp c e kind { uses := src, writes := regsFrom rd 2, bad := regRules (regsFrom rd 2) true src, elems := 3 } stop
    (fun k b => do
      let t := b.taskSt e k
      fracPair (t.opd ra) (t.opd (ra + 1))
      fracPair (t.opd rb) (t.opd (rb + 1))
      let v (h : Nat → Nat → Nat → Nat → TWord) : TWord := h (t.opd ra).d (t.opd (ra + 1)).d (t.opd rb).d (t.opd (rb + 1)).d
      pure {
        elems := 3, step := atLast 3 (giveAll c e k 6 [(rd, v f), (rd + 1, v g)])
        dst := [(rd, Tag.frac), (rd + 1, Tag.frac)] }) b

/-- SINCOS. -/
def sincosOp (c : Ctx) (e rd ra : Nat) (stop : Option Nat) (b : Block) : Block :=
  microOp c e .sincos { uses := [ra], writes := regsFrom rd 2, bad := regRules (regsFrom rd 2) true [ra], elems := 9 } stop
    (fun k b => do
      let o := (b.taskSt e k).opd ra
      let _ ← single (among [Tag.ang]) o
      pure {
        elems := 9, step := atLast 9 (giveAll c e k 18 [(rd, sincosOut 0 o.d), (rd + 1, sincosOut 1 o.d)])
        ops := [o.d], dst := [(rd, Tag.frac), (rd + 1, Tag.frac)] }) b

/-- ATAN2. -/
def atan2Op (c : Ctx) (e rd ra rb : Nat) (stop : Option Nat) (b : Block) : Block :=
  microOp c e .atan2 { uses := [ra, rb], writes := regsFrom rd 2, bad := regRules (regsFrom rd 2) true [ra, rb], elems := 11 } stop
    (fun k b => do
      let t := b.taskSt e k
      let y := t.opd ra
      let x := t.opd rb
      let (_, _, g) ← pairUp (fun u v => if u = v ∧ (u = Tag.int ∨ u = Tag.frac ∨ u = Tag.fix) then some u else none) y x
      pure {
        elems := 11, step := atLast 11 (giveAll c e k 22 [(rd, atanAngle y.d x.d), (rd + 1, atanMag g y.d x.d)])
        ops := [y.d, x.d, g], dst := [(rd, Tag.ang), (rd + 1, g)] }) b

/-- MTX3: one element per row. -/
def mtx3Op (c : Ctx) (e rd ra rb : Nat) (stop : Option Nat) (b : Block) : Block :=
  let src := ra :: regsFrom rb 3
  microOp c e .mtx3 { uses := src, writes := regsFrom rd 3, wide := true, bad := regRules (regsFrom rd 3) true src, elems := 3 } stop
    (fun k b => do
      let t := b.taskSt e k
      let base := t.opd ra
      let v := (regsFrom rb 3).map t.opd
      let _ ← single (among [Tag.dptr]) base
      let g ← single (among [Tag.frac, Tag.fix]) (v.getD 0 (t.opd rb))
      match v.find? (fun o => o.t != g) with
      | some o => throw (tagTrap o)
      | none =>
        if !ownWords e base.d 9 then throw (ill 5)
        else pure {
          elems := 3
          step := fun j b =>
            let row := regsFrom (3 * j) 3
            match row.findSome? (fun i => mpJudge (b.engSt e) t.priv false (base.d + 4 * i) 4) with
            | some x => .trap x b
            | none =>
              let (ws, b) := row.foldl (fun (z : List TWord × Block) i =>
                let (w, b) := wideLoad c e (base.d + 4 * i) z.2
                (z.1 ++ [w], b)) ([], b)
              match ws.findSome? (memOpd ra (· == g)) with
              | some x => .trap x b
              | none => .done (microReg c e k (rd + j) (rowProd g (ws.map fun w => w.d.toNat) (v.map fun o => o.d)) 6 b)
          blur := fun j b => blurReg c e k (rd + j) 6 b }) b

/-- DIV and REM; a zero divisor raises DIVZ at issue (R472). -/
def divOp (c : Ctx) (kind : MicroKind) (e rd ra rb : Nat) (stop : Option Nat) (rule : Nat → Nat → Option Nat)
    (f : Nat → Nat → Nat → TWord) (b : Block) : Block :=
  microOp c e kind { uses := [ra, rb], writes := [rd], bad := regRules [rd] false [ra, rb], elems := 9 } stop
    (fun k b => do
      let t := b.taskSt e k
      let a := t.opd ra
      let z := t.opd rb
      let (_, _, g) ← pairUp rule a z
      if z.d = 0 then throw { code := excDivz }
      else pure {
        elems := 9, step := atLast 9 (microReg c e k rd (f g a.d z.d) 18), ops := [a.d, z.d, g], dst := [(rd, g)] }) b

/-- SQRT. -/
def sqrtOp (c : Ctx) (e rd ra : Nat) (stop : Option Nat) (b : Block) : Block :=
  microOp c e .sqrt { uses := [ra], writes := [rd], bad := regRules [rd] false [ra], elems := 10 } stop
    (fun k b => do
      let o := (b.taskSt e k).opd ra
      let g ← single (among [Tag.uns, Tag.frac, Tag.fix, Tag.flt]) o
      pure {
        elems := 10, step := atLast 10 (microReg c e k rd (root g o.d) 20), ops := [o.d, g], dst := [(rd, g)] }) b

/-! ### Moves of registers and memory (R486, R487) -/

/-- A count or mask register: INT or UNS. -/
def countOpd (o : Opd) : Except Trap Nat := (single (among [Tag.int, Tag.uns]) o).map fun _ => o.d

/-- The registers of a mask, ascending. -/
def maskRegs (m : Nat) : List Nat := (List.range 32).filter (bit m)

/-- LDM. -/
def ldmOp (c : Ctx) (e ra rb : Nat) (stop : Option Nat) (b : Block) : Block :=
  let m := maskRegs (((b.taskSt e ((b.engSt e).run.getD 0)).opd rb).d)
  microOp c e .ldm { uses := [ra, rb], writes := m, wide := true, elems := m.length } stop
    (fun k b => do
      let t := b.taskSt e k
      let base := t.opd ra
      let _ ← single (among [Tag.dptr]) base
      let mask ← countOpd (t.opd rb)
      let rs := maskRegs mask
      if bit mask 0 || rs.contains ra || rs.contains rb then throw (ill 3)
      else if !ownWords e base.d rs.length then throw (ill 5)
      else pure {
        elems := rs.length
        step := fun j b => judged e k false (base.d + 4 * j) b fun b =>
          let (v, b) := wideLoad c e (base.d + 4 * j) b
          .done (microReg c e k (rs.getD j 0) v (2 + rs.length) b)
        blur := fun j b => blurReg c e k (rs.getD j 0) (2 + rs.length) b }) b

/-- STM. -/
def stmOp (c : Ctx) (e ra rb : Nat) (stop : Option Nat) (b : Block) : Block :=
  let m := maskRegs (((b.taskSt e ((b.engSt e).run.getD 0)).opd rb).d)
  microOp c e .stm { uses := [ra, rb], moves := m, wide := true, elems := m.length } stop
    (fun k b => do
      let t := b.taskSt e k
      let base := t.opd ra
      let _ ← single (among [Tag.dptr]) base
      let mask ← countOpd (t.opd rb)
      let rs := maskRegs mask
      if bit mask 0 then throw (ill 3)
      else if !ownWords e base.d rs.length then throw (ill 5)
      else pure {
        elems := rs.length
        step := fun j b => judged e k true (base.d + 4 * j) b fun b =>
          .done (wideWrite c e (base.d + 4 * j) ((b.taskSt e k).reg (rs.getD j 0)) b)
        blur := fun j b => blurWord c e (base.d + 4 * j) b }) b

/-- The tags of a granule's eight words as the tag plane of `src` holds them; POISON where they cannot be read. -/
def granTags (c : Ctx) (src : Block) (a : Nat) (b : Block) : Nat × Block :=
  let (v, bad, b) := memRead c src (tagByteAddr a) 4 b
  (if bad then 0xFFFFFFFF else v, b)

/-- BCOPY: one granule with its tags (R487). -/
def copyGranule (c : Ctx) (e src dst : Nat) (b : Block) : Block :=
  let s := unalias e src
  let d := unalias e dst
  let from_ := b.wideSrc c [s / 32]
  let (v, bad, b) := granRead c from_ (s / 32) b
  let (t, b) := granTags c from_ s b
  memWrite c (tagByteAddr d) t 4 (orderedGran 0 (d / 32) v bad b)

/-- BCOPY. -/
def bcopyOp (c : Ctx) (e rd ra rb : Nat) (stop : Option Nat) (b : Block) : Block :=
  let n := ((b.taskSt e ((b.engSt e).run.getD 0)).opd rb).d
  microOp c e .bcopy { uses := [rd, ra, rb], wide := true, elems := n } stop
    (fun k b => do
      let t := b.taskSt e k
      let dst := t.opd rd
      let src := t.opd ra
      let _ ← single (among [Tag.dptr]) dst
      let _ ← single (among [Tag.dptr]) src
      let g ← countOpd (t.opd rb)
      if g = 0 ∨ 1024 < g then throw (ill 3)
      else if dst.d % 32 ≠ 0 ∨ src.d % 32 ≠ 0 ∨ !ownWords e dst.d (8 * g) ∨ !ownWords e src.d (8 * g) then throw (ill 5)
      else pure {
        elems := g
        step := fun j b => judged e k false (src.d + 32 * j) b fun b =>
          judged e k true (dst.d + 32 * j) b fun b =>
            .done (copyGranule c e (src.d + 32 * j) (dst.d + 32 * j) b)
        blur := fun j b => (List.range 8).foldl (fun b i => blurWord c e (dst.d + 32 * j + 4 * i) b) b }) b

/-! ### Products over memory (R488–R490) -/

/-- ACC ± a pair of memory words: the pair's kind must match the accumulator's (R476). -/
def addProduct (e k acc rx ry : Nat) (x y : TWord) (b : Block) : Eff :=
  let t := b.taskSt e k
  match (memOpd rx plainTag x).or (memOpd ry plainTag y) with
  | some p => .trap p b
  | none =>
    match pairUp numTags ⟨rx, x.d.toNat, x.t.toNat⟩ ⟨ry, y.d.toNat, y.t.toNat⟩ with
    | .error p => .trap p b
    | .ok (_, _, g) =>
      let a := t.acc acc
      if a.kind ≠ 0 ∧ a.kind ≠ g then .trap { code := excTag, einfo := rx * 256 + g } b
      else .done (b.setTask e k (t.setAcc acc (a.plus g (product g x.d.toNat y.d.toNat))))

/-- VMAC. -/
def vmacOp (c : Ctx) (e rd ra rb t : Nat) (stop : Option Nat) (b : Block) : Block :=
  let n := ((b.taskSt e ((b.engSt e).run.getD 0)).opd rd).d
  microOp c e .vmac { uses := [rd, ra, rb], wide := true, bad := tRules t none, elems := n } stop
    (fun k b => do
      let s := b.taskSt e k
      let n ← countOpd (s.opd rd)
      let x := s.opd ra
      let y := s.opd rb
      let _ ← single (among [Tag.dptr]) x
      let _ ← single (among [Tag.dptr]) y
      if n = 0 ∨ 256 < n then throw (ill 3)
      else if !ownWords e x.d n ∨ !ownWords e y.d n then throw (ill 5)
      else pure {
        elems := n
        step := fun j b => judged e k false (x.d + 4 * j) b fun b =>
          judged e k false (y.d + 4 * j) b fun b =>
            let (u, b) := wideLoad c e (x.d + 4 * j) b
            let (v, b) := wideLoad c e (y.d + 4 * j) b
            addProduct e k (t % 2) ra rb u v b
        blur := fun _ b => blurAcc e k (t % 2) b }) b

/-- An element of FIRQ reads word 0 of its descriptor, judged, and goes on with it unless the word breaks the layout (R490). -/
def firqWord (c : Ctx) (e k rb base n : Nat) (b : Block) (f : TWord → Block → Eff) : Eff :=
  judged e k false base b fun b =>
    let (w, b) := wideLoad c e base b
    let v := w.d.toNat
    match memOpd rb (fun _ => v / 2 ^ 14 == 0 && bits v 7 6 == 0 && decide (bits v 13 8 < n)) w with
    | some x => .trap x b
    | none => f w b

/-- The head that word 0 of a descriptor holds. -/
def Block.firqHeadNow (b : Block) (e base : Nat) : Nat := bits (numFrom b.goodByte (unalias e base) 4) 13 8

/-- Element 0 of FIRQ: the head moves on, the sample enters the delay line, the accumulator is cleared to FRAC. -/
def firqHead (c : Ctx) (e k acc rb base n : Nat) (sample : TWord) (b : Block) : Eff :=
  firqWord c e k rb base n b fun w b =>
    let v := w.d.toNat
    let h := (bits v 13 8 + 1) % n
    judged e k true base b fun b =>
      judged e k true (base + 4 * (n + 1 + h)) b fun b =>
        let b := wideWrite c e (base + 4 * (n + 1 + h)) sample b
        let b := wideWrite c e base { w with d := BitVec.ofNat 32 (setBits v 13 8 h) } b
        .done (b.setTask e k ((b.taskSt e k).setAcc acc ⟨0, Tag.frac⟩))

/-- What an element 0 of FIRQ that uses a substituted word leaves: free values in word 0, in the delay line and in the accumulator. -/
def firqHeadBlur (c : Ctx) (e k acc base n : Nat) (b : Block) : Block :=
  blurAcc e k acc (blurWord c e base (blurWord c e (base + 4 * (n + 1 + b.firqHeadNow e base)) b))

/-- Element i of FIRQ: one product; the first of a continued instruction reads word 0 (R490, log entry 82). -/
def firqTap (c : Ctx) (e k acc rb base n i : Nat) (fresh : Bool) (b : Block) : Eff :=
  (if fresh then firqWord c e k rb base n b (fun _ b => .done b) else .done b).andThen fun b =>
    let ca := base + 4 * i
    let da := base + 4 * (n + 1 + (b.firqHeadNow e base + n + 1 - i) % n)
    judged e k false ca b fun b =>
      judged e k false da b fun b =>
        let (u, b) := wideLoad c e ca b
        let (v, b) := wideLoad c e da b
        match (memOpd rb (· == Tag.frac) u).or (memOpd rb (· == Tag.frac) v) with
        | some x => .trap x b
        | none => addProduct e k acc rb rb u v b

/-- The taps that a FIRQ descriptor's word 0 names, as it stands. -/
def Block.firqTaps (b : Block) (e base : Nat) : Nat := bits (numFrom b.goodByte (unalias e base) 4) 5 0 + 1

/-- FIRQ (R489, R490). -/
def firqOp (c : Ctx) (e rd ra rb t : Nat) (stop : Option Nat) (b : Block) : Block :=
  let taps := c.start.firqTaps e ((b.taskSt e ((b.engSt e).run.getD 0)).opd rb).d
  microOp c e .firq
    { uses := [ra, rb], writes := [rd], wide := true, bad := tRules t (regRules [rd] false [ra, rb]), elems := taps + 2 } stop
    (fun k b => do
      let s := b.taskSt e k
      let x := s.opd ra
      let base := s.opd rb
      let _ ← single (among [Tag.frac]) x
      let _ ← single (among [Tag.dptr]) base
      if !ownWords e base.d 1 then throw (ill 5)
      else
        let n := c.start.firqTaps e base.d
        if !ownWords e base.d (2 * n + 1) then throw (ill 5)
        else pure {
          elems := n + 2
          step := fun j b =>
            if j = 0 then firqHead c e k (t % 2) rb base.d n (s.reg ra) b
            else if j ≤ n then firqTap c e k (t % 2) rb base.d n j (s.firstElem == j) b
            else .done (microReg c e k rd (((b.taskSt e k).acc (t % 2)).readOut 0) (4 + n) b)
          blur := fun j b =>
            if j = 0 then firqHeadBlur c e k (t % 2) base.d n b
            else if j ≤ n then blurAcc e k (t % 2) b else blurReg c e k rd (4 + n) b }) b

/-! ### Saved banks (R510–R512) -/

/-- Does SAVEG or LOADG move word j: its group is in the mask and, for SAVEG, dirty (CT is, from the issue on, R509), or it is
the group in progress. -/
def groupHere (t : TaskSt) (save : Bool) (m j : Nat) : Bool :=
  let g := wordGroup j
  let first := t.firstElem
  bit m g && (!save || g == 5 || bit t.ds g || (first ≤ j && wordGroup first == g && first != groupFirst g))

/-- Is j the last word of its group? -/
def groupEnds (j : Nat) : Bool := j + 1 == groupFirst (wordGroup j) + groupLen (wordGroup j)

/-- SAVEG: word j goes to memory, the PC word naming the instruction after SAVEG; at a group's last word its DS bit is
cleared. -/
def savegStep (c : Ctx) (e k base j : Nat) (b : Block) : Eff :=
  judged e k true (base + 4 * j) b fun b =>
    let t := b.taskSt e k
    let v := ({ t with rsmV := false } : TaskSt).saveWord j
    let b := wideWrite c e (base + 4 * j) v b
    .done (if groupEnds j then b.setTask e k { b.taskSt e k with ds := setBits t.ds (wordGroup j) (wordGroup j) 0 } else b)

/-- LOADG: the four words of CT take effect together (R511). -/
def loadCt (c : Ctx) (e k base : Nat) (b : Block) : Block :=
  let w (j : Nat) : TWord := (wideLoad c e (base + 4 * j) b).1
  let t := b.taskSt e k
  let priv := if k = 0 then t.priv else t.priv || bit (w 40).d.toNat 0
  b.setTask e k { ((t.putWord 37 (w 37)).putWord 38 (w 38)).putWord 39 (w 39) with priv := priv }

/-- What LOADG leaves in CT where its last word's element uses a substituted word: free values; no privilege is gained (R518). -/
def blurCt (e k : Nat) (b : Block) : Block :=
  let (x, b) := freeWord b
  let (y, b) := freeWord b
  let (z, b) := freeWord b
  let (p, b) := b.free
  let t := b.taskSt e k
  b.setTask e k { ((t.putWord 37 x).putWord 38 y).putWord 39 z with priv := t.priv || (k != 0 && bit p 0) }

/-- LOADG: word j comes from memory. -/
def loadgStep (c : Ctx) (e k rb base j : Nat) (b : Block) : Eff :=
  judged e k false (base + 4 * j) b fun b =>
    let (v, b) := wideLoad c e (base + 4 * j) b
    let ok (t : Nat) : Bool :=
      if j = 37 then t == Tag.cptr else if j = 33 ∨ j = 36 then decide (bits v.d.toNat 18 16 ≤ 4) else decide (t ≤ 15)
    match (if j < 31 ∨ j = 39 then none else memOpd rb ok v) with
    | some x => .trap x b
    | none =>
      let b := if j < 37 then b.setTask e k ((b.taskSt e k).putWord j v) else if j = 40 then loadCt c e k base b else b
      let t := b.taskSt e k
      let g := wordGroup j
      .done (b.setTask e k { t with dc := setBits t.dc g g 1, ds := setBits t.ds g g (b2n (!groupEnds j)) })

/-- SAVEG and LOADG. -/
def groupOp (c : Ctx) (save : Bool) (e ra rb : Nat) (stop : Option Nat) (b : Block) : Block :=
  let t := b.taskSt e ((b.engSt e).run.getD 0)
  let mask := (t.opd rb).d
  let js := ((List.range 31).filter (groupHere t save mask)).map (· + 1)
  microOp c e (if save then .saveg else .loadg)
    { uses := [ra, rb], moves := if save then js else [], writes := if save then [] else js, wide := true
      elems := 41, priv := !save && bit mask 5, bad := if !save && (js.contains ra || js.contains rb) then some 3 else none } stop
    (fun k b => do
      let t := b.taskSt e k
      let base := t.opd ra
      let _ ← single (among [Tag.dptr]) base
      let m ← countOpd (t.opd rb)
      let here := groupHere t save m
      let left := (List.range 41).filter fun j => here j && t.firstElem ≤ j
      if 64 ≤ m then throw (ill 3)
      else if left.any (fun j => !ownWords e (base.d + 4 * j) 1) then throw (ill 5)
      else
        pure {
          elems := 41, here := here, keeps := !save && bit m 5
          step := fun j b => if save then savegStep c e k base.d j b else loadgStep c e k rb base.d j b
          blur := fun j b =>
            if save then blurWord c e (base.d + 4 * j) b
            else if j < 37 then
              let (v, b) := freeWord b
              b.setTask e k ((b.taskSt e k).putWord j v)
            else if j = 40 then blurCt e k b else b }) b

end Sys2Proof.Machine
end

