-- ==== Sys2Proof/Machine/Boot.lean ====
section
/-! DEFINITION. Loading an image and starting the outputs (R494, R495, R544–R546, R586, R651–R657, R683, R746). -/

namespace Sys2Proof.Machine

/-- What loading leaves: the part, the RUN bits held (R651), the ownership and spare records, the tasks to be activated. -/
structure Load where
  b : Block
  runs : Assoc Nat := []
  owns : List (Nat × Nat) := []
  spares : List (Nat × Nat) := []
  autos : List (Nat × Nat) := []
  evts : List (Nat × Nat × Nat × Nat) := []

/-! ### Register records (R651) -/

def within (a lo hi : Nat) : Bool := lo ≤ a && a ≤ hi

/-- EGnn_SAFE. -/
def isSafeReg (a : Nat) : Bool := within a 0x40200000 0x40202FFF && a % 0x80 == R.EG_SAFE 0 % 0x80

/-- The ranges of the section types that hold records, RULES apart. -/
def recordRange (typ a : Nat) : Bool :=
  match typ with
  | 0x20 => within a 0x50000000 0x500FFFFF || within a 0x51000000 0x510FFFFF
  | 0x21 => within a 0x50100000 0x501FFFFF || within a 0x51100000 0x511FFFFF
  | 0x28 => within a 0x40400000 0x40407FFF
  | 0x29 => within a 0x40408000 0x404FFFFF
  | 0x30 => within a 0x40100000 0x402FFFFF && !isSafeReg a
  | 0x31 => isSafeReg a
  | 0x38 => within a 0x40300000 0x403FFFFF
  | 0x40 => within a 0x40600000 0x406FFFFF
  | 0x48 => within a 0x40500000 0x405FFFFF
  | 0x58 => within a 0x40700000 0x4071FFFF || within a 0x40900000 0x40AFFFFF
  | 0x60 => within a 0x40B00000 0x40BFFFFF
  | 0x70 => within a 0x40C00000 0x40CFFFFF
  | _ => false

/-- The section types whose payload is records. -/
def recordTypes : List Nat := [0x20, 0x21, 0x28, 0x29, 0x30, 0x31, 0x38, 0x40, 0x48, 0x58, 0x60, 0x70]

/-- May a record of a section name the register? -/
def mayRecord (typ a : Nat) (l : Loc) : Bool :=
  if typ = 0x68 then
    !(recordTypes.any fun t => recordRange t a) && l.unit != .uc && l.fields.any fun f => f.acc != .ro && f.acc != .rc
  else recordRange typ a

/-- A record's write: each record acts on the part as the records before it left it. -/
def bootWrite (c : Ctx) (a v : Nat) (b : Block) : Block := busWrite { c with start := b } .boot a v 4 0 b

/-- One register record. -/
def doRecord (c : Ctx) (sect typ ofs a v : Nat) (x : Load) : Boot Load := do
  need (a % 4 == 0) 0x32 sect ofs
  match locate c.hw a with
  | none => .error ⟨0x32, some (sect, ofs)⟩
  | some l => do
    need (mayRecord typ a l) 0x32 sect ofs
    let locked := x.b.lkLocked l
    let old := x.b.rd a
    need (!(l.fields.any fun f => f.acc == .lk && locked && bits old f.hi f.lo != bits v f.hi f.lo)) 0x33 sect ofs
    let x := { x with evts := (typ, sect, ofs, a) :: x.evts }
    if l.unit = .ll ∧ l.off = 0x18 then
      pure { x with b := bootWrite c a (setBits v 0 0 0) x.b, runs := x.runs.insert l.inst (v % 2) }
    else if l.unit = .ic ∧ l.off = 0 then pure { x with b := bootWrite c a (setBits v 0 0 (bits old 0 0)) x.b }
    else
      let bad := (l.unit = .ev ∧ ((l.off = 8 ∧ !x.b.srcValid c.hw v) ∨ (0x20 ≤ l.off ∧ !x.b.dstValid c.hw v))) ∨
        (l.unit = .ic ∧ 0x1000 ≤ l.off ∧ l.off < 0x2000 ∧ l.off % 0x40 < 0x20 ∧ !x.b.icEntryOk c.hw l.inst v)
      let x := if bad then { x with evts := (typ + 0x100, sect, ofs, a) :: x.evts } else x
      pure { x with b := bootWrite c a v x.b }

/-- The records of a payload. -/
def doRecords (c : Ctx) (sect typ : Nat) : Nat → Nat → List Nat → Load → Boot Load
  | 0, _, _, x => pure x
  | n + 1, ofs, p, x => do
    let x ← doRecord c sect typ ofs (le p 0 4) (le p 4 4) x
    doRecords c sect typ n (ofs + 8) (p.drop 8) x

def loadRecords (c : Ctx) (sect typ ofs : Nat) (p : List Nat) (x : Load) : Boot Load := do
  need (p.length % 8 == 0) 0x32 sect ofs
  doRecords c sect typ (p.length / 8) ofs p x

/-! ### Code and data (R655) -/

/-- Bytes are stored from a, in good granules. -/
def storeBytes (a : Nat) : List Nat → Block → Block
  | [], b => b
  | v :: l, b => storeBytes (a + 1) l (b.setMemByte a v)

def loadCode (c : Ctx) (s : Section) (p : List Nat) (x : Load) : Boot Load := do
  need (s.inst < nEngines c.hw) 0x34 s.idx (s.at_ + 8)
  let o := le p 0 4
  need (4 ≤ p.length && o % 4 == 0 && o + (p.length - 4) ≤ 0x8000) 0x34 s.idx s.pay
  pure { x with b := storeBytes (tcmBase s.inst + o) (p.drop 4) x.b }

/-- The tag of word i, as the tag bytes pack it (R46). -/
def packedTag (tags : List Nat) (i : Nat) : Nat := let v := tags.getD (i / 2) 0; if i % 2 = 0 then v % 16 else v / 16 % 16

/-- The tag of a D-TCM word is stored. -/
def storeTagNibble (a t : Nat) (b : Block) : Block :=
  let p := tagByteAddr a
  let old := b.memByte p
  b.setMemByte p (if (a / 4) % 2 = 0 then old / 16 * 16 + t else t * 16 + old % 16)

def loadData (c : Ctx) (s : Section) (p : List Nat) (x : Load) : Boot Load := do
  need (s.inst < nEngines c.hw) 0x34 s.idx (s.at_ + 8)
  let o := le p 0 4
  let n := le p 4 4
  let tags := p.drop (8 + 4 * n)
  need (o % 4 == 0 && o + 4 * n ≤ 0x8000) 0x34 s.idx s.pay
  need (p.length == 8 + 4 * n + (n + 1) / 2) 0x34 s.idx (s.pay + 4)
  need ((List.range n).all fun i => packedTag tags i ≤ 11) 0x34 s.idx (s.pay + 8 + 4 * n)
  let base := tcmBase s.inst + 0x10000 + o
  let b := storeBytes base ((p.drop 8).take (4 * n)) x.b
  pure { x with b := (List.range n).foldl (fun b i => storeTagNibble (base + 4 * i) (packedTag tags i) b) b }

/-! ### TASK_TABLE (R493, R494, R652) -/

/-- The tasks of one engine's record, from byte list p. -/
def loadTasks (c : Ctx) (sect ofs e : Nat) (modeP : Bool) : Nat → Nat → List Nat → Load → Boot Load
  | 0, _, _, x => pure x
  | n + 1, k, p, x => do
    let entry := le p 0 4
    let pri := le p 8 1
    let ceil := le p 9 1
    let priv := le p 10 1
    let auto := le p 11 1
    need (pri ≤ 7 && ceil ≤ 1 && priv ≤ 1 && auto ≤ 1) 0x35 sect (ofs + 12 * k)
    need (k != 0 || (ceil == 0 && priv == 0)) 0x35 sect (ofs + 12 * k)
    need (!(priv == 0 && ceil == 1)) 0x35 sect (ofs + 12 * k)
    need (modeP || inItcm e entry) 0x35 sect (ofs + 12 * k)
    let t : TaskSt := { pc := entry, entry := entry, dln := le p 4 4, pri := pri, ceil := ceil == 1, priv := priv == 1 }
    let x := { x with
      b := x.b.setTask e k t
      autos := if auto = 1 then x.autos ++ [(e, k)] else x.autos }
    loadTasks c sect ofs e modeP n (k + 1) (p.drop 12) x

/-- The engine records: `n` bounds them, `prev` is the engine before. -/
def loadEngines (c : Ctx) (sect : Nat) : Nat → Nat → Option Nat → List Nat → Load → Boot Load
  | 0, ofs, _, p, x => do
    need p.isEmpty 0x35 sect ofs
    pure x
  | n + 1, ofs, prev, p, x => do
    if p.isEmpty then pure x
    else
      let e := le p 0 1
      let mode := le p 1 1
      let nt := le p 2 1
      need (76 ≤ p.length && e < nEngines c.hw && prev.all (· < e)) 0x35 sect ofs
      need (mode ≤ 1 && le p 3 1 == 0) 0x35 sect (ofs + 1)
      need (8 ≤ nt && nt ≤ 64 && nt % 8 == 0 && 76 + 12 * nt ≤ p.length) 0x35 sect (ofs + 2)
      let w (i : Nat) : Nat := le p i 4
      let s : EngSt := {
        modeP := mode == 1, vbase := w 4 / 64 * 64, mplock := bit (w 72) 0
        mpb := (List.range 8).map fun k => w (8 + 8 * k) &&& 0xFFFFFFBF
        mpl := (List.range 8).map fun k => w (12 + 8 * k) &&& 0xFFFFFF00 }
      let b := x.b.setEng e s
      let x := { x with b := { b with nt := b.nt.setD 0 e nt } }
      let x ← loadTasks c sect (ofs + 76) e (mode == 1) nt 0 (p.drop 76) x
      loadEngines c sect n (ofs + 76 + 12 * nt) (some e) (p.drop (76 + 12 * nt)) x

/-! ### MICROCODE_PATCH (R544, R545) -/

/-- The patch set of a payload: match words, microwords, nanowords. -/
structure Patch where
  nm : Nat := 0
  npm : Nat := 0
  npn : Nat := 0
  words : List Nat := []

def Patch.word (q : Patch) (i : Nat) : Nat := q.words.getD i 0

/-- Words of a microword or nanoword in the payload. -/
def microWords (hw : Hw) : Nat := if isKd2 hw then 4 else 1

/-- The checks of R545 on a match register. -/
def matchOk (hw : Hw) (q : Patch) (k : Nat) : Bool :=
  let m := q.word (2 + k)
  let others := (List.range q.nm).filter (· != k)
  !bit m 31 ||
    (bits m 29 22 == 0 && bits m 15 11 == 0 && !(isKd2 hw && bit m 30) && (!bit m 30 || bits m 10 9 == 0) &&
      bits m 21 16 < (if bit m 30 then q.npn else q.npm) &&
      others.all fun j =>
        let z := q.word (2 + j)
        !(bit z 31 && bit z 30 == bit m 30 && bits z 10 0 == bits m 10 0))

/-- Do the reserved bits of the patch words read 0? -/
def patchReserved (hw : Hw) (q : Patch) : Bool :=
  let base := 2 + q.nm
  let nano := base + microWords hw * q.npm
  ((List.range q.nm).all fun k => bits (q.word (2 + k)) 29 22 == 0 && bits (q.word (2 + k)) 15 11 == 0) &&
  ((List.range q.npm).all fun i =>
    if isKd2 hw then bits (q.word (base + 4 * i + 3)) 31 16 == 0 else bits (q.word (base + i)) 31 18 == 0) &&
  (List.range q.npn).all fun i => bits (q.word (nano + 5 * i + 4)) 31 16 == 0

/-- The patch set is loaded into one engine. -/
def loadPatchInto (hw : Hw) (q : Patch) (b : Block) (e : Nat) : Block :=
  let u := R.UC_ID e
  let base := 2 + q.nm
  let mw := microWords hw
  let nano := base + mw * q.npm
  let b := (List.range q.nm).foldl (fun b k => b.wr (R.UC_MATCH e k) (q.word (2 + k))) b
  let b := (List.range (mw * q.npm)).foldl (fun b i => b.wr (u + 0x400 + 4 * i) (q.word (base + i))) b
  let b := (List.range q.npn).foldl (fun b i =>
    (List.range 5).foldl (fun b j => b.wr (u + 0x800 + 32 * i + 4 * j) (q.word (nano + 5 * i + j))) b) b
  let en := ((List.range q.nm).filter fun k => bit (q.word (2 + k)) 31).length
  (b.put (F.UC_STAT_NMATCH e) en).put (F.UC_STAT_LOADED e) 1

def loadPatch (hw : Hw) (q : Patch) (b : Block) : Block := (List.range (nEngines hw)).foldl (loadPatchInto hw q) b

def loadMicrocode (c : Ctx) (s : Section) (p : List Nat) (x : Load) : Boot Load := do
  let ws := (List.range (p.length / 4)).map fun i => le p (4 * i) 4
  let w0 := ws.getD 0 0
  let q : Patch := ⟨bits w0 23 16, bits w0 15 8, bits w0 7 0, ws⟩
  let form := if isKd2 c.hw then 1 else 2
  need (8 ≤ p.length && bits w0 31 24 == form) 0x36 s.idx s.pay
  need (q.nm ≤ 16 && q.npm ≤ 64 && q.npn ≤ (if isKd2 c.hw then 0 else 32)) 0x36 s.idx s.pay
  need (p.length == 4 * (2 + q.nm + microWords c.hw * q.npm + 5 * q.npn)) 0x36 s.idx (s.at_ + 4)
  need (q.word 1 == c.hw.romRev % 65536) 0x36 s.idx (s.pay + 4)
  match (List.range q.nm).find? fun k => !matchOk c.hw q k with
  | some k => .error ⟨0x36, some (s.idx, s.pay + 8 + 4 * k)⟩
  | none => do
    need (patchReserved c.hw q) 0x36 s.idx s.pay
    pure { x with b := loadPatch c.hw q x.b }

/-! ### PIN_MAP (R654) -/

/-- Does an entry name a ball that a capture pair may see? -/
def pinOk (hw : Hw) (b : Block) (v : Nat) : Bool :=
  let x := bits v 11 0
  match bits v 15 12 with
  | 1 => x < 2 * nEG hw && !b.on (F.EG_CFG_DRV (x / 2))
  | 2 => x / 6 < nFB hw
  | 3 => x < 16
  | _ => false

def loadPinMap (c : Ctx) (s : Section) (p : List Nat) (x : Load) : Boot Load := do
  need (p.length % 2 == 0 && p.length ≤ 512) 0x3E s.idx (s.at_ + 4)
  let es := (List.range (p.length / 2)).filter (· != 0)
  match es.find? fun i => !pinOk c.hw x.b (le p (2 * i) 2) with
  | some i => .error ⟨0x3E, some (s.idx, s.pay + 2 * i)⟩
  | none => do
    let map : Assoc Nat := es.foldl (fun (m : Assoc Nat) i => m.insert i (le p (2 * i) 2)) []
    let loose := (List.range (nCP c.hw)).any fun n =>
      x.b.on (F.CP_CTL_EN n) && (map.find? (x.b.get (F.CP_CTL_PIN n))).isNone
    if loose then .error ⟨0x3E, none⟩ else pure { x with b := { x.b with pinMap := map } }

/-! ### RULES (R653) -/

/-- The ownership records. -/
def loadOwners (c : Ctx) (sect : Nat) : Nat → Nat → List Nat → Load → Boot Load
  | 0, _, _, x => pure x
  | n + 1, ofs, p, x => do
    let base := le p 0 1 * 256
    let key := base + 4 * le p 1 2
    let e := le p 3 1
    need ((ownKinds c.hw).any fun k => k.1 == base && le p 1 2 < k.2.1) 0x3D sect ofs
    need (ownEntry c.hw key (ownKinds c.hw) == some true) 0x3D sect (ofs + 1)
    need (!(x.owns.any fun o => o.1 == key)) 0x3D sect (ofs + 1)
    need (e < nEngines c.hw && x.b.nt.getD 0 e != 0) 0x3D sect (ofs + 3)
    loadOwners c sect n (ofs + 4) (p.drop 4) { x with owns := (key, e) :: x.owns }

/-- The spare records. R21's spare owns no resource: a spare that RULES names as an owner is refused; CE000 may be named, and keeps
what R24 gives it by default (log entry 119). -/
def loadSpares (c : Ctx) (sect : Nat) : Nat → Nat → List Nat → Load → Boot Load
  | 0, _, _, x => pure x
  | n + 1, ofs, p, x => do
    let cl := le p 0 1
    let e := le p 1 1
    need (cl < nClusters c.hw && clusterOf e == cl) 0x3D sect ofs
    need (!(x.spares.any fun s => s.1 == cl)) 0x3D sect ofs
    need (le p 2 2 == 0) 0x3D sect (ofs + 2)
    need (!(x.owns.any fun o => o.2 == e)) 0x3D sect (ofs + 1)
    loadSpares c sect n (ofs + 4) (p.drop 4) { x with
      spares := (cl, e) :: x.spares, b := x.b.put (F.CL_CFG_SPARE cl) (e % 8) }

/-- Are the supervisors' registers in range (spec/22)? -/
def supervisorOk (x : Load) (cl : Nat) : Bool :=
  let b := x.b
  let w := b.get (F.CL_HBW_HBW cl)
  !b.on (F.CL_CFG_EN cl) ||
    (256 ≤ w && w ≤ 65536 && b.get (F.CL_CKB_OFS cl) * 32 + 0x18000 ≤ 0x100000 &&
      (!b.on (F.CL_CFG_SPV cl) || x.spares.any fun s => s.1 == cl && s.2 % 8 == b.get (F.CL_CFG_SPARE cl)))

def loadRules (c : Ctx) (s : Section) (p : List Nat) (x : Load) : Boot Load := do
  let n := le p 0 4
  need (8 + 4 * n ≤ p.length) 0x3D s.idx s.pay
  let x ← loadOwners c s.idx n (s.pay + 4) (p.drop 4) x
  let q := p.drop (4 + 4 * n)
  let m := le q 0 4
  need (4 + 4 * m ≤ q.length) 0x3D s.idx (s.pay + 4 + 4 * n)
  let x ← loadSpares c s.idx m (s.pay + 8 + 4 * n) (q.drop 4) x
  let x ← loadRecords c s.idx 0x68 (s.pay + 8 + 4 * n + 4 * m) (q.drop (4 + 4 * m)) x
  if (List.range (nClusters c.hw)).all (supervisorOk x) then pure x else .error ⟨0x3D, none⟩

/-! ### Pass 2 -/

/-- One section is loaded. -/
def loadSection (c : Ctx) (s : Section) (p : List Nat) (x : Load) : Boot Load :=
  match s.typ with
  | 0x10 => loadCode c s p x
  | 0x11 => loadData c s p x
  | 0x12 => loadEngines c s.idx (nEngines c.hw) s.pay none p x
  | 0x18 => loadMicrocode c s p x
  | 0x50 => loadPinMap c s p x
  | 0x68 => loadRules c s p x
  | 0x7F => pure x
  | t => loadRecords c s.idx t s.pay p x

def loadSections (c : Ctx) (im : Image) : List Section → Load → Boot Load
  | [], x => pure x
  | s :: l, x => do
    let p ← im.take s.idx s.pay s.len
    let x ← loadSection c s p x
    loadSections c im l x

/-! ### Cross-section checks (R656) -/

/-- The generators a lane drives. -/
def Block.laneGens (b : Block) (n : Nat) : List Nat := (b.laneOuts n).map (·.2)

/-- A list without repeats. -/
def noRepeats : List Nat → Bool
  | [] => true
  | a :: l => !l.contains a && noRepeats l

/-- The owner a load gives an entry. -/
def Load.owner (x : Load) (key : Nat) : Nat :=
  match x.owns.find? fun o => o.1 == key with
  | some o => o.2
  | none => 0

/-- R59–R61. -/
def Load.lanesOk (x : Load) (hw : Hw) : Bool :=
  let b := x.b
  let ls := (List.range (nEG hw)).filter fun n => b.on (F.LL_CFG_EN n)
  let law (n : Nat) : Bool := b.on (F.LL_CFG_LAW n)
  let eng (n : Nat) : Nat := b.get (F.LL_CFG_ENG n)
  let lu (n : Nat) : Nat := b.get (F.LL_CFG_LU n)
  noRepeats (ls.flatMap fun n => (b.laneGens n).eraseDups) && noRepeats ((ls.filter fun n => !law n).map lu) &&
  noRepeats ((ls.filter law).map fun n => eng n * 64 + b.get (F.LL_CFG_TASK n)) &&
  ls.all fun n =>
    let o := x.owner (ownLL n)
    (if law n then o == eng n else o == x.owner (ownLU (lu n)) && 1 ≤ b.get (F.LU_CFG_LEN (lu n)) && b.get (F.LU_CFG_LEN (lu n)) ≤ 16) &&
    ((b.laneGens n).all fun g => x.owner (ownKey .eg g) == o) &&
    (List.range 4).all fun k =>
      let kind := b.get (F.LL_SRC_KIND n k)
      let fmt := b.get (F.LL_SRC_FMT n k)
      !((kind == 1 || kind == 3) && 2 ≤ fmt) && !(kind == 3 && fmt == 1 && 16 < b.get (F.LL_SRC_SHIFT n k))

/-- R188. -/
def Load.safeOk (x : Load) (hw : Hw) : Bool :=
  (List.range (nEG hw)).all fun n => x.b.get (F.EG_SAFE_SL n) != 3 && x.b.get (F.EG_SAFE_SH n) != 3

/-- R285. -/
def Load.hlOk (x : Load) (hw : Hw) : Bool :=
  (List.range (nHL hw)).all fun n =>
    let mem (g : Nat) : Bool := bit (x.b.get (F.TG_MHL_HL g)) n
    (!x.b.on (F.HL_PROT_CLE n) || mem (x.b.get (F.HL_PROT_CLG n))) &&
    (!x.b.on (F.HL_PROT_OVE n) || mem (x.b.get (F.HL_PROT_OVG n))) &&
    (!x.b.on (F.HL_PROT_TEE n) || mem (x.b.get (F.HL_PROT_TEG n)))

/-- R355, R689. -/
def Load.linkOk (x : Load) (hw : Hw) : Bool :=
  let role (n : Nat) : Nat := x.b.get (F.GL_CFG_ROLE n)
  ((List.range 8).all fun n =>
    !bit (slMask hw) n || role n == 0 || (role n == 1 && n < 2) || (role n == 2 && 2 ≤ n) || (role n == 3 && 6 ≤ n)) &&
  ((role 0 == 1) == (role 1 == 1)) &&
  ((List.range 64).all fun h =>
    let named := x.evts.any fun e => e.1 == 0x58 && e.2.2.2 == R.HC_CFG h
    let n := x.b.get (F.HC_CFG_LANE h)
    !named || (bit (slMask hw) n && role n == 2))

/-- R586, second part: no source loaded names a set with no valid entry. -/
def Load.irqOk (x : Load) : Bool :=
  (List.range 2).all fun d => (List.range 1024).all fun n =>
    let named := x.evts.any fun e => e.1 == 0x21 && e.2.2.2 == R.IC_SRC_CFG d n
    let s := x.b.get (F.IC_SRC_CFG_SET d n)
    !named || (List.range 8).any fun k => x.b.on (F.IC_SET_T_V d s k)

/-- The record that a later check refuses: the first of a type, as BOOT_INFO names it. -/
def Load.refused (x : Load) (typ : Nat) : Option (Nat × Nat) :=
  (x.evts.reverse.find? fun e => e.1 == typ + 0x100).map fun e => (e.2.1, e.2.2.1)

/-- The cross-section checks, in the order of R656. -/
def crossChecks (hw : Hw) (secs : List Section) (x : Load) : Boot Unit := do
  let fail (cause : Nat) : Boot Unit := .error ⟨cause, none⟩
  if !x.lanesOk hw then fail 0x37
  else if !x.safeOk hw then fail 0x38
  else if !x.hlOk hw then fail 0x39
  else if !x.linkOk hw then fail 0x3A
  else if (x.refused 0x20).isSome then .error ⟨0x3B, x.refused 0x20⟩
  else if (x.refused 0x21).isSome then .error ⟨0x3C, x.refused 0x21⟩
  else if !x.irqOk then fail 0x3C
  else match secs.find? fun s => s.typ == 0x70 with
    | some s => if hw.variant == .kor0640 then .error ⟨0x3F, some (s.idx, s.at_)⟩ else .ok ()
    | none => .ok ()

/-! ### Starting the outputs (R646, R656) -/

/-- FLAGS act on the key slots. -/
def actFlags (flags : Nat) (b : Block) : Block :=
  let ks := (List.range 4).map fun k =>
    let s := b.always.keys.getD k {}
    if bit flags (4 + k) then { s with st := 3 } else s
  { b with always := { b.always with keys := ks, elock := b.always.elock || bit flags 0 } }

/-- ASCII text. -/
def ascii (s : String) : List Nat := s.toList.map (·.toNat)

/-- n hex digits of a number. -/
def hexDigits : Nat → Nat → List Nat
  | 0, _ => []
  | n + 1, v => hexDigits n (v / 16) ++ [let d := v % 16; if d < 10 then 48 + d else 55 + d]

/-- A line goes out on UART_TX (R664). -/
def uartLine (l : List Nat) (b : Block) : Block :=
  { b with always := { b.always with uart := b.always.uart ++ l ++ [13, 10] } }

/-- Ownership is applied and, in fc S, the outputs start. -/
def startOutputs (c : Ctx) (src : Nat) (h : Header) (paired : Bool) (x : Load) : Block :=
  let own : Assoc Nat := x.owns.foldl (fun (m : Assoc Nat) o => m.setD 0 o.1 o.2) []
  let b := { x.b with own := own, enforced := true, outputs := true, fcS := some c.tick }
  let b := ((b.put F.BOOT_STATUS_STATE 1).put F.BOOT_STATUS_SRC src).put F.BOOT_STATUS_KSLOT h.kslot
  let b := ((b.wr R.BOOT_IMGVER h.ver).wr R.BOOT_TSTL (c.tick % 2 ^ 32)).wr R.BOOT_TSTH (c.tick / 2 ^ 32)
  let b := (List.range 8).foldl (fun b k => b.wr (R.BOOT_HASH k) (le (Config.sm3 h.bytes) (4 * k) 4)) b
  let b := if paired then b else (b.put F.PV_STAT_PERM 1).put F.PV_STAT_EVER 1
  let b := (List.range (nDies c.hw)).foldl (fun b d => b.put (F.IC_CTL_GDIS d) 0) b
  let b := (List.range (nEG c.hw)).foldl (fun b n =>
    b.put (F.LL_CTL_RUN n) (if b.on (F.LL_CFG_EN n) then x.runs.getD 0 n else 0)) b
  let b := b.eng.foldl (fun b p =>
    if b.on (F.CL_CFG_EN (clusterOf p.1)) ∧ bit (b.get (F.CL_CFG_HBEN (clusterOf p.1))) (p.1 % 8) then
      b.setEng p.1 { b.engSt p.1 with tasks := (b.engSt p.1).tasks.map fun t => (t.1, { t.2 with dc := 0x3F }) }
    else b) b
  let b := if b.flashInc.isEmpty && b.flashPint.isEmpty then b else raiseEdge c 0x072 b
  let b := (List.range (nEG c.hw)).foldl (fun b n => egBalls n b) b
  let b := (List.range (nHL c.hw)).foldl (fun b n => hlBalls n b) b
  let b := (List.range (nFB c.hw)).foldl (fun b n => fbBalls c.tick n b) b
  let b := (List.range (nEMU c.hw)).foldl (fun b n => emuBalls n b) b
  let b := refreshOutputs c c.tick b
  let b := x.autos.foldl (fun b p => activate c p.1 p.2 8 0 b) b
  uartLine (ascii "KORITH RUN") (actFlags h.flags b)

/-! ### The sequence (R638–R641) -/

/-- B2: BOOTSEL, the selector, the boot record. -/
def bootSource (hw : Hw) (b : Block) (sel : Nat) (ospi ospi2 : Option (List Nat)) : Boot (Nat × Nat × Option Image × Option Image) := do
  if sel % 4 = 2 then .error ⟨0x01, none⟩
  else if sel % 4 = 3 then .error ⟨0x02, none⟩
  else match b.selection with
    | none => .error ⟨0x03, none⟩
    | some (_, d) => do
      let slot := bits d 72 72
      let m ← bootMinver hw b (if bits d 64 64 = 0 then 0x10000 else 0x210000)
      if sel % 4 = 0 then
        let im := flashImage b (if slot = 0 then 65 * 0x10000 else 449 * 0x10000)
        pure (slot, m, some im, some im)
      else pure (2, m, ospi.map ospiImage, (ospi2.or ospi).map ospiImage)

/-- SRC as BOOT_STATUS shows it for a source that was found. -/
def bootSrcShown (b : Block) (sel : Nat) : Nat :=
  if sel % 4 = 1 then 2
  else if sel % 4 = 0 then (match b.selection with | some (_, d) => bits d 72 72 | none => 0xFF)
  else 0xFF

/-- B3–B6 on an image: the key slot once the header is verified, with the failure, or the part as it runs. -/
def bootImage (c : Ctx) (src minver : Nat) (im im2 : Image) (b : Block) : Except (BootFail × Option Nat) Block := do
  let lift {α : Type} (k : Option Nat) (x : Boot α) : Except (BootFail × Option Nat) α := x.mapError fun f => (f, k)
  let h ← lift none (im.header c.hw (if src = 2 then 0x800000 else 0x1800000))
  lift none (h.verify im b)
  lift none (need (minver ≤ h.ver) 0x26 0xFF 0x10)
  let k := some h.kslot
  let secs ← lift k (im.structured h)
  let d ← lift k (h.sum im)
  lift k (need (d == h.digest) 0x24 0xFF 0x20)
  let x ← lift k (loadSections c im2 secs { b := loadPatch c.hw {} b })
  let d2 ← lift k (h.sum im2)
  if d2 != d then throw (⟨0x25, none⟩, k)
  else
    lift k (crossChecks c.hw secs x)
    pure (startOutputs c src h (secs.any fun s => s.typ == 0x70) x)

end Sys2Proof.Machine
end

