-- ==== Sys2Proof/Machine/DmaElement.lean ====
section
/-! DEFINITION. The movement of one DMA element (R591–R604). -/

namespace Sys2Proof.Machine

/-- Is an address in a peripheral space or in the flash controller registers (R595)? -/
def inPeripheral (a : Nat) : Bool :=
  (0x40000000 ≤ a && a < 0x41000000) || (0x50000000 ≤ a && a < 0x52000000) || (0x60000000 ≤ a && a < 0x60100000)

/-- The addresses of n bytes from a, modulo 2^32. -/
def spanOf (a n : Nat) : List Nat := (List.range n).map fun i => (a + i) % 2 ^ 32

/-- The tags of a D-TCM granule's eight words, the read of the tag plane counted; POISON where it cannot be read (R562, R599). -/
def granTagsRead (c : Ctx) (g : Nat) (b : Block) : List Nat × Block :=
  match memSpace c.hw (g * 32) with
  | some (.dtcm _) =>
    let (_, bad, b) := memRead c c.start (tagByteAddr (g * 32)) 4 b
    ((List.range 8).map fun k => if bad then 15 else c.start.tagOf (g * 32 + 4 * k), b)
  | _ => ([], b)

/-- The bytes an element reads from one granule, read whole (R594, R562), with their tags where `tags`; an absent granule reads 0
(R40). -/
def elemReadGran (c : Ctx) (ag : Agent) (tags : Bool) (a n : Nat) (b : Block) : List DmByte × Block :=
  let g := a / 32
  if (memSpace c.hw (g * 32)).isNone then (List.replicate n {}, b.violate (b.setOf ag) .absent 1)
  else
    let (d, p, b) := granRead c c.start g b
    let (ts, b) := if tags then granTagsRead c g b else ([], b)
    ((List.range n).map fun i =>
      let y := a % 32 + i
      ⟨bits d (8 * y + 7) (8 * y), p, ts.getD (y / 4) 0⟩, b)

/-- The bytes an element reads as one aligned word (R595). -/
def elemReadWord (c : Ctx) (ag : Agent) (a : Nat) (b : Block) : List DmByte × Block :=
  let (v, p, b) := busRead c ag a 4 b
  ((List.range 4).map fun i => ⟨bits v (8 * i + 7) (8 * i), p, 0⟩, b)

/-- SWAP (R596). -/
def swapBytes (swap : Nat) (l : List DmByte) : List DmByte :=
  (List.range l.length).map fun i =>
    l.getD (match swap with
      | 1 => i / 2 * 2 + (1 - i % 2)
      | 2 => i / 4 * 4 + (i % 4 + 2) % 4
      | 3 => i / 4 * 4 + (3 - i % 4)
      | _ => i) {}

/-- The number a run of bytes spells, least significant first. -/
def bytesNum : List DmByte → Nat
  | [] => 0
  | x :: t => x.v + 256 * bytesNum t

/-- The tags of the D-TCM words that n bytes from a reach, within one granule (R599). -/
def elemTags (c : Ctx) (a n : Nat) (tag : Nat → Nat) (b : Block) : Block :=
  match memSpace c.hw a with
  | some (.dtcm _) =>
    ((List.range 8).map fun k => a / 32 * 32 + 4 * k).foldl (fun b w =>
      if a ≤ w ∧ w + 4 ≤ a + n then tagWrite c w (tag w) b
      else if w < a + n ∧ a < w + 4 then tagWrite c w 0 b else b) b
  | _ => b

/-- The part of an element that falls in one destination granule (R30, R41, R47, R563, R564, R598). -/
def elemWriteGran (c : Ctx) (ag : Agent) (a : Nat) (l : List DmByte) (tag : Nat → Nat) (b : Block) : Block :=
  match memSpace c.hw a with
  | none => b.violate (b.setOf ag) .absent 1
  | some .flash => b.violate (b.setOf ag) .locked 1
  | some _ =>
    let g := a / 32
    let poison := l.any (·.bad)
    let b := if l.length = 32 then granWrite g (bytesNum l) poison b
      else
        let b := memWrite c a (bytesNum l) l.length b
        if poison then { b with syn := b.syn.setD 0 g poisonSyn } else b
    (elemTags c a l.length tag b).noteWrote 100 a l.length

/-- An access of an element at its destination: a word of a peripheral space (R595), whose data is free where it is POISON (log entry
3), or what falls in one granule. -/
def elemWrite (c : Ctx) (ag : Agent) (a : Nat) (l : List DmByte) (tag : Nat → Nat) (b : Block) : Block :=
  if !inPeripheral a then elemWriteGran c ag a l tag b
  else if l.any (·.bad) then
    let (v, b) := b.free
    busWrite c ag a (v % 2 ^ 32) 4 0 b
  else busWrite c ag a (bytesNum l) 4 0 b

/-- The address of an element: a base and three steps (R593). -/
def elemAddr (m base : Nat) (i0 i1 i2 : Nat) (s0 s1 s2 : Int) : Nat :=
  (((base : Int) + i0 * s0 + i1 * s1 + i2 * s2) % (2 ^ m : Nat)).toNat

/-- Does an element break a rule judged at it (R595, R600, R601)? -/
def elemBad (hw : Hw) (w : List Nat) (s d n : Nat) : Bool :=
  let side (a : Nat) : Bool := (spanOf a n).any inPeripheral && (n % 4 != 0 || a % 4 != 0)
  (!descSsp w && side s) || side d ||
  (bit (w.getD 0 0) 23 && (descSsp w || (spanOf s n).any fun y => match memSpace hw y with
    | some (.dtcm _) => false
    | _ => true))

/-- PROG after an element: the next indices, and whether it was the last. -/
def nextIndex (w : List Nat) (i0 i1 i2 : Nat) : Nat × Nat × Nat × Bool :=
  let x := w.getD 3 0
  if i0 < bits x 31 20 then (i0 + 1, i1, i2, false)
  else if i1 < bits x 19 10 then (0, i1 + 1, i2, false)
  else if i2 < bits x 9 0 then (0, 0, i2 + 1, false)
  else (i0, i1, i2, true)

/-- The accesses of n bytes from a, at most one an fc (R591): the words where one lies in a peripheral space (R595), otherwise the part
in each granule (R594). -/
def elemAccesses (a n : Nat) : List (Nat × Nat) :=
  if (spanOf a n).any inPeripheral then (List.range (n / 4)).map fun k => ((a + 4 * k) % 2 ^ 32, 4)
  else
    let k := firstPart a n
    if k = n then [(a, n)] else [(a, k), ((a + k) % 2 ^ 32, n - k)]

/-- A channel as an agent of the odd slots. -/
def dmAgent (n : Nat) : Nat := 256 + n

/-- The element in progress makes its next access at the source, unless the fc gives no slot or a flash command runs (R552, R669). -/
def moveRead (c : Ctx) (n : Nat) (w : List Nat) (x : DmMove) (b : Block) : DmMove × Block :=
  match x.reads with
  | [] => (x, b)
  | (a, k) :: rest =>
    if inFlash a && b.flashBusy c then (x, b)
    else
      let (ok, b) := oddGrant c.tick (dmAgent n) (oddSlots c.hw none a) b
      if !ok then (x, b)
      else
        let (l, b) := if inPeripheral a then elemReadWord c (.dma n) a b
          else elemReadGran c (.dma n) (bit (w.getD 0 0) 23) a k b
        ({ x with reads := rest, got := x.got ++ l }, b)

/-- The tag of the word at address y of a destination that begins at d (R599). -/
def DmMove.tagAt (x : DmMove) (w : List Nat) (d y : Nat) : Nat :=
  if bit (w.getD 0 0) 23 then x.tags.getD ((y + 2 ^ 32 - d) % 2 ^ 32) 0 else bits (w.getD 0 0) 22 19

/-- The element in progress makes its next access at the destination, once every byte is read and swapped (R596), unless the fc gives
no slot. -/
def moveWrite (c : Ctx) (n : Nat) (w : List Nat) (x : DmMove) (b : Block) : DmMove × Block :=
  if !x.reads.isEmpty then (x, b)
  else
    let x := if x.got.isEmpty then x
      else { x with got := [], out := swapBytes (bits (w.getD 0 0) 25 24) x.got, tags := x.got.map (·.tag) }
    match x.writes with
    | [] => (x, b)
    | (a, k) :: rest =>
      let (ok, b) := oddGrant c.tick (dmAgent n) (oddSlots c.hw none a) b
      if !ok then (x, b)
      else
        let d := (a + 2 ^ 32 - (x.tags.length - x.out.length)) % 2 ^ 32
        ({ x with writes := rest, out := x.out.drop k }, elemWrite c (.dma n) a (x.out.take k) (x.tagAt w d) b)

/-- The element is written: PROG goes on, a HALT that waited for it takes effect (R606), the status its bytes give (R598, R603). -/
def elemDone (c : Ctx) (n : Nat) (w : List Nat) (b : Block) : Block :=
  let (i0, i1, i2, last) := nextIndex w (b.get (F.DM_PROG_I0 n)) (b.get (F.DM_PROG_I1 n)) (b.get (F.DM_PROG_I2 n))
  let b := b.wr (R.DM_PROG n) (i0 * 2 ^ 20 + i1 * 2 ^ 10 + i2)
  let x := b.dmSt n
  let b := b.setDm n { x with move := none, fin := x.fin || last, fresh := false, elemAt := some c.tick, halt := false }
  if x.halt then b.put (F.DM_STAT_STATE n) 3 else b

/-- What the element in progress does in an fc: at most one access at the source and one at the destination (R591). -/
def moveStep (c : Ctx) (n : Nat) (b : Block) : Block :=
  let s := b.dmSt n
  match s.move, s.desc with
  | some x, some (_, w) =>
    let (x, b) := moveRead c n w x b
    let bad := x.got.any (·.bad)
    let (x, b) := moveWrite c n w x b
    let b := b.setDm n { b.dmSt n with
      move := some x, acc := max (b.dmSt n).acc (if x.spool then 5 else if bad then 1 else 0) }
    if x.reads.isEmpty && x.writes.isEmpty then elemDone c n w b else b
  | _, _ => b

/-- What the elements in progress do in an fc that begins. -/
def moveTick (c : Ctx) (b : Block) (n : Nat) : Block := if (b.dmSt n).move.isSome then moveStep c n b else b

/-- An element begins. -/
def elemBegin (c : Ctx) (n : Nat) (x : DmMove) (b : Block) : Block :=
  moveStep c n (b.setDm n { b.dmSt n with move := some x })

/-- An element from the spool: it waits for its block (R602, R603, R738). -/
def elemSpool (c : Ctx) (n s d : Nat) (b : Block) : Block :=
  let blk := s / 65536
  let b := streamSeek c n blk b
  match (b.dmSt n).stream.find? (fun x => x.blk == blk) with
  | none => b
  | some x =>
    if !x.ready then b
    else if x.bad then
      elemBegin c n { reads := [], writes := elemAccesses d 32, got := List.replicate 32 { bad := true }, spool := true } b
    else elemBegin c n { reads := [(b.streamAddr n blk + s % 65536, 32)], writes := elemAccesses d 32 } b

/-- The row DMA_ELEMENT: an element begins. -/
def dmElement (c : Ctx) (n : Nat) (b : Block) : Block :=
  let x := b.dmSt n
  match x.desc with
  | none => b
  | some (_, w) =>
    let k := descLen w
    let i0 := b.get (F.DM_PROG_I0 n)
    let i1 := b.get (F.DM_PROG_I1 n)
    let i2 := b.get (F.DM_PROG_I2 n)
    let s := elemAddr (if descSsp w then 44 else 32) (descSrc w) i0 i1 i2 (descStep w 0) (descStep w 1) (descStep w 2)
    let d := elemAddr 32 (w.getD 2 0) i0 i1 i2 (descStep w 3) (descStep w 4) (descStep w 5)
    let held := !descSsp w && b.flashBusy c && (spanOf s k).any inFlash
    when (b.dmState n == 1 && !x.fin && x.move.isNone && x.elemAt.all (fun t => t < c.tick) && !held) (fun b =>
      if (if x.fresh then !c.start.dmMayRun n else c.start.dmMustPause n) then dmPause c n b
      else if elemBad c.hw w s d k then b.setDm n { x with acc := max x.acc 2, fin := true, stop := true }
      else if descSsp w then elemSpool c n s d b
      else elemBegin c n { reads := elemAccesses s k, writes := elemAccesses d k } b) b

end Sys2Proof.Machine
end

