-- ==== Sys2Proof/Machine/Reset.lean ====
section
/-! DEFINITION. Package resets, HOLD, the boot sequence, SLEEP, and what passes from one fc to the next (R6, R632–R640, R656–R664,
R732, R761, R771, R782–R790). -/

namespace Sys2Proof.Machine

/-! ### Package resets (R632–R637, R679, R681, R687) -/

/-- Is a register one that a package reset leaves: the Lichen registers and BOOT_RESET (R634)? -/
def lichenReg (a : Nat) : Bool := a == R.PW_WAKE || a == R.PW_WKTL || a == R.PW_WKTH || a == R.PW_LSTAT || a == R.BOOT_RESET

/-- The part as a package reset leaves it: flash, the keys, the Lichen domain, the TAP and what has left the part stay; a pulse
in progress is ended; the status table and the selector are read. `keep`: the registers that stay. -/
def resetBlock (keep : Nat → Bool) (b : Block) : Block :=
  let b := flReset b
  flLoad { Block.atReset with
    regs := b.regs.filter fun x => keep x.1
    mem := b.mem.filter fun x => flashBase ≤ x.1
    flashChk := b.flashChk
    flashInc := b.flashInc
    flashPint := b.flashPint
    flashPinta := b.flashPinta
    resp := b.resp
    respTag := b.respTag
    freeCount := b.freeCount
    hostOut := b.hostOut
    always := b.always
    tap := b.tap }

/-- The part and the time base as a package reset leaves them; BOOT_RESET keeps its place in `b`. -/
def State.resetTo (s : State) (b : Block) : State := { s with tick := 0, now := b, start := b }

/-- A package reset: BOOT_RESET shows its cause and the state before it. -/
def packageReset (cause : Nat) (s : State) : State :=
  let prev := s.now.get F.BOOT_STATUS_STATE
  s.resetTo (((resetBlock lichenReg s.now).put F.BOOT_RESET_CAUSE cause).put F.BOOT_RESET_PREV prev)

/-- SLEEP begins: the part is reset and stays so; the Lichen domain runs on (R783). -/
def sleepEntry (s : State) : State :=
  let s := packageReset (s.now.get F.BOOT_RESET_CAUSE) s
  let b := { s.now with always := { s.now.always with sleeping := true } }
  s.resetTo b

/-- Run an effect on the whole state. -/
def State.runAll (s : State) (p : Bool) (f : State → State) : Host.Outcome State Fault Refusal := .next (if p then f s else s)

/-- A rail falls below its POR threshold (R632, R784, R790); rail 9, VDD_L, resets the Lichen domain too (R634, R774). -/
def powerOn (rail : Nat) (s : State) : State :=
  let fallen (b : Block) : Block := { b with always := { b.always with
      low := if b.always.low.contains rail then b.always.low else rail :: b.always.low } }
  if rail = 9 then
    let b := resetBlock (fun _ => false) s.now
    s.resetTo (fallen { b with always := { b.always with
      ltb := 0, sleeping := false, lclkDone := false, wake := 0, wakePrev := 0, wktLow := 0, wktSnap := 0 } })
  else if s.now.always.sleeping then s
  else
    let s := packageReset 1 s
    s.resetTo (fallen (s.now.put F.PW_LSTAT_BORRAIL (rail + 1)))

/-- RST_N is driven low for ns nanoseconds (R632); between 20 and 100 ns the spec leaves it open whether a reset follows. -/
def rstLow (ns : Nat) (s : State) : State :=
  let (v, b) := if 20 ≤ ns ∧ ns < 100 then s.now.free else (0, s.now)
  let s := { s with now := b }
  if ns < 20 ∨ (ns < 100 ∧ v % 2 = 0) then s
  else
    let s := if s.now.always.sleeping then s else packageReset 2 s
    s.resetTo { s.now with always := { s.now.always with rstLow := true } }

/-- REFCLK or the lock of PLLF is lost past B1 (R771). -/
def refclkLoss (s : State) : State :=
  let s := packageReset 1 s
  s.resetTo (s.now.put F.PW_LSTAT_CKLOSS 1)

/-- An event ends SLEEP (R785): CAUSE becomes 4, WKPEND stands until the supplies are good. -/
def wakeUp (k : Nat) (s : State) : State :=
  let b := { s.now with always := { s.now.always with sleeping := false } }
  s.resetTo (((b.put F.PW_LSTAT_WKSRC (k + 1)).put F.PW_LSTAT_WKPEND 1).put F.BOOT_RESET_CAUSE 4)

/-! ### HOLD (R659–R662) -/

/-- A register that stays while Fiddlehead establishes the state of R634 again. -/
def holdReg (a : Nat) : Bool := lichenReg a || a == R.BOOT_MINVER

/-- Is PLLF locked? -/
def Block.pllF (b : Block) : Bool := b.on F.PW_PLL_F

/-- HOLD is entered with a cause (R659, R664); where the spec names no field, BOOT_INFO is free. -/
def holdEntry (f : BootFail) (src : Nat) (kslot : Option Nat) (b : Block) : Block :=
  let b := (resetBlock holdReg b).put F.PW_PLL_F 1
  let (info, b) := match f.info with
    | some (sect, ofs) => (sect % 256 * 2 ^ 24 + ofs % 2 ^ 24, b)
    | none => b.free
  let b := b.wr R.BOOT_STATUS (2 * 2 ^ 30 + src * 65536 + kslot.getD 0xFF * 256 + f.cause)
  let b := b.wr R.BOOT_INFO info
  uartLine (ascii "KORITH HOLD " ++ hexDigits 2 f.cause ++ [32] ++ hexDigits 8 (info % 2 ^ 32)) b

/-- RETRY: HOLD ends, the sequence is to start at B2 (R661); it waits for a flash operation of the host port (R662). -/
def retryBoot (s : State) : State :=
  if s.now.flCmd.isSome then { s with now := { s.now with retry := true } }
  else
    let b := (resetBlock lichenReg s.now).put F.PW_PLL_F 1
    { s with now := b, start := b }

/-- A RETRY that has waited acts when the operation has ended. -/
def afterRetry (s : State) : State := if s.now.retry ∧ s.now.flCmd.isNone then retryBoot s else s

/-! ### The boot sequence (R635–R640) -/

/-- Fiddlehead runs B1–B6: `sel`, BOOTSEL; the external flash's bytes as pass 1 and pass 2 read them, none where it does not
answer. -/
def bootSequence (sel : Nat) (ospi ospi2 : Option (List Nat)) (s : State) : State :=
  let c := s.ctx
  let b := s.now
  let b := { b with balls := Block.atReset.balls, always := { b.always with low := [], rstLow := false } }
  let b := (b.put F.PW_PLL_F 1).put F.PW_LSTAT_WKPEND 0
  let fin (b : Block) : State := { s with now := b, start := b }
  match bootSource c.hw b sel ospi ospi2 with
  | .error f => fin (holdEntry f (bootSrcShown b sel) none b)
  | .ok (src, minver, im, im2) =>
    let b := b.wr R.BOOT_MINVER minver
    match im, im2 with
    | some im, some im2 =>
      match bootImage c src minver im im2 b with
      | .error (f, k) => fin (holdEntry f src k b)
      | .ok b => fin b
    | _, _ => fin (holdEntry ⟨0x04, none⟩ src none b)

/-- May the sequence begin (R635, R637)? -/
def State.mayBoot (s : State) : Bool := s.now.get F.BOOT_STATUS_STATE == 0 && !s.now.always.sleeping

/-! ### The maintenance port (R645, R663) -/

/-- The command STATUS: BOOT_STATUS, in every state. -/
def mntStatus (b : Block) : Block := b.answer (b.rd R.BOOT_STATUS) 0

/-- The command ENROL (R645). -/
def mntEnrol (slot : Nat) (hash : List Nat) (b : Block) : Block :=
  when (slot < 4 && b.inHold && !b.retry && !b.always.elock && (b.always.keys.getD slot {}).st == 0) (fun b =>
    { b with always := { b.always with keys := b.always.keys.set slot ⟨1, hash⟩ } }) b

/-- KSP RESET (R661, R732): once the response has left, in the fc after, RUN ends as by the watchdog; HOLD ends with the fc and
boots again. -/
def kspReset (c : Ctx) (h : KspHead) (magic : Nat) (b : Block) : Block :=
  let (go, b) := kspResetAsk c h magic b
  if !go then b else if b.inRun then { b with resetDue := some 3 } else { b with retry := true }

/-! ### The requests of HOLD (R662) -/

/-- A request is served. -/
def serve (c : Ctx) (r : HoldReq) (b : Block) : Block :=
  match r with
  | .hello h => kspHello c h b
  | .readstat h job => kspReadstat c h job b
  | .erase h target len off => kspErase c h target len off b
  | .program h target len off data => kspProgram c h target len off data b
  | .swap h target => kspSwap c h target b
  | .attest h nonce => kspAttest c h nonce b
  | .reset h magic => kspReset c h magic b
  | .read a => regLoad c .mnt a b
  | .enrol slot hash => mntEnrol slot hash b

/-- A request arrives: in HOLD it waits while one before it is being served, and after a RETRY it is ignored (R662). -/
def request (c : Ctx) (r : HoldReq) (b : Block) : Block :=
  if !b.inHold then serve c r b
  else if b.retry then b
  else if b.hp.cfgs.isEmpty && b.hp.later.isEmpty then serve c r b
  else { b with hp := { b.hp with later := b.hp.later ++ [r] } }

/-- The waiting requests are served one by one, until one that takes time. -/
def serveLater (c : Ctx) : List HoldReq → Block → Block
  | [], b => { b with hp := { b.hp with later := [] } }
  | r :: l, b =>
    if b.hp.cfgs.isEmpty && !b.retry then serveLater c l (serve c r b)
    else { b with hp := { b.hp with later := r :: l } }

/-- At the end of an fc HOLD goes on with the requests that wait. -/
def holdEndFc (c : Ctx) (b : Block) : Block := if b.hp.later.isEmpty then b else serveLater c b.hp.later b

/-! ### From one fc to the next (R6, R114, R129) -/

/-- What the units do at the end of an fc. -/
def unitsEndFc (c : Ctx) (b : Block) : Block :=
  let b := (List.range (nFB c.hw)).foldl (fbEndFc c) b
  let b := (List.range (nEMU c.hw)).foldl (emuTick c) b
  let b := (b.fg.map (·.1)).foldl (fgEndFc c) b
  let b := (b.cv.map (·.1)).foldl cvEndFc b
  let b := (List.range (nAD c.hw)).foldl (adEndFc c) b
  let b := (List.range (nAC c.hw)).foldl (acEndFc c) b
  let b := (List.range (nAD c.hw)).foldl (sdEndFc c) b
  let b := (List.range (nHL c.hw)).foldl (hlEndFc c) b
  let b := (b.gl.map (·.1)).foldl (glEndFc c) b
  (List.range (nEG c.hw)).foldl (egEndFc c) b

/-- What an fc leaves at its end: timeouts of the host port and the spool, its flash command, what the units do at its end, the
forcing that changes with the next fc, idle runs, the marks of R398. -/
def endFc (c : Ctx) (b : Block) : Block :=
  let b := wdtEndFc (pllEndFc c (pvEndFc c b))
  let b := hostFlashTick c (holdEndFc c (spEndFc c (mailEndFc c (sessEndFc c b))))
  let b := (b.eng.map (·.1)).foldl (loadEndTick c) (unitsEndFc c b)
  let b := forceEndFc c b
  let b := (b.icSrc.map (·.1)).foldl (fun b k => icEndFc c (k / 1024) (k % 1024) b) b
  let b := idleTick c (flashEndFc c b)
  { b with marks := b.endMarks, fc := {} }

/-- What the next fc begins with: written positions take force, stores and loads of the TCMs are performed, results land, yields
fall due, check-value units and takeovers go on. -/
def beginFc (c : Ctx) (b : Block) : Block :=
  let es := b.eng.map (·.1)
  let b := (List.range (nFB c.hw)).foldl (fbApplyWrite c) b
  let b := es.foldl (storeTick c) b
  let b := es.foldl (loadTick c) b
  let b := es.foldl (lateTick c.tick) b
  let b := es.foldl (trapTick c) b
  let b := es.foldl (yieldTick c.tick) b
  let b := es.foldl (serrTick c) b
  let b := (b.dm.map (·.1)).foldl (moveTick c) b
  let b := (b.cp.map (·.1)).foldl cpPutOffLands b
  let b := (b.ll.map (·.1)).foldl (lawStep c.tick) b
  let b := (b.eg.map (·.1)).foldl egBeginFc b
  let b := (b.fg.map (·.1)).foldl (fgBeginFc c) b
  let b := (b.icSrc.map (·.1)).foldl (fun b k => icBeginFc c (k / 1024) (k % 1024) b) b
  let b := (b.cv.map (·.1)).foldl (cvResultTick c) b
  let b := cvTick b
  let b := (List.range (nFB c.hw)).foldl (fbShowTick c) b
  b.su.foldl (takeoverTick c) b

/-- One fc passes (DESIGN CHOICE, log entry 1); the time base stands until PLLF has locked (R635). -/
def tickFc (s : State) : State :=
  if !s.now.pllF then s
  else
    let b := endFc s.ctx s.now
    match b.resetDue with
    | some 16 => sleepEntry { s with now := b }
    | some k => packageReset k { s with now := b }
    | none =>
      let t : State := { s with tick := s.tick + 1, now := b, start := b }
      if b.retry && b.flCmd.isNone then retryBoot t else { t with now := beginFc t.ctx b }

end Sys2Proof.Machine
end

