-- ==== Sys2Proof/Machine/BootCmds.lean ====
section
/-! DEFINITION. The commands of resets, the boot sequence, the maintenance port (spec/18). -/

namespace Sys2Proof.Machine

/-- POWER_ON_RESET (R632). -/
def execPowerOnReset (rail : Fin 10) (s : State) : Host.Outcome State Fault Refusal :=
  s.runAll (decide (rail.val < 10)) (powerOn rail.val)

/-- RST_N_ASSERT (R632). -/
def execRstNAssert (ns : Nat) (s : State) : Host.Outcome State Fault Refusal :=
  s.runAll true (rstLow ns)

/-- TWIN_RESET (R761). -/
def execTwinReset (s : State) : Host.Outcome State Fault Refusal :=
  s.runAll s.now.pv.twinRst (packageReset 5)

/-- BOOT_SEQUENCE (R638). -/
def execBootSequence (sel : Fin 4) (ospi ospi2 : Option (List Nat)) (s : State) : Host.Outcome State Fault Refusal :=
  s.runAll s.mayBoot (bootSequence sel.val ospi ospi2)

/-- MNT_STATUS (R663). -/
def execMntStatus (s : State) : Host.Outcome State Fault Refusal :=
  s.run fun _ b => mntStatus b

/-- MNT_READ (R663). -/
def execMntRead (a : Word) (s : State) : Host.Outcome State Fault Refusal :=
  s.run fun c b => request c (.read (a.toNat % 2 ^ 32)) b

/-- MNT_WRITE (R663). -/
def execMntWrite (a v : Word) (s : State) : Host.Outcome State Fault Refusal :=
  s.run fun c b => regStore c .mnt (a.toNat % 2 ^ 32) v.toNat b

/-- MNT_RETRY (R661). -/
def execMntRetry (s : State) : Host.Outcome State Fault Refusal :=
  s.runAll (s.now.inHold && !s.now.retry) retryBoot

/-- MNT_ENROL (R645). -/
def execMntEnrol (slot : Fin 4) (hash : List Nat) (s : State) : Host.Outcome State Fault Refusal :=
  s.run fun c b => request c (.enrol slot.val hash) b

end Sys2Proof.Machine
end

