-- ==== Sys2Proof/Machine/Csr.lean ====
section
/-! DEFINITION. The CSR map (R518, R529–R532), the task window (TSEL, TREG, TCMD), and the engine lane registers (R87–R96). -/

namespace Sys2Proof.Machine

/-! ### The map (R530) -/

/-- Who may reach a CSR: only T00, only S to read, only S to write. -/
structure CsrInfo where
  t00 : Bool
  rdS : Bool
  wrS : Bool
  deriving DecidableEq, Repr

def csrInfo (n : Nat) : Option CsrInfo :=
  if n ≤ 0x008 then some ⟨false, false, n == 1 || n == 2 || n == 4 || n == 5⟩
  else if 0x010 ≤ n ∧ n ≤ 0x013 then some ⟨false, false, false⟩
  else if n = 0x020 then some ⟨false, true, true⟩
  else if (0x021 ≤ n ∧ n ≤ 0x024) ∨ (0x028 ≤ n ∧ n ≤ 0x02A) then some ⟨true, true, true⟩
  else if 0x030 ≤ n ∧ n ≤ 0x040 then some ⟨false, true, true⟩
  else none

/-! ### Reading -/

/-- ESTAT. -/
def EngSt.estat (s : EngSt) : Nat :=
  b2n s.act * 2 ^ 31 + b2n s.ewait * 2 ^ 30 + b2n s.smore * 2 ^ 29 + s.queue.length % 128 * 2 ^ 22 + s.etask % 64 * 2 ^ 16 +
    s.ecause % 16 * 2 ^ 8 + b2n s.epriv

/-- The word of a task that TSEL.REG names. -/
def TaskSt.window (t : TaskSt) (r : Nat) : TWord :=
  if r < 32 then t.reg r else if r < 42 then t.saveWord (r - 1) else {}

/-- The value and tag of a CSR, as task k of engine e reads it. -/
def Block.csrValue (b : Block) (c : Ctx) (e k n : Nat) : TWord :=
  let s := b.engSt e
  let t := b.taskSt e k
  match n with
  | 0x000 => word (e * 64 + k) Tag.uns
  | 0x001 => word t.tctl Tag.uns
  | 0x002 => word t.dln Tag.uns
  | 0x003 => word (t.dc * 256 + t.ds) Tag.uns
  | 0x004 => word t.rsmWord Tag.uns
  | 0x005 => t.rsw
  | 0x006 => word (t.acIrq * 2 ^ 16 + t.acKind) Tag.uns
  | 0x007 => word t.atick Tag.time
  | 0x008 => word (c.start.taskSt e k).alost Tag.uns
  | 0x010 => word c.tick Tag.time
  | 0x011 => word t.timeh Tag.uns
  | 0x012 => word (b.nt.getD 0 e * 256 + b2n s.modeP) Tag.uns
  | 0x020 => word s.vbase Tag.dptr
  | 0x021 => word s.estat Tag.uns
  | 0x022 => word s.epc Tag.cptr
  | 0x023 => word s.eaddr Tag.raw
  | 0x024 => word s.einfo Tag.uns
  | 0x028 => word s.tsel Tag.uns
  | 0x029 => if bits s.tsel 13 8 < b.nt.getD 0 e then (b.taskSt e (bits s.tsel 13 8)).window (bits s.tsel 5 0) else {}
  | 0x040 => word (b2n s.mplock) Tag.uns
  | n =>
    if 0x030 ≤ n ∧ n ≤ 0x037 then word (s.mpb.getD (n - 0x030) 0) Tag.uns
    else if 0x038 ≤ n ∧ n ≤ 0x03F then word (s.mpl.getD (n - 0x038) 0) Tag.uns
    else word 0 Tag.uns

/-- TIMEL is read: TIMEH takes the high word for the task's next read of it (R532). -/
def snapTimeh (c : Ctx) (e k : Nat) (b : Block) : Block :=
  b.setTask e k { b.taskSt e k with timeh := c.tick / 2 ^ 32 % 2 ^ 32 }

/-- What a read of a CSR does: ALOST is cleared, but keeps what was lost in this fc (R13); TIMEL snapshots. -/
def csrReadEffect (c : Ctx) (e k n : Nat) (b : Block) : Block :=
  if n = 0x008 then b.setTask e k { b.taskSt e k with alost := b.fc.rcAdd.getD 0 (taskKey e k) }
  else if n = 0x010 then snapTimeh c e k b
  else b

/-! ### Writing -/

/-- A write to the bits of a mask. -/
structure CsrPut where
  v : Nat
  mask : Nat
  tag : Option Nat

/-- A field's old bits with the written ones (R531). -/
def CsrPut.over (p : CsrPut) (old : Nat) : Nat := (old &&& (p.mask ^^^ 0xFFFFFFFF)) ||| (p.v &&& p.mask)

/-- The ones a write carries in a field. -/
def CsrPut.ones (p : CsrPut) (hi lo : Nat) : Nat := bits (p.v &&& p.mask) hi lo

/-- Does the write reach any bit of a field? -/
def CsrPut.hits (p : CsrPut) (hi lo : Nat) : Bool := bits p.mask hi lo != 0

/-- A tagged word written. -/
def CsrPut.word (p : CsrPut) (old : TWord) : TWord :=
  ⟨BitVec.ofNat 32 (p.over old.d.toNat), match p.tag with | some t => BitVec.ofNat 4 t | none => old.t⟩

/-- LOCKED is counted where a write would change fields that keep their values (R529, R821). -/
def lockedIf (e : Nat) (x : Bool) (b : Block) : Block := if x then b.violate (some (regionOf e)) .locked 1 else b

/-- TREG is written: word r of task k. -/
def windowWrite (e k r : Nat) (p : CsrPut) (b : Block) : Block :=
  let t := b.taskSt e k
  if r = 0 ∨ 42 ≤ r ∨ b.nt.getD 0 e ≤ k then b
  else
    let w := p.word (t.window r)
    let b := b.noteSet (dcKey e k) (2 ^ wordGroup (r - 1))
    if r < 32 then b.setTask e k (t.setReg r w)
    else
      let x := t.putWord (r - 1) w
      let x := if r = 41 then { x with priv := if k = 0 then t.priv else x.priv || t.ceil } else x
      b.setTask e k (x.dirty (wordGroup (r - 1)))

/-- A CSR of the engine's fields under the lock: its writable bits are m. -/
def lockedField (e m : Nat) (p : CsrPut) (old : Nat) (set : EngSt → Nat → EngSt) (b : Block) : Block :=
  let s := b.engSt e
  let v := p.over old &&& m
  if s.mplock then lockedIf e (v != old) b else b.setEng e (set s v)

/-- A write of a CSR by task k of engine e; a bit of DIRTY or SMORE that hardware set in this fc, as an issue sets CT, stays (R12). -/
def csrPut (c : Ctx) (e k n : Nat) (p : CsrPut) (b : Block) : Block :=
  let s := b.engSt e
  let t := b.taskSt e k
  match n with
  | 0x001 =>
    let v := p.over t.tctl
    let b := lockedIf e (bits v 14 12 != t.pri || bit v 8 != t.ceil) b
    if k = 0 then b else b.setTask e k { t with priv := bit v 0 }
  | 0x002 => b.setTask e k { t with dln := p.over t.dln }
  | 0x003 =>
    let keep := b.fc.hwSet.getD 0 (taskKey e k) ||| 32
    b.setTask e k { t with ds := t.ds &&& (p.ones 5 0 ^^^ 0x3F) ||| (t.ds &&& keep) }
  | 0x004 => b.setTask e k { t with rsmV := bit (p.over t.rsmWord) 31, rsmIdx := bits (p.over t.rsmWord) 15 0 }
  | 0x005 => b.setTask e k { t with rsw := p.word t.rsw }
  | 0x012 =>
    let old := b.nt.getD 0 e * 256 + b2n s.modeP
    lockedIf e (p.over old &&& 0x7F01 != old) b
  | 0x013 => if p.hits 5 0 then tactWrite c e (p.ones 5 0) b else b
  | 0x020 => lockedField e 0xFFFFFFC0 p s.vbase (fun s v => { s with vbase := v }) b
  | 0x021 => b.setEng e { s with smore := s.smore && (p.ones 29 29 == 0 || b.fc.hwSet.getD 0 (smoreKey e) != 0), epriv := bit (p.over s.estat) 0 }
  | 0x022 => b.setEng e { s with epc := p.over s.epc }
  | 0x028 => b.setEng e { s with tsel := p.over s.tsel &&& 0x3F3F }
  | 0x029 => windowWrite e (bits s.tsel 13 8) (bits s.tsel 5 0) p b
  | 0x02A => if p.ones 1 0 = 1 then tcmd c e false b else if p.ones 1 0 = 2 then tcmd c e true b else b
  | 0x040 => b.setEng e { s with mplock := s.mplock || p.ones 0 0 == 1 }
  | n =>
    if 0x030 ≤ n ∧ n ≤ 0x037 then
      lockedField e 0xFFFFFFBF p (s.mpb.getD (n - 0x030) 0) (fun s v => { s with mpb := s.mpb.set (n - 0x030) v }) b
    else if 0x038 ≤ n ∧ n ≤ 0x03F then
      lockedField e 0xFFFFFF00 p (s.mpl.getD (n - 0x038) 0) (fun s v => { s with mpl := s.mpl.set (n - 0x038) v }) b
    else b

/-! ### The instructions -/

/-- CSRR, CSRW, CSRS, CSRC. -/
inductive CsrOp where
  | read | write | set | clear
  deriving DecidableEq, Repr

/-- Does the access need S? -/
def CsrInfo.needsS (i : CsrInfo) : CsrOp → Bool
  | .read => i.rdS
  | .write => i.wrS
  | _ => i.rdS || i.wrS

/-- What an access writes. -/
def CsrOp.put (op : CsrOp) (d t : Nat) : CsrPut :=
  match op with
  | .clear => ⟨0, d, none⟩
  | .set => ⟨d, d, none⟩
  | _ => ⟨d, 0xFFFFFFFF, some t⟩

/-- A CSR access by an instruction (R530, R531). -/
def csrOp (c : Ctx) (op : CsrOp) (e rd ra n : Nat) (b : Block) : Block :=
  issue c e {
    uses := if op = .read then [] else [ra], writes := if op = .write then [] else [rd], alone := true
    bad := if (csrInfo n).isNone then some 1 else none } (fun k _ b =>
    let i := (csrInfo n).getD ⟨false, false, false⟩
    let t := b.taskSt e k
    let o := t.opd ra
    if i.t00 ∧ k ≠ 0 then .trap (ill 1) b
    else if i.needsS op ∧ t.priv then .trap { code := excPriv, einfo := n } b
    else if op = .read then .done (wrReg c e k rd (b.csrValue c e k n) 1 (csrReadEffect c e k n b))
    else if !plainTag o.t ∨ (n = 0x020 ∧ o.t ≠ Tag.dptr) ∨ (n = 0x022 ∧ o.t ≠ Tag.cptr) then .trap (tagTrap o) b
    else if op = .write then .done (csrPut c e k n (op.put o.d o.t) b)
    else
      let v := b.csrValue c e k n
      .done (wrReg c e k rd v 1 (csrPut c e k n (op.put o.d o.t) (csrReadEffect c e k n b)))) b

/-- The row TIMEL_READ: the running task reads TIMEL (R532). -/
def timelRead (c : Ctx) (e : Nat) (b : Block) : Block :=
  match (b.engSt e).run with
  | some k => (snapTimeh c e k b).answer (c.tick % 2 ^ 32) Tag.time
  | none => b

/-! ### Engine lane registers -/

/-- LINk (R87, R88). -/
def TaskSt.linWord (t : TaskSt) (k : Nat) : TWord :=
  word (t.lin.getD k 0) (if k < 4 then Tag.frac else if k = 4 then Tag.time else if k < 7 then Tag.uns else Tag.int)

/-- RDL. -/
def rdlOp (c : Ctx) (e rd k len : Nat) (b : Block) : Block :=
  issue c e { len := len, writes := [rd] } (fun j _ b => .done (wrReg c e j rd ((b.taskSt e j).linWord k) 1 b)) b

/-- WRL (R90–R96): LOUT3 is ignored; LOUTc commits in a law task, a declared engine's too: its commit is judged where it arrives. -/
def wrlOp (c : Ctx) (e k ra len : Nat) (b : Block) : Block :=
  issue c e { len := len, uses := [ra] } (fun j _ b =>
    let t := b.taskSt e j
    let o := t.opd ra
    if (k < 3 ∧ o.t ≠ Tag.frac) ∨ !plainTag o.t then .trap (tagTrap o) b
    else if k = 3 then .done b
    else
      let b := b.setTask e j { t with lout := t.lout.set k (t.reg ra) }
      .done (match b.laneOfTask c.hw e j with
        | some n => if b.get (F.LL_CFG_CMT n) = k then loutCommit c e j n b else b
        | none => b)) b

end Sys2Proof.Machine
end

