-- ==== Sys2Proof/Machine/BranchCmds.lean ====
section
/-! DEFINITION. The commands of branches and jumps (R417–R419, R466, R471). -/

namespace Sys2Proof.Machine

/-- CBEQ (R471). -/
def execCbeq (e : Fin 256) (ra rb : Reg) (ofs : BitVec 15) (s : State) : Host.Outcome State Fault Refusal :=
  s.run fun c b => compareBranch c e.val ra.val rb.val ofs.toNat eqTags eqVals b

/-- CBNE (R471). -/
def execCbne (e : Fin 256) (ra rb : Reg) (ofs : BitVec 15) (s : State) : Host.Outcome State Fault Refusal :=
  s.run fun c b => compareBranch c e.val ra.val rb.val ofs.toNat eqTags (fun t x y => !eqVals t x y) b

/-- CBLT (R471). -/
def execCblt (e : Fin 256) (ra rb : Reg) (ofs : BitVec 15) (s : State) : Host.Outcome State Fault Refusal :=
  s.run fun c b => compareBranch c e.val ra.val rb.val ofs.toNat ltTags ltVals b

/-- CBGE (R471). -/
def execCbge (e : Fin 256) (ra rb : Reg) (ofs : BitVec 15) (s : State) : Host.Outcome State Fault Refusal :=
  s.run fun c b => compareBranch c e.val ra.val rb.val ofs.toNat ltTags geVals b

/-- CBLTU (R471). -/
def execCbltu (e : Fin 256) (ra rb : Reg) (ofs : BitVec 15) (s : State) : Host.Outcome State Fault Refusal :=
  s.run fun c b => compareBranch c e.val ra.val rb.val ofs.toNat ltuTags (fun _ x y => x < y) b

/-- CBGEU (R471). -/
def execCbgeu (e : Fin 256) (ra rb : Reg) (ofs : BitVec 15) (s : State) : Host.Outcome State Fault Refusal :=
  s.run fun c b => compareBranch c e.val ra.val rb.val ofs.toNat ltuTags (fun _ x y => y ≤ x) b

/-- JAL (R466). -/
def execJal (e : Fin 256) (rd : Reg) (ofs : BitVec 20) (s : State) : Host.Outcome State Fault Refusal :=
  s.run fun c b => jumpDirect c e.val 4 (some rd.val) (toSigned 20 ofs.toNat) b

/-- JALR (R466). -/
def execJalr (e : Fin 256) (rd ra : Reg) (s : State) : Host.Outcome State Fault Refusal :=
  s.run fun c b => jumpRegister c e.val 4 (some rd.val) ra.val b

end Sys2Proof.Machine
end

