-- ==== Sys2Proof/Machine/DmaCmds.lean ====
section
/-! DEFINITION. The commands of DMA channels and check-value units (spec/16, spec/17). -/

namespace Sys2Proof.Machine

/-- DMA_RUN (R606). -/
def execDmaRun (n : Fin 64) (s : State) : Host.Outcome State Fault Refusal :=
  s.run fun c b => dmRunAct c n.val b

/-- DMA_RUN_WRITE (R606). -/
def execDmaRunWrite (ag : Agent) (n : Fin 64) (v : Word) (s : State) : Host.Outcome State Fault Refusal :=
  s.run fun c b => regStore c ag (R.DM_CTL n.val) v.toNat b

/-- DMA_HALT (R606). -/
def execDmaHalt (n : Fin 64) (s : State) : Host.Outcome State Fault Refusal :=
  s.run fun c b => dmHaltAct c n.val b

/-- DMA_HALT_WRITE (R606). -/
def execDmaHaltWrite (ag : Agent) (n : Fin 64) (v : Word) (s : State) : Host.Outcome State Fault Refusal :=
  s.run fun c b => regStore c ag (R.DM_CTL n.val) v.toNat b

/-- DMA_ABORT (R606). -/
def execDmaAbort (ag : Agent) (n : Fin 64) (v : Word) (s : State) : Host.Outcome State Fault Refusal :=
  s.run fun c b => regStore c ag (R.DM_CTL n.val) v.toNat b

/-- DMA_DESCRIPTOR_FETCH (R611). -/
def execDmaDescriptorFetch (n : Fin 64) (s : State) : Host.Outcome State Fault Refusal :=
  s.run fun c b => dmFetch c n.val b

/-- DMA_ELEMENT (R594). -/
def execDmaElement (n : Fin 64) (s : State) : Host.Outcome State Fault Refusal :=
  s.run fun c b => dmElement c n.val b

/-- DMA_PACE_RESUME (R604). -/
def execDmaPaceResume (n : Fin 64) (s : State) : Host.Outcome State Fault Refusal :=
  s.run fun c b => dmResume c n.val b

/-- DMA_PACE_TIMEOUT (R605). -/
def execDmaPaceTimeout (n : Fin 64) (s : State) : Host.Outcome State Fault Refusal :=
  s.run fun c b => dmTimeout c n.val b

/-- DMA_HANDBACK (R608). -/
def execDmaHandback (n : Fin 64) (s : State) : Host.Outcome State Fault Refusal :=
  s.run fun c b => dmHandback c n.val b

/-- CV_START (R621). -/
def execCvStart (ag : Agent) (n : Fin 32) (v : Word) (s : State) : Host.Outcome State Fault Refusal :=
  s.run fun c b => regStore c ag (R.CV_CTL n.val) v.toNat b

/-- CV_DATA (R619). -/
def execCvData (ag : Agent) (n : Fin 32) (v : Word) (s : State) : Host.Outcome State Fault Refusal :=
  s.run fun c b => regStore c ag (R.CV_DATA n.val) v.toNat b

/-- CV_END (R620). -/
def execCvEnd (ag : Agent) (n : Fin 32) (v : Word) (s : State) : Host.Outcome State Fault Refusal :=
  s.run fun c b => regStore c ag (R.CV_CTL n.val) v.toNat b

/-- CV_RUN_WRITE (R623). -/
def execCvRunWrite (ag : Agent) (n : Fin 32) (v : Word) (s : State) : Host.Outcome State Fault Refusal :=
  s.run fun c b => regStore c ag (R.CV_RUN n.val) v.toNat b

/-- CV_CLIENT_MESSAGE (R617). -/
def execCvClientMessage (n : Fin 24) (s : State) : Host.Outcome State Fault Refusal :=
  s.run fun c b => cvFbMessage c n.val b

end Sys2Proof.Machine
end

