-- ==== Sys2Proof/Machine/EdgeCmds.lean ====
section
/-! DEFINITION. The commands of edge generators and trip groups (spec/04). -/

namespace Sys2Proof.Machine

/-- The k-th shadowed register of generator n: PER at +0x18, then RISE to CTR at +0x20 to +0x34 (R174). -/
def shadowAddr (n k : Nat) : Nat := R.EG_CFG n + (if k = 0 then 0x18 else 0x1C + 4 * k)

/-- EG_CARRIER_START (R149). -/
def execEgCarrierStart (n : Fin 96) (s : State) : Host.Outcome State Fault Refusal :=
  s.run fun c b => egCarrierStart c n.val b

/-- EG_CENTRE (R153). -/
def execEgCentre (n : Fin 96) (s : State) : Host.Outcome State Fault Refusal :=
  s.run fun c b => egCentre c n.val b

/-- EG_PULSE_EDGE (R158). -/
def execEgPulseEdge (n : Fin 96) (s : State) : Host.Outcome State Fault Refusal :=
  s.run fun c b => egPulseEdge c n.val b

/-- EG_LATE_CARRIER (R152). -/
def execEgLateCarrier (n : Fin 96) (s : State) : Host.Outcome State Fault Refusal :=
  s.run fun c b => egLateCarrier c n.val b

/-- EG_CMPH_COMMIT (R826). -/
def execEgCmphCommit (ag : Agent) (n : Fin 96) (v : Word) (s : State) : Host.Outcome State Fault Refusal :=
  s.run fun c b => regStore c ag (R.EG_CMPH n.val) v.toNat b

/-- EG_START (R167). -/
def execEgStart (n : Fin 96) (s : State) : Host.Outcome State Fault Refusal :=
  s.run fun c b => egStart c n.val b

/-- EG_FOLLOWER_START (R169). -/
def execEgFollowerStart (n : Fin 96) (s : State) : Host.Outcome State Fault Refusal :=
  s.run fun c b => egFollowerStart c n.val b

/-- EG_STOP (R181). -/
def execEgStop (n : Fin 96) (s : State) : Host.Outcome State Fault Refusal :=
  s.run fun c b => egStop c n.val b

/-- EG_EN_CLEAR_WRITE (R181). -/
def execEgEnClearWrite (ag : Agent) (n : Fin 96) (v : Word) (s : State) : Host.Outcome State Fault Refusal :=
  s.run fun c b => regStore c ag (R.EG_CTL n.val) v.toNat b

/-- EG_LOAD (R179). -/
def execEgLoad (n : Fin 96) (s : State) : Host.Outcome State Fault Refusal :=
  s.run fun c b => egLoad c n.val b

/-- EG_CLEAR (R182). -/
def execEgClear (n : Fin 96) (s : State) : Host.Outcome State Fault Refusal :=
  s.run fun c b => egClear c n.val b

/-- EG_SHADOW_WRITE (R175). -/
def execEgShadowWrite (ag : Agent) (n : Fin 96) (k : Fin 7) (v : Word) (s : State) : Host.Outcome State Fault Refusal :=
  s.run fun c b => regStore c ag (shadowAddr n.val k.val) v.toNat b

/-- EG_HOLD_RELEASE (R178). -/
def execEgHoldRelease (ag : Agent) (n : Fin 96) (v : Word) (s : State) : Host.Outcome State Fault Refusal :=
  s.run fun c b => regStore c ag (R.EG_CTL n.val) v.toNat b

/-- EG_RUN_DONE (R165). -/
def execEgRunDone (n : Fin 96) (s : State) : Host.Outcome State Fault Refusal :=
  s.run fun c b => egRunDone c n.val b

/-- EG_SAFE_DEAD_TIME (R190). -/
def execEgSafeDeadTime (n : Fin 96) (out : Fin 2) (s : State) : Host.Outcome State Fault Refusal :=
  s.run fun c b => egSafeDeadTime c n.val out.val b

/-- EG_POST_FORCE_IDLE (R192). -/
def execEgPostForceIdle (n : Fin 96) (s : State) : Host.Outcome State Fault Refusal :=
  s.run fun c b => egPostForceIdle c n.val b

/-- TRIP_SOURCE_ASSERT (R193). -/
def execTripSourceAssert (x : TripLevel) (s : State) : Host.Outcome State Fault Refusal :=
  s.run fun c b => tripAssert c x.code.val x.high x.fine.val b

/-- TG_TRIP_SYNC (R196). -/
def execTgTripSync (g : Fin 32) (s : State) : Host.Outcome State Fault Refusal :=
  s.run fun c b => tgTripSync c g.val b

/-- TG_SOFTWARE_TRIP (R196). -/
def execTgSoftwareTrip (ag : Agent) (g : Fin 32) (v : Word) (s : State) : Host.Outcome State Fault Refusal :=
  s.run fun c b => regStore c ag (R.TG_CTL g.val) v.toNat b

/-- TG_TRIP_ACTION (R201). -/
def execTgTripAction (g : Fin 32) (s : State) : Host.Outcome State Fault Refusal :=
  s.run fun c b => tgTripAction c g.val b

/-- TG_RELEASE (R198). -/
def execTgRelease (ag : Agent) (g : Fin 32) (v : Word) (s : State) : Host.Outcome State Fault Refusal :=
  s.run fun c b => regStore c ag (R.TG_CTL g.val) v.toNat b

/-- TRIP_SOURCE_DEASSERT (R194). -/
def execTripSourceDeassert (x : TripLevel) (s : State) : Host.Outcome State Fault Refusal :=
  s.run fun c b => tripDeassert c x.code.val x.high b

end Sys2Proof.Machine
end

