-- ==== Sys2Proof/Machine/EngineCmds.lean ====
section
/-! DEFINITION. The commands of what engines, scrubbers and memories do of their own accord (spec/10, spec/12–14). -/

namespace Sys2Proof.Machine

/-- A match register of an engine fails its parity (R542). -/
def matchParityFail (hw : Hw) (e k : Nat) (b : Block) : Block :=
  when (e < nEngines hw) (fun b =>
    let s := b.engSt e
    (b.setEng e { s with badMatch := if s.badMatch.contains k then s.badMatch else s.badMatch ++ [k] }).put (F.UC_STAT_MPERR e) 1) b

/-- Flip bit m of a patch word of `width` bits whose first register is at a: a bit of its contents, or from `width` on a parity bit. -/
def flipPatch (a width : Nat) (b : Block) (m : Nat) : Block :=
  if m < width then b.wr (a + 4 * (m / 32)) (b.rd (a + 4 * (m / 32)) ^^^ 2 ^ (m % 32)) else b

/-- The parity group that bit m of a patch word of `width` bits belongs to: one for each 16 bits (R540). -/
def parityGroup (width m : Nat) : Option Nat :=
  if m < width then some (m / 16) else if m < width + (width + 15) / 16 then some (m - width) else none

/-- The failing groups of patch words, by word × 16 + group, after bits of word i have flipped: an odd number of flips fails a group, a
further one mends it (R540). -/
def parityAfter (width i : Nat) (flips l : List Nat) : List Nat :=
  (flips.filterMap (parityGroup width)).foldl (fun l g =>
    let k := 16 * i + g
    if l.contains k then l.filter (· != k) else l ++ [k]) l

/-- Bits of a stored granule flip, which is no write of it (R559, R568), or bits of a patch word, whose parity bit of the 16 bits they
lie in is not written with them (R540). -/
def bitError (hw : Hw) (at_ : BitErr) (flips : List Nat) (b : Block) : Block :=
  match at_ with
  | .granule g =>
    when (memSpace hw (g.toNat * 32)).isSome (fun b => (flips.filter fun m => m < 272).foldl (flipBit g.toNat) b) b
  | .micro e i =>
    when (e.val < nEngines hw) (fun b =>
      let width := if isKd2 hw then 112 else 18
      let b := flips.foldl (flipPatch (R.UC_ID e.val + 0x400 + (if isKd2 hw then 16 else 4) * i.val) width) b
      let s := b.engSt e.val
      b.setEng e.val { s with badMicro := parityAfter width i.val flips s.badMicro }) b
  | .nano e i =>
    when (e.val < nEngines hw && !isKd2 hw) (fun b =>
      let b := flips.foldl (flipPatch (R.UC_ID e.val + 0x800 + 32 * i.val) 144) b
      let s := b.engSt e.val
      b.setEng e.val { s with badNano := parityAfter 144 i.val flips s.badNano }) b

/-- FABRIC_LOAD_RESULT (R439). -/
def execFabricLoadResult (e : Fin 256) (idx : Nat) (err : Fin 3) (s : State) : Host.Outcome State Fault Refusal :=
  s.run fun c b => fabricLoadResult c e.val idx err.val b

/-- FABRIC_STORE_WRITTEN (R439). -/
def execFabricStoreWritten (e : Fin 256) (idx : Nat) (s : State) : Host.Outcome State Fault Refusal :=
  s.run fun c b => fabricStoreWritten c e.val idx b

/-- TASK_ACTIVATION (R503). -/
def execTaskActivation (e : Fin 256) (k : Fin 64) (s : State) : Host.Outcome State Fault Refusal :=
  s.run fun c b => taskActivation c e.val k.val b

/-- TASK_FIRST_ISSUE (R500). -/
def execTaskFirstIssue (e : Fin 256) (s : State) : Host.Outcome State Fault Refusal :=
  s.run fun c b => firstIssueNow c e.val b

/-- TACT_WRITE (R503). -/
def execTactWrite (e : Fin 256) (k : Fin 64) (s : State) : Host.Outcome State Fault Refusal :=
  s.run fun c b => tactWrite c e.val k.val b

/-- TIMEL_READ (R532). -/
def execTimelRead (e : Fin 256) (s : State) : Host.Outcome State Fault Refusal :=
  s.run fun c b => timelRead c e.val b

/-- DEADLINE_EXPIRY (R506). -/
def execDeadlineExpiry (e : Fin 256) (k : Fin 64) (s : State) : Host.Outcome State Fault Refusal :=
  s.run fun c b => deadlineExpiry c e.val k.val b

/-- SERR_RETURN (R436, R520). -/
def execSerrReturn (e : Fin 256) (k : Fin 64) (addr : Word) (second : Bool) (s : State) : Host.Outcome State Fault Refusal :=
  s.run fun c b => when (k.val < b.nt.getD 0 e.val) (storeError c e.val k.val addr.toNat second) b

/-- EXCEPTION_ENTRY (R521). -/
def execExceptionEntry (e : Fin 256) (s : State) : Host.Outcome State Fault Refusal :=
  s.run fun c b => exceptionEntry c e.val b

/-- TCMD_PARK (R496). -/
def execTcmdPark (e : Fin 256) (s : State) : Host.Outcome State Fault Refusal :=
  s.run fun c b => tcmd c e.val true b

/-- TCMD_RESTART (R496). -/
def execTcmdRestart (e : Fin 256) (s : State) : Host.Outcome State Fault Refusal :=
  s.run fun c b => tcmd c e.val false b

/-- MATCH_PARITY_FAIL (R542). -/
def execMatchParityFail (e : Fin 256) (k : Fin 16) (s : State) : Host.Outcome State Fault Refusal :=
  s.run fun c b => matchParityFail c.hw e.val k.val b

/-- SCRUB_READ (R567). -/
def execScrubRead (d : Fin 2) (s : State) : Host.Outcome State Fault Refusal :=
  s.run fun c b => scrubRead c d.val b

/-- SCRUB_WRITEBACK (R568). -/
def execScrubWriteback (d : Fin 2) (s : State) : Host.Outcome State Fault Refusal :=
  s.run fun c b => scrubWriteback c d.val b

/-- MEMORY_BIT_ERROR (R559). -/
def execMemoryBitError (at_ : BitErr) (flips : List Nat) (s : State) : Host.Outcome State Fault Refusal :=
  s.run fun c b => bitError c.hw at_ flips b

end Sys2Proof.Machine
end

