-- ==== Sys2Proof/Machine/EventCmds.lean ====
section
/-! DEFINITION. The commands of Hedgerow (spec/09). -/

namespace Sys2Proof.Machine

/-- EV_DELIVERY (R386). -/
def execEvDelivery (n : Fin 2048) (s : State) : Host.Outcome State Fault Refusal :=
  s.run fun c b => deliver c n.val b

/-- EV_SOFTWARE_RAISE (R383). -/
def execEvSoftwareRaise (ag : Agent) (n : Fin 2048) (v : Word) (s : State) : Host.Outcome State Fault Refusal :=
  s.run fun c b => regStore c ag (R.EV_SW n.val) v.toNat b

/-- EV_SRC_WRITE (R391). -/
def execEvSrcWrite (ag : Agent) (n : Fin 2048) (v : Word) (s : State) : Host.Outcome State Fault Refusal :=
  s.run fun c b => regStore c ag (R.EV_SRC n.val) v.toNat b

/-- EV_DST_WRITE (R392). -/
def execEvDstWrite (ag : Agent) (n : Fin 2048) (k : Fin 8) (v : Word) (s : State) : Host.Outcome State Fault Refusal :=
  s.run fun c b => regStore c ag (R.EV_DST n.val k.val) v.toNat b

end Sys2Proof.Machine
end

