-- ==== Sys2Proof/Machine/FeedbackCmds.lean ====
section
/-! DEFINITION. The commands of position feedback and emulation outputs (spec/07). -/

namespace Sys2Proof.Machine

/-- FB_QUAD_COUNT (R291): `x`, an edge of A where `onA`, of B otherwise; `y`, the other line's edge of the same fc. -/
def execFbQuadCount (n : Fin 24) (onA : Bool) (x : BallEdge) (y : Option BallEdge) (s : State) : Host.Outcome State Fault Refusal :=
  s.run fun c b => fbQuadCount c n.val (if onA then some x else y) (if onA then y else some x) b

/-- FB_HALL_CHANGE (R294). -/
def execFbHallChange (n : Fin 24) (xu : Option BallEdge) (vw : VWEdges) (s : State) : Host.Outcome State Fault Refusal :=
  s.run fun c b => fbHallChange c n.val xu vw.v vw.w b

/-- FB_INDEX (R300). -/
def execFbIndex (n : Fin 24) (x : BallEdge) (s : State) : Host.Outcome State Fault Refusal :=
  s.run fun c b => fbIndex c n.val x b

/-- FB_ARM (R301). -/
def execFbArm (n : Fin 24) (s : State) : Host.Outcome State Fault Refusal :=
  s.run fun c b => fbArm c n.val b

/-- FB_ARM_WRITE (R301). -/
def execFbArmWrite (ag : Agent) (n : Fin 24) (v : Word) (s : State) : Host.Outcome State Fault Refusal :=
  s.run fun c b => regStore c ag (R.FB_CTL n.val) v.toNat b

/-- FB_REQ (R302). -/
def execFbReq (n : Fin 24) (lb : Bool) (s : State) : Host.Outcome State Fault Refusal :=
  s.run fun c b => fbReq c n.val lb b

/-- FB_SWRQ (R302). -/
def execFbSwrq (ag : Agent) (n : Fin 24) (w : SwrqWord) (s : State) : Host.Outcome State Fault Refusal :=
  s.run fun c b => regStore c ag (R.FB_CTL n.val) w.v.toNat (fbSeeB c n.val w.lb b)

/-- FB_PERIODIC_REQUEST (R302). -/
def execFbPeriodicRequest (n : Fin 24) (lb : Bool) (s : State) : Host.Outcome State Fault Refusal :=
  s.run fun c b => fbPeriodic c n.val lb b

/-- FB_SSI_FRAME_END (R304): `bs`, the samples of B, the first in bit 0. -/
def execFbSsiFrameEnd (n : Fin 24) (bs : BitVec 35) (s : State) : Host.Outcome State Fault Refusal :=
  s.run fun c b => fbSsiEnd c n.val bs.toNat b

/-- FB_FRAME_END (R308). -/
def execFbFrameEnd (n : Fin 24) (s : State) : Host.Outcome State Fault Refusal :=
  s.run fun c b => fbFrameEnd c n.val b

/-- FB_RESPONSE_TIMEOUT (R308). -/
def execFbResponseTimeout (n : Fin 24) (s : State) : Host.Outcome State Fault Refusal :=
  s.run fun c b => fbRespTimeout c n.val b

/-- FB_GAP_TIMEOUT (R308). -/
def execFbGapTimeout (n : Fin 24) (s : State) : Host.Outcome State Fault Refusal :=
  s.run fun c b => fbGapTimeout c n.val b

/-- FB_GOOD_FRAME (R314). -/
def execFbGoodFrame (n : Fin 24) (s : State) : Host.Outcome State Fault Refusal :=
  s.run fun c b => fbGoodFrame c n.val b

/-- FB_BAD_FRAME (R311). -/
def execFbBadFrame (n : Fin 24) (s : State) : Host.Outcome State Fault Refusal :=
  s.run fun c b => fbBadFrame c n.val b

/-- FB_SPEED_DECAY (R319). -/
def execFbSpeedDecay (n : Fin 24) (s : State) : Host.Outcome State Fault Refusal :=
  s.run fun c b => fbDecay c n.val b

/-- FB_ZERO_SPEED (R320). -/
def execFbZeroSpeed (n : Fin 24) (s : State) : Host.Outcome State Fault Refusal :=
  s.run fun c b => fbZero c n.val b

/-- FB_WINDOW_SPEED (R321). -/
def execFbWindowSpeed (n : Fin 24) (s : State) : Host.Outcome State Fault Refusal :=
  s.run fun c b => fbWindow c n.val b

/-- FB_POS_WRITE (R324). -/
def execFbPosWrite (ag : Agent) (n : Fin 24) (v : Word) (s : State) : Host.Outcome State Fault Refusal :=
  s.run fun c b => regStore c ag (R.FB_POS n.val) v.toNat b

/-- FB_POS_READ (R326). -/
def execFbPosRead (ag : Agent) (n : Fin 24) (s : State) : Host.Outcome State Fault Refusal :=
  s.run fun c b => regLoad c ag (R.FB_POS n.val) b

/-- FB_LATCH (R325). -/
def execFbLatch (n : Fin 24) (s : State) : Host.Outcome State Fault Refusal :=
  s.run fun c b => fbLatch c n.val b

/-- FB_CMP_CROSSING (R327). -/
def execFbCmpCrossing (n : Fin 24) (k : Fin 8) (s : State) : Host.Outcome State Fault Refusal :=
  s.run fun c b => fbCross c n.val k.val b

/-- FB_CMP_LATE (R330). -/
def execFbCmpLate (n : Fin 24) (k : Fin 8) (s : State) : Host.Outcome State Fault Refusal :=
  s.run fun c b => fbLate c n.val k.val b

/-- FB_CMP_VAL_WRITE (R328). -/
def execFbCmpValWrite (ag : Agent) (n : Fin 24) (k : Fin 8) (v : Word) (s : State) : Host.Outcome State Fault Refusal :=
  s.run fun c b => regStore c ag (R.FB_CMP_VAL n.val k.val) v.toNat b

/-- FB_ENABLE (R340). -/
def execFbEnable (ag : Agent) (n : Fin 24) (v : Word) (s : State) : Host.Outcome State Fault Refusal :=
  s.run fun c b => regStore c ag (R.FB_CTL n.val) v.toNat b

/-- EMU_ENABLE (R337). -/
def execEmuEnable (ag : Agent) (m : Fin 8) (v : Word) (s : State) : Host.Outcome State Fault Refusal :=
  s.run fun c b => regStore c ag (R.EMU_CTL m.val) v.toNat b

/-- EMU_RESYNC (R333). -/
def execEmuResync (m : Fin 8) (s : State) : Host.Outcome State Fault Refusal :=
  s.run fun c b => emuResyncAction c m.val b

/-- EMU_RESYNC_WRITE (R333). -/
def execEmuResyncWrite (ag : Agent) (m : Fin 8) (v : Word) (s : State) : Host.Outcome State Fault Refusal :=
  s.run fun c b => regStore c ag (R.EMU_CTL m.val) v.toNat b

/-- EMU_EDGE (R334). -/
def execEmuEdge (m : Fin 8) (s : State) : Host.Outcome State Fault Refusal :=
  s.run fun c b => emuEdge c m.val b

/-- EMU_WPOS_WRITE (R333). -/
def execEmuWposWrite (ag : Agent) (m : Fin 8) (v : Word) (s : State) : Host.Outcome State Fault Refusal :=
  s.run fun c b => regStore c ag (R.EMU_WPOS m.val) v.toNat b

/-- FB_START_BIT (R308): the levels of B at the three samples of each data bit, of the parity bit where there is one, and of the stop
bit. -/
def execFbStartBit (n : Fin 24) (data : BitVec 24) (par stop : BitVec 3) (s : State) : Host.Outcome State Fault Refusal :=
  s.run fun c b => fbStartBit c n.val data.toNat par.toNat stop.toNat b

/-- FB_SSI_PAUSE_END (R304). -/
def execFbSsiPauseEnd (n : Fin 24) (s : State) : Host.Outcome State Fault Refusal :=
  s.run fun c b => fbPauseEnd c n.val b

end Sys2Proof.Machine
end

