-- ==== Sys2Proof/Machine/FireCmds.lean ====
section
/-! DEFINITION. The commands of fire generators and the fire assembler (spec/08). -/

namespace Sys2Proof.Machine

/-- FG_ARM (R344). -/
def execFgArm (n : Fin 16) (s : State) : Host.Outcome State Fault Refusal :=
  s.run fun c b => fgArm c n.val b

/-- FG_ARM_WRITE (R344). -/
def execFgArmWrite (ag : Agent) (n : Fin 16) (v : Word) (s : State) : Host.Outcome State Fault Refusal :=
  s.run fun c b => regStore c ag (R.FG_CTL n.val) v.toNat b

/-- FG_STOP (R344). -/
def execFgStop (n : Fin 16) (s : State) : Host.Outcome State Fault Refusal :=
  s.run fun c b => fgStop c n.val b

/-- FG_STOP_WRITE (R344). -/
def execFgStopWrite (ag : Agent) (n : Fin 16) (v : Word) (s : State) : Host.Outcome State Fault Refusal :=
  s.run fun c b => regStore c ag (R.FG_CTL n.val) v.toNat b

/-- FG_ENABLE (R345). -/
def execFgEnable (ag : Agent) (n : Fin 16) (v : Word) (s : State) : Host.Outcome State Fault Refusal :=
  s.run fun c b => regStore c ag (R.FG_CTL n.val) v.toNat b

/-- FG_ISSUE (R347). -/
def execFgIssue (n : Fin 16) (s : State) : Host.Outcome State Fault Refusal :=
  s.run fun c b => fgIssue c n.val b

/-- FG_SHOT (R350). -/
def execFgShot (n : Fin 16) (s : State) : Host.Outcome State Fault Refusal :=
  s.run fun c b => fgShot c n.val b

/-- FG_PASS_END (R353). -/
def execFgPassEnd (n : Fin 16) (s : State) : Host.Outcome State Fault Refusal :=
  s.run fun c b => fgPassEnd c n.val b

/-- FA_QUEUE_CELLS (R365). -/
def execFaQueueCells (s : State) : Host.Outcome State Fault Refusal :=
  s.run fun c b => faQueueCells c b

/-- FA_CELL_DEPART (R367). -/
def execFaCellDepart (n : Fin 8) (s : State) : Host.Outcome State Fault Refusal :=
  s.run fun c b => faCellDepart c n.val b

/-- FA_ADV (R360). -/
def execFaAdv (h : Fin 64) (s : State) : Host.Outcome State Fault Refusal :=
  s.run fun c b => faAdv c h.val b

/-- FA_WCOL_WRITE (R360). -/
def execFaWcolWrite (ag : Agent) (h : Fin 64) (v : Word) (s : State) : Host.Outcome State Fault Refusal :=
  s.run fun c b => regStore c ag (R.HC_WCOL h.val) v.toNat b

end Sys2Proof.Machine
end

