-- ==== Sys2Proof/Machine/FlashCmds.lean ====
section
/-! DEFINITION. The commands of in-package flash (spec/19). -/

namespace Sys2Proof.Machine

/-- FL_PROG (R672). -/
def execFlProg (ag : Agent) (s : State) : Host.Outcome State Fault Refusal :=
  s.run fun c b => regStore c ag R.FL_CMD 1 b

/-- FL_ERASE (R680). -/
def execFlErase (ag : Agent) (s : State) : Host.Outcome State Fault Refusal :=
  s.run fun c b => regStore c ag R.FL_CMD 2 b

/-- FL_BLANK (R672). -/
def execFlBlank (ag : Agent) (s : State) : Host.Outcome State Fault Refusal :=
  s.run fun c b => regStore c ag R.FL_CMD 3 b

/-- FL_SWAPBB (R685). -/
def execFlSwapbb (ag : Agent) (s : State) : Host.Outcome State Fault Refusal :=
  s.run fun c b => regStore c ag R.FL_CMD 4 b

/-- FL_SWAPIMG (R685). -/
def execFlSwapimg (ag : Agent) (s : State) : Host.Outcome State Fault Refusal :=
  s.run fun c b => regStore c ag R.FL_CMD 5 b

/-- FL_SELINIT (R686). -/
def execFlSelinit (ag : Agent) (s : State) : Host.Outcome State Fault Refusal :=
  s.run fun c b => regStore c ag R.FL_CMD 6 b

/-- FL_UNDEFINED_OP (R673). -/
def execFlUndefinedOp (ag : Agent) (op : BitVec 4) (s : State) : Host.Outcome State Fault Refusal :=
  s.run fun c b => regStore c ag R.FL_CMD op.toNat b

/-- FL_COMMAND_END (R677). -/
def execFlCommandEnd (npul : BitVec 8) (fail : Option Nat) (s : State) : Host.Outcome State Fault Refusal :=
  .next (afterRetry { s with now := flCommandEnd s.ctx npul.toNat fail s.now })

/-- FL_BROWNOUT_CUT (R678). -/
def execFlBrownoutCut (k : Fin 4) (npul : BitVec 8) (s : State) : Host.Outcome State Fault Refusal :=
  .next (afterRetry { s with now := flBrownoutCut s.ctx k.val npul.toNat s.now })

end Sys2Proof.Machine
end

