-- ==== Sys2Proof/Machine/HeadCmds.lean ====
section
/-! DEFINITION. The commands of head-drive lanes (spec/06). -/

namespace Sys2Proof.Machine

/-- The register that holds a part of lane n's waveforms (R265). -/
def waveAddr (n : Nat) : WavePart → Nat
  | .desc k => R.HL_WF n k.val
  | .dur k => R.HLPT_DUR n k.val
  | .lvl k => R.HLPT_LVL n k.val

/-- HL_HEDGEROW_START (R266). -/
def execHlHedgerowStart (n : Fin 16) (s : State) : Host.Outcome State Fault Refusal :=
  s.run fun c b => hlHedgerowStart c n.val b

/-- HL_FIRE_START (R266). -/
def execHlFireStart (n : Fin 16) (s : State) : Host.Outcome State Fault Refusal :=
  s.run fun c b => hlFireStart c n.val b

/-- HL_SOFTWARE_START (R266). -/
def execHlSoftwareStart (ag : Agent) (n : Fin 16) (v : Word) (s : State) : Host.Outcome State Fault Refusal :=
  s.run fun c b => regStore c ag (R.HL_CTL n.val) v.toNat b

/-- HL_WAVEFORM_START (R273). -/
def execHlWaveformStart (n : Fin 16) (s : State) : Host.Outcome State Fault Refusal :=
  s.run fun c b => hlWaveStart c n.val b

/-- HL_WAVEFORM_END (R273). -/
def execHlWaveformEnd (n : Fin 16) (s : State) : Host.Outcome State Fault Refusal :=
  s.run fun c b => hlWaveEnd c n.val b

/-- HL_ABORT (R274). -/
def execHlAbort (n : Fin 16) (s : State) : Host.Outcome State Fault Refusal :=
  s.run fun c b => hlAbort c n.val b

/-- HL_ABORT_WRITE (R274). -/
def execHlAbortWrite (ag : Agent) (n : Fin 16) (v : Word) (s : State) : Host.Outcome State Fault Refusal :=
  s.run fun c b => regStore c ag (R.HL_CTL n.val) v.toNat b

/-- HL_CONVERTER_RESULT (R261): the voltages of HLIS and HLVS at the sample. -/
def execHlConverterResult (n : Fin 16) (i v : Volts) (s : State) : Host.Outcome State Fault Refusal :=
  s.run fun c b => hlResult c n.val (hlCode i.v.toInt i.vref.toInt) (hlCode v.v.toInt v.vref.toInt) b

/-- HL_UPDATE (R276). -/
def execHlUpdate (n : Fin 16) (s : State) : Host.Outcome State Fault Refusal :=
  s.run fun c b => hlUpdate c n.val b

/-- HL_PERIOD_START (R275). -/
def execHlPeriodStart (n : Fin 16) (s : State) : Host.Outcome State Fault Refusal :=
  s.run fun c b => hlPeriod c n.val b

/-- HL_ENABLE (R279). -/
def execHlEnable (ag : Agent) (n : Fin 16) (v : Word) (s : State) : Host.Outcome State Fault Refusal :=
  s.run fun c b => regStore c ag (R.HL_CTL n.val) v.toNat b

/-- HL_WAVEFORM_WRITE (R265). -/
def execHlWaveformWrite (ag : Agent) (n : Fin 16) (part : WavePart) (v : Word) (s : State) : Host.Outcome State Fault Refusal :=
  s.run fun c b => regStore c ag (waveAddr n.val part) v.toNat b

end Sys2Proof.Machine
end

