-- ==== Sys2Proof/Machine/HostCmds.lean ====
section
/-! DEFINITION. The commands of the host port (spec/21). -/

namespace Sys2Proof.Machine

/-- HP_LINK_CHANGE (R713). -/
def execHpLinkChange (seven up : Bool) (s : State) : Host.Outcome State Fault Refusal :=
  s.run fun c b => hpLinkChange c seven up b

/-- HP_ARP_REQUEST (R714). -/
def execHpArpRequest (mac : BitVec 48) (ip target : Word) (s : State) : Host.Outcome State Fault Refusal :=
  s.run fun c b => hpArp c mac.toNat ip.toNat target.toNat b

/-- HP_ICMP_ECHO (R714). -/
def execHpIcmpEcho (mac : BitVec 48) (ip : Word) (data : List Nat) (s : State) : Host.Outcome State Fault Refusal :=
  s.run fun c b => hpEcho c mac.toNat ip.toNat data b

/-- HP_FRAME_DISCARD (R715). -/
def execHpFrameDiscard (why : Fin 4) (s : State) : Host.Outcome State Fault Refusal :=
  s.run fun c b => hpDiscard c why.val b

/-- KSP_HELLO (R718). -/
def execKspHello (h : KspHead) (s : State) : Host.Outcome State Fault Refusal :=
  s.run fun c b => request c (.hello h) b

/-- KSP_WRITE (R723). -/
def execKspWrite (h : KspHead) (job : BitVec 16) (off : BitVec 64) (len : Word) (data : List Nat) (s : State) : Host.Outcome State Fault Refusal :=
  s.run fun c b => kspWrite c h job.toNat off.toNat len.toNat data b

/-- KSP_WRITE_DONE (R725). -/
def execKspWriteDone (sess seq : Word) (s : State) : Host.Outcome State Fault Refusal :=
  s.run fun c b => kspWriteDone c sess.toNat seq.toNat b

/-- KSP_COMMIT (R726). -/
def execKspCommit (h : KspHead) (job : BitVec 16) (len : BitVec 64) (s : State) : Host.Outcome State Fault Refusal :=
  s.run fun c b => kspCommit c h job.toNat len.toNat b

/-- KSP_COMMIT_DONE (R726). -/
def execKspCommitDone (sess seq : Word) (s : State) : Host.Outcome State Fault Refusal :=
  s.run fun c b => kspCommitDone c sess.toNat seq.toNat b

/-- KSP_JOBCMD (R728). -/
def execKspJobcmd (h : KspHead) (data : List Nat) (s : State) : Host.Outcome State Fault Refusal :=
  s.run fun c b => kspJobcmd c h data b

/-- KSP_READSTAT (R717). -/
def execKspReadstat (h : KspHead) (job : BitVec 16) (s : State) : Host.Outcome State Fault Refusal :=
  s.run fun c b => request c (.readstat h job.toNat) b

/-- KSP_CFGWRITE_ERASE (R731). -/
def execKspCfgwriteErase (h : KspHead) (target : BitVec 8) (len off : Word) (s : State) : Host.Outcome State Fault Refusal :=
  s.run fun c b => request c (.erase h target.toNat len.toNat off.toNat) b

/-- KSP_CFGWRITE_PROGRAM (R731). -/
def execKspCfgwriteProgram (h : KspHead) (target : BitVec 8) (len off : Word) (data : List Nat) (s : State) : Host.Outcome State Fault Refusal :=
  s.run fun c b => request c (.program h target.toNat len.toNat off.toNat data) b

/-- KSP_CFGSWAP (R731). -/
def execKspCfgswap (h : KspHead) (target : BitVec 8) (s : State) : Host.Outcome State Fault Refusal :=
  s.run fun c b => request c (.swap h target.toNat) b

/-- KSP_ATTEST (R665). -/
def execKspAttest (h : KspHead) (nonce : List Nat) (s : State) : Host.Outcome State Fault Refusal :=
  s.run fun c b => request c (.attest h nonce) b

/-- KSP_RESET (R732). -/
def execKspReset (h : KspHead) (magic : Word) (s : State) : Host.Outcome State Fault Refusal :=
  s.run fun c b => request c (.reset h magic.toNat) b

/-- SESSION_TIMEOUT (R718). -/
def execSessionTimeout (num : Word) (s : State) : Host.Outcome State Fault Refusal :=
  s.run fun c b => sessionTimeout c num.toNat b

/-- MAILBOX_REPLY (R729). -/
def execMailboxReply (ag : Agent) (v : Word) (s : State) : Host.Outcome State Fault Refusal :=
  s.run fun c b => regStore c ag (R.HP_MBRC) v.toNat b

/-- MAILBOX_TIMEOUT (R730). -/
def execMailboxTimeout (s : State) : Host.Outcome State Fault Refusal :=
  s.run fun c b => mailTimeout c b

end Sys2Proof.Machine
end

