-- ==== Sys2Proof/Machine/InterruptCmds.lean ====
section
/-! DEFINITION. The commands of the interrupt controllers (spec/15). -/

namespace Sys2Proof.Machine

/-- IC_EDGE (R571). -/
def execIcEdge (d : Fin 2) (n : Fin 1024) (s : State) : Host.Outcome State Fault Refusal :=
  s.run fun c b => icEdgeArrives c d.val n.val b

/-- IC_SOFTWARE_EDGE (R572). -/
def execIcSoftwareEdge (ag : Agent) (d : Fin 2) (n : Fin 1024) (v : Word) (s : State) : Host.Outcome State Fault Refusal :=
  s.run fun c b => regStore c ag (R.IC_SRC_CMD d.val n.val) v.toNat b

/-- IC_BATCH_TIMER (R574). -/
def execIcBatchTimer (d : Fin 2) (n : Fin 1024) (s : State) : Host.Outcome State Fault Refusal :=
  s.run fun c b => icTimer c d.val n.val b

/-- IC_DELIVERY (R579). -/
def execIcDelivery (d : Fin 2) (set : Fin 64) (s : State) : Host.Outcome State Fault Refusal :=
  s.run fun c b => icDeliver c d.val set.val b

/-- IC_CLR (R576). -/
def execIcClr (ag : Agent) (d : Fin 2) (n : Fin 1024) (v : Word) (s : State) : Host.Outcome State Fault Refusal :=
  s.run fun c b => regStore c ag (R.IC_SRC_CMD d.val n.val) v.toNat b

/-- IC_GDIS_WRITE (R583). -/
def execIcGdisWrite (ag : Agent) (d : Fin 2) (v : Word) (s : State) : Host.Outcome State Fault Refusal :=
  s.run fun c b => regStore c ag (R.IC_CTL d.val) v.toNat b

/-- IC_TARGET_WRITE (R588). -/
def execIcTargetWrite (ag : Agent) (d : Fin 2) (set : Fin 64) (k : Fin 8) (v : Word) (s : State) : Host.Outcome State Fault Refusal :=
  s.run fun c b => regStore c ag (R.IC_SET_T d.val set.val k.val) v.toNat b

end Sys2Proof.Machine
end

