-- ==== Sys2Proof/Machine/LaneCmds.lean ====
section
/-! DEFINITION. The commands of loop lanes and law units (spec/02). -/

namespace Sys2Proof.Machine

/-- LANE_TRIGGER (R66). -/
def execLaneTrigger (n : Fin 96) (s : State) : Host.Outcome State Fault Refusal :=
  s.run fun c b => laneTrigger c n.val b

/-- LANE_HELD_RUN_START (R83). -/
def execLaneHeldRunStart (n : Fin 96) (s : State) : Host.Outcome State Fault Refusal :=
  s.run fun c b => laneHeldRun c n.val b

/-- LAW_OUTPUT_TRANSFER (R73). -/
def execLawOutputTransfer (n : Fin 96) (s : State) : Host.Outcome State Fault Refusal :=
  s.run fun c b => lawTransfer c n.val b

/-- LU_KSWAP (R86). -/
def execLuKswap (ag : Agent) (n : Fin 96) (v : Word) (s : State) : Host.Outcome State Fault Refusal :=
  s.run fun c b => regStore c ag (R.LL_CTL n.val) v.toNat b

/-- LL_CLRS (R85). -/
def execLlClrs (ag : Agent) (n : Fin 96) (v : Word) (s : State) : Host.Outcome State Fault Refusal :=
  s.run fun c b => regStore c ag (R.LL_CTL n.val) v.toNat b

/-- LU_STATE_WRITE (R85). -/
def execLuStateWrite (ag : Agent) (u : Fin 32) (k : Fin 8) (v : Word) (s : State) : Host.Outcome State Fault Refusal :=
  s.run fun c b => regStore c ag (R.LU_S u.val k.val) v.toNat b

/-- LU_DEFERRED_WRITE (R85). -/
def execLuDeferredWrite (n : Fin 96) (s : State) : Host.Outcome State Fault Refusal :=
  s.run fun c b => luDeferred c n.val b

/-- LANE_ENGINE_DELIVERY (R87). -/
def execLaneEngineDelivery (n : Fin 96) (s : State) : Host.Outcome State Fault Refusal :=
  s.run fun c b => laneEngineDelivery c n.val b

/-- LANE_COMMIT_ARRIVAL (R92). -/
def execLaneCommitArrival (n : Fin 96) (s : State) : Host.Outcome State Fault Refusal :=
  s.run fun c b => laneCommitArrive c n.val b

/-- LANE_ENGINE_DUTY_TRANSFER (R92). -/
def execLaneEngineDutyTransfer (n : Fin 96) (s : State) : Host.Outcome State Fault Refusal :=
  s.run fun c b => laneDutyTransfer c n.val b

end Sys2Proof.Machine
end

