-- ==== Sys2Proof/Machine/LinkCmds.lean ====
section
/-! DEFINITION. The commands of Golbex lanes (spec/20). -/

namespace Sys2Proof.Machine

/-- GL_ENABLE (R700). -/
def execGlEnable (ag : Agent) (n : Fin 8) (v : Word) (s : State) : Host.Outcome State Fault Refusal :=
  s.run fun c b => regStore c ag (R.GL_CTL n.val) v.toNat b

/-- GL_RESYNC (R700). -/
def execGlResync (ag : Agent) (n : Fin 8) (v : Word) (s : State) : Host.Outcome State Fault Refusal :=
  s.run fun c b => regStore c ag (R.GL_CTL n.val) v.toNat b

/-- GL_TRAIN_DONE (R700). -/
def execGlTrainDone (n : Fin 8) (s : State) : Host.Outcome State Fault Refusal :=
  s.run fun _ b => glTrainDone n.val b

/-- GL_CODEWORD_LOCK (R700). -/
def execGlCodewordLock (n : Fin 8) (s : State) : Host.Outcome State Fault Refusal :=
  s.run fun _ b => glCodewordLock n.val b

/-- GL_CELL_LOCK (R700). -/
def execGlCellLock (n : Fin 8) (s : State) : Host.Outcome State Fault Refusal :=
  s.run fun c b => glCellLock c n.val b

/-- GL_LOSS_OF_LOCK (R700). -/
def execGlLossOfLock (n : Fin 8) (s : State) : Host.Outcome State Fault Refusal :=
  s.run fun c b => glLossOfLock c n.val b

/-- GL_CELL_ACCEPT (R697). -/
def execGlCellAccept (n : Fin 8) (head : Word) (crc : BitVec 16) (payload : BitVec 256) (check : BitVec 16) (rs : Fin 4) (arrive : Nat) (s : State) : Host.Outcome State Fault Refusal :=
  s.run fun c b => glAccept c n.val head.toNat crc.toNat payload.toNat check.toNat rs.val arrive b

/-- GL_CELL_SLOT (R701). -/
def execGlCellSlot (n : Fin 8) (fine : Fin 64) (s : State) : Host.Outcome State Fault Refusal :=
  s.run fun c b => glSlot c n.val fine.val b

/-- GL_SYNC_DUE (R708). -/
def execGlSyncDue (n : Fin 8) (s : State) : Host.Outcome State Fault Refusal :=
  s.run fun c b => glSyncDue c n.val b

/-- GL_SYNC_TIMEOUT (R711). -/
def execGlSyncTimeout (n : Fin 8) (s : State) : Host.Outcome State Fault Refusal :=
  s.run fun c b => glSyncTimeout c n.val b

/-- GL_TX_COMMIT (R706). -/
def execGlTxCommit (ag : Agent) (n : Fin 8) (v : Word) (s : State) : Host.Outcome State Fault Refusal :=
  s.run fun c b => regStore c ag (R.GL_TXH n.val) v.toNat b

/-- GL_RXS_READ (R705). -/
def execGlRxsRead (ag : Agent) (n : Fin 8) (s : State) : Host.Outcome State Fault Refusal :=
  s.run fun c b => regLoad c ag (R.GL_RXS n.val) b

end Sys2Proof.Machine
end

