-- ==== Sys2Proof/Machine/MemoryCmds.lean ====
section
/-! DEFINITION. The commands of loads and stores (R459–R462). -/

namespace Sys2Proof.Machine

/-- LB (R459). -/
def execLb (e : Fin 256) (rd ra : Reg) (t : TagNo) (imm : BitVec 11) (s : State) : Host.Outcome State Fault Refusal :=
  s.run fun c b => loadOp c 1 true e.val rd.val ra.val t.val (imm11 imm.toNat) 4 b

/-- LBU (R459). -/
def execLbu (e : Fin 256) (rd ra : Reg) (t : TagNo) (imm : BitVec 11) (s : State) : Host.Outcome State Fault Refusal :=
  s.run fun c b => loadOp c 1 false e.val rd.val ra.val t.val (imm11 imm.toNat) 4 b

/-- LH (R459). -/
def execLh (e : Fin 256) (rd ra : Reg) (t : TagNo) (imm : BitVec 11) (s : State) : Host.Outcome State Fault Refusal :=
  s.run fun c b => loadOp c 2 true e.val rd.val ra.val t.val (imm11 imm.toNat) 4 b

/-- LHU (R459). -/
def execLhu (e : Fin 256) (rd ra : Reg) (t : TagNo) (imm : BitVec 11) (s : State) : Host.Outcome State Fault Refusal :=
  s.run fun c b => loadOp c 2 false e.val rd.val ra.val t.val (imm11 imm.toNat) 4 b

/-- LW (R459). -/
def execLw (e : Fin 256) (rd ra : Reg) (t : TagNo) (imm : BitVec 11) (s : State) : Host.Outcome State Fault Refusal :=
  s.run fun c b => loadOp c 4 false e.val rd.val ra.val t.val (imm11 imm.toNat) 4 b

/-- SB (R460). -/
def execSb (e : Fin 256) (rs ra : Reg) (t : TagNo) (imm : BitVec 11) (s : State) : Host.Outcome State Fault Refusal :=
  s.run fun c b => storeOp c 1 e.val rs.val ra.val t.val (imm11 imm.toNat) 4 b

/-- SH (R460). -/
def execSh (e : Fin 256) (rs ra : Reg) (t : TagNo) (imm : BitVec 11) (s : State) : Host.Outcome State Fault Refusal :=
  s.run fun c b => storeOp c 2 e.val rs.val ra.val t.val (imm11 imm.toNat) 4 b

/-- SW (R460). -/
def execSw (e : Fin 256) (rs ra : Reg) (t : TagNo) (imm : BitVec 11) (s : State) : Host.Outcome State Fault Refusal :=
  s.run fun c b => storeOp c 4 e.val rs.val ra.val t.val (imm11 imm.toNat) 4 b

end Sys2Proof.Machine
end

