-- ==== Sys2Proof/Machine/MicroCmds.lean ====
section
/-! DEFINITION. The commands of microcoded instructions (R479–R490). -/

namespace Sys2Proof.Machine

/-- CLARKE (R485). -/
def execClarke (e : Fin 256) (rd ra rb : Reg) (stop : Option Nat) (s : State) : Host.Outcome State Fault Refusal :=
  s.run fun c b => clarkeOp c e.val rd.val ra.val rb.val stop b

/-- PARK (R485). -/
def execPark (e : Fin 256) (rd ra rb : Reg) (stop : Option Nat) (s : State) : Host.Outcome State Fault Refusal :=
  s.run fun c b => parkOp c .park e.val rd.val ra.val rb.val stop parkD parkQ b

/-- IPARK (R485). -/
def execIpark (e : Fin 256) (rd ra rb : Reg) (stop : Option Nat) (s : State) : Host.Outcome State Fault Refusal :=
  s.run fun c b => parkOp c .ipark e.val rd.val ra.val rb.val stop iparkAlpha iparkBeta b

/-- SINCOS (R485). -/
def execSincos (e : Fin 256) (rd ra : Reg) (stop : Option Nat) (s : State) : Host.Outcome State Fault Refusal :=
  s.run fun c b => sincosOp c e.val rd.val ra.val stop b

/-- ATAN2 (R485). -/
def execAtan2 (e : Fin 256) (rd ra rb : Reg) (stop : Option Nat) (s : State) : Host.Outcome State Fault Refusal :=
  s.run fun c b => atan2Op c e.val rd.val ra.val rb.val stop b

/-- MTX3 (R485). -/
def execMtx3 (e : Fin 256) (rd ra rb : Reg) (stop : Option Nat) (s : State) : Host.Outcome State Fault Refusal :=
  s.run fun c b => mtx3Op c e.val rd.val ra.val rb.val stop b

/-- LDM (R486). -/
def execLdm (e : Fin 256) (ra rb : Reg) (stop : Option Nat) (s : State) : Host.Outcome State Fault Refusal :=
  s.run fun c b => ldmOp c e.val ra.val rb.val stop b

/-- STM (R486). -/
def execStm (e : Fin 256) (ra rb : Reg) (stop : Option Nat) (s : State) : Host.Outcome State Fault Refusal :=
  s.run fun c b => stmOp c e.val ra.val rb.val stop b

/-- SAVEG (R510). -/
def execSaveg (e : Fin 256) (ra rb : Reg) (stop : Option Nat) (s : State) : Host.Outcome State Fault Refusal :=
  s.run fun c b => groupOp c true e.val ra.val rb.val stop b

/-- LOADG (R511). -/
def execLoadg (e : Fin 256) (ra rb : Reg) (stop : Option Nat) (s : State) : Host.Outcome State Fault Refusal :=
  s.run fun c b => groupOp c false e.val ra.val rb.val stop b

/-- BCOPY (R487). -/
def execBcopy (e : Fin 256) (rd ra rb : Reg) (stop : Option Nat) (s : State) : Host.Outcome State Fault Refusal :=
  s.run fun c b => bcopyOp c e.val rd.val ra.val rb.val stop b

/-- VMAC (R488). -/
def execVmac (e : Fin 256) (rd ra rb : Reg) (t : TagNo) (stop : Option Nat) (s : State) : Host.Outcome State Fault Refusal :=
  s.run fun c b => vmacOp c e.val rd.val ra.val rb.val t.val stop b

/-- FIRQ (R489). -/
def execFirq (e : Fin 256) (rd ra rb : Reg) (t : TagNo) (stop : Option Nat) (s : State) : Host.Outcome State Fault Refusal :=
  s.run fun c b => firqOp c e.val rd.val ra.val rb.val t.val stop b

end Sys2Proof.Machine
end

