-- ==== Sys2Proof/Machine/MulCmds.lean ====
section
/-! DEFINITION. The commands of products, quotients, binary32, accumulators (R457, R472–R477). -/

namespace Sys2Proof.Machine

/-- MUL (R457). -/
def execMul (e : Fin 256) (rd ra rb : Reg) (s : State) : Host.Outcome State Fault Refusal :=
  s.run fun c b => mulOp c e.val rd.val ra.val rb.val 4 b

/-- MULH (R469). -/
def execMulh (e : Fin 256) (rd ra rb : Reg) (s : State) : Host.Outcome State Fault Refusal :=
  s.run fun c b => opRR c e.val rd.val ra.val rb.val 4 2 wholeTags (fun _ _ t x y => mulHigh t x y) b

/-- DIV (R472). -/
def execDiv (e : Fin 256) (rd ra rb : Reg) (stop : Option Nat) (s : State) : Host.Outcome State Fault Refusal :=
  s.run fun c b => divOp c .div e.val rd.val ra.val rb.val stop numTags quotient b

/-- REM (R472). -/
def execRem (e : Fin 256) (rd ra rb : Reg) (stop : Option Nat) (s : State) : Host.Outcome State Fault Refusal :=
  s.run fun c b => divOp c .rem e.val rd.val ra.val rb.val stop wholeTags remainder b

/-- SQRT (R473). -/
def execSqrt (e : Fin 256) (rd ra : Reg) (stop : Option Nat) (s : State) : Host.Outcome State Fault Refusal :=
  s.run fun c b => sqrtOp c e.val rd.val ra.val stop b

/-- FADD (R474). -/
def execFadd (e : Fin 256) (rd ra rb : Reg) (s : State) : Host.Outcome State Fault Refusal :=
  s.run fun c b => opFlt c e.val rd.val ra.val rb.val F32.add b

/-- FSUB (R474). -/
def execFsub (e : Fin 256) (rd ra rb : Reg) (s : State) : Host.Outcome State Fault Refusal :=
  s.run fun c b => opFlt c e.val rd.val ra.val rb.val F32.sub b

/-- FMUL (R474). -/
def execFmul (e : Fin 256) (rd ra rb : Reg) (s : State) : Host.Outcome State Fault Refusal :=
  s.run fun c b => opFlt c e.val rd.val ra.val rb.val F32.mul b

/-- FMIN (R474). -/
def execFmin (e : Fin 256) (rd ra rb : Reg) (s : State) : Host.Outcome State Fault Refusal :=
  s.run fun c b => opRR c e.val rd.val ra.val rb.val 4 1 fltTags (fun _ _ t x y => word (F32.min x y) t) b

/-- FMAX (R474). -/
def execFmax (e : Fin 256) (rd ra rb : Reg) (s : State) : Host.Outcome State Fault Refusal :=
  s.run fun c b => opRR c e.val rd.val ra.val rb.val 4 1 fltTags (fun _ _ t x y => word (F32.max x y) t) b

/-- FNEG (R474). -/
def execFneg (e : Fin 256) (rd ra : Reg) (s : State) : Host.Outcome State Fault Refusal :=
  s.run fun c b => opR c e.val rd.val ra.val 4 none (among [Tag.flt]) (fun _ t x => word (F32.neg x) t) b

/-- FABS (R474). -/
def execFabs (e : Fin 256) (rd ra : Reg) (s : State) : Host.Outcome State Fault Refusal :=
  s.run fun c b => opR c e.val rd.val ra.val 4 none (among [Tag.flt]) (fun _ t x => word (F32.abs x) t) b

/-- MAC (R476). -/
def execMac (e : Fin 256) (acc : AccNo) (ra rb : Reg) (s : State) : Host.Outcome State Fault Refusal :=
  s.run fun c b => macOp c .add e.val acc.val ra.val rb.val 4 b

/-- MSU (R476). -/
def execMsu (e : Fin 256) (acc : AccNo) (ra rb : Reg) (s : State) : Host.Outcome State Fault Refusal :=
  s.run fun c b => macOp c .sub e.val acc.val ra.val rb.val 4 b

/-- MACZ (R476). -/
def execMacz (e : Fin 256) (acc : AccNo) (ra rb : Reg) (s : State) : Host.Outcome State Fault Refusal :=
  s.run fun c b => macOp c .set e.val acc.val ra.val rb.val 4 b

/-- RDA (R477). -/
def execRda (e : Fin 256) (rd : Reg) (acc : AccNo) (t : TagNo) (s : State) : Host.Outcome State Fault Refusal :=
  s.run fun c b => rdaOp c e.val rd.val acc.val t.val b

/-- CLRA (R469). -/
def execClra (e : Fin 256) (acc : AccNo) (s : State) : Host.Outcome State Fault Refusal :=
  s.run fun c b => clraOp c e.val acc.val b

end Sys2Proof.Machine
end

