-- ==== Sys2Proof/Machine/PowerCmds.lean ====
section
/-! DEFINITION. The commands of power, clocks, supervision, boundary scan (spec/23, spec/24). -/

namespace Sys2Proof.Machine

/-- PLL_LOCK (R769). -/
def execPllLock (k : Fin 7) (s : State) : Host.Outcome State Fault Refusal :=
  s.run fun c b => pllLock c k.val b

/-- REFCLK_LOSS (R771). -/
def execRefclkLoss (s : State) : Host.Outcome State Fault Refusal :=
  s.runAll s.now.pllF refclkLoss

/-- LANE_PLL_UNLOCK (R771). -/
def execLanePllUnlock (k : Fin 7) (s : State) : Host.Outcome State Fault Refusal :=
  s.run fun c b => pllUnlock c k.val b

/-- LCLK_QUALIFY (R772). -/
def execLclkQualify (ok : Bool) (s : State) : Host.Outcome State Fault Refusal :=
  s.run fun _ b => lclkQualify ok b

/-- CRYSTAL_LOSS (R773). -/
def execCrystalLoss (s : State) : Host.Outcome State Fault Refusal :=
  s.run fun c b => crystalLoss c b

/-- DOZE_ENTRY (R777). -/
def execDozeEntry (r : Fin 8) (s : State) : Host.Outcome State Fault Refusal :=
  s.run fun c b => dozeEntry c r.val b

/-- DOZE_WAKE (R779). -/
def execDozeWake (r : Fin 8) (s : State) : Host.Outcome State Fault Refusal :=
  s.run fun c b => dozeWake c r.val b

/-- REGION_AWAKE (R779). -/
def execRegionAwake (r : Fin 8) (s : State) : Host.Outcome State Fault Refusal :=
  s.run fun c b => regionAwake c r.val b

/-- SLEEP_REQUEST (R782). -/
def execSleepRequest (ag : Agent) (v : Word) (s : State) : Host.Outcome State Fault Refusal :=
  s.run fun c b => regStore c ag R.PW_CTL v.toNat b

/-- WAKE_EVENT (R785). -/
def execWakeEvent (k : Fin 5) (s : State) : Host.Outcome State Fault Refusal :=
  s.runAll (s.now.wakeEvent k.val) (wakeUp k.val)

/-- WATCHDOG_KICK (R786). -/
def execWatchdogKick (ag : Agent) (v : Word) (s : State) : Host.Outcome State Fault Refusal :=
  s.run fun c b => regStore c ag (R.PW_WDT_KICK) v.toNat b

/-- WATCHDOG_HALF (R788). -/
def execWatchdogHalf (s : State) : Host.Outcome State Fault Refusal :=
  s.run fun c b => wdtHalf c b

/-- WATCHDOG_EXPIRY (R787). -/
def execWatchdogExpiry (s : State) : Host.Outcome State Fault Refusal :=
  s.run fun _ b => wdtExpiry b

/-- BROWNOUT_WARN (R790). -/
def execBrownoutWarn (rail : Fin 10) (s : State) : Host.Outcome State Fault Refusal :=
  s.run fun c b => brownoutWarn c rail.val b

/-- THERMAL_CONVERSION (R791). -/
def execThermalConversion (k : Fin 16) (v : BitVec 16) (s : State) : Host.Outcome State Fault Refusal :=
  s.run fun c b => thermal c k.val v.toNat b

/-- TAP_RESET (R817). -/
def execTapReset (s : State) : Host.Outcome State Fault Refusal :=
  s.run fun _ b => tapReset b

/-- TAP_BYPASS (R818). -/
def execTapBypass (s : State) : Host.Outcome State Fault Refusal :=
  s.run fun _ b => tapBypass b

/-- TAP_IDCODE (R818). -/
def execTapIdcode (s : State) : Host.Outcome State Fault Refusal :=
  s.run fun c b => tapIdcode c b

/-- TAP_SAMPLE_PRELOAD (R818). -/
def execTapSamplePreload (cells : List (Nat × Nat)) (s : State) : Host.Outcome State Fault Refusal :=
  s.run fun _ b => tapSample cells b

/-- TAP_EXTEST (R818). -/
def execTapExtest (s : State) : Host.Outcome State Fault Refusal :=
  s.run fun _ b => tapDrive 3 b

/-- TAP_CLAMP (R818). -/
def execTapClamp (s : State) : Host.Outcome State Fault Refusal :=
  s.run fun _ b => tapDrive 4 b

/-- TAP_HIGHZ (R818). -/
def execTapHighz (s : State) : Host.Outcome State Fault Refusal :=
  s.run fun _ b => tapDrive 5 b

end Sys2Proof.Machine
end

