-- ==== Sys2Proof/Machine/RegisterCmds.lean ====
section
/-! DEFINITION. The commands of register accesses that have no row of their own, and reads that take a snapshot (spec/01, R11–R17, R40, R105). -/

namespace Sys2Proof.Machine

/-- REGISTER_WRITE (R11). -/
def execRegisterWrite (ag : Agent) (a v : Word) (s : State) : Host.Outcome State Fault Refusal :=
  s.run fun c b => regStore c ag (a.toNat) v.toNat b

/-- ABSENT_READ (R40). -/
def execAbsentRead (ag : Agent) (a : Word) (s : State) : Host.Outcome State Fault Refusal :=
  s.run fun c b => regLoad c ag (a.toNat) b

/-- RC_READ (R13). -/
def execRcRead (ag : Agent) (a : Word) (s : State) : Host.Outcome State Fault Refusal :=
  s.run fun c b => regLoad c ag (a.toNat) b

/-- TB_LO_READ (R105). -/
def execTbLoRead (ag : Agent) (s : State) : Host.Outcome State Fault Refusal :=
  s.run fun c b => regLoad c ag (R.TB_LO) b

/-- LCLK_EDGE (R110). -/
def execLclkEdge (w : Fin 16) (s : State) : Host.Outcome State Fault Refusal :=
  s.run fun c b => lclkEdge c w.val b

/-- TB_LCT_LO_READ (R111). -/
def execTbLctLoRead (ag : Agent) (s : State) : Host.Outcome State Fault Refusal :=
  s.run fun c b => regLoad c ag (R.TB_LCT_LO) b

/-- PW_LTBL_READ (R775). -/
def execPwLtblRead (ag : Agent) (s : State) : Host.Outcome State Fault Refusal :=
  s.run fun c b => regLoad c ag (R.PW_LTBL) b

/-- LU_ALO_READ (R16). -/
def execLuAloRead (ag : Agent) (n : Fin 32) (s : State) : Host.Outcome State Fault Refusal :=
  s.run fun c b => regLoad c ag (R.LU_ALO n.val) b

/-- FG_LSTL_READ (R16). -/
def execFgLstlRead (ag : Agent) (n : Fin 16) (s : State) : Host.Outcome State Fault Refusal :=
  s.run fun c b => regLoad c ag (R.FG_LSTL n.val) b

/-- BOOT_SERL_READ (R16). -/
def execBootSerlRead (ag : Agent) (s : State) : Host.Outcome State Fault Refusal :=
  s.run fun c b => regLoad c ag (R.BOOT_SERL) b

/-- BOOT_TSTL_READ (R16). -/
def execBootTstlRead (ag : Agent) (s : State) : Host.Outcome State Fault Refusal :=
  s.run fun c b => regLoad c ag (R.BOOT_TSTL) b

/-- SP_JOB_LENL_READ (R16). -/
def execSpJobLenlRead (ag : Agent) (j : Fin 256) (s : State) : Host.Outcome State Fault Refusal :=
  s.run fun c b => regLoad c ag (R.JOB_LENL j.val) b

/-- GL_OFSL_READ (R710). -/
def execGlOfslRead (ag : Agent) (n : Fin 8) (s : State) : Host.Outcome State Fault Refusal :=
  s.run fun c b => regLoad c ag (R.GL_OFSL n.val) b

end Sys2Proof.Machine
end

