-- ==== Sys2Proof/Machine/ShortCmds.lean ====
section
/-! DEFINITION. The commands of short-form instructions (R465–R469). -/

namespace Sys2Proof.Machine

/-- MOV_S (R469). -/
def execMovS (e : Fin 256) (rd ra : Reg) (s : State) : Host.Outcome State Fault Refusal :=
  s.run fun c b => moveOp c e.val rd.val ra.val 2 id b

/-- ADD_S (R469). -/
def execAddS (e : Fin 256) (rd ra rb : ShortReg) (s : State) : Host.Outcome State Fault Refusal :=
  s.run fun c b => addSub c false e.val (short rd.val) (short ra.val) (short rb.val) 2 b

/-- SUB_S (R469). -/
def execSubS (e : Fin 256) (rd ra rb : ShortReg) (s : State) : Host.Outcome State Fault Refusal :=
  s.run fun c b => addSub c true e.val (short rd.val) (short ra.val) (short rb.val) 2 b

/-- AND_S (R469). -/
def execAndS (e : Fin 256) (rd ra rb : ShortReg) (s : State) : Host.Outcome State Fault Refusal :=
  s.run fun c b => logicOp c .and e.val (short rd.val) (short ra.val) (short rb.val) 2 b

/-- OR_S (R469). -/
def execOrS (e : Fin 256) (rd ra rb : ShortReg) (s : State) : Host.Outcome State Fault Refusal :=
  s.run fun c b => logicOp c .or e.val (short rd.val) (short ra.val) (short rb.val) 2 b

/-- ADDI_S (R456). -/
def execAddiS (e : Fin 256) (rd : ShortReg) (imm : BitVec 8) (s : State) : Host.Outcome State Fault Refusal :=
  s.run fun c b => addImm c e.val (short rd.val) (short rd.val) 2 (imm8 imm.toNat) b

/-- LIS (R469). -/
def execLis (e : Fin 256) (rd : ShortReg) (imm : BitVec 8) (s : State) : Host.Outcome State Fault Refusal :=
  s.run fun c b => constOp c e.val (short rd.val) 2 (ofSigned 32 (imm8 imm.toNat)) Tag.int b

/-- LW_S (R469). -/
def execLwS (e : Fin 256) (rd ra : ShortReg) (u : Fin 32) (s : State) : Host.Outcome State Fault Refusal :=
  s.run fun c b => loadOp c 4 false e.val (short rd.val) (short ra.val) Tag.raw ((4 * (u.val % 32) : Nat) : Int) 2 b

/-- SW_S (R469). -/
def execSwS (e : Fin 256) (rs ra : ShortReg) (u : Fin 32) (s : State) : Host.Outcome State Fault Refusal :=
  s.run fun c b => storeOp c 4 e.val (short rs.val) (short ra.val) 0 ((4 * (u.val % 32) : Nat) : Int) 2 b

/-- CBZ (R469). -/
def execCbz (e : Fin 256) (ra : ShortReg) (ofs : BitVec 8) (s : State) : Host.Outcome State Fault Refusal :=
  s.run fun c b => zeroBranch c false e.val (short ra.val) ofs.toNat b

/-- CBNZ (R469). -/
def execCbnz (e : Fin 256) (ra : ShortReg) (ofs : BitVec 8) (s : State) : Host.Outcome State Fault Refusal :=
  s.run fun c b => zeroBranch c true e.val (short ra.val) ofs.toNat b

/-- SHI_S (R469). -/
def execShiS (e : Fin 256) (rd : ShortReg) (kind : Fin 4) (imm : Fin 32) (s : State) : Host.Outcome State Fault Refusal :=
  s.run fun c b => shiftImm c (kind.val % 4) (imm.val % 32) e.val (short rd.val) (short rd.val) 2 none b

/-- B_S (R466). -/
def execBS (e : Fin 256) (ofs : BitVec 11) (s : State) : Host.Outcome State Fault Refusal :=
  s.run fun c b => jumpDirect c e.val 2 none (toSigned 11 ofs.toNat) b

/-- MAC_S (R476). -/
def execMacS (e : Fin 256) (acc : AccNo) (ra rb : ShortReg) (s : State) : Host.Outcome State Fault Refusal :=
  s.run fun c b => macOp c .add e.val acc.val (short ra.val) (short rb.val) 2 b

/-- MSU_S (R476). -/
def execMsuS (e : Fin 256) (acc : AccNo) (ra rb : ShortReg) (s : State) : Host.Outcome State Fault Refusal :=
  s.run fun c b => macOp c .sub e.val acc.val (short ra.val) (short rb.val) 2 b

/-- MUL_S (R469). -/
def execMulS (e : Fin 256) (rd ra rb : ShortReg) (s : State) : Host.Outcome State Fault Refusal :=
  s.run fun c b => mulOp c e.val (short rd.val) (short ra.val) (short rb.val) 2 b

/-- XOR_S (R469). -/
def execXorS (e : Fin 256) (rd ra rb : ShortReg) (s : State) : Host.Outcome State Fault Refusal :=
  s.run fun c b => logicOp c .xor e.val (short rd.val) (short ra.val) (short rb.val) 2 b

/-- MIN_S (R469). -/
def execMinS (e : Fin 256) (rd ra rb : ShortReg) (s : State) : Host.Outcome State Fault Refusal :=
  s.run fun c b => minMaxOp c false e.val (short rd.val) (short ra.val) (short rb.val) 2 b

/-- MAX_S (R469). -/
def execMaxS (e : Fin 256) (rd ra rb : ShortReg) (s : State) : Host.Outcome State Fault Refusal :=
  s.run fun c b => minMaxOp c true e.val (short rd.val) (short ra.val) (short rb.val) 2 b

/-- JR_S (R469). -/
def execJrS (e : Fin 256) (ra : Reg) (s : State) : Host.Outcome State Fault Refusal :=
  s.run fun c b => jumpRegister c e.val 2 none ra.val b

/-- NOP_S (R469). -/
def execNopS (e : Fin 256) (s : State) : Host.Outcome State Fault Refusal :=
  s.run fun c b => nopOp c e.val 2 b

/-- WAIT_S (R469). -/
def execWaitS (e : Fin 256) (s : State) : Host.Outcome State Fault Refusal :=
  s.run fun c b => waitOp c e.val 2 b

/-- DRAIN_S (R469). -/
def execDrainS (e : Fin 256) (s : State) : Host.Outcome State Fault Refusal :=
  s.run fun c b => drainOp c e.val 2 b

/-- BRK_S (R469). -/
def execBrkS (e : Fin 256) (s : State) : Host.Outcome State Fault Refusal :=
  s.run fun c b => raiseOp c e.val 2 excBrk 0 b

/-- ERET_S (R469). -/
def execEretS (e : Fin 256) (s : State) : Host.Outcome State Fault Refusal :=
  s.run fun c b => eretOp c e.val 2 b

/-- RDL_S (R469). -/
def execRdlS (e : Fin 256) (rd : Reg) (k : LaneReg) (s : State) : Host.Outcome State Fault Refusal :=
  s.run fun c b => rdlOp c e.val rd.val k.val 2 b

/-- WRL_S (R469). -/
def execWrlS (e : Fin 256) (k : LaneReg) (ra : Reg) (s : State) : Host.Outcome State Fault Refusal :=
  s.run fun c b => wrlOp c e.val k.val ra.val 2 b

/-- SOP_RESERVED (R465). -/
def execSopReserved (e : Fin 256) (long : Bool) (s : State) : Host.Outcome State Fault Refusal :=
  s.run fun c b => undefinedOp c e.val (if long then 4 else 2) b

end Sys2Proof.Machine
end

