-- ==== Sys2Proof/Machine/SpareCmds.lean ====
section
/-! DEFINITION. The commands of spares and the redundant pair (spec/22). -/

namespace Sys2Proof.Machine

/-- HEARTBEAT_STORE (R742). -/
def execHeartbeatStore (ag : Agent) (cl : Fin 32) (k : Fin 8) (v : Word) (s : State) : Host.Outcome State Fault Refusal :=
  s.run fun c b => regStore c ag (R.CL_HB cl.val k.val) v.toNat b

/-- ENGINE_DECLARED_DEAD (R743). -/
def execEngineDeclaredDead (cl : Fin 32) (k : Fin 8) (s : State) : Host.Outcome State Fault Refusal :=
  s.run fun c b => declareDead c cl.val k.val b

/-- SPARE_TASKS_BEGIN (R750). -/
def execSpareTasksBegin (cl : Fin 32) (s : State) : Host.Outcome State Fault Refusal :=
  s.run fun c b => spareBegin c cl.val b

/-- ISOLATION_RESET (R753). -/
def execIsolationReset (e : Fin 256) (s : State) : Host.Outcome State Fault Refusal :=
  s.run fun c b => isoReset c e.val b

/-- CHECKPOINT_SNAPSHOT (R747). -/
def execCheckpointSnapshot (e : Fin 256) (k : Fin 64) (s : State) : Host.Outcome State Fault Refusal :=
  s.run fun c b => ckSnapshot c e.val k.val b

/-- CHECKPOINT_RECORD_WRITE (R749). -/
def execCheckpointRecordWrite (cl : Fin 32) (s : State) : Host.Outcome State Fault Refusal :=
  s.run fun c b => ckRecordWrite c cl.val b

/-- SPORELINE_LANE_STATE (R762). -/
def execSporelineLaneState (n : Fin 96) (s : State) : Host.Outcome State Fault Refusal :=
  s.run fun c b => sporeLane c n.val b

/-- PAIR_HEARTBEAT_DUE (R758). -/
def execPairHeartbeatDue (s : State) : Host.Outcome State Fault Refusal :=
  s.run fun c b => heartbeatDue c b

/-- EPOCH_CELL_DUE (R758). -/
def execEpochCellDue (s : State) : Host.Outcome State Fault Refusal :=
  s.run fun c b => epochDue c b

/-- PARTNER_DEAD (R759). -/
def execPartnerDead (s : State) : Host.Outcome State Fault Refusal :=
  s.run fun c b => partnerDead c b

/-- PERMIT_GAINED (R765). -/
def execPermitGained (s : State) : Host.Outcome State Fault Refusal :=
  s.run fun c b => permitGained c b

/-- PERMIT_IN_RISE (R766). -/
def execPermitInRise (s : State) : Host.Outcome State Fault Refusal :=
  s.run fun c b => permitInRise c b

/-- TAKING_WITHDRAW (R767). -/
def execTakingWithdraw (s : State) : Host.Outcome State Fault Refusal :=
  s.run fun c b => takingWithdraw c b

/-- PV_TRST (R761). -/
def execPvTrst (ag : Agent) (v : Word) (s : State) : Host.Outcome State Fault Refusal :=
  s.run fun c b => regStore c ag (R.PV_CTL) v.toNat b

/-- PV_RESEND (R763). -/
def execPvResend (ag : Agent) (v : Word) (s : State) : Host.Outcome State Fault Refusal :=
  s.run fun c b => regStore c ag (R.PV_CTL) v.toNat b

/-- TAKEOVER_ENGINES_ISSUE (R765). -/
def execTakeoverEnginesIssue (s : State) : Host.Outcome State Fault Refusal :=
  s.run fun c b => takeoverIssue c b

end Sys2Proof.Machine
end

