-- ==== Sys2Proof/Machine/SpoolCmds.lean ====
section
/-! DEFINITION. The commands of the NVMe spool (spec/21). -/

namespace Sys2Proof.Machine

/-- SP_DRIVE_LINK_UP (R733). -/
def execSpDriveLinkUp (n : Fin 2) (gen width : Fin 8) (s : State) : Host.Outcome State Fault Refusal :=
  s.run fun c b => driveLinkUp c n.val gen.val width.val b

/-- SP_DRIVE_READY (R733). -/
def execSpDriveReady (n : Fin 2) (ok : Bool) (cap : Word) (lba4k : Bool) (s : State) : Host.Outcome State Fault Refusal :=
  s.run fun c b => driveReady c n.val ok cap.toNat lba4k b

/-- SP_REINIT (R733). -/
def execSpReinit (ag : Agent) (n : Fin 2) (v : Word) (s : State) : Host.Outcome State Fault Refusal :=
  s.run fun c b => regStore c ag (R.PE_CTL n.val) v.toNat b

/-- NVME_COMPLETION (R735). -/
def execNvmeCompletion (id : Nat) (ok : Bool) (s : State) : Host.Outcome State Fault Refusal :=
  s.run fun c b => nvComplete c id ok b

/-- NVME_TIMEOUT (R735). -/
def execNvmeTimeout (id : Nat) (s : State) : Host.Outcome State Fault Refusal :=
  s.run fun c b => nvTimeout c id b

/-- SP_HEALTH_POLL (R741). -/
def execSpHealthPoll (n : Fin 2) (cw pused : BitVec 8) (temp : BitVec 16) (s : State) : Host.Outcome State Fault Refusal :=
  s.run fun c b => healthPoll c n.val cw.toNat pused.toNat temp.toNat b

/-- SP_BLOCK_ARRIVAL (R738). -/
def execSpBlockArrival (ch : Fin 64) (blk data : Nat) (s : State) : Host.Outcome State Fault Refusal :=
  s.run fun c b => blockArrival c ch.val blk data b

/-- SP_JOB_STATE_WRITE (R737). -/
def execSpJobStateWrite (ag : Agent) (j : Fin 256) (v : Word) (s : State) : Host.Outcome State Fault Refusal :=
  s.run fun c b => regStore c ag (R.JOB_CTL j.val) v.toNat b

/-- PCIE_LINK_DOWN (R733). -/
def execPcieLinkDown (n : Fin 2) (s : State) : Host.Outcome State Fault Refusal :=
  s.run fun c b => driveLinkDown c n.val b

end Sys2Proof.Machine
end

