-- ==== Sys2Proof/Machine/SystemCmds.lean ====
section
/-! DEFINITION. The commands of lane registers, CSRs, system instructions, cache maintenance. -/

namespace Sys2Proof.Machine

/-- RDL (R89). -/
def execRdl (e : Fin 256) (rd : Reg) (k : LaneReg) (s : State) : Host.Outcome State Fault Refusal :=
  s.run fun c b => rdlOp c e.val rd.val k.val 4 b

/-- WRL (R91). -/
def execWrl (e : Fin 256) (k : LaneReg) (ra : Reg) (s : State) : Host.Outcome State Fault Refusal :=
  s.run fun c b => wrlOp c e.val k.val ra.val 4 b

/-- CSRR (R531). -/
def execCsrr (e : Fin 256) (rd : Reg) (csr : BitVec 11) (s : State) : Host.Outcome State Fault Refusal :=
  s.run fun c b => csrOp c .read e.val rd.val 0 csr.toNat b

/-- CSRW (R531). -/
def execCsrw (e : Fin 256) (csr : BitVec 11) (ra : Reg) (s : State) : Host.Outcome State Fault Refusal :=
  s.run fun c b => csrOp c .write e.val 0 ra.val csr.toNat b

/-- CSRS (R531). -/
def execCsrs (e : Fin 256) (rd ra : Reg) (csr : BitVec 11) (s : State) : Host.Outcome State Fault Refusal :=
  s.run fun c b => csrOp c .set e.val rd.val ra.val csr.toNat b

/-- CSRC (R531). -/
def execCsrc (e : Fin 256) (rd ra : Reg) (csr : BitVec 11) (s : State) : Host.Outcome State Fault Refusal :=
  s.run fun c b => csrOp c .clear e.val rd.val ra.val csr.toNat b

/-- NOP (R469). -/
def execNop (e : Fin 256) (s : State) : Host.Outcome State Fault Refusal :=
  s.run fun c b => nopOp c e.val 4 b

/-- WAIT (R824). -/
def execWait (e : Fin 256) (s : State) : Host.Outcome State Fault Refusal :=
  s.run fun c b => waitOp c e.val 4 b

/-- DRAIN (R442). -/
def execDrain (e : Fin 256) (s : State) : Host.Outcome State Fault Refusal :=
  s.run fun c b => drainOp c e.val 4 b

/-- ERET (R523). -/
def execEret (e : Fin 256) (s : State) : Host.Outcome State Fault Refusal :=
  s.run fun c b => eretOp c e.val 4 b

/-- BRK (R520). -/
def execBrk (e : Fin 256) (s : State) : Host.Outcome State Fault Refusal :=
  s.run fun c b => raiseOp c e.val 4 excBrk 0 b

/-- SYS (R520). -/
def execSys (e : Fin 256) (code : BitVec 9) (s : State) : Host.Outcome State Fault Refusal :=
  s.run fun c b => raiseOp c e.val 4 excSys (code.toNat % 512) b

/-- DINV (R427). -/
def execDinv (e : Fin 256) (ra : Reg) (s : State) : Host.Outcome State Fault Refusal :=
  s.run fun c b => dinvOp c e.val ra.val b

/-- DINVA (R427). -/
def execDinva (e : Fin 256) (s : State) : Host.Outcome State Fault Refusal :=
  s.run fun c b => invAllOp c true e.val b

/-- IINV (R427). -/
def execIinv (e : Fin 256) (ra : Reg) (s : State) : Host.Outcome State Fault Refusal :=
  s.run fun c b => iinvOp c e.val ra.val b

/-- IINVA (R427). -/
def execIinva (e : Fin 256) (s : State) : Host.Outcome State Fault Refusal :=
  s.run fun c b => invAllOp c false e.val b

/-- EVR (R478). -/
def execEvr (e : Fin 256) (ra : Reg) (s : State) : Host.Outcome State Fault Refusal :=
  s.run fun c b => evrOp c e.val ra.val b

end Sys2Proof.Machine
end

