-- ==== Sys2Proof/Machine/TimeCmds.lean ====
section
/-! DEFINITION. The commands of compare channels and capture pairs (spec/03). -/

namespace Sys2Proof.Machine

/-- CC_MATCH (R112). -/
def execCcMatch (n : Fin 1024) (s : State) : Host.Outcome State Fault Refusal :=
  s.run fun c b => ccMatch c n.val b

/-- CC_LATE_MATCH (R122). -/
def execCcLateMatch (n : Fin 1024) (s : State) : Host.Outcome State Fault Refusal :=
  s.run fun c b => ccLate c n.val b

/-- CC_START (R127). -/
def execCcStart (n : Fin 1024) (s : State) : Host.Outcome State Fault Refusal :=
  s.run fun c b => ccStart c n.val b

/-- CC_STOP (R127). -/
def execCcStop (n : Fin 1024) (s : State) : Host.Outcome State Fault Refusal :=
  s.run fun c b => ccStop c n.val b

/-- CC_STAGED_WRITE (R118). -/
def execCcStagedWrite (ag : Agent) (n : Fin 1024) (fine : Bool) (v : Word) (s : State) : Host.Outcome State Fault Refusal :=
  s.run fun c b => regStore c ag (if fine then R.CC_CMPF n.val else R.CC_CMPL n.val) v.toNat b

/-- CC_CMPH_COMMIT (R118). -/
def execCcCmphCommit (ag : Agent) (n : Fin 1024) (v : Word) (s : State) : Host.Outcome State Fault Refusal :=
  s.run fun c b => regStore c ag (R.CC_CMPH n.val) v.toNat b

/-- CC_CMPL_READ (R120). -/
def execCcCmplRead (ag : Agent) (n : Fin 1024) (s : State) : Host.Outcome State Fault Refusal :=
  s.run fun c b => regLoad c ag (R.CC_CMPL n.val) b

/-- CP_RISE_QUALIFIED (R137). -/
def execCpRiseQualified (n : Fin 128) (x : BallEdge) (s : State) : Host.Outcome State Fault Refusal :=
  s.run fun c b => cpRise c n.val x b

/-- CP_PAIR_READY (R136). -/
def execCpPairReady (n : Fin 128) (x : BallEdge) (s : State) : Host.Outcome State Fault Refusal :=
  s.run fun c b => cpReady c n.val x b

/-- CP_ARM (R144). -/
def execCpArm (n : Fin 128) (s : State) : Host.Outcome State Fault Refusal :=
  s.run fun c b => cpArm c n.val b

/-- CP_STOP (R144). -/
def execCpStop (n : Fin 128) (s : State) : Host.Outcome State Fault Refusal :=
  s.run fun c b => cpStop c n.val b

/-- CP_RISE_READ (R139). -/
def execCpRiseRead (ag : Agent) (n : Fin 128) (s : State) : Host.Outcome State Fault Refusal :=
  s.run fun c b => regLoad c ag (R.CP_RISE n.val) b

end Sys2Proof.Machine
end

