-- ==== Sys2Proof/Machine/Dispatch.lean ====
section
/-! DEFINITION. One arm per command. -/

namespace Sys2Proof.Machine

def exec (i : Instr) (s : State) : Host.Outcome State Fault Refusal :=
  match i with
  | .registerWrite ag a v => Sys2Proof.Machine.execRegisterWrite ag a v s
  | .absentRead ag a => Sys2Proof.Machine.execAbsentRead ag a s
  | .rcRead ag a => Sys2Proof.Machine.execRcRead ag a s
  | .tbLoRead ag => Sys2Proof.Machine.execTbLoRead ag s
  | .lclkEdge w => Sys2Proof.Machine.execLclkEdge w s
  | .tbLctLoRead ag => Sys2Proof.Machine.execTbLctLoRead ag s
  | .pwLtblRead ag => Sys2Proof.Machine.execPwLtblRead ag s
  | .luAloRead ag n => Sys2Proof.Machine.execLuAloRead ag n s
  | .fgLstlRead ag n => Sys2Proof.Machine.execFgLstlRead ag n s
  | .bootSerlRead ag => Sys2Proof.Machine.execBootSerlRead ag s
  | .bootTstlRead ag => Sys2Proof.Machine.execBootTstlRead ag s
  | .spJobLenlRead ag j => Sys2Proof.Machine.execSpJobLenlRead ag j s
  | .glOfslRead ag n => Sys2Proof.Machine.execGlOfslRead ag n s
  | .ccMatch n => Sys2Proof.Machine.execCcMatch n s
  | .ccLateMatch n => Sys2Proof.Machine.execCcLateMatch n s
  | .ccStart n => Sys2Proof.Machine.execCcStart n s
  | .ccStop n => Sys2Proof.Machine.execCcStop n s
  | .ccStagedWrite ag n fine v => Sys2Proof.Machine.execCcStagedWrite ag n fine v s
  | .ccCmphCommit ag n v => Sys2Proof.Machine.execCcCmphCommit ag n v s
  | .ccCmplRead ag n => Sys2Proof.Machine.execCcCmplRead ag n s
  | .cpRiseQualified n x => Sys2Proof.Machine.execCpRiseQualified n x s
  | .cpPairReady n x => Sys2Proof.Machine.execCpPairReady n x s
  | .cpArm n => Sys2Proof.Machine.execCpArm n s
  | .cpStop n => Sys2Proof.Machine.execCpStop n s
  | .cpRiseRead ag n => Sys2Proof.Machine.execCpRiseRead ag n s
  | .egCarrierStart n => Sys2Proof.Machine.execEgCarrierStart n s
  | .egCentre n => Sys2Proof.Machine.execEgCentre n s
  | .egPulseEdge n => Sys2Proof.Machine.execEgPulseEdge n s
  | .egLateCarrier n => Sys2Proof.Machine.execEgLateCarrier n s
  | .egCmphCommit ag n v => Sys2Proof.Machine.execEgCmphCommit ag n v s
  | .egStart n => Sys2Proof.Machine.execEgStart n s
  | .egFollowerStart n => Sys2Proof.Machine.execEgFollowerStart n s
  | .egStop n => Sys2Proof.Machine.execEgStop n s
  | .egEnClearWrite ag n v => Sys2Proof.Machine.execEgEnClearWrite ag n v s
  | .egLoad n => Sys2Proof.Machine.execEgLoad n s
  | .egClear n => Sys2Proof.Machine.execEgClear n s
  | .egShadowWrite ag n k v => Sys2Proof.Machine.execEgShadowWrite ag n k v s
  | .egHoldRelease ag n v => Sys2Proof.Machine.execEgHoldRelease ag n v s
  | .egRunDone n => Sys2Proof.Machine.execEgRunDone n s
  | .egSafeDeadTime n out => Sys2Proof.Machine.execEgSafeDeadTime n out s
  | .egPostForceIdle n => Sys2Proof.Machine.execEgPostForceIdle n s
  | .tripSourceAssert x => Sys2Proof.Machine.execTripSourceAssert x s
  | .tgTripSync g => Sys2Proof.Machine.execTgTripSync g s
  | .tgSoftwareTrip ag g v => Sys2Proof.Machine.execTgSoftwareTrip ag g v s
  | .tgTripAction g => Sys2Proof.Machine.execTgTripAction g s
  | .tgRelease ag g v => Sys2Proof.Machine.execTgRelease ag g v s
  | .adStart n => Sys2Proof.Machine.execAdStart n s
  | .adSoftwareStart ag n v => Sys2Proof.Machine.execAdSoftwareStart ag n v s
  | .adConversionEnd n x => Sys2Proof.Machine.execAdConversionEnd n x s
  | .adStop n => Sys2Proof.Machine.execAdStop n s
  | .adEnClearWrite ag n v => Sys2Proof.Machine.execAdEnClearWrite ag n v s
  | .adFlush n => Sys2Proof.Machine.execAdFlush n s
  | .adFlushWrite ag n v => Sys2Proof.Machine.execAdFlushWrite ag n v s
  | .adFifoRead ag n => Sys2Proof.Machine.execAdFifoRead ag n s
  | .acOutputChange n x => Sys2Proof.Machine.execAcOutputChange n x s
  | .acAssert n => Sys2Proof.Machine.execAcAssert n s
  | .acDeassert n => Sys2Proof.Machine.execAcDeassert n s
  | .acRamp n => Sys2Proof.Machine.execAcRamp n s
  | .acBlank n => Sys2Proof.Machine.execAcBlank n s
  | .acBlankEnd n => Sys2Proof.Machine.execAcBlankEnd n s
  | .sdResult n x => Sys2Proof.Machine.execSdResult n x s
  | .sdSync n => Sys2Proof.Machine.execSdSync n s
  | .sdClockLoss n => Sys2Proof.Machine.execSdClockLoss n s
  | .sdClockLossEnd n x => Sys2Proof.Machine.execSdClockLossEnd n x s
  | .sdEnable ag n v => Sys2Proof.Machine.execSdEnable ag n v s
  | .sdResRead ag n => Sys2Proof.Machine.execSdResRead ag n s
  | .hlHedgerowStart n => Sys2Proof.Machine.execHlHedgerowStart n s
  | .hlFireStart n => Sys2Proof.Machine.execHlFireStart n s
  | .hlSoftwareStart ag n v => Sys2Proof.Machine.execHlSoftwareStart ag n v s
  | .hlWaveformStart n => Sys2Proof.Machine.execHlWaveformStart n s
  | .hlWaveformEnd n => Sys2Proof.Machine.execHlWaveformEnd n s
  | .hlAbort n => Sys2Proof.Machine.execHlAbort n s
  | .hlAbortWrite ag n v => Sys2Proof.Machine.execHlAbortWrite ag n v s
  | .hlConverterResult n x v => Sys2Proof.Machine.execHlConverterResult n x v s
  | .hlUpdate n => Sys2Proof.Machine.execHlUpdate n s
  | .hlPeriodStart n => Sys2Proof.Machine.execHlPeriodStart n s
  | .hlEnable ag n v => Sys2Proof.Machine.execHlEnable ag n v s
  | .hlWaveformWrite ag n part v => Sys2Proof.Machine.execHlWaveformWrite ag n part v s
  | .fbQuadCount n onA x y => Sys2Proof.Machine.execFbQuadCount n onA x y s
  | .fbHallChange n xu vw => Sys2Proof.Machine.execFbHallChange n xu vw s
  | .fbIndex n x => Sys2Proof.Machine.execFbIndex n x s
  | .fbArm n => Sys2Proof.Machine.execFbArm n s
  | .fbArmWrite ag n v => Sys2Proof.Machine.execFbArmWrite ag n v s
  | .fbReq n lb => Sys2Proof.Machine.execFbReq n lb s
  | .fbSwrq ag n w => Sys2Proof.Machine.execFbSwrq ag n w s
  | .fbPeriodicRequest n lb => Sys2Proof.Machine.execFbPeriodicRequest n lb s
  | .fbSsiFrameEnd n bs => Sys2Proof.Machine.execFbSsiFrameEnd n bs s
  | .fbFrameEnd n => Sys2Proof.Machine.execFbFrameEnd n s
  | .fbResponseTimeout n => Sys2Proof.Machine.execFbResponseTimeout n s
  | .fbGapTimeout n => Sys2Proof.Machine.execFbGapTimeout n s
  | .fbGoodFrame n => Sys2Proof.Machine.execFbGoodFrame n s
  | .fbBadFrame n => Sys2Proof.Machine.execFbBadFrame n s
  | .fbSpeedDecay n => Sys2Proof.Machine.execFbSpeedDecay n s
  | .fbZeroSpeed n => Sys2Proof.Machine.execFbZeroSpeed n s
  | .fbWindowSpeed n => Sys2Proof.Machine.execFbWindowSpeed n s
  | .fbPosWrite ag n v => Sys2Proof.Machine.execFbPosWrite ag n v s
  | .fbPosRead ag n => Sys2Proof.Machine.execFbPosRead ag n s
  | .fbLatch n => Sys2Proof.Machine.execFbLatch n s
  | .fbCmpCrossing n k => Sys2Proof.Machine.execFbCmpCrossing n k s
  | .fbCmpLate n k => Sys2Proof.Machine.execFbCmpLate n k s
  | .fbCmpValWrite ag n k v => Sys2Proof.Machine.execFbCmpValWrite ag n k v s
  | .fbEnable ag n v => Sys2Proof.Machine.execFbEnable ag n v s
  | .emuEnable ag m v => Sys2Proof.Machine.execEmuEnable ag m v s
  | .emuResync m => Sys2Proof.Machine.execEmuResync m s
  | .emuResyncWrite ag m v => Sys2Proof.Machine.execEmuResyncWrite ag m v s
  | .emuEdge m => Sys2Proof.Machine.execEmuEdge m s
  | .emuWposWrite ag m v => Sys2Proof.Machine.execEmuWposWrite ag m v s
  | .fgArm n => Sys2Proof.Machine.execFgArm n s
  | .fgArmWrite ag n v => Sys2Proof.Machine.execFgArmWrite ag n v s
  | .fgStop n => Sys2Proof.Machine.execFgStop n s
  | .fgStopWrite ag n v => Sys2Proof.Machine.execFgStopWrite ag n v s
  | .fgEnable ag n v => Sys2Proof.Machine.execFgEnable ag n v s
  | .fgIssue n => Sys2Proof.Machine.execFgIssue n s
  | .fgShot n => Sys2Proof.Machine.execFgShot n s
  | .fgPassEnd n => Sys2Proof.Machine.execFgPassEnd n s
  | .faQueueCells => Sys2Proof.Machine.execFaQueueCells s
  | .faCellDepart n => Sys2Proof.Machine.execFaCellDepart n s
  | .faAdv h => Sys2Proof.Machine.execFaAdv h s
  | .faWcolWrite ag h v => Sys2Proof.Machine.execFaWcolWrite ag h v s
  | .evDelivery n => Sys2Proof.Machine.execEvDelivery n s
  | .evSoftwareRaise ag n v => Sys2Proof.Machine.execEvSoftwareRaise ag n v s
  | .evSrcWrite ag n v => Sys2Proof.Machine.execEvSrcWrite ag n v s
  | .evDstWrite ag n k v => Sys2Proof.Machine.execEvDstWrite ag n k v s
  | .laneTrigger n => Sys2Proof.Machine.execLaneTrigger n s
  | .laneHeldRunStart n => Sys2Proof.Machine.execLaneHeldRunStart n s
  | .lawOutputTransfer n => Sys2Proof.Machine.execLawOutputTransfer n s
  | .luKswap ag n v => Sys2Proof.Machine.execLuKswap ag n v s
  | .llClrs ag n v => Sys2Proof.Machine.execLlClrs ag n v s
  | .luStateWrite ag u k v => Sys2Proof.Machine.execLuStateWrite ag u k v s
  | .luDeferredWrite n => Sys2Proof.Machine.execLuDeferredWrite n s
  | .laneEngineDelivery n => Sys2Proof.Machine.execLaneEngineDelivery n s
  | .laneCommitArrival n => Sys2Proof.Machine.execLaneCommitArrival n s
  | .laneEngineDutyTransfer n => Sys2Proof.Machine.execLaneEngineDutyTransfer n s
  | .cbeq e ra rb ofs => Sys2Proof.Machine.execCbeq e ra rb ofs s
  | .cbne e ra rb ofs => Sys2Proof.Machine.execCbne e ra rb ofs s
  | .cblt e ra rb ofs => Sys2Proof.Machine.execCblt e ra rb ofs s
  | .cbge e ra rb ofs => Sys2Proof.Machine.execCbge e ra rb ofs s
  | .cbltu e ra rb ofs => Sys2Proof.Machine.execCbltu e ra rb ofs s
  | .cbgeu e ra rb ofs => Sys2Proof.Machine.execCbgeu e ra rb ofs s
  | .jal e rd ofs => Sys2Proof.Machine.execJal e rd ofs s
  | .jalr e rd ra => Sys2Proof.Machine.execJalr e rd ra s
  | .add e rd ra rb => Sys2Proof.Machine.execAdd e rd ra rb s
  | .sub e rd ra rb => Sys2Proof.Machine.execSub e rd ra rb s
  | .min e rd ra rb => Sys2Proof.Machine.execMin e rd ra rb s
  | .max e rd ra rb => Sys2Proof.Machine.execMax e rd ra rb s
  | .neg e rd ra => Sys2Proof.Machine.execNeg e rd ra s
  | .abs e rd ra => Sys2Proof.Machine.execAbs e rd ra s
  | .and e rd ra rb => Sys2Proof.Machine.execAnd e rd ra rb s
  | .or e rd ra rb => Sys2Proof.Machine.execOr e rd ra rb s
  | .xor e rd ra rb => Sys2Proof.Machine.execXor e rd ra rb s
  | .andn e rd ra rb => Sys2Proof.Machine.execAndn e rd ra rb s
  | .not e rd ra => Sys2Proof.Machine.execNot e rd ra s
  | .sll e rd ra rb => Sys2Proof.Machine.execSll e rd ra rb s
  | .srl e rd ra rb => Sys2Proof.Machine.execSrl e rd ra rb s
  | .sra e rd ra rb => Sys2Proof.Machine.execSra e rd ra rb s
  | .ror e rd ra rb => Sys2Proof.Machine.execRor e rd ra rb s
  | .clz e rd ra => Sys2Proof.Machine.execClz e rd ra s
  | .sextb e rd ra => Sys2Proof.Machine.execSextb e rd ra s
  | .sexth e rd ra => Sys2Proof.Machine.execSexth e rd ra s
  | .zextb e rd ra => Sys2Proof.Machine.execZextb e rd ra s
  | .zexth e rd ra => Sys2Proof.Machine.execZexth e rd ra s
  | .cmpeq e rd ra rb => Sys2Proof.Machine.execCmpeq e rd ra rb s
  | .cmplt e rd ra rb => Sys2Proof.Machine.execCmplt e rd ra rb s
  | .cmpltu e rd ra rb => Sys2Proof.Machine.execCmpltu e rd ra rb s
  | .mov e rd ra => Sys2Proof.Machine.execMov e rd ra s
  | .gett e rd ra => Sys2Proof.Machine.execGett e rd ra s
  | .sett e rd ra t => Sys2Proof.Machine.execSett e rd ra t s
  | .chkt e ra t => Sys2Proof.Machine.execChkt e ra t s
  | .cvt e rd ra t => Sys2Proof.Machine.execCvt e rd ra t s
  | .addi e rd ra imm => Sys2Proof.Machine.execAddi e rd ra imm s
  | .andi e rd ra imm => Sys2Proof.Machine.execAndi e rd ra imm s
  | .ori e rd ra imm => Sys2Proof.Machine.execOri e rd ra imm s
  | .xori e rd ra imm => Sys2Proof.Machine.execXori e rd ra imm s
  | .shi e rd ra imm => Sys2Proof.Machine.execShi e rd ra imm s
  | .lil e rd t imm => Sys2Proof.Machine.execLil e rd t imm s
  | .lih e rd imm => Sys2Proof.Machine.execLih e rd imm s
  | .mul e rd ra rb => Sys2Proof.Machine.execMul e rd ra rb s
  | .mulh e rd ra rb => Sys2Proof.Machine.execMulh e rd ra rb s
  | .div e rd ra rb stop => Sys2Proof.Machine.execDiv e rd ra rb stop s
  | .rem e rd ra rb stop => Sys2Proof.Machine.execRem e rd ra rb stop s
  | .sqrt e rd ra stop => Sys2Proof.Machine.execSqrt e rd ra stop s
  | .fadd e rd ra rb => Sys2Proof.Machine.execFadd e rd ra rb s
  | .fsub e rd ra rb => Sys2Proof.Machine.execFsub e rd ra rb s
  | .fmul e rd ra rb => Sys2Proof.Machine.execFmul e rd ra rb s
  | .fmin e rd ra rb => Sys2Proof.Machine.execFmin e rd ra rb s
  | .fmax e rd ra rb => Sys2Proof.Machine.execFmax e rd ra rb s
  | .fneg e rd ra => Sys2Proof.Machine.execFneg e rd ra s
  | .fabs e rd ra => Sys2Proof.Machine.execFabs e rd ra s
  | .mac e acc ra rb => Sys2Proof.Machine.execMac e acc ra rb s
  | .msu e acc ra rb => Sys2Proof.Machine.execMsu e acc ra rb s
  | .macz e acc ra rb => Sys2Proof.Machine.execMacz e acc ra rb s
  | .rda e rd acc t => Sys2Proof.Machine.execRda e rd acc t s
  | .clra e acc => Sys2Proof.Machine.execClra e acc s
  | .clarke e rd ra rb stop => Sys2Proof.Machine.execClarke e rd ra rb stop s
  | .park e rd ra rb stop => Sys2Proof.Machine.execPark e rd ra rb stop s
  | .ipark e rd ra rb stop => Sys2Proof.Machine.execIpark e rd ra rb stop s
  | .sincos e rd ra stop => Sys2Proof.Machine.execSincos e rd ra stop s
  | .atan2 e rd ra rb stop => Sys2Proof.Machine.execAtan2 e rd ra rb stop s
  | .mtx3 e rd ra rb stop => Sys2Proof.Machine.execMtx3 e rd ra rb stop s
  | .ldm e ra rb stop => Sys2Proof.Machine.execLdm e ra rb stop s
  | .stm e ra rb stop => Sys2Proof.Machine.execStm e ra rb stop s
  | .saveg e ra rb stop => Sys2Proof.Machine.execSaveg e ra rb stop s
  | .loadg e ra rb stop => Sys2Proof.Machine.execLoadg e ra rb stop s
  | .bcopy e rd ra rb stop => Sys2Proof.Machine.execBcopy e rd ra rb stop s
  | .vmac e rd ra rb t stop => Sys2Proof.Machine.execVmac e rd ra rb t stop s
  | .firq e rd ra rb t stop => Sys2Proof.Machine.execFirq e rd ra rb t stop s
  | .rdl e rd k => Sys2Proof.Machine.execRdl e rd k s
  | .wrl e k ra => Sys2Proof.Machine.execWrl e k ra s
  | .csrr e rd csr => Sys2Proof.Machine.execCsrr e rd csr s
  | .csrw e csr ra => Sys2Proof.Machine.execCsrw e csr ra s
  | .csrs e rd ra csr => Sys2Proof.Machine.execCsrs e rd ra csr s
  | .csrc e rd ra csr => Sys2Proof.Machine.execCsrc e rd ra csr s
  | .nop e => Sys2Proof.Machine.execNop e s
  | .wait e => Sys2Proof.Machine.execWait e s
  | .drain e => Sys2Proof.Machine.execDrain e s
  | .eret e => Sys2Proof.Machine.execEret e s
  | .brk e => Sys2Proof.Machine.execBrk e s
  | .sys e code => Sys2Proof.Machine.execSys e code s
  | .dinv e ra => Sys2Proof.Machine.execDinv e ra s
  | .dinva e => Sys2Proof.Machine.execDinva e s
  | .iinv e ra => Sys2Proof.Machine.execIinv e ra s
  | .iinva e => Sys2Proof.Machine.execIinva e s
  | .evr e ra => Sys2Proof.Machine.execEvr e ra s
  | .lb e rd ra t imm => Sys2Proof.Machine.execLb e rd ra t imm s
  | .lbu e rd ra t imm => Sys2Proof.Machine.execLbu e rd ra t imm s
  | .lh e rd ra t imm => Sys2Proof.Machine.execLh e rd ra t imm s
  | .lhu e rd ra t imm => Sys2Proof.Machine.execLhu e rd ra t imm s
  | .lw e rd ra t imm => Sys2Proof.Machine.execLw e rd ra t imm s
  | .sb e rs ra t imm => Sys2Proof.Machine.execSb e rs ra t imm s
  | .sh e rs ra t imm => Sys2Proof.Machine.execSh e rs ra t imm s
  | .sw e rs ra t imm => Sys2Proof.Machine.execSw e rs ra t imm s
  | .movS e rd ra => Sys2Proof.Machine.execMovS e rd ra s
  | .addS e rd ra rb => Sys2Proof.Machine.execAddS e rd ra rb s
  | .subS e rd ra rb => Sys2Proof.Machine.execSubS e rd ra rb s
  | .andS e rd ra rb => Sys2Proof.Machine.execAndS e rd ra rb s
  | .orS e rd ra rb => Sys2Proof.Machine.execOrS e rd ra rb s
  | .addiS e rd imm => Sys2Proof.Machine.execAddiS e rd imm s
  | .lis e rd imm => Sys2Proof.Machine.execLis e rd imm s
  | .lwS e rd ra u => Sys2Proof.Machine.execLwS e rd ra u s
  | .swS e rs ra u => Sys2Proof.Machine.execSwS e rs ra u s
  | .cbz e ra ofs => Sys2Proof.Machine.execCbz e ra ofs s
  | .cbnz e ra ofs => Sys2Proof.Machine.execCbnz e ra ofs s
  | .shiS e rd kind imm => Sys2Proof.Machine.execShiS e rd kind imm s
  | .bS e ofs => Sys2Proof.Machine.execBS e ofs s
  | .macS e acc ra rb => Sys2Proof.Machine.execMacS e acc ra rb s
  | .msuS e acc ra rb => Sys2Proof.Machine.execMsuS e acc ra rb s
  | .mulS e rd ra rb => Sys2Proof.Machine.execMulS e rd ra rb s
  | .xorS e rd ra rb => Sys2Proof.Machine.execXorS e rd ra rb s
  | .minS e rd ra rb => Sys2Proof.Machine.execMinS e rd ra rb s
  | .maxS e rd ra rb => Sys2Proof.Machine.execMaxS e rd ra rb s
  | .jrS e ra => Sys2Proof.Machine.execJrS e ra s
  | .nopS e => Sys2Proof.Machine.execNopS e s
  | .waitS e => Sys2Proof.Machine.execWaitS e s
  | .drainS e => Sys2Proof.Machine.execDrainS e s
  | .brkS e => Sys2Proof.Machine.execBrkS e s
  | .eretS e => Sys2Proof.Machine.execEretS e s
  | .rdlS e rd k => Sys2Proof.Machine.execRdlS e rd k s
  | .wrlS e k ra => Sys2Proof.Machine.execWrlS e k ra s
  | .sopReserved e long => Sys2Proof.Machine.execSopReserved e long s
  | .fabricLoadResult e idx err => Sys2Proof.Machine.execFabricLoadResult e idx err s
  | .fabricStoreWritten e idx => Sys2Proof.Machine.execFabricStoreWritten e idx s
  | .taskActivation e k => Sys2Proof.Machine.execTaskActivation e k s
  | .taskFirstIssue e => Sys2Proof.Machine.execTaskFirstIssue e s
  | .tactWrite e k => Sys2Proof.Machine.execTactWrite e k s
  | .timelRead e => Sys2Proof.Machine.execTimelRead e s
  | .deadlineExpiry e k => Sys2Proof.Machine.execDeadlineExpiry e k s
  | .serrReturn e k addr second => Sys2Proof.Machine.execSerrReturn e k addr second s
  | .exceptionEntry e => Sys2Proof.Machine.execExceptionEntry e s
  | .tcmdPark e => Sys2Proof.Machine.execTcmdPark e s
  | .tcmdRestart e => Sys2Proof.Machine.execTcmdRestart e s
  | .matchParityFail e k => Sys2Proof.Machine.execMatchParityFail e k s
  | .scrubRead d => Sys2Proof.Machine.execScrubRead d s
  | .scrubWriteback d => Sys2Proof.Machine.execScrubWriteback d s
  | .icEdge d n => Sys2Proof.Machine.execIcEdge d n s
  | .icSoftwareEdge ag d n v => Sys2Proof.Machine.execIcSoftwareEdge ag d n v s
  | .icBatchTimer d n => Sys2Proof.Machine.execIcBatchTimer d n s
  | .icDelivery d set => Sys2Proof.Machine.execIcDelivery d set s
  | .icClr ag d n v => Sys2Proof.Machine.execIcClr ag d n v s
  | .icGdisWrite ag d v => Sys2Proof.Machine.execIcGdisWrite ag d v s
  | .icTargetWrite ag d set k v => Sys2Proof.Machine.execIcTargetWrite ag d set k v s
  | .dmaRun n => Sys2Proof.Machine.execDmaRun n s
  | .dmaRunWrite ag n v => Sys2Proof.Machine.execDmaRunWrite ag n v s
  | .dmaHalt n => Sys2Proof.Machine.execDmaHalt n s
  | .dmaHaltWrite ag n v => Sys2Proof.Machine.execDmaHaltWrite ag n v s
  | .dmaAbort ag n v => Sys2Proof.Machine.execDmaAbort ag n v s
  | .dmaDescriptorFetch n => Sys2Proof.Machine.execDmaDescriptorFetch n s
  | .dmaElement n => Sys2Proof.Machine.execDmaElement n s
  | .dmaPaceResume n => Sys2Proof.Machine.execDmaPaceResume n s
  | .dmaPaceTimeout n => Sys2Proof.Machine.execDmaPaceTimeout n s
  | .dmaHandback n => Sys2Proof.Machine.execDmaHandback n s
  | .cvStart ag n v => Sys2Proof.Machine.execCvStart ag n v s
  | .cvData ag n v => Sys2Proof.Machine.execCvData ag n v s
  | .cvEnd ag n v => Sys2Proof.Machine.execCvEnd ag n v s
  | .cvRunWrite ag n v => Sys2Proof.Machine.execCvRunWrite ag n v s
  | .cvClientMessage n => Sys2Proof.Machine.execCvClientMessage n s
  | .powerOnReset rail => Sys2Proof.Machine.execPowerOnReset rail s
  | .rstNAssert ns => Sys2Proof.Machine.execRstNAssert ns s
  | .twinReset => Sys2Proof.Machine.execTwinReset s
  | .bootSequence sel ospi ospi2 => Sys2Proof.Machine.execBootSequence sel ospi ospi2 s
  | .mntStatus => Sys2Proof.Machine.execMntStatus s
  | .mntRead a => Sys2Proof.Machine.execMntRead a s
  | .mntWrite a v => Sys2Proof.Machine.execMntWrite a v s
  | .mntRetry => Sys2Proof.Machine.execMntRetry s
  | .mntEnrol slot hash => Sys2Proof.Machine.execMntEnrol slot hash s
  | .flProg ag => Sys2Proof.Machine.execFlProg ag s
  | .flErase ag => Sys2Proof.Machine.execFlErase ag s
  | .flBlank ag => Sys2Proof.Machine.execFlBlank ag s
  | .flSwapbb ag => Sys2Proof.Machine.execFlSwapbb ag s
  | .flSwapimg ag => Sys2Proof.Machine.execFlSwapimg ag s
  | .flSelinit ag => Sys2Proof.Machine.execFlSelinit ag s
  | .flUndefinedOp ag op => Sys2Proof.Machine.execFlUndefinedOp ag op s
  | .flCommandEnd npul fail => Sys2Proof.Machine.execFlCommandEnd npul fail s
  | .flBrownoutCut k npul => Sys2Proof.Machine.execFlBrownoutCut k npul s
  | .glEnable ag n v => Sys2Proof.Machine.execGlEnable ag n v s
  | .glResync ag n v => Sys2Proof.Machine.execGlResync ag n v s
  | .glTrainDone n => Sys2Proof.Machine.execGlTrainDone n s
  | .glCodewordLock n => Sys2Proof.Machine.execGlCodewordLock n s
  | .glCellLock n => Sys2Proof.Machine.execGlCellLock n s
  | .glLossOfLock n => Sys2Proof.Machine.execGlLossOfLock n s
  | .glCellAccept n head crc payload check rs arrive => Sys2Proof.Machine.execGlCellAccept n head crc payload check rs arrive s
  | .glCellSlot n fine => Sys2Proof.Machine.execGlCellSlot n fine s
  | .glSyncDue n => Sys2Proof.Machine.execGlSyncDue n s
  | .glSyncTimeout n => Sys2Proof.Machine.execGlSyncTimeout n s
  | .glTxCommit ag n v => Sys2Proof.Machine.execGlTxCommit ag n v s
  | .glRxsRead ag n => Sys2Proof.Machine.execGlRxsRead ag n s
  | .hpLinkChange seven up => Sys2Proof.Machine.execHpLinkChange seven up s
  | .hpArpRequest mac ip target => Sys2Proof.Machine.execHpArpRequest mac ip target s
  | .hpIcmpEcho mac ip data => Sys2Proof.Machine.execHpIcmpEcho mac ip data s
  | .hpFrameDiscard why => Sys2Proof.Machine.execHpFrameDiscard why s
  | .kspHello h => Sys2Proof.Machine.execKspHello h s
  | .kspWrite h job off len data => Sys2Proof.Machine.execKspWrite h job off len data s
  | .kspWriteDone sess seq => Sys2Proof.Machine.execKspWriteDone sess seq s
  | .kspCommit h job len => Sys2Proof.Machine.execKspCommit h job len s
  | .kspCommitDone sess seq => Sys2Proof.Machine.execKspCommitDone sess seq s
  | .kspJobcmd h data => Sys2Proof.Machine.execKspJobcmd h data s
  | .kspReadstat h job => Sys2Proof.Machine.execKspReadstat h job s
  | .kspCfgwriteErase h target len off => Sys2Proof.Machine.execKspCfgwriteErase h target len off s
  | .kspCfgwriteProgram h target len off data => Sys2Proof.Machine.execKspCfgwriteProgram h target len off data s
  | .kspCfgswap h target => Sys2Proof.Machine.execKspCfgswap h target s
  | .kspAttest h nonce => Sys2Proof.Machine.execKspAttest h nonce s
  | .kspReset h magic => Sys2Proof.Machine.execKspReset h magic s
  | .sessionTimeout num => Sys2Proof.Machine.execSessionTimeout num s
  | .mailboxReply ag v => Sys2Proof.Machine.execMailboxReply ag v s
  | .mailboxTimeout => Sys2Proof.Machine.execMailboxTimeout s
  | .spDriveLinkUp n gen width => Sys2Proof.Machine.execSpDriveLinkUp n gen width s
  | .spDriveReady n ok cap lba4k => Sys2Proof.Machine.execSpDriveReady n ok cap lba4k s
  | .spReinit ag n v => Sys2Proof.Machine.execSpReinit ag n v s
  | .nvmeCompletion id ok => Sys2Proof.Machine.execNvmeCompletion id ok s
  | .nvmeTimeout id => Sys2Proof.Machine.execNvmeTimeout id s
  | .spHealthPoll n cw pused temp => Sys2Proof.Machine.execSpHealthPoll n cw pused temp s
  | .spBlockArrival ch blk data => Sys2Proof.Machine.execSpBlockArrival ch blk data s
  | .spJobStateWrite ag j v => Sys2Proof.Machine.execSpJobStateWrite ag j v s
  | .heartbeatStore ag cl k v => Sys2Proof.Machine.execHeartbeatStore ag cl k v s
  | .engineDeclaredDead cl k => Sys2Proof.Machine.execEngineDeclaredDead cl k s
  | .spareTasksBegin cl => Sys2Proof.Machine.execSpareTasksBegin cl s
  | .isolationReset e => Sys2Proof.Machine.execIsolationReset e s
  | .checkpointSnapshot e k => Sys2Proof.Machine.execCheckpointSnapshot e k s
  | .checkpointRecordWrite cl => Sys2Proof.Machine.execCheckpointRecordWrite cl s
  | .sporelineLaneState n => Sys2Proof.Machine.execSporelineLaneState n s
  | .pairHeartbeatDue => Sys2Proof.Machine.execPairHeartbeatDue s
  | .epochCellDue => Sys2Proof.Machine.execEpochCellDue s
  | .partnerDead => Sys2Proof.Machine.execPartnerDead s
  | .permitGained => Sys2Proof.Machine.execPermitGained s
  | .permitInRise => Sys2Proof.Machine.execPermitInRise s
  | .takingWithdraw => Sys2Proof.Machine.execTakingWithdraw s
  | .pvTrst ag v => Sys2Proof.Machine.execPvTrst ag v s
  | .pvResend ag v => Sys2Proof.Machine.execPvResend ag v s
  | .pllLock k => Sys2Proof.Machine.execPllLock k s
  | .refclkLoss => Sys2Proof.Machine.execRefclkLoss s
  | .lanePllUnlock k => Sys2Proof.Machine.execLanePllUnlock k s
  | .lclkQualify ok => Sys2Proof.Machine.execLclkQualify ok s
  | .crystalLoss => Sys2Proof.Machine.execCrystalLoss s
  | .dozeEntry r => Sys2Proof.Machine.execDozeEntry r s
  | .dozeWake r => Sys2Proof.Machine.execDozeWake r s
  | .regionAwake r => Sys2Proof.Machine.execRegionAwake r s
  | .sleepRequest ag v => Sys2Proof.Machine.execSleepRequest ag v s
  | .wakeEvent k => Sys2Proof.Machine.execWakeEvent k s
  | .watchdogKick ag v => Sys2Proof.Machine.execWatchdogKick ag v s
  | .watchdogHalf => Sys2Proof.Machine.execWatchdogHalf s
  | .watchdogExpiry => Sys2Proof.Machine.execWatchdogExpiry s
  | .brownoutWarn rail => Sys2Proof.Machine.execBrownoutWarn rail s
  | .thermalConversion k v => Sys2Proof.Machine.execThermalConversion k v s
  | .tapReset => Sys2Proof.Machine.execTapReset s
  | .tapBypass => Sys2Proof.Machine.execTapBypass s
  | .tapIdcode => Sys2Proof.Machine.execTapIdcode s
  | .tapSamplePreload cells => Sys2Proof.Machine.execTapSamplePreload cells s
  | .tapExtest => Sys2Proof.Machine.execTapExtest s
  | .tapClamp => Sys2Proof.Machine.execTapClamp s
  | .tapHighz => Sys2Proof.Machine.execTapHighz s
  | .pcieLinkDown n => Sys2Proof.Machine.execPcieLinkDown n s
  | .takeoverEnginesIssue => Sys2Proof.Machine.execTakeoverEnginesIssue s
  | .sdBitSample n x => Sys2Proof.Machine.execSdBitSample n x s
  | .fbStartBit n data par stop => Sys2Proof.Machine.execFbStartBit n data par stop s
  | .fbSsiPauseEnd n => Sys2Proof.Machine.execFbSsiPauseEnd n s
  | .tripSourceDeassert x => Sys2Proof.Machine.execTripSourceDeassert x s
  | .memoryBitError at_ flips => Sys2Proof.Machine.execMemoryBitError at_ flips s

end Sys2Proof.Machine
end

