-- ==== Sys2Proof/Safety.lean ====
section
/-! DEFINITION. What counts as a safe run, and the words the claims are stated in: that a command answers a next state, what it
leaves, that an access reaches its register, that an engine may issue. -/

namespace Sys2Proof

open Machine

/-! ### Runs -/

/-- A run of k steps that ends in no fault and no refusal. -/
def SafeRun (k : Nat) (s : State) : Prop := ∃ t, core.run k s = .next t

/-- Does the step leave a state of which `P` holds? -/
def StepsTo (s : State) (P : State → Prop) : Prop := ∃ t, step s = .next t ∧ P t

/-- The command answers a next state of which `P` holds. -/
def Answers (i : Instr) (s : State) (P : State → Prop) : Prop := ∃ t, exec i s = .next t ∧ P t

/-- The command does nothing. -/
def Idle (i : Instr) (s : State) : Prop := exec i s = .next s

/-! ### Frames -/

/-- The queue, the time base, the silicon and the part at the start of the fc are as before. -/
def SameFrame (s t : State) : Prop := t.hw = s.hw ∧ t.tick = s.tick ∧ t.start = s.start ∧ t.pending = s.pending

/-- Every byte of memory, and every granule's syndrome, is as before. -/
def SameMemory (s t : State) : Prop := (∀ a, t.now.memByte a = s.now.memByte a) ∧ t.now.syn = s.now.syn

/-- Every register is as before but those of `p`. -/
def RegsBut (p : Nat → Prop) (s t : State) : Prop := ∀ a, ¬ p a → t.now.rd a = s.now.rd a

/-- `s` with what any command may change taken from `t`: the registers (which `RegsBut` limits), what belongs to this fc,
the events on their way with the marks of R398, the answer to a read, the free values taken. -/
def Block.shared (t s : Block) : Block :=
  { s with regs := t.regs, fc := t.fc, flights := t.flights, marks := t.marks, resp := t.resp, respTag := t.respTag, freeCount := t.freeCount }

/-- The whole frame of a command of a peripheral unit: the registers of `p` may change, and the state of the unit that `u`
takes from its first argument; everything else is as before, the other units, the engines, the balls and memory among it. -/
def Leaves (u : Block → Block → Block) (p : Nat → Prop) (s t : State) : Prop :=
  SameFrame s t ∧ SameMemory s t ∧ RegsBut p s t ∧ t.now = u t.now (Block.shared t.now s.now)

/-- The bytes that n bytes stored at a change: themselves, and in a D-TCM the tag nibbles of the words they reach (R46). -/
def stored (hw : Hw) (a n x : Nat) : Prop :=
  (a ≤ x ∧ x < a + n) ∨ ((memSpace hw a).any (fun m => match m with
    | .dtcm _ => true
    | _ => false) = true ∧ tagByteAddr (a / 4 * 4) ≤ x ∧ x ≤ tagByteAddr ((a + n - 1) / 4 * 4))

/-- Every byte of memory but those of `m` reads as before, and so does the state of every granule without one. -/
def MemoryBut (m : Nat → Prop) (s t : State) : Prop :=
  (∀ a, ¬ m a → t.now.goodByte a = s.now.goodByte a) ∧ ∀ g, (∀ k, k < 32 → ¬ m (32 * g + k)) → t.now.granSyn g = s.now.granSyn g

/-- The frame of a command that stores to memory: the bytes of `m` may change, the registers of `p`, and what `u` takes from its
first argument; everything else is as before. -/
def Stores (m : Nat → Prop) (u : Block → Block → Block) (p : Nat → Prop) (s t : State) : Prop :=
  SameFrame s t ∧ MemoryBut m s t ∧ RegsBut p s t ∧
    t.now = u t.now { Block.shared t.now s.now with mem := t.now.mem, syn := t.now.syn, scrub := t.now.scrub }

/-- The state of every other instance of a unit is as before. -/
def Others {α : Type} (f : Block → Nat → α) (n : Nat) (s t : State) : Prop := ∀ m, m ≠ n → f t.now m = f s.now m

namespace Frame

/-- Registers alone may change. -/
def regs (p : Nat → Prop) (s t : State) : Prop := Leaves (fun _ b => b) p s t

/-- The time base's snapshots. -/
def tb (p : Nat → Prop) (s t : State) : Prop := Leaves (fun t b => { b with tb := t.tb }) p s t

/-- The Lichen domain, with the correlation set an LCLK edge latches. -/
def always (p : Nat → Prop) (s t : State) : Prop := Leaves (fun t b => { b with always := t.always, tb := t.tb }) p s t

/-- One compare channel. -/
def cc (n : Nat) (p : Nat → Prop) (s t : State) : Prop := Others Block.ccSt n s t ∧ Leaves (fun t b => { b with cc := t.cc }) p s t

/-- One capture pair. -/
def cp (n : Nat) (p : Nat → Prop) (s t : State) : Prop := Others Block.cpSt n s t ∧ Leaves (fun t b => { b with cp := t.cp }) p s t

/-- One edge generator with its balls. -/
def eg (n : Nat) (p : Nat → Prop) (s t : State) : Prop :=
  Others Block.egSt n s t ∧ Leaves (fun t b => { b with eg := t.eg, balls := t.balls }) p s t

/-- Edge generators with their balls. -/
def egs (p : Nat → Prop) (s t : State) : Prop := Leaves (fun t b => { b with eg := t.eg, balls := t.balls }) p s t

/-- Trip groups with what they force: edge generators, head-drive lanes, balls; the sources asserted and the TRIP balls' levels. -/
def trip (p : Nat → Prop) (s t : State) : Prop :=
  Leaves (fun t b => { b with tg := t.tg, eg := t.eg, hl := t.hl, balls := t.balls, asyncSrc := t.asyncSrc, tripLv := t.tripLv }) p s t

/-- One trip group, with what it forces. -/
def tg (n : Nat) (p : Nat → Prop) (s t : State) : Prop := Others Block.tgSt n s t ∧ t.now.asyncSrc = s.now.asyncSrc ∧ t.now.tripLv = s.now.tripLv ∧ trip p s t

/-- One law unit. -/
def lu (n : Nat) (p : Nat → Prop) (s t : State) : Prop := Others Block.luSt n s t ∧ Leaves (fun t b => { b with lu := t.lu }) p s t

/-- Loop lanes with law units, and the edge generators they drive. -/
def lanes (p : Nat → Prop) (s t : State) : Prop := Leaves (fun t b => { b with ll := t.ll, lu := t.lu, eg := t.eg }) p s t

/-- One loop lane, with law units. -/
def lane (n : Nat) (p : Nat → Prop) (s t : State) : Prop :=
  Others Block.llSt n s t ∧ Leaves (fun t b => { b with ll := t.ll, lu := t.lu }) p s t

/-- One loop lane and its law task. -/
def laneTask (n : Nat) (p : Nat → Prop) (s t : State) : Prop :=
  Others Block.llSt n s t ∧ Others Block.engSt (s.now.laneEng n) s t ∧ Leaves (fun t b => { b with ll := t.ll, eng := t.eng }) p s t

/-- One SAR converter, with the lanes it delivers to. -/
def ad (n : Nat) (p : Nat → Prop) (s t : State) : Prop :=
  Others Block.adSt n s t ∧ Leaves (fun t b => { b with ad := t.ad, ll := t.ll }) p s t

/-- One comparator, with the trip sources asserted. -/
def ac (n : Nat) (p : Nat → Prop) (s t : State) : Prop :=
  Others Block.acSt n s t ∧ Leaves (fun t b => { b with ac := t.ac, asyncSrc := t.asyncSrc }) p s t

/-- One demodulator, with the lanes it delivers to. -/
def sd (n : Nat) (p : Nat → Prop) (s t : State) : Prop :=
  Others Block.sdSt n s t ∧ Leaves (fun t b => { b with sd := t.sd, ll := t.ll }) p s t

/-- One head-drive lane, with the fires on their way and its balls. -/
def hl (n : Nat) (p : Nat → Prop) (s t : State) : Prop :=
  Others Block.hlSt n s t ∧ Leaves (fun t b => { b with hl := t.hl, fires := t.fires, balls := t.balls }) p s t

/-- Fire generators and the fire assembler: passes, head contexts, fires and cells on their way. -/
def fire (p : Nat → Prop) (s t : State) : Prop :=
  Leaves (fun t b => { b with fg := t.fg, hc := t.hc, lq := t.lq, fires := t.fires, faFires := t.faFires, edges := t.edges }) p s t

/-- One fire generator. -/
def fg (n : Nat) (p : Nat → Prop) (s t : State) : Prop := Others Block.fgSt n s t ∧ Leaves (fun t b => { b with fg := t.fg }) p s t

/-- One Golbex lane with the queue of its cells. -/
def gl (n : Nat) (p : Nat → Prop) (s t : State) : Prop :=
  Others Block.laneQueue n s t ∧ Leaves (fun t b => { b with gl := t.gl, lq := t.lq }) p s t

/-- One feedback unit with its balls, and the lanes it delivers to. -/
def fb (n : Nat) (p : Nat → Prop) (s t : State) : Prop :=
  Others Block.fbSt n s t ∧ Leaves (fun t b => { b with fb := t.fb, ll := t.ll, balls := t.balls }) p s t

/-- One emulation output with its balls. -/
def emu (n : Nat) (p : Nat → Prop) (s t : State) : Prop :=
  Others Block.emuSt n s t ∧ Leaves (fun t b => { b with emu := t.emu, balls := t.balls }) p s t

/-- One source of an interrupt controller (key die × 1024 + number), with the deliveries it makes and the edges on their way. -/
def ic (k : Nat) (p : Nat → Prop) (s t : State) : Prop :=
  Others (fun b m => b.icSrc.getD {} m) k s t ∧
    Leaves (fun t b => { b with icSrc := t.icSrc, edges := t.edges, icLast := t.icLast, pendActs := t.pendActs }) p s t

/-- One DMA channel, with edges raised. -/
def dm (n : Nat) (p : Nat → Prop) (s t : State) : Prop :=
  Others Block.dmSt n s t ∧ Leaves (fun t b => { b with dm := t.dm, edges := t.edges }) p s t

/-- One DMA channel and the drives' commands. -/
def dmSp (n : Nat) (p : Nat → Prop) (s t : State) : Prop :=
  Others Block.dmSt n s t ∧ Leaves (fun t b => { b with dm := t.dm, sp := t.sp, edges := t.edges }) p s t

/-- One DMA channel with the odd slots it takes, and the bytes of `m` that it stores to. -/
def dmStore (n : Nat) (m p : Nat → Prop) (s t : State) : Prop :=
  Others Block.dmSt n s t ∧
    Stores m (fun t b => { b with dm := t.dm, edges := t.edges, oddWant := t.oddWant, oddLast := t.oddLast }) p s t

/-- One check-value unit with the writes that wait, and the feedback unit it judges for. -/
def cv (u n : Nat) (p : Nat → Prop) (s t : State) : Prop :=
  Others Block.cvSt u s t ∧ Others Block.fbSt n s t ∧
    Leaves (fun t b => { b with cv := t.cv, cvq := t.cvq, fb := t.fb, edges := t.edges }) p s t

/-- An engine: `u` says what may change in it beside its tasks, `v` which tasks may, `f` what else of the part. -/
def engine (f : Block → Block → Block) (u : EngSt → EngSt → EngSt) (v : Nat → Prop) (e : Nat) (p : Nat → Prop) (s t : State) : Prop :=
  Others Block.engSt e s t ∧ (∀ j, ¬ v j → t.now.taskSt e j = s.now.taskSt e j) ∧
    t.now.engSt e = u (t.now.engSt e) { s.now.engSt e with tasks := (t.now.engSt e).tasks } ∧
    Leaves (fun t b => f t { b with eng := t.eng }) p s t

/-- An engine that stores to the bytes of `m`. -/
def engineStore (m : Nat → Prop) (f : Block → Block → Block) (u : EngSt → EngSt → EngSt) (v : Nat → Prop) (e : Nat)
    (p : Nat → Prop) (s t : State) : Prop :=
  Others Block.engSt e s t ∧ (∀ j, ¬ v j → t.now.taskSt e j = s.now.taskSt e j) ∧
    t.now.engSt e = u (t.now.engSt e) { s.now.engSt e with tasks := (t.now.engSt e).tasks } ∧
    Stores m (fun t b => f t { b with eng := t.eng }) p s t

/-- One Golbex lane (and lane 0, where lane n is a twin lane and shares it), with the edges it raises. -/
def link (n : Nat) (p : Nat → Prop) (s t : State) : Prop :=
  (∀ m, m ≠ n ∧ m ≠ s.now.glHome n → t.now.glSt m = s.now.glSt m) ∧ Leaves (fun t b => { b with gl := t.gl, edges := t.edges }) p s t

/-- The twin link: both lanes may take a cell. -/
def twin (p : Nat → Prop) (s t : State) : Prop := Leaves (fun t b => { b with gl := t.gl }) p s t

/-- The host port, of which `u` says what may change beside session n and what it sends, and `f` what else of the part. -/
def host (n : Nat) (u : HpSt → HpSt → HpSt) (f : Block → Block → Block) (p : Nat → Prop) (s t : State) : Prop :=
  (t.now.hp.sess.filter fun y => y.num != n) = (s.now.hp.sess.filter fun y => y.num != n) ∧
    Leaves (fun t b => f t { b with hostOut := t.hostOut, hp := u t.hp { b.hp with sess := t.hp.sess } }) p s t

/-- The outputs that lockups, declared engines and the permit act on (R189, R256, R338, R351): edge generators, head-drive lanes,
emulation outputs, fire generators, balls; `f` says what else may change. -/
def outs (f : Block → Block → Block) (p : Nat → Prop) (s t : State) : Prop :=
  Leaves (fun t b => f t { b with eg := t.eg, hl := t.hl, emu := t.emu, fg := t.fg, balls := t.balls, edges := t.edges }) p s t

end Frame

/-- The registers of one block. -/
def block (base size a : Nat) : Prop := base ≤ a ∧ a < base + size

/-- The registers of a block, with those an emission may change. -/
def blockOr (base size a : Nat) : Prop := block base size a ∨ evRegion a

/-- The registers of edge generators and head-drive lanes. -/
def forcedRegs (a : Nat) : Prop := block 0x40200000 0x3000 a ∨ block 0x40500000 0x1000 a

/-- The registers of loop lanes and law units. -/
def laneRegs : Nat → Prop := block 0x40400000 0xA000

/-- The registers a detection of a head-drive lane may change: trip groups, what they force, events. -/
def tripRegs (a : Nat) : Prop := forcedRegs a ∨ block 0x40208000 0x800 a ∨ evRegion a

/-- The registers of fire generators, lane queues, the assembler and head contexts, with events and memory error counts. -/
def fireRegs (a : Nat) : Prop := block 0x40700000 0x11000 a ∨ block 0x50600000 0x10000 a ∨ block 0x51600000 0x10000 a ∨ evRegion a

/-- The registers that count memory errors. -/
def sumRegs (a : Nat) : Prop := block 0x50600000 0x10000 a ∨ block 0x51600000 0x10000 a

/-- The registers an output changes by itself, and those that count. -/
def outRegs (a : Nat) : Prop :=
  block 0x40200000 0x100000 a ∨ block 0x40500000 0x100000 a ∨ block 0x40600000 0x100000 a ∨ block 0x40700000 0x20000 a ∨ evRegion a

/-! ### Accesses -/

/-- A register write by an agent reaches the register at `a` (R24, R26, R32, R40, R663, R753). -/
def Reaches (s : State) (ag : Agent) (a : Nat) : Bool :=
  (ag != .mnt || s.now.mntReady) && (s.now.deadWriter s.hw ag a).isNone && (locate s.hw a).any (s.now.mayWrite ag)

/-- An action waits at an input in this fc (R395). -/
def Waits (s : State) (i : Input) : Bool := s.now.fc.latched.any fun a => a.input == i && !a.done

/-! ### Engines -/

/-- Engine e is present, in use and neither locked up, in isolation reset nor kept still by its package's role. -/
def Machine.Block.alive (b : Block) (c : Ctx) (e : Nat) : Bool := !b.engOff c.hw e && !b.pairStill c.tick e

/-- The activations that reach task k of engine e in this fc: kind and interrupt source (R503). -/
def Machine.Block.arrivals (b : Block) (tick e k : Nat) : List (Nat × Nat) :=
  ((b.fc.taskAct.filter fun a => a.1 == e * 64 + k).map fun a => a.2) ++
    ((b.pendActs.filter fun p => p.inst == e * 64 + k && p.due ≤ tick).map fun p => (p.kind, p.irq))

/-- The kinds of activations as one mask. -/
def kindsOf (l : List (Nat × Nat)) : Nat := l.foldl (fun m a => m ||| a.1) 0

/-- The lowest interrupt source among activations; 0 where none comes from an interrupt. -/
def irqOf (l : List (Nat × Nat)) : Nat :=
  let d := l.filter fun a => a.1 == 4
  d.foldl (fun m a => min m a.2) 0x3FF * b2n (!d.isEmpty)

/-- A task in WAIT as the activations `l` make it READY in fc `tick` (R503–R506). -/
def Machine.TaskSt.begun (t : TaskSt) (l : List (Nat × Nat)) (tick : Nat) : TaskSt :=
  { t with
    st := .ready, readySince := tick, acKind := kindsOf l, acIrq := irqOf l, atick := tick % 2 ^ 32, waited := false
    deadline := if t.dln = 0 then none else some (tick + t.dln) }

/-- A task as TCMD RESTART leaves it (R496, R509). -/
def Machine.TaskSt.restarted (t : TaskSt) : TaskSt :=
  { t with st := .wait, pc := t.entry, rsmV := false, rsmIdx := 0, apend := false, deadline := none }.ctDirty

/-- Task k of engine e was not running and has raised an exception (R520). -/
def Machine.Block.raisedFor (t s : Block) (tick e k code eaddr einfo : Nat) : Prop :=
  (t.engSt e).queue = insExc ⟨tick, k, code, (s.taskSt e k).pc, eaddr, einfo, (s.taskSt e k).st == .wait⟩ (s.engSt e).queue ∧
    t.taskSt e k = { s.taskSt e k with st := .held, deadline := none, drain := none }

/-! ### Links -/

/-- The header check of a cell is right and its payload check finds no error (R693, R697). -/
def cellGood (head : Word) (crc : BitVec 16) (payload : BitVec 256) (check : BitVec 16) : Bool :=
  headCrc head.toNat == crc.toNat && k272 payload.toNat == check.toNat

/-- Lane n is an UP HEAD lane: it receives cells (R697). -/
def Machine.Block.headUp (b : Block) (n : Nat) : Bool := b.glHead n && b.get (F.GL_STAT_LSTATE n) == 4

/-! ### The pair -/

/-- A cell is queued on every twin lane, with the next SEQ of its channel and the lane whose software committed it, 2 for none, and
whether its payload carries POISON (R562, R695, R699, R701). -/
def TwinSends (s t : State) (prio src head payload : Nat) (poison : Bool := false) : Prop :=
  (∀ n ∈ [0, 1], s.now.glTwin n = true → (t.now.glSt n).tq =
    (s.now.glSt n).tq ++ [⟨prio, src, setBits head 19 12 ((s.now.glSt 0).seq.getD 0 (bits head 27 20)), payload, poison⟩]) ∧
    (t.now.glSt 0).seq.getD 0 (bits head 27 20) = ((s.now.glSt 0).seq.getD 0 (bits head 27 20) + 1) % 256

/-! ### Host port -/

/-- Requests are served as they come: in HOLD none is being served before them (R662). -/
def Machine.Block.prompt (b : Block) : Bool := !b.inHold || (!b.retry && b.hp.cfgs.isEmpty && b.hp.later.isEmpty)

/-- The host port runs, takes requests from the address, and serves them as they come (R662, R713, R716). -/
def HostTakes (s : State) (ip : Nat) : Bool :=
  s.now.hostOn && s.now.prompt && (!s.now.inRun || (ip &&& s.now.rd R.HP_ACLM) == (s.now.rd R.HP_ACLA &&& s.now.rd R.HP_ACLM))

/-- The request belongs to session x, is well formed, of the type, allowed in this state, and its SEQ is new to a session that
keeps fewer than 64 results: it is performed (R716–R721). -/
def Admits (s : State) (h : KspHead) (typ : Nat) (held : Bool) (x : KspSess) : Bool :=
  HostTakes s h.ip && h.good && h.typ == typ && (h.flags == 0 || (typ == 2 && h.flags == 1)) && (s.now.inRun || held) &&
    s.now.hp.sess.find? (fun y => y.num == h.sess && y.ip == h.ip && y.port == h.port) == some x &&
    x.results.all (fun r => r.1 != h.seq) && x.results.length < 64

/-- Who asks in a request. -/
def kspWho (h : KspHead) : KspWho := ⟨h.sess, h.seq, h.ip, h.port, h.typ⟩

/-- The response has been sent to who asked. -/
def Sent (s t : State) (w : KspWho) (status : Nat) (body : List Nat) : Prop :=
  t.now.hostOut = s.now.hostOut ++ [.ksp w.ip w.port (kspMsg w status body)]

/-- The same, and the response is kept with the session for a repeated request (R721). -/
def Answered (s t : State) (w : KspWho) (status : Nat) (body : List Nat) : Prop :=
  Sent s t w status body ∧
    ∀ y ∈ t.now.hp.sess, y.num = w.sess → (w.seq, some (kspMsg w status body)) ∈ y.results ∧ y.last = s.tick

/-- The request has been noted in its session, and no answer has been sent. -/
def Noted (s t : State) (w : KspWho) : Prop :=
  t.now.hostOut = s.now.hostOut ∧ ∀ y ∈ t.now.hp.sess, y.num = w.sess → (w.seq, none) ∈ y.results ∧ y.last = s.tick

/-! ### Resets -/

/-- `t` is the part of `s` as a package reset leaves it (R634, R681, R687): the registers of `p` are stated beside it, every other
reads its reset value; flash, keys, the TAP and what has left the part stay; on-chip memory reads 0; nothing else is left. -/
def ResetOf (p : Nat → Prop) (s t : State) : Prop :=
  t.hw = s.hw ∧ t.pending = s.pending ∧ t.start = t.now ∧
    (∀ a, t.now.memByte a = if flashBase ≤ a then s.now.memByte a else 0) ∧
    (∀ a, ¬ p a → t.now.rd a = Block.atReset.rd a) ∧
    (t.now.flashChk = s.now.flashChk ∧ t.now.flashInc = s.now.flashInc ∧ t.now.flashPint = s.now.flashPint ∧
      t.now.flashPinta = s.now.flashPinta ∧ t.now.tap = s.now.tap ∧ t.now.hostOut = s.now.hostOut) ∧
    t.now =
      { Block.atReset with
        regs := t.now.regs, mem := t.now.mem, flashChk := t.now.flashChk, flashInc := t.now.flashInc
        flashPint := t.now.flashPint, flashPinta := t.now.flashPinta, resp := s.now.resp, respTag := s.now.respTag
        freeCount := s.now.freeCount, hostOut := t.now.hostOut, always := t.now.always, tap := t.now.tap }

/-- The registers of the Lichen domain and BOOT_RESET, and those that show what the flash array holds. -/
def resetRegs (a : Nat) : Prop := lichenReg a = true ∨ block 0x60000000 0x10000 a

/-! ### Instructions -/

/-- The fetch of an instruction of `m.len` bytes by task k of engine e. -/
def fetched (s : State) (e k : Nat) (m : Meta) : Eff :=
  fetchAll s.ctx e (s.now.taskSt e k).priv (s.now.taskSt e k).pc m.len (bookIssue s.ctx e k m s.now)

/-- Task k of engine e is running, may issue the instruction in this fc and fetches it without an exception (R407–R416). -/
def Fetches (s : State) (e k : Nat) (m : Meta) : Bool :=
  (s.now.engSt e).run == some k && s.now.mayIssue s.ctx e k m &&
    (match fetched s e k m with
     | .done _ => true
     | _ => false)

/-- The same, and the instruction passes every check before its own: encoding and register rules, RSM, privilege, POISON (R451,
R465, R470, R515). -/
def Issues (s : State) (e k : Nat) (m : Meta) : Bool :=
  let t := s.now.taskSt e k
  Fetches s e k m && !m.noResume t && m.bad.isNone && !(m.priv && t.priv) && (t.poisoned m.uses).isNone

/-- `s` with what the issue of an instruction changes taken from `t`: bookings, what the fetch leaves in the I-cache. -/
def Machine.EngSt.booked (t s : EngSt) : EngSt :=
  { s with tasks := t.tasks, issueAt := t.issueAt, holdEnd := t.holdEnd, pair := t.pair, icache := t.icache, lbuf := t.lbuf }

/-- `s` with what the issue of an instruction changes taken from `t`: registers, PC, dirty masks. -/
def Machine.TaskSt.booked (t s : TaskSt) : TaskSt :=
  { s with g := t.g, pc := t.pc, avail := t.avail, ds := t.ds, dc := t.dc, drain := t.drain }

/-- The whole frame of an instruction issued by task k of engine e: the registers of `w` may change, of the engine and the task
what the issue books and what `u` and `v` take from their first argument, and the memory error counts of the fetch; every other
register, task, engine, unit and byte of memory is as before. What a hold of the issue puts off, it puts off (R499, R520). -/
def Frame.instr (u : EngSt → EngSt → EngSt) (v : TaskSt → TaskSt → TaskSt) (w : Nat → Prop) (e k : Nat) (s t : State) : Prop :=
  Others Block.engSt e s t ∧ (∀ j, j ≠ k → t.now.taskSt e j = s.now.taskSt e j) ∧
    t.now.engSt e = u (t.now.engSt e) ((t.now.engSt e).booked ((s.now.engSt e).holdTo s.tick k (t.now.engSt e).holdEnd)) ∧
    t.now.taskSt e k = v (t.now.taskSt e k) ((t.now.taskSt e k).booked (s.now.taskSt e k)) ∧
    (∀ r, ¬ w r → (t.now.taskSt e k).reg r = (s.now.taskSt e k).reg r) ∧
    Leaves (fun t b => { b with eng := t.eng, edges := t.edges }) sumRegs s t

/-- The frame of an instruction that changes registers alone. -/
def Frame.regsOf (w : Nat → Prop) (e k : Nat) (s t : State) : Prop := Frame.instr (fun _ s => s) (fun _ s => s) w e k s t

/-- The PC has passed an instruction of len bytes, CT and the groups of grp are dirty, and in mode D the next issue is cost fc
later (R407, R408, R509). -/
def Passed (s t : State) (e k len cost grp : Nat) : Prop :=
  (t.now.taskSt e k).pc = ((s.now.taskSt e k).pc + len) % 2 ^ 32 ∧
    (t.now.taskSt e k).ds = ((s.now.taskSt e k).ds ||| 2 ^ 5) ||| grp ∧ (t.now.taskSt e k).dc = ((s.now.taskSt e k).dc ||| 2 ^ 5) ||| grp ∧
    ((s.now.engSt e).modeP = false → (t.now.engSt e).issueAt = s.tick + cost)

/-- The dirty bit of a register's group; G0 has none. -/
def groupBit (rd : Nat) : Nat := if rd = 0 then 0 else 2 ^ (rd / 8)

/-- An instruction of len bytes has given v to rd, readable u fc after the issue; G0 keeps its 0 (R409, R447, R509). -/
def Result (s t : State) (e k rd len u : Nat) (v : TWord) : Prop :=
  (t.now.taskSt e k).reg rd = (if rd = 0 then ⟨0, 1⟩ else v) ∧
    (t.now.taskSt e k).avail.getD 0 rd = (if u ≤ 1 ∨ rd = 0 then 0 else s.tick + u) ∧
    Passed s t e k len 1 (groupBit rd) ∧ Frame.regsOf (· = rd) e k s t

/-- A result v for rd is on its way and lands u fc after the issue (R410). -/
def LateResult (s t : State) (e k rd len u : Nat) (v : TWord) : Prop :=
  (t.now.engSt e).late = (s.now.engSt e).late ++ (if rd = 0 then [] else [⟨k, rd, v, s.tick + u⟩]) ∧ Passed s t e k len 1 0 ∧
    Frame.instr (fun t s => { s with late := t.late }) (fun _ s => s) (fun _ => False) e k s t

/-- An instruction of len bytes has given accumulator n a value (R448, R509). -/
def Accumulates (s t : State) (e k len n : Nat) (v : AccV) : Prop :=
  (t.now.taskSt e k).acc n = v ∧ (t.now.taskSt e k).acc (1 - n) = (s.now.taskSt e k).acc (1 - n) ∧ Passed s t e k len 1 (2 ^ 4) ∧
    Frame.instr (fun _ s => s) (fun t s => { s with acc0 := t.acc0, acc1 := t.acc1 }) (fun _ => False) e k s t

/-- A held task as ERET makes it READY (R509, R523). -/
def Machine.TaskSt.returned (t : TaskSt) (s : EngSt) (tick : Nat) : TaskSt :=
  { t with pc := s.epc, priv := s.epriv || t.ceil, st := .ready, readySince := tick }.ctDirty

/-- `s` with what a new activation sets taken from `t` (R504, R506). -/
def Machine.TaskSt.activated (t s : TaskSt) : TaskSt :=
  { s with
    st := t.st, readySince := t.readySince, apend := t.apend, acKind := t.acKind, acIrq := t.acIrq, atick := t.atick
    deadline := t.deadline, waited := t.waited, waitAt := t.waitAt }

/-- The entry of a fabric load that issues in fc `tick` in mode D (R438, R439). -/
def Machine.EngSt.farLoad (s : EngSt) (e k pc rd a n : Nat) (sext : Bool) (hint tick : Nat) : LoadEnt :=
  let f := accessFigure e a n
  let w := (s.takeSlot e tick f.1).1
  ⟨k, pc, rd, a, n, sext, hint, some (w + f.1.b - f.1.k), some (w + f.1.b + f.2), none, false⟩

/-- The entry of a fabric store, but to the flash read window, that issues in fc `tick` in mode D (R438, R439). -/
def Machine.EngSt.farStore (s : EngSt) (e k a n : Nat) (v : TWord) (tick : Nat) : StoreEnt :=
  let f := accessFigure e a n
  ⟨k, a, n, v, false, some ((s.takeSlot e tick f.1).1 + f.1.b + f.2), false⟩

/-- Task k has raised exception x at the address epc: it joins the queue, the task is HELD, the engine runs none (R520, R521). -/
def Raised (s t : State) (e k epc : Nat) (x : Trap) : Prop :=
  (t.now.engSt e).queue = insExc ⟨s.tick, k, x.code, epc, x.eaddr, x.einfo, (s.now.taskSt e k).st == .wait⟩ (s.now.engSt e).queue ∧
    (t.now.engSt e).run = none ∧ (t.now.taskSt e k).st = .held ∧ (t.now.taskSt e k).deadline = none ∧
    (t.now.taskSt e k).pc = epc ∧
    Frame.instr (fun t s => { s with queue := t.queue, run := t.run, sel := t.sel })
      (fun t s => { s with st := t.st, deadline := t.deadline }) (fun _ => False) e k s t

/-- A branch at the PC has gone to target, or past itself where it is not taken; cost and prediction follow `resolve`
(R417–R420). -/
def Branched (s t : State) (e k len : Nat) (kind : BranchKind) (target : Nat) (taken : Bool) (w : Nat → Prop) : Prop :=
  let z := (s.now.engSt e).resolve kind (s.now.taskSt e k).pc target taken
  (t.now.taskSt e k).pc = (if taken then target else ((s.now.taskSt e k).pc + len) % 2 ^ 32) ∧
    (t.now.engSt e).issueAt = s.tick + z.1 ∧ (t.now.engSt e).bht = z.2.bht ∧ (t.now.engSt e).btb = z.2.btb ∧
    Frame.instr (fun t s => { s with bht := t.bht, btb := t.btb }) (fun _ s => s) w e k s t

/-- A microcoded instruction has completed with its result registers, readable with the next instruction in mode D and after the whole
cost in mode P (R409, R411, R479, R509). -/
def Completes (s t : State) (e k cost : Nat) (l : List (Nat × TWord)) : Prop :=
  (∀ x ∈ l, (t.now.taskSt e k).reg x.1 = (if x.1 = 0 then ⟨0, 1⟩ else x.2) ∧
      (t.now.taskSt e k).avail.getD 0 x.1 = if (s.now.engSt e).modeP ∧ x.1 ≠ 0 then s.tick + cost else 0) ∧
    Passed s t e k 4 cost (l.foldl (fun g x => g ||| groupBit x.1) 0) ∧
    Frame.regsOf (fun r => r ∈ l.map Prod.fst) e k s t

/-- What the issue judges of a microcoded instruction that moves words: registers read, read as they stand, and written. -/
def moving (uses moves writes : List Nat) (cost : Nat) : Meta := { uses, moves, writes, cost, wide := true, micro := true }

/-- Does SAVEG of mask m write save word j of a task (R467)? -/
def Machine.TaskSt.saves (t : TaskSt) (m j : Nat) : Bool := bit m (wordGroup j) && (wordGroup j == 5 || bit t.ds (wordGroup j))

/-- The registers of the save words that p picks. -/
def wordRegs (p : Nat → Bool) : List Nat := ((List.range 31).filter p).map (· + 1)

/-- Microcoded instructions of engine e are as they were made: no match register is enabled, none and no patch word has failed
its parity (R536, R540, R541). -/
def Machine.Block.microPlain (b : Block) (e : Nat) : Bool :=
  !(List.range 16).any (fun k => b.on (F.UC_MATCH_EN e k)) && (b.engSt e).badMicro.isEmpty && (b.engSt e).badNano.isEmpty &&
    (b.engSt e).badMatch.isEmpty

/-- The microcoded instruction i, issued afresh and left at no boundary, gives its result registers what f makes of the task. -/
def GivesAll (i : Instr) (e : Nat) (m : Meta) (f : TaskSt → Except Trap (List (Nat × TWord))) : Prop :=
  ∀ (s : State) (k : Nat) (l : List (Nat × TWord)), Issues s e k { m with micro := true } = true →
    (s.now.taskSt e k).rsmV = false → s.now.microPlain e = true → f (s.now.taskSt e k) = .ok l →
    Answers i s fun t => Completes s t e k m.cost l

/-- The instruction i gives rd what f makes of the task, wherever it issues and f finds its operands acceptable. -/
def Gives (i : Instr) (e : Nat) (m : Meta) (rd u : Nat) (f : TaskSt → Except Trap TWord) : Prop :=
  ∀ (s : State) (k : Nat) (v : TWord), Issues s e k m = true → f (s.now.taskSt e k) = .ok v →
    Answers i s fun t => Result s t e k rd m.len u v

/-- The same for a result that comes late. -/
def GivesLate (i : Instr) (e : Nat) (m : Meta) (rd u : Nat) (f : TaskSt → Except Trap TWord) : Prop :=
  ∀ (s : State) (k : Nat) (v : TWord), Issues s e k m = true → f (s.now.taskSt e k) = .ok v →
    Answers i s fun t => LateResult s t e k rd m.len u v

/-- The instruction i raises what f finds wrong with its operands, in any task but T00. -/
def Raises {α : Type} (i : Instr) (e : Nat) (m : Meta) (f : TaskSt → Except Trap α) : Prop :=
  ∀ (s : State) (k : Nat) (x : Trap), k ≠ 0 → Issues s e k m = true → x.next = false → f (s.now.taskSt e k) = .error x →
    Answers i s fun t => Raised s t e k (s.now.taskSt e k).pc x

/-- Two operands under a rule of the tag table, and the result they make. -/
def rr (ra rb : Nat) (rule : Nat → Nat → Option Nat) (f : Nat → Nat → Nat → Nat → Nat → TWord) (t : TaskSt) : Except Trap TWord :=
  (pairUp rule (t.opd ra) (t.opd rb)).map fun x => f x.1 x.2.1 x.2.2 (t.opd ra).d (t.opd rb).d

/-- One operand under a rule of the tag table, and the result it makes. -/
def r1 (ra : Nat) (rule : Nat → Option Nat) (f : Nat → Nat → Nat → TWord) (t : TaskSt) : Except Trap TWord :=
  (single rule (t.opd ra)).map fun g => f (t.opd ra).t g (t.opd ra).d

/-- A shift by a register. -/
def rs (op : ShiftOp) (ra rb : Nat) (t : TaskSt) : Except Trap TWord :=
  (single (among (shiftTags op)) (t.opd ra)).bind fun g =>
    (single (among [Tag.int, Tag.uns]) (t.opd rb)).map fun _ => shift op g (t.opd ra).d ((t.opd rb).d % 64)

end Sys2Proof
end

