-- ==== Sys2Proof/Certificates/Slice0/Obligations.lean ====
section
/-! DEFINITION. The statements for the provers: one obligation for each family of commands and kind of state, one clause for each row. -/

open Sys2Proof Sys2Proof.Machine

/-- The step of a state with a command at the front of its queue is that command's meaning, with the rest of the queue. -/
def Obligations.StepRunsFrontCommand : Prop :=
  ∀ (s : State) (i : Instr) (rest : List Instr), s.pending = i :: rest → step s = exec i { s with pending := rest }

/-- On an empty queue a step is the passing of one fc (the model's choice, log entry 1): the tick count rises by one and what
belonged to the fc before is gone; while PLLF is not locked time stands (R635). -/
def Obligations.EmptyQueuePassesOneFc : Prop :=
  ∀ (s : State),
    (s.pending = [] → s.now.pllF = true → (endFc s.ctx s.now).resetDue = none → (endFc s.ctx s.now).retry = false →
      StepsTo s fun t => t.tick = s.tick + 1 ∧ t.start = endFc s.ctx s.now ∧ t.start.fc = {} ∧ t.now = beginFc t.ctx t.start ∧
      t.hw = s.hw ∧ t.pending = []) ∧
    (s.pending = [] → s.now.pllF = false → step s = .next s)

/-- Every row has an effect: no run of any length, from any state, ends in a fault or a refusal. -/
def Obligations.EveryRunIsSafe : Prop :=
  ∀ (k : Nat) (s : State), SafeRun k s

/-- INVARIANT: no step changes what the silicon fixes (variant, stepping, ROM revision, serial number, identity key), and a step
takes from the queue the command at its front and puts none in. -/
def Obligations.StepKeepsSiliconAndQueueOrder : Prop :=
  ∀ (h : Hw) (s t : State), s.hw = h → step s = .next t → t.hw = h ∧ t.pending = s.pending.tail

/-- INVARIANT: every step keeps memory, as it stands and as the fc began with it, in its one canonical form. -/
def Obligations.StepKeepsMemoryCanonical : Prop :=
  ∀ s t : State, Memory.wf s.now.mem = true → Memory.wf s.start.mem = true → step s = .next t → Memory.wf t.now.mem = true ∧
    Memory.wf t.start.mem = true

/-- What reset leaves: memory and registers are in canonical form, no command waits, the time base is 0, BOOT_STATUS.STATE is
BOOT, PERMIT_OUT is low and every other ball undriven (R6, R633, R634). Rests on the model's choices of log entries 9, 10 and
11. -/
def Obligations.ResetEstablishesInvariants : Prop :=
  Memory.wf State.reset.now.mem = true ∧ Memory.wf State.reset.start.mem = true ∧ State.reset.now.regsWf = true ∧
    State.reset.pending = [] ∧ State.reset.tick = 0 ∧ State.reset.now.get F.BOOT_STATUS_STATE = 0 ∧
    (∀ k, State.reset.now.balls.getD 0 k = if k = 2 then 1 else 0)

/-- REGISTER_WRITE, ABSENT_READ, RC_READ. A write that reaches a register is its unit's own; one to an absent address counts
ABSENT, one by an agent that does not own the register counts OWNER, and neither does anything else; the maintenance port's
writes are ignored before S. A read of an absent address gives 0 with tag RAW and counts ABSENT; a read of a violation counter
gives its value before the fc and leaves what hardware added in the fc. Rests on the model's choices of log entries 2, 15, 16,
30, 116 and 117. -/
def Obligations.RegisterAccessEffects : Prop :=
  ∀ (s : State) (ag : Agent) (a v : Word),
    (∀ (l : Loc), Reaches s ag a.toNat → locate s.hw a.toNat = some l →
      exec (.registerWrite ag a v) s = .next { s with now := unitWrite s.ctx ag l a.toNat v.toNat s.now }) ∧
    (∀ (l : Loc), ag ≠ .mnt → s.now.deadWriter s.hw ag a.toNat = none → locate s.hw a.toNat = some l →
      s.now.mayWrite ag l = false →
      exec (.registerWrite ag a v) s = .next { s with now := s.now.violate (s.now.setOf ag) .owner 1 }) ∧
    (ag ≠ .mnt → s.now.deadWriter s.hw ag (busAddr ag a.toNat) = none → absent s.hw (busAddr ag a.toNat) = true →
      exec (.registerWrite ag a v) s = .next { s with now := s.now.violate (s.now.setOf ag) .absent 1 }) ∧
    (ag = .mnt → s.now.mntReady = false → Idle (.registerWrite ag a v) s) ∧
    (a.toNat % 4 = 0 → absent s.hw (busAddr ag a.toNat) = true →
      exec (.absentRead ag a) s = .next { s with now := (s.now.violate (s.now.setOf ag) .absent 1).answer 0 0 }) ∧
    (∀ (r : Fin 8) (w : Violation), r.val < nRegions s.hw → a.toNat = (vcFld (some r.val) w).addr →
      Answers (.rcRead ag a) s fun t => t.now.resp = s.start.get (vcFld (some r.val) w) ∧ t.now.respTag = 0 ∧
      t.now.get (vcFld (some r.val) w) = satAdd 16 0 (s.now.fc.rcAdd.getD 0 (a.toNat * 32)) ∧
      Frame.regs (fun x => x = a.toNat) s t) ∧
    (∀ (w : Violation), a.toNat = (vcFld none w).addr → Answers (.rcRead ag a) s fun t =>
      t.now.resp = s.start.get (vcFld none w) ∧ t.now.respTag = 0 ∧
      t.now.get (vcFld none w) = satAdd 16 0 (s.now.fc.rcAdd.getD 0 (a.toNat * 32)) ∧ Frame.regs (fun x => x = a.toNat) s t)

/-- The reads that take a snapshot: the low word of a time, an accumulator, a length or an offset, with the high part as it
stood at the same instant in its own register or snapshot; and the edge of LCLK that latches the correlation set. Rests on the
model's choices of log entries 18 and 117. -/
def Obligations.SnapshotReadEffects : Prop :=
  ∀ (s : State) (ag : Agent),
    (Answers (.tbLoRead ag) s fun t => t.now.resp = s.tick % 2 ^ 32 ∧ t.now.tb.hiSnap = s.tick / 2 ^ 32 % 2 ^ 32 ∧
      Frame.tb (fun _ => False) s t) ∧
    (Answers (.tbLctLoRead ag) s fun t => t.now.resp = s.start.tb.lct % 2 ^ 32 ∧ t.now.tb.lctHiSnap = s.start.tb.lct / 2 ^ 32 ∧
      t.now.tb.lclSnap = s.start.tb.lcl ∧ Frame.tb (fun _ => False) s t) ∧
    (Answers (.pwLtblRead ag) s fun t => t.now.resp = s.start.always.ltb % 2 ^ 32 ∧
      t.now.rd R.PW_LTBH = s.start.always.ltb / 2 ^ 32 % 2 ^ 32 ∧ Frame.regs (fun a => a = R.PW_LTBH) s t) ∧
    (∀ (n : Fin 32), n.val < nLU s.hw → Answers (.luAloRead ag n) s fun t => t.now.resp = (s.start.luSt n).acc % 2 ^ 32 ∧
      (t.now.luSt n).ahiSnap = (s.start.luSt n).acc / 2 ^ 32 % 65536 ∧ (t.now.luSt n).acc = (s.now.luSt n).acc ∧
      Frame.lu n (fun _ => False) s t) ∧
    (∀ (n : Fin 16), n.val < nHL s.hw → Answers (.fgLstlRead ag n) s fun t =>
      t.now.resp = tickOf (s.start.fgSt n).lst % 2 ^ 32 ∧
      t.now.rd (R.FG_LSTH n) = tickOf (s.start.fgSt n).lst / 2 ^ 32 % 2 ^ 32 ∧
      t.now.rd (R.FG_LSTF n) = fineOf (s.start.fgSt n).lst ∧ Frame.regs (fun a => a = R.FG_LSTH n ∨ a = R.FG_LSTF n) s t) ∧
    (Answers (.bootSerlRead ag) s fun t => t.now.resp = s.hw.ser % 2 ^ 32 ∧ Frame.regs (fun _ => False) s t) ∧
    (∀ (x : Nat), s.now.fcS = some x → Answers (.bootTstlRead ag) s fun t => t.now.resp = x % 2 ^ 32 ∧
      t.now.rd R.BOOT_TSTH = x / 2 ^ 32 % 2 ^ 32 ∧ Frame.regs (fun a => a = R.BOOT_TSTH) s t) ∧
    (∀ (j : Fin 256), peMask s.hw ≠ 0 → Answers (.spJobLenlRead ag j) s fun t => t.now.resp = s.start.jobLen.getD 0 j % 2 ^ 32 ∧
      t.now.rd (R.JOB_LENH j) = s.start.jobLen.getD 0 j / 2 ^ 32 % 2 ^ 32 ∧ Frame.regs (fun a => a = R.JOB_LENH j) s t) ∧
    (∀ (n : Fin 8), bit (slMask s.hw) n = true → s.now.glCells n = true → Answers (.glOfslRead ag n) s fun t =>
      t.now.resp = (s.start.glSt n).ofs % 2 ^ 32 ∧ t.now.rd (R.GL_OFSH n) = (s.start.glSt n).ofs / 2 ^ 32 % 2 ^ 32 ∧
      t.now.rd (R.GL_DLY n) = (s.start.glSt n).dly % 2 ^ 32 ∧
      Frame.regs (fun a => a = R.GL_OFSH n ∨ a = R.GL_DLY n ∨ a = R.GL_SNUM n) s t) ∧
    (∀ (w : Fin 16), s.now.always.sleeping = false → Answers (.lclkEdge w) s fun t =>
      t.now.always.ltb = (s.now.always.ltb + 1) % 2 ^ 48 ∧ t.now.always.wake = w.val ∧
      t.now.always.wakePrev = s.now.always.wake ∧ t.now.tb.lct = s.tick ∧ t.now.tb.lcl = t.now.always.ltb ∧
      (s.now.inRun = true → s.now.on F.PW_WDT_CTL_EN = true → t.now.rd R.PW_WDT_CNT = (s.now.rd R.PW_WDT_CNT + 1) % 2 ^ 32) ∧
      Frame.always (fun a => a = R.PW_WDT_CNT) s t) ∧
    (∀ (w : Fin 16), s.now.always.sleeping = true → Answers (.lclkEdge w) s fun t =>
      t.now.always.ltb = (s.now.always.ltb + 1) % 2 ^ 48 ∧ t.now.always.wake = w.val ∧ t.now.tb = s.now.tb ∧
      Frame.always (fun _ => False) s t)

/-- Compare channels. A match and a late match emit MATCH, clear EN without auto-add and add IVL (by the smallest k of R124 when
late) with it; START loads t:0 + IVL and sets EN, STOP clears it; CMPF and CMPL are staged, CMPH commits them; CMPL's read takes
the value's snapshot. Capture pairs. An edge qualifies in the fc its stamp and the filter give; a rise opens a pair, the fall
lands it with its width and sets NEW, and OVR where the pair before was unread; ARM sets EN, STOP clears it and discards an open
pair; a read of RISE takes the snapshot, clears NEW and puts a pair that became ready in the same fc off to the next. Rests on
the model's choices of log entries 125 and 164. -/
def Obligations.CompareAndCaptureEffects : Prop :=
  ∀ (s : State),
    (∀ (n : Fin 1024), ccDue s.ctx n = true → s.now.emittedNow .cc n 0 = false → Answers (.ccMatch n) s fun t =>
      t.now.emittedNow .cc n 0 = true ∧ (s.start.on (F.CC_CTL_AA n) = false → s.now.ccStarted n = false →
      s.now.ccEnWritten n = false → t.now.on (F.CC_CTL_EN n) = false) ∧ (s.start.on (F.CC_CTL_AA n) = true →
      0x40 ≤ s.start.get (F.CC_IVL_IVL n) → s.now.ccReplaced n = false →
      (t.now.ccSt n).val = (s.start.ccSt n).val + s.start.get (F.CC_IVL_IVL n)) ∧ (s.start.on (F.CC_CTL_AA n) = true →
      s.start.get (F.CC_IVL_IVL n) < 0x40 → t.now.on (F.CC_STAT_IVLERR n) = true) ∧ Frame.cc n (blockOr (R.baseCC n) 0x20) s t) ∧
    (∀ (n : Fin 1024), ccBehind s.ctx n = true → s.now.fc.judged.contains (evKey .cc n 0) = false →
      Answers (.ccLateMatch n) s fun t => t.now.on (F.CC_STAT_LATE n) = true ∧ (s.start.on (F.CC_CTL_SKIP n) = false →
      t.now.emittedNow .cc n 0 = true) ∧ (s.start.on (F.CC_CTL_AA n) = true → 0x40 ≤ s.start.get (F.CC_IVL_IVL n) →
      s.now.ccReplaced n = false →
      (t.now.ccSt n).val = (s.start.ccSt n).val + lateK (s.start.ccSt n).val (s.start.get (F.CC_IVL_IVL n)) s.tick * s.start.get
        (F.CC_IVL_IVL n)) ∧
      (s.start.on (F.CC_CTL_AA n) = false → s.now.ccStarted n = false → s.now.ccEnWritten n = false →
      t.now.on (F.CC_CTL_EN n) = false) ∧ Frame.cc n (blockOr (R.baseCC n) 0x20) s t) ∧
    (∀ (n : Fin 1024), Waits s (CC.startIn n) → s.now.acted (CC.stopIn n) = false → Answers (.ccStart n) s fun t =>
      t.now.on (F.CC_CTL_EN n) = true ∧ (t.now.ccSt n).val = s.tick * 64 + s.start.get (F.CC_IVL_IVL n) ∧
      Frame.cc n (block (R.baseCC n) 0x20) s t) ∧
    (∀ (n : Fin 1024), Waits s (CC.stopIn n) → Answers (.ccStop n) s fun t => t.now.on (F.CC_CTL_EN n) = false ∧
      Frame.regs (block (R.baseCC n) 0x20) s t) ∧
    (∀ (n : Fin 1024) (ag : Agent) (v : Word), Reaches s ag (R.CC_CMPF n) → Answers (.ccStagedWrite ag n true v) s fun t =>
      (t.now.ccSt n).stF = v.toNat % 64 ∧ (t.now.ccSt n).val = (s.now.ccSt n).val ∧ t.now.on (F.CC_STAT_STG n) = true ∧
      Frame.cc n (block (R.baseCC n) 0x20) s t) ∧
    (∀ (n : Fin 1024) (ag : Agent) (v : Word), Reaches s ag (R.CC_CMPL n) → Answers (.ccStagedWrite ag n false v) s fun t =>
      (t.now.ccSt n).stL = v.toNat ∧ (t.now.ccSt n).val = (s.now.ccSt n).val ∧ t.now.on (F.CC_STAT_STG n) = true ∧
      Frame.cc n (block (R.baseCC n) 0x20) s t) ∧
    (∀ (n : Fin 1024) (ag : Agent) (v : Word), Reaches s ag (R.CC_CMPH n) → s.now.ccStarted n = false →
      Answers (.ccCmphCommit ag n v) s fun t =>
      (t.now.ccSt n).val = mkTime (v.toNat * 2 ^ 32 + (s.now.ccSt n).stL) (s.now.ccSt n).stF ∧
      t.now.on (F.CC_STAT_STG n) = false ∧ Frame.cc n (block (R.baseCC n) 0x20) s t) ∧
    (∀ (n : Fin 1024) (ag : Agent), n.val < nCC s.hw → Answers (.ccCmplRead ag n) s fun t =>
      t.now.resp = tickOf (s.start.ccSt n).val % 2 ^ 32 ∧ (t.now.ccSt n).snapF = fineOf (s.start.ccSt n).val ∧
      (t.now.ccSt n).snapH = tickOf (s.start.ccSt n).val / 2 ^ 32 ∧ (t.now.ccSt n).val = (s.now.ccSt n).val ∧
      Frame.cc n (fun _ => False) s t) ∧
    (∀ (n : Fin 128) (x : BallEdge), cpTakes s.ctx n true x = true → s.start.on (F.CP_STAT_OPEN n) = false →
      s.now.cpEnds n = false → Answers (.cpRiseQualified n x) s fun t => t.now.on (F.CP_STAT_OPEN n) = true ∧
      (t.now.cpSt n).openRise = edgeStamp x ∧ t.now.emittedNow .cp n 0 = true ∧ Frame.cp n (blockOr (R.baseCP n) 0x20) s t) ∧
    (∀ (n : Fin 128) (x : BallEdge), cpTakes s.ctx n false x = true → s.start.on (F.CP_STAT_OPEN n) = true →
      s.now.fc.reads.contains (R.CP_RISE n) = false → Answers (.cpPairReady n x) s fun t =>
      (t.now.cpSt n).rise = (s.start.cpSt n).openRise ∧ (t.now.cpSt n).fall = edgeStamp x ∧
      (t.now.cpSt n).width = min (edgeStamp x - (s.start.cpSt n).openRise) 0xFFFFFFFF ∧ t.now.on (F.CP_STAT_OPEN n) = false ∧
      t.now.on (F.CP_STAT_NEW n) = true ∧ (s.now.on (F.CP_STAT_NEW n) = true → t.now.on (F.CP_STAT_OVR n) = true) ∧
      (s.start.on (F.CP_CTL_ONE n) = true → t.now.on (F.CP_CTL_EN n) = false) ∧ t.now.emittedNow .cp n 1 = true ∧
      Frame.cp n (blockOr (R.baseCP n) 0x20) s t) ∧
    (∀ (n : Fin 128) (x : BallEdge), cpTakes s.ctx n false x = true → s.start.on (F.CP_STAT_OPEN n) = true →
      s.now.fc.reads.contains (R.CP_RISE n) = true → Answers (.cpPairReady n x) s fun t =>
      ((t.now.cpSt n).rise = (s.now.cpSt n).rise ∧ (t.now.cpSt n).putOff = some ((s.start.cpSt n).openRise, edgeStamp x)) ∧
      (cpPutOffLands
        t.now
        n).cpSt
        n =
        { t.now.cpSt n with
        rise := (s.start.cpSt n).openRise, fall := edgeStamp x, width :=
        min (edgeStamp x - (s.start.cpSt n).openRise) 0xFFFFFFFF, putOff := none } ∧
      (cpPutOffLands t.now n).on (F.CP_STAT_NEW n) = true ∧ Frame.cp n (blockOr (R.baseCP n) 0x20) s t) ∧
    (∀ (n : Fin 128), Waits s (CP.armIn n) → s.now.acted (CP.stopIn n) = false → Answers (.cpArm n) s fun t =>
      t.now.on (F.CP_CTL_EN n) = true ∧ Frame.regs (fun a => a = R.CP_CTL n) s t) ∧
    (∀ (n : Fin 128), Waits s (CP.stopIn n) → Answers (.cpStop n) s fun t => t.now.on (F.CP_CTL_EN n) = false ∧
      t.now.on (F.CP_STAT_OPEN n) = false ∧ Frame.regs (fun a => a = R.CP_CTL n ∨ a = R.CP_STAT n) s t) ∧
    (∀ (n : Fin 128) (ag : Agent), n.val < nCP s.hw → (s.now.emittedNow .cp n 1 = false ∨ (s.now.cpSt n).putOff.isSome = true) →
      Answers (.cpRiseRead ag n) s fun t => t.now.resp = tickOf (s.now.cpSt n).rise % 2 ^ 32 ∧
      (t.now.cpSt n).sRise = (s.now.cpSt n).rise ∧ (t.now.cpSt n).sFall = (s.now.cpSt n).fall ∧
      (t.now.cpSt n).sWidth = (s.now.cpSt n).width ∧ t.now.on (F.CP_STAT_NEW n) = false ∧
      Frame.cp n (fun a => a = R.CP_STAT n) s t) ∧
    (∀ (n : Fin 128) (ag : Agent), n.val < nCP s.hw → s.now.emittedNow .cp n 1 = true → (s.now.cpSt n).putOff = none →
      Answers (.cpRiseRead ag n) s fun t => t.now.resp = tickOf (s.start.cpSt n).rise % 2 ^ 32 ∧
      ((t.now.cpSt n).sRise = (s.start.cpSt n).rise ∧ (t.now.cpSt n).sFall = (s.start.cpSt n).fall ∧
      (t.now.cpSt n).sWidth = (s.start.cpSt n).width) ∧
      (t.now.cpSt n).putOff = some ((s.now.cpSt n).rise, (s.now.cpSt n).fall) ∧ t.now.on (F.CP_STAT_NEW n) = false ∧
      Frame.cp n (fun a => a = R.CP_STAT n ∨ a = R.CP_CTL n) s t)

/-- Edge generators, the carrier. A carrier start begins the next interval at the channel's value (or ends the run for P below
0x100), a late one begins at t : frac(V), or is skipped, by the smallest k of R124, and counts MISS, and one that is late while
the run's last carrier is in progress begins none; the centre and the edges of the pulse appear when due; a follower starts at
its scheduled time, and takes its inactive levels after its last carrier where its REF has stopped; the run's end clears EN and
gives DONE. Rests on the model's choices of log entries 97, 127, 130, 131, 132, 173 and 174. -/
def Obligations.EdgeGeneratorCarrierEffects : Prop :=
  ∀ (s : State) (n : Fin 96) (p : Nat),
    (egDue s.ctx n = true → s.now.egJudged n = false → egEnding s.ctx n s.now = false → s.now.acted (EG.clearIn n) = false →
      s.now.acted (EG.stopIn n) = false → p = ((egTransfer s.ctx n s.now).egSt n).force.p → 0x100 ≤ p →
      Answers (.egCarrierStart n) s fun t => (t.now.egSt n).car = some (s.start.egSt n).cmp.val ∧
      (t.now.egSt n).cmp.val = (if (s.now.egSt n).fresh then (s.now.egSt n).cmp.val else (s.start.egSt n).cmp.val + p) ∧
      t.now.rd (R.EG_IVLA n) = p % 2 ^ 32 ∧ t.now.emittedNow .eg n 0 = true ∧ Frame.egs (blockOr 0x40200000 0x3000) s t) ∧
    (egDue s.ctx n = true → s.now.egJudged n = false → egEnding s.ctx n s.now = false → s.now.egStarts n = false →
      ((egTransfer s.ctx n s.now).egSt n).force.p < 0x100 → Answers (.egCarrierStart n) s fun t => (t.now.egSt n).car = none ∧
      t.now.on (F.EG_CTL_EN n) = false ∧ t.now.on (F.EG_STAT_IVLERR n) = true ∧ Frame.eg n (block (R.baseEG n) 0x80) s t) ∧
    (egCentreDue s.ctx n s.now = some p → Answers (.egCentre n) s fun t => t.now.emittedNow .eg n 1 = true ∧
      ((s.now.egSt n).ctrVal = some p → (t.now.egSt n).ctrVal = none ∧ (t.now.egSt n).ctrDone = true) ∧ Frame.eg n evRegion s t) ∧
    (∀ (e : EgEdge), egDueEdge s.ctx n (egBoundary s.ctx n s.now) s.now = some e → Answers (.egPulseEdge n) s fun t =>
      t.now.egSt n = (s.now.egSt n).appear e (egNarrow s.ctx n e s.now) ∧ (e.out = 0 →
      (t.now.egSt n).h = (e.on && !egNarrow s.ctx n e s.now) ∧ (t.now.egSt n).l = (s.now.egSt n).l) ∧ (e.out ≠ 0 →
      (t.now.egSt n).l = (e.on && !egNarrow s.ctx n e s.now) ∧ (t.now.egSt n).h = (s.now.egSt n).h) ∧
      t.now.balls.getD 0 (ballEdg (2 * n)) = t.now.egBallState n 0 ∧
      t.now.balls.getD 0 (ballEdg (2 * n + 1)) = t.now.egBallState n 1 ∧ Frame.eg n (fun _ => False) s t) ∧
    (s.start.on (F.EG_CTL_EN n) = true → s.start.on (F.EG_CFG_CSRC n) = false → tickOf (s.start.egSt n).cmp.val < s.tick →
      s.now.egJudged n = false → egEnding s.ctx n s.now = false → s.now.acted (EG.clearIn n) = false →
      s.now.acted (EG.stopIn n) = false → s.now.on (F.EG_CFG_SKIP n) = false → p = ((egTransfer s.ctx n s.now).egSt n).force.p →
      0x100 ≤ p → Answers (.egLateCarrier n) s fun t => t.now.on (F.EG_STAT_LATE n) = true ∧
      (t.now.egSt n).cmp.val = (if (s.now.egSt n).fresh then (s.now.egSt n).cmp.val else (s.start.egSt n).cmp.val + lateK
        (s.start.egSt n).cmp.val p s.tick * p) ∧
      (t.now.egSt n).car = some (s.tick * 64 + fineOf (s.start.egSt n).cmp.val) ∧ t.now.emittedNow .eg n 0 = true ∧
      t.now.get (F.EG_MISS_MISS n) = satAdd 16 (s.now.get (F.EG_MISS_MISS n)) (lateK (s.start.egSt n).cmp.val p s.tick - 1) ∧
      Frame.egs (blockOr 0x40200000 0x3000) s t) ∧
    (s.start.on (F.EG_CTL_EN n) = true → s.start.on (F.EG_CFG_CSRC n) = false → tickOf (s.start.egSt n).cmp.val < s.tick →
      s.now.egJudged n = false → egEnding s.ctx n s.now = false → s.now.on (F.EG_CFG_SKIP n) = true →
      p = (s.now.egSt n).force.p → 0x100 ≤ p → Answers (.egLateCarrier n) s fun t => t.now.on (F.EG_STAT_LATE n) = true ∧
      (t.now.egSt n).cmp.val = (if (s.now.egSt n).fresh then (s.now.egSt n).cmp.val else (s.start.egSt n).cmp.val + lateK
        (s.start.egSt n).cmp.val p s.tick * p) ∧
      ((t.now.egSt n).car = (s.now.egSt n).car ∧ (t.now.egSt n).force = (s.now.egSt n).force) ∧
      t.now.get (F.EG_MISS_MISS n) = satAdd 16 (s.now.get (F.EG_MISS_MISS n)) (lateK (s.start.egSt n).cmp.val p s.tick) ∧
      Frame.eg n (block (R.baseEG n) 0x80) s t) ∧
    (s.start.on (F.EG_CTL_EN n) = true → s.start.on (F.EG_CFG_CSRC n) = false → tickOf (s.start.egSt n).cmp.val < s.tick →
      s.now.egJudged n = false → egEnding s.ctx n s.now = true → p = (s.now.egSt n).force.p → 0x100 ≤ p →
      Answers (.egLateCarrier n) s fun t => t.now.on (F.EG_STAT_LATE n) = true ∧ (t.now.egSt n).car = (s.now.egSt n).car ∧
      (s.now.on (F.EG_CFG_SKIP n) = true →
      t.now.get (F.EG_MISS_MISS n) = satAdd 16 (s.now.get (F.EG_MISS_MISS n)) (lateK (s.start.egSt n).cmp.val p s.tick) ∧
      (t.now.egSt n).cmp.val = (if (s.now.egSt n).fresh then (s.now.egSt n).cmp.val else egSkipTo s.ctx n s.now)) ∧
      (s.now.on (F.EG_CFG_SKIP n) = false →
      t.now.get (F.EG_MISS_MISS n) = satAdd 16 (s.now.get (F.EG_MISS_MISS n)) (lateK (s.start.egSt n).cmp.val p s.tick - 1) ∧
      (t.now.egSt n).cmp = (s.now.egSt n).cmp) ∧ Frame.eg n (block (R.baseEG n) 0x80) s t) ∧
    (∀ (x : Nat) (rest : List (Nat × Nat)), (s.now.egSt n).sched = (x, p) :: rest → tickOf x ≤ s.tick →
      s.now.on (F.EG_CTL_EN n) = true → (s.start.egSt n).stopPend = false → s.now.acted (EG.clearIn n) = false →
      s.now.acted (EG.stopIn n) = false → 0x100 ≤ p → Answers (.egFollowerStart n) s fun t => (t.now.egSt n).car = some x ∧
      (t.now.egSt n).sched = rest ∧ t.now.emittedNow .eg n 0 = true ∧ Frame.egs (blockOr 0x40200000 0x3000) s t) ∧
    ((s.now.egSt n).car.isSome = true → s.now.emittedNow .eg n 0 = false → tickOf (egEndAt s.ctx n s.now) ≤ s.tick →
      egEnding s.ctx n s.now = true → s.now.egStarts n = false → Answers (.egRunDone n) s fun t => (t.now.egSt n).car = none ∧
      ((t.now.egSt n).h = false ∧ (t.now.egSt n).l = false) ∧ t.now.on (F.EG_CTL_EN n) = false ∧ ((s.now.egSt n).last = true →
      (s.start.egSt n).stopPend = false → t.now.emittedNow .eg n 2 = true) ∧ Frame.eg n (blockOr (R.baseEG n) 0x80) s t) ∧
    ((s.now.egSt n).car.isSome = true → s.now.emittedNow .eg n 0 = false → tickOf (egEndAt s.ctx n s.now) ≤ s.tick →
      egEnding s.ctx n s.now = false → s.now.egAlone n = true → Answers (.egRunDone n) s fun t => (t.now.egSt n).car = none ∧
      ((t.now.egSt n).h = false ∧ (t.now.egSt n).l = false) ∧ t.now.on (F.EG_CTL_EN n) = s.now.on (F.EG_CTL_EN n) ∧
      Frame.eg n (fun _ => False) s t)

/-- Edge generators, control. START loads (t + 1) : f and sets EN; STOP, and a write of EN = 0, let the carrier in progress
complete and otherwise clear EN; a STOP of the fc undoes a START of it; LOAD and the release of HOLD pass the shadow into force
for the next fc, CLEAR ends the carrier at once and reaches the balls with the next fc; a commit of CMPH replaces the channel's
value; a shadow register keeps what is written and, under IMMEDIATE, passes into force for the next fc; the safe level of R190
and the idle level of R192 are reached when due. Rests on the model's choices of log entries 125, 126, 128, 129 and 130. -/
def Obligations.EdgeGeneratorControlEffects : Prop :=
  ∀ (s : State) (n : Fin 96) (ag : Agent) (v : Word),
    (Reaches s ag (R.EG_CMPH n) → s.now.on (F.EG_CFG_CSRC n) = false → s.now.egStarts n = false →
      Answers (.egCmphCommit ag n v) s fun t =>
      (t.now.egSt n).cmp.val = mkTime (v.toNat * 2 ^ 32 + (s.now.egSt n).cmp.stL) (s.now.egSt n).cmp.stF ∧
      (t.now.egSt n).fresh = true ∧ Frame.eg n (fun _ => False) s t) ∧
    (∀ (x : Act), (s.now.fc.latched.find? (fun a => a.input == EG.startIn n && !a.done) = some x) →
      s.now.acted (EG.stopIn n) = false → s.now.acted (EG.clearIn n) = false → s.start.on (F.EG_CTL_EN n) = false →
      s.now.on (F.EG_CFG_CSRC n) = false → s.now.egStartable s.hw n = true → Answers (.egStart n) s fun t =>
      t.now.on (F.EG_CTL_EN n) = true ∧ (t.now.egSt n).cmp.val = (s.tick + 1) * 64 + x.fine.getD 0 ∧
      t.now.get (F.EG_CNT_REM n) = s.now.get (F.EG_CNT_CNT n) ∧ Frame.eg n (block (R.baseEG n) 0x80) s t) ∧
    (Waits s (EG.stopIn n) → s.now.acted (EG.clearIn n) = false → s.now.on (F.EG_CTL_EN n) = true → (s.now.egSt n).undo = none →
      Answers (.egStop n) s fun t => ((s.now.egSt n).car.isSome = true → (t.now.egSt n).stopPend = true ∧
      t.now.on (F.EG_CTL_EN n) = true) ∧ ((s.now.egSt n).car = none → (t.now.egSt n).sched = [] ∧
      t.now.on (F.EG_CTL_EN n) = false) ∧ Frame.eg n (block (R.baseEG n) 0x80) s t) ∧
    (∀ (u : EgUndo), Waits s (EG.stopIn n) → s.now.acted (EG.clearIn n) = false → (s.now.egSt n).undo = some u →
      bit u.ctl 0 = false → Answers (.egStop n) s fun t => ((t.now.egSt n).cmp = u.cmp ∧ (t.now.egSt n).undo = none) ∧
      t.now.on (F.EG_CTL_EN n) = false ∧ Frame.eg n (block (R.baseEG n) 0x80) s t) ∧
    (Reaches s ag (R.EG_CTL n) → s.start.on (F.EG_CTL_EN n) = true → s.now.on (F.EG_CTL_EN n) = true → bit v.toNat 0 = false →
      s.now.acted (EG.stopIn n) = false → s.now.acted (EG.clearIn n) = false → (s.now.egSt n).undo = none →
      Answers (.egEnClearWrite ag n v) s fun t => ((s.now.egSt n).car.isSome = true → (t.now.egSt n).stopPend = true ∧
      t.now.on (F.EG_CTL_EN n) = true) ∧ ((s.now.egSt n).car = none → (t.now.egSt n).sched = [] ∧
      t.now.on (F.EG_CTL_EN n) = false) ∧ Frame.eg n (block (R.baseEG n) 0x80) s t) ∧
    (Waits s (EG.loadIn n) → s.now.acted (EG.clearIn n) = false → s.start.on (F.EG_CTL_HOLD n) = false →
      s.now.on (F.EG_CTL_HOLD n) = false → Answers (.egLoad n) s fun t =>
      ((egEndFc s.ctx t.now n).egSt n).force = t.now.egShadow n ∧ Frame.eg n (fun _ => False) s t) ∧
    (Waits s (EG.clearIn n) → Answers (.egClear n) s fun t => (t.now.egSt n).car = none ∧
      (t.now.egSt n).ctrVal = centreHere s.ctx (s.now.egSt n).ctrVal ∧ (t.now.egSt n).sched = [] ∧ (t.now.egSt n).h = false ∧
      (t.now.egSt n).l = false ∧ t.now.on (F.EG_CTL_EN n) = false ∧
      (egEndFc s.ctx t.now n).balls.getD 0 (ballEdg (2 * n)) = (egEndFc s.ctx t.now n).egBallState n 0 ∧
      (egEndFc s.ctx t.now n).balls.getD 0 (ballEdg (2 * n + 1)) = (egEndFc s.ctx t.now n).egBallState n 1 ∧
      Frame.eg n (block (R.baseEG n) 0x80) s t) ∧
    (∀ (k : Fin 7), Reaches s ag (shadowAddr n k) → (k.val = 3 → s.start.dutyLocked s.hw n = false) →
      Answers (.egShadowWrite ag n k v) s fun t => t.now.rd (shadowAddr n k) = v.toNat ∧ (s.now.on (F.EG_CFG_UPD n) = false →
      t.now.egSt n = s.now.egSt n) ∧ (s.now.on (F.EG_CFG_UPD n) = true → s.now.on (F.EG_CTL_HOLD n) = false →
      ((egEndFc s.ctx t.now n).egSt n).force = t.now.egShadow n) ∧ Frame.eg n (block (R.baseEG n) 0x80) s t) ∧
    (Reaches s ag (R.EG_CTL n) → s.start.on (F.EG_CTL_HOLD n) = true → s.now.on (F.EG_CFG_UPD n) = true →
      bit v.toNat 1 = false → bit v.toNat 0 = s.now.on (F.EG_CTL_EN n) → s.start.on (F.EG_CTL_EN n) = s.now.on (F.EG_CTL_EN n) →
      s.now.acted (EG.stopIn n) = false → s.now.acted (EG.clearIn n) = false → Answers (.egHoldRelease ag n v) s fun t =>
      t.now.on (F.EG_CTL_HOLD n) = false ∧ t.now.on (F.EG_CTL_EN n) = s.now.on (F.EG_CTL_EN n) ∧
      ((egEndFc s.ctx t.now n).egSt n).force = t.now.egShadow n ∧ Frame.eg n (block (R.baseEG n) 0x80) s t) ∧
    (∀ (d : Nat), (s.now.egSt n).safeDueH = some d → d ≠ 0 → tickOf d ≤ s.tick → Answers (.egSafeDeadTime n 0) s fun t =>
      (t.now.egSt n).safeDueH = none ∧ t.now.balls.getD 0 (ballEdg (2 * n)) = t.now.egBallState n 0 ∧
      Frame.eg n (fun _ => False) s t) ∧
    (∀ (d : Nat), (s.now.egSt n).safeDueL = some d → d ≠ 0 → tickOf d ≤ s.tick → Answers (.egSafeDeadTime n 1) s fun t =>
      (t.now.egSt n).safeDueL = none ∧ t.now.balls.getD 0 (ballEdg (2 * n + 1)) = t.now.egBallState n 1 ∧
      Frame.eg n (fun _ => False) s t) ∧
    (∀ (d : Nat), (s.now.egSt n).idleDue = some d → d ≤ s.tick → Answers (.egPostForceIdle n) s fun t =>
      (t.now.egSt n).idleDue = none ∧ t.now.balls.getD 0 (ballEdg (2 * n)) = t.now.egBallState n 0 ∧
      t.now.balls.getD 0 (ballEdg (2 * n + 1)) = t.now.egBallState n 1 ∧ Frame.eg n (fun _ => False) s t)

/-- Trip groups. An asynchronous source that asserts makes every enabled group that takes it and is not tripped pending; the
trip synchronised 6 to 14 fc later, the software trip and the TRIP action set TRIPPED, FIRST, TTICK and emit TRIP; a source of
the trip's own fc joins FIRST; a release clears TRIPPED and SWT while no source is asserted or detected, and otherwise sets
RREF; a source that stops asserting releases nothing. Rests on the model's choices of log entries 97, 141, 142 and 143. -/
def Obligations.TripGroupEffects : Prop :=
  ∀ (s : State) (g : Fin 32) (ag : Agent) (v : Word),
    (∀ (code : Fin 80) (high : Bool) (fine : Fin 64), s.start.on (F.TG_CTL_EN g) = true → s.now.tgTakes g code = true →
      (code.val < 64 → s.now.asyncSrc.contains code.val = true) → (64 ≤ code.val →
      high = bit (s.now.get (F.TG_BALL_TPOL g)) (code.val - 64)) → s.start.on (F.TG_STAT_TRIPPED g) = false →
      s.now.on (F.TG_STAT_TRIPPED g) = false → Answers (.tripSourceAssert ⟨code, high, fine⟩) s fun t =>
      (t.now.tgSt g).pend = (s.now.tgSt g).pend.or (some (crossedAt (s.tick * 64 + fine.val))) ∧
      (t.now.tgSt g).qual = code.val :: (s.now.tgSt g).qual ∧ t.now.tgForces g = true ∧
      Frame.trip (fun a => forcedRegs a ∨ block 0x40208000 0x800 a) s t) ∧
    (s.now.tgSyncTime g s.tick = true → s.now.on (F.TG_STAT_TRIPPED g) = false → Answers (.tgTripSync g) s fun t =>
      t.now.on (F.TG_STAT_TRIPPED g) = true ∧
      t.now.get (F.TG_FIRST_CODE g) = minCode ((s.now.tgSt g).qual ++ s.now.syncDetected g) ∧
      t.now.rd (R.TG_TTICK g) = s.tick % 2 ^ 32 ∧ t.now.get (F.TG_CNT_TCNT g) = satAdd 8 (s.now.get (F.TG_CNT_TCNT g)) 1 ∧
      t.now.tgSt g = { enAt := (s.now.tgSt g).enAt, wait := some (s.tick + 2), now := true } ∧ t.now.emittedNow .tg g 0 = true ∧
      Frame.tg g (fun a => blockOr (R.baseTG g) 0x40 a ∨ forcedRegs a) s t) ∧
    (Reaches s ag (R.TG_CTL g) → s.start.on (F.TG_CTL_EN g) = true → s.start.on (F.TG_STAT_TRIPPED g) = false →
      s.now.on (F.TG_STAT_TRIPPED g) = false → bit v.toNat 2 = true → bit v.toNat 3 = false →
      Answers (.tgSoftwareTrip ag g v) s fun t => t.now.on (F.TG_STAT_TRIPPED g) = true ∧ t.now.on (F.TG_CTL_SWT g) = true ∧
      ((s.now.tgSt g).pend = none → t.now.get (F.TG_FIRST_CODE g) = 0x50 ∧
      t.now.tgSt g = { enAt := (s.now.tgSt g).enAt, wait := some (s.tick + 2) }) ∧ ((s.now.tgSt g).pend.isSome = true →
      t.now.get (F.TG_FIRST_CODE g) = minCode ((s.now.tgSt g).qual ++ 0x50 :: s.now.syncDetected g)) ∧
      t.now.rd (R.TG_TTICK g) = s.tick % 2 ^ 32 ∧ t.now.emittedNow .tg g 0 = true ∧
      Frame.tg g (fun a => blockOr (R.baseTG g) 0x40 a ∨ forcedRegs a) s t) ∧
    (Waits s (TG.tripIn g) → s.start.on (F.TG_CTL_EN g) = true → s.start.on (F.TG_STAT_TRIPPED g) = false →
      s.now.on (F.TG_STAT_TRIPPED g) = false → Answers (.tgTripAction g) s fun t => t.now.on (F.TG_STAT_TRIPPED g) = true ∧
      ((s.now.tgSt g).pend = none → t.now.get (F.TG_FIRST_CODE g) = 0x51 ∧
      t.now.tgSt g = { enAt := (s.now.tgSt g).enAt, wait := some (s.tick + 2) }) ∧ ((s.now.tgSt g).pend.isSome = true →
      t.now.get (F.TG_FIRST_CODE g) = minCode ((s.now.tgSt g).qual ++ 0x51 :: s.now.syncDetected g)) ∧
      t.now.rd (R.TG_TTICK g) = s.tick % 2 ^ 32 ∧ t.now.emittedNow .tg g 0 = true ∧
      Frame.tg g (fun a => blockOr (R.baseTG g) 0x40 a ∨ forcedRegs a) s t) ∧
    (Waits s (TG.tripIn g) → s.start.on (F.TG_CTL_EN g) = true → s.start.on (F.TG_STAT_TRIPPED g) = false →
      s.now.on (F.TG_STAT_TRIPPED g) = true → Answers (.tgTripAction g) s fun t => t.now.on (F.TG_STAT_TRIPPED g) = true ∧
      t.now.get (F.TG_FIRST_CODE g) = min (s.now.get (F.TG_FIRST_CODE g)) 0x51 ∧ Frame.tg g (fun a => a = R.TG_FIRST g) s t) ∧
    (Reaches s ag (R.TG_CTL g) → s.start.on (F.TG_STAT_TRIPPED g) = true → s.now.tgBusy s.ctx g = false →
      bit v.toNat 2 = false → bit v.toNat 3 = true → Answers (.tgRelease ag g v) s fun t =>
      t.now.on (F.TG_STAT_TRIPPED g) = false ∧ t.now.on (F.TG_CTL_SWT g) = false ∧
      (t.now.tgSt g = { enAt := (s.now.tgSt g).enAt } ∧ t.now.fc.recheck = true) ∧ Frame.tg g (blockOr (R.baseTG g) 0x40) s t) ∧
    (Reaches s ag (R.TG_CTL g) → s.start.on (F.TG_STAT_TRIPPED g) = true → s.now.on (F.TG_STAT_TRIPPED g) = true →
      s.now.tgBusy s.ctx g = true → bit v.toNat 2 = false → bit v.toNat 3 = true → Answers (.tgRelease ag g v) s fun t =>
      t.now.on (F.TG_STAT_TRIPPED g) = true ∧ t.now.on (F.TG_STAT_RREF g) = true ∧ Frame.tg g (blockOr (R.baseTG g) 0x40) s t) ∧
    (Reaches s ag (R.TG_CTL g) → s.start.on (F.TG_CTL_EN g) = true → s.start.on (F.TG_STAT_TRIPPED g) = true →
      s.now.on (F.TG_STAT_TRIPPED g) = true → bit v.toNat 2 = true → bit v.toNat 3 = true →
      Answers (.tgRelease ag g v) s fun t => t.now.on (F.TG_STAT_TRIPPED g) = true ∧ t.now.on (F.TG_STAT_RREF g) = true ∧
      Frame.tg g (blockOr (R.baseTG g) 0x40) s t) ∧
    (∀ (code : Fin 80) (high : Bool) (fine : Fin 64), 64 ≤ code.val →
      Answers (.tripSourceDeassert ⟨code, high, fine⟩) s fun t => t.now.tripLv.find? (code.val - 64) = some high ∧
      (s.now.on (F.TG_STAT_TRIPPED g) = true → t.now.on (F.TG_STAT_TRIPPED g) = true) ∧ ((s.now.tgSt g).pend.isSome = true →
      (t.now.tgSt g).pend = (s.now.tgSt g).pend) ∧ t.now.asyncSrc = s.now.asyncSrc ∧
      Frame.trip (fun a => forcedRegs a ∨ block 0x40208000 0x800 a) s t) ∧
    (∀ (code : Fin 80) (high : Bool) (fine : Fin 64), code.val < 64 → Idle (.tripSourceDeassert ⟨code, high, fine⟩) s)

/-- A tripped group, and one whose asynchronous trip is under way, forces its members (R189, R195, R256): after a source
asserts, every present generator and head-drive lane that an enabled group taking it names is forced; after a synchronised trip,
those its MEG and MHL registers name; two fc after a synchronous trip the group forces too. Rests on the model's choice of log
entry 97. -/
def Obligations.TripForcesMembers : Prop :=
  ∀ (s : State) (g : Fin 32) (m : Fin 96) (n : Fin 16),
    (∀ (code : Fin 80) (high : Bool) (fine : Fin 64), s.start.on (F.TG_CTL_EN g) = true → s.now.tgTakes g code = true →
      (code.val < 64 → s.now.asyncSrc.contains code.val = true) → (64 ≤ code.val →
      high = bit (s.now.get (F.TG_BALL_TPOL g)) (code.val - 64)) → s.start.on (F.TG_STAT_TRIPPED g) = false →
      Answers (.tripSourceAssert ⟨code, high, fine⟩) s fun t => (m.val < nEG s.hw →
      bit (s.now.rd (R.TG_MEG g (m.val / 32))) (m.val % 32) = true → (t.now.egSt m).forced = true) ∧ (n.val < nHL s.hw →
      bit (s.now.get (F.TG_MHL_HL g)) n = true → (t.now.hlSt n).forced = true)) ∧
    (s.now.tgSyncTime g s.tick = true → s.now.on (F.TG_STAT_TRIPPED g) = false → Answers (.tgTripSync g) s fun t =>
      (m.val < nEG s.hw → bit (s.now.rd (R.TG_MEG g (m.val / 32))) (m.val % 32) = true → (t.now.egSt m).forced = true ∧
      t.now.on (F.EG_STAT_TRIP m) = true) ∧ (n.val < nHL s.hw → bit (s.now.get (F.TG_MHL_HL g)) n = true →
      (t.now.hlSt n).forced = true ∧ t.now.on (F.HL_STAT_TRIP n) = true)) ∧
    (s.now.on (F.TG_STAT_TRIPPED g) = true → (s.now.tgSt g).wait = some (s.tick + 1) →
      (tgEndFc s.ctx s.now g).tgForces g = true ∧ (tgEndFc s.ctx s.now g).fc.recheck = true)

/-- Loop lanes, a trigger that falls due while RUN is 1. Under a trip it is dropped and TSKIP counts; during a run it is held
and OVR counts a second one; one that falls due in the lane input fc of a held trigger is one with it; otherwise the lane takes
its sources as X, SEQ counts, LAST is the fc, and the law unit's run begins (with the coefficient banks exchanged when KSWAP is
set): one step of the program in each fc after; or the snapshot leaves for the law task. A held trigger starts when the run is
over. While RUN is 0 nothing runs. Rests on the model's choices of log entries 120, 122, 123 and 168. -/
def Obligations.LoopLaneTriggerEffects : Prop :=
  ∀ (s : State) (n : Fin 96) (u : Nat),
    ((s.now.llSt n).trigDue s.tick = true → s.start.on (F.LL_CTL_RUN n) = true → s.now.laneTripped n = true →
      Answers (.laneTrigger n) s fun t => ((t.now.llSt n).trigs = (s.now.llSt n).trigs.filter fun x => s.tick < x) ∧
      ((t.now.llSt n).tripDrop = true ∧ (t.now.llSt n).newAt = (s.now.llSt n).newAt) ∧
      t.now.get (F.LL_STAT_TSKIP n) = satAdd 8 (s.now.get (F.LL_STAT_TSKIP n)) 1 ∧
      t.now.get (F.LL_STAT_SEQ n) = s.now.get (F.LL_STAT_SEQ n) ∧ Frame.lane n (fun a => a = R.LL_STAT n) s t) ∧
    ((s.now.llSt n).trigDue s.tick = true → s.start.on (F.LL_CTL_RUN n) = false → Answers (.laneTrigger n) s fun t =>
      ((t.now.llSt n).trigs = (s.now.llSt n).trigs.filter fun x => s.tick < x) ∧ Frame.lane n (fun _ => False) s t) ∧
    ((s.now.llSt n).trigDue s.tick = true → s.start.on (F.LL_CTL_RUN n) = true → s.now.laneTripped n = false →
      s.now.laneInputNow s.tick n = false → s.now.laneRunning s.tick n = true → Answers (.laneTrigger n) s fun t =>
      ((t.now.llSt n).trigs = (s.now.llSt n).trigs.filter fun x => s.tick < x) ∧ (t.now.llSt n).held = true ∧
      ((s.now.llSt n).held = true → t.now.get (F.LL_STAT_OVR n) = satAdd 8 (s.now.get (F.LL_STAT_OVR n)) 1) ∧
      Frame.lane n (fun a => a = R.LL_STAT n) s t) ∧
    ((s.now.llSt n).trigDue s.tick = true → s.start.on (F.LL_CTL_RUN n) = true → s.now.laneTripped n = false →
      s.now.laneInputNow s.tick n = true → Answers (.laneTrigger n) s fun t =>
      ((t.now.llSt n).trigs = (s.now.llSt n).trigs.filter fun x => s.tick < x) ∧ Frame.lane n (fun _ => False) s t) ∧
    ((s.now.llSt n).trigDue s.tick = true → s.start.on (F.LL_CTL_RUN n) = true → s.now.laneTripped n = false →
      s.now.laneInputNow s.tick n = false → s.now.laneRunning s.tick n = false → s.now.on (F.LL_CFG_LAW n) = false →
      s.now.on (F.LL_CTL_KSWAP n) = false → u = s.now.get (F.LL_CFG_LU n) → Answers (.laneTrigger n) s fun t =>
      (t.now.llSt n).xs = (s.start.llSt n).src ∧ (t.now.llSt n).runEnd = some (s.tick + s.now.get (F.LU_CFG_LEN u)) ∧
      (t.now.llSt n).yDue = (s.now.llSt n).yDue ++ [s.tick + s.now.get (F.LU_CFG_LEN u) + 2] ∧ (t.now.llSt n).defer = [] ∧
      t.now.get (F.LL_STAT_SEQ n) = (s.now.get (F.LL_STAT_SEQ n) + 1) % 65536 ∧ t.now.rd (R.LL_LAST n) = s.tick % 2 ^ 32 ∧
      (0 < s.now.get (F.LU_CFG_LEN u) →
      lawStep (s.tick + 1) t.now n = lawLeave u ((t.now.lawStart n u (s.start.llSt n).src).step (s.now.rd (R.LU_P u 0))) t.now)
        ∧
      Frame.lane n laneRegs s t) ∧
    ((s.now.llSt n).trigDue s.tick = true → s.start.on (F.LL_CTL_RUN n) = true → s.now.laneTripped n = false →
      s.now.laneInputNow s.tick n = false → s.now.laneRunning s.tick n = false → s.now.on (F.LL_CFG_LAW n) = false →
      s.now.on (F.LL_CTL_KSWAP n) = true → u = s.now.get (F.LL_CFG_LU n) → Answers (.laneTrigger n) s fun t =>
      (∀ k : Fin 16, (t.now.luSt u).kAct.getD 0 k = s.now.rd (R.LU_K u k)) ∧
      (∀ k : Fin 16, t.now.rd (R.LU_K u k) = (s.now.luSt u).kAct.getD 0 k % 2 ^ 32) ∧ t.now.on (F.LL_CTL_KSWAP n) = false ∧
      (t.now.llSt n).xs = (s.start.llSt n).src ∧ Frame.lane n laneRegs s t) ∧
    ((s.now.llSt n).trigDue s.tick = true → s.start.on (F.LL_CTL_RUN n) = true → s.now.laneTripped n = false →
      s.now.laneInputNow s.tick n = false → s.now.laneRunning s.tick n = false → s.now.on (F.LL_CFG_LAW n) = true →
      Answers (.laneTrigger n) s fun t => (t.now.llSt n).xs = (s.start.llSt n).src ∧
      (t.now.llSt n).toEngine = (s.now.llSt n).toEngine ++ [⟨s.tick + 8, (s.start.llSt n).src, s.tick % 2 ^ 32,
        (s.now.get (F.LL_STAT_SEQ n) + 1) % 65536⟩] ∧
      t.now.get (F.LL_STAT_SEQ n) = (s.now.get (F.LL_STAT_SEQ n) + 1) % 65536 ∧ t.now.rd (R.LL_LAST n) = s.tick % 2 ^ 32 ∧
      Frame.lane n laneRegs s t) ∧
    ((s.now.llSt n).held = true → ((s.now.llSt n).runEnd.all (fun e => e < s.tick) = true) →
      s.start.on (F.LL_CTL_RUN n) = true → s.now.laneTripped n = false → Answers (.laneHeldRunStart n) s fun t =>
      (t.now.llSt n).held = false ∧ (t.now.llSt n).xs = (s.start.llSt n).src ∧
      t.now.get (F.LL_STAT_SEQ n) = (s.now.get (F.LL_STAT_SEQ n) + 1) % 65536 ∧ t.now.rd (R.LL_LAST n) = s.tick % 2 ^ 32 ∧
      (s.now.on (F.LL_CFG_LAW n) = false →
      (t.now.llSt n).runEnd = some (s.tick + s.now.get (F.LU_CFG_LEN (s.now.get (F.LL_CFG_LU n))))) ∧ Frame.lane n laneRegs s t) ∧
    ((s.now.llSt n).held = true → ((s.now.llSt n).runEnd.all (fun e => e < s.tick) = true) →
      s.start.on (F.LL_CTL_RUN n) = true → s.now.laneTripped n = true → Answers (.laneHeldRunStart n) s fun t =>
      ((t.now.llSt n).held = false ∧ (t.now.llSt n).tripDrop = true) ∧
      t.now.get (F.LL_STAT_TSKIP n) = satAdd 8 (s.now.get (F.LL_STAT_TSKIP n)) 1 ∧ Frame.lane n (fun a => a = R.LL_STAT n) s t) ∧
    ((s.now.llSt n).held = true → ((s.now.llSt n).runEnd.all (fun e => e < s.tick) = true) →
      s.start.on (F.LL_CTL_RUN n) = false → Answers (.laneHeldRunStart n) s fun t => (t.now.llSt n).held = false ∧
      Frame.lane n (fun _ => False) s t)

/-- Loop lanes, outputs and state. Y0–Y2 go to MON0–MON2 and, as duties, to the valid output generators; a committed set of the
law task reaches the lane, then MON0–MON3 and the duties 2 fc later; it is discarded under a trip, and where the lane is its
engine's no longer it counts OWNER; a snapshot reaches its law task as LIN0–LIN6 with an activation, or is held until the task
executes WAIT, a second one replacing it; KSWAP, CLRS and writes of S0–S7 take effect at once when the law unit does not run,
and after the run otherwise; CLRS at a lane without a law unit clears nothing. Rests on the model's choices of log entries 48,
91, 121 and 124. -/
def Obligations.LoopLaneOutputEffects : Prop :=
  ∀ (s : State) (n : Fin 96) (ag : Agent) (v : Word),
    (((s.now.llSt n).yDue.any (fun d => d ≤ s.tick) = true) → Answers (.lawOutputTransfer n) s fun t =>
      ((t.now.llSt n).yDue = (s.now.llSt n).yDue.filter fun d => s.tick < d) ∧
      (∀ k : Fin 3, t.now.rd (R.LL_MON n k) = (s.start.luSt (s.now.get (F.LL_CFG_LU n))).ys.getD k 0 % 2 ^ 32) ∧
      t.now.rd (R.LL_MON n 3) = 0 ∧ (s.now.on (F.LL_OUT_V2 n) = true →
      t.now.rd (R.EG_DUTY (s.now.get (F.LL_OUT_EG2 n))) = mapDuty (s.now.on (F.LL_CFG_BIP n))
        ((s.start.luSt (s.now.get (F.LL_CFG_LU n))).ys.getD 2 0) % 2 ^ 32) ∧
      (s.now.on (F.LL_OUT_V1 n) = true → s.now.on (F.LL_OUT_V2 n) = false →
      t.now.rd (R.EG_DUTY (s.now.get (F.LL_OUT_EG1 n))) = mapDuty (s.now.on (F.LL_CFG_BIP n))
        ((s.start.luSt (s.now.get (F.LL_CFG_LU n))).ys.getD 1 0) % 2 ^ 32) ∧
      (s.now.on (F.LL_OUT_V0 n) = true → s.now.on (F.LL_OUT_V1 n) = false → s.now.on (F.LL_OUT_V2 n) = false →
      t.now.rd (R.EG_DUTY (s.now.get (F.LL_OUT_EG0 n))) = mapDuty (s.now.on (F.LL_CFG_BIP n))
        ((s.start.luSt (s.now.get (F.LL_CFG_LU n))).ys.getD 0 0) % 2 ^ 32) ∧
      Frame.lanes (fun a => block (R.LL_MON n 0) 0x10 a ∨ block 0x40200000 0x4000 a) s t) ∧
    (Reaches s ag (R.LL_CTL n) → bit v.toNat 2 = true → (bit v.toNat 3 = false ∨ s.now.on (F.LL_CFG_LAW n) = true) →
      Answers (.luKswap ag n v) s fun t => t.now.on (F.LL_CTL_KSWAP n) = true ∧ Frame.regs (blockOr (R.LL_CTL n) 4) s t) ∧
    (∀ (u : Nat), Reaches s ag (R.LL_CTL n) → bit v.toNat 3 = true → s.now.on (F.LL_CFG_EN n) = true →
      s.now.on (F.LL_CFG_LAW n) = false → u = s.now.get (F.LL_CFG_LU n) → s.now.laneRunning s.tick n = false →
      Answers (.llClrs ag n v) s fun t => (∀ k : Fin 8, t.now.rd (R.LU_S u k) = 0) ∧ (t.now.luSt u).acc = 0 ∧
      t.now.get (F.LU_FLAG_SLOT u) = 0 ∧ Frame.lane n (fun a => laneRegs a ∨ evRegion a) s t) ∧
    (Reaches s ag (R.LL_CTL n) → bit v.toNat 3 = true → s.now.on (F.LL_CFG_EN n) = true → s.now.on (F.LL_CFG_LAW n) = false →
      s.now.laneRunning s.tick n = true → Answers (.llClrs ag n v) s fun t =>
      (t.now.llSt n).defer = (s.now.llSt n).defer ++ [⟨true, 0, 0⟩] ∧ Frame.lane n (blockOr (R.LL_CTL n) 4) s t) ∧
    (Reaches s ag (R.LL_CTL n) → (s.now.on (F.LL_CFG_EN n) = false ∨ s.now.on (F.LL_CFG_LAW n) = true) →
      Answers (.llClrs ag n v) s fun t => (t.now.lu = s.now.lu ∧ (t.now.llSt n).defer = (s.now.llSt n).defer) ∧
      Frame.regs (blockOr (R.LL_CTL n) 4) s t) ∧
    (∀ (u : Fin 32) (k : Fin 8), Reaches s ag (R.LU_S u k) → s.now.laneOfLu s.hw u = none →
      Answers (.luStateWrite ag u k v) s fun t => t.now.rd (R.LU_S u k) = v.toNat ∧ Frame.regs (fun a => a = R.LU_S u k) s t) ∧
    (∀ (u : Fin 32) (k : Fin 8), Reaches s ag (R.LU_S u k) → s.now.laneOfLu s.hw u = some n.val →
      s.now.laneRunning s.tick n = false → Answers (.luStateWrite ag u k v) s fun t => t.now.rd (R.LU_S u k) = v.toNat ∧
      Frame.lane n laneRegs s t) ∧
    (∀ (u : Fin 32) (k : Fin 8), Reaches s ag (R.LU_S u k) → s.now.laneOfLu s.hw u = some n.val →
      s.now.laneRunning s.tick n = true → Answers (.luStateWrite ag u k v) s fun t =>
      (t.now.llSt n).defer = (s.now.llSt n).defer ++ [⟨false, k.val, v.toNat⟩] ∧ t.now.rd (R.LU_S u k) = s.now.rd (R.LU_S u k) ∧
      Frame.lane n (fun _ => False) s t) ∧
    (∀ (u : Nat), (s.now.llSt n).defer.isEmpty = false → ((s.now.llSt n).runEnd.all (fun e => e < s.tick) = true) →
      u = s.now.get (F.LL_CFG_LU n) → Answers (.luDeferredWrite n) s fun t => (t.now.llSt n).defer = [] ∧
      ((∀ k : Fin 8, t.now.rd (R.LU_S u k) = ((s.now.llSt n).defer.foldl (DefWrite.apply u) s.now).rd (R.LU_S u k)) ∧
      (t.now.luSt u).acc = (((s.now.llSt n).defer.foldl (DefWrite.apply u) s.now).luSt u).acc) ∧
      Frame.lane n (block (R.LU_CFG u) 0x100) s t) ∧
    (∀ (u : Nat) (k : Fin 8), (s.now.llSt n).defer = [⟨false, k.val, v.toNat⟩] →
      ((s.now.llSt n).runEnd.all (fun e => e < s.tick) = true) → u = s.now.get (F.LL_CFG_LU n) →
      Answers (.luDeferredWrite n) s fun t => (t.now.llSt n).defer = [] ∧ t.now.rd (R.LU_S u k) = v.toNat ∧
      Frame.lane n (fun a => a = R.LU_S u k) s t) ∧
    (∀ (e k : Nat) (y : LaneSnap) (rest : List LaneSnap), e = s.now.laneEng n → k = s.now.get (F.LL_CFG_TASK n) →
      (s.now.llSt n).heldSnap = none → (s.now.llSt n).toEngine = y :: rest → y.due ≤ s.tick → s.now.lawOpen s.tick e k = true →
      ((s.now.taskSt e k).linFree = true ∧ (s.now.taskSt e k).waited = true) → Answers (.laneEngineDelivery n) s fun t =>
      ((t.now.llSt n).toEngine = rest ∧ (t.now.llSt n).heldSnap = none) ∧
      (t.now.taskSt e k).lin = y.xs ++ [y.last, y.seq, s.now.linFlags n] ∧ ((t.now.taskSt e k).linFree = false ∧
      (t.now.llSt n).tripDrop = false) ∧ (e * 64 + k, 2, 0) ∈ t.now.fc.taskAct ∧ (∀ j, j ≠ k →
      t.now.taskSt e j = s.now.taskSt e j) ∧ Frame.laneTask n evRegion s t) ∧
    (∀ (e k : Nat) (y : LaneSnap), e = s.now.laneEng n → k = s.now.get (F.LL_CFG_TASK n) → (s.now.llSt n).heldSnap = some y →
      s.now.lawOpen s.tick e k = true → (s.now.taskSt e k).linFree = true →
      ((s.now.taskSt e k).waitAt.all (fun w => w < s.tick) = true) → Answers (.laneEngineDelivery n) s fun t =>
      ((t.now.llSt n).heldSnap = none ∧ (t.now.llSt n).toEngine = (s.now.llSt n).toEngine) ∧
      (t.now.taskSt e k).lin = y.xs ++ [y.last, y.seq, s.now.linFlags n] ∧ ((t.now.taskSt e k).linFree = false ∧
      (t.now.llSt n).tripDrop = false) ∧ (e * 64 + k, 2, 0) ∈ t.now.fc.taskAct ∧ (∀ j, j ≠ k →
      t.now.taskSt e j = s.now.taskSt e j) ∧ Frame.laneTask n evRegion s t) ∧
    (∀ (e k : Nat) (y : LaneSnap) (rest : List LaneSnap), e = s.now.laneEng n → k = s.now.get (F.LL_CFG_TASK n) →
      (s.now.llSt n).heldSnap = none → (s.now.llSt n).toEngine = y :: rest → y.due ≤ s.tick →
      (s.now.lawOpen s.tick e k && (s.now.taskSt e k).linFree && (s.now.taskSt e k).waited) = false →
      Answers (.laneEngineDelivery n) s fun t => (t.now.llSt n).toEngine = rest ∧ (t.now.llSt n).heldSnap = some y ∧
      t.now.eng = s.now.eng ∧ Frame.lane n (fun _ => False) s t) ∧
    (∀ (e k : Nat) (y : LaneSnap) (rest : List LaneSnap), e = s.now.laneEng n → k = s.now.get (F.LL_CFG_TASK n) →
      (s.now.llSt n).heldSnap.isSome = true → (s.now.llSt n).toEngine = y :: rest → y.due ≤ s.tick →
      ((s.now.lawOpen s.tick e k && (s.now.taskSt e k).linFree && (s.now.taskSt e k).waitAt.all fun w => w < s.tick) = false) →
      Answers (.laneEngineDelivery n) s fun t => (t.now.llSt n).toEngine = rest ∧ (t.now.llSt n).heldSnap = some y ∧
      t.now.get (F.LL_STAT_OVR n) = satAdd 8 (s.now.get (F.LL_STAT_OVR n)) 1 ∧ t.now.eng = s.now.eng ∧
      Frame.lane n (fun a => a = R.LL_STAT n) s t) ∧
    (∀ (y : LaneCommit) (rest : List LaneCommit), (s.now.llSt n).commits = y :: rest → y.due ≤ s.tick →
      y.eng = s.now.laneEng n → Answers (.laneCommitArrival n) s fun t => (t.now.llSt n).commits = rest ∧
      (s.now.laneTripped n = false → (t.now.llSt n).duties = (s.now.llSt n).duties ++ [{ y with due := s.tick + 2 }] ∧
      t.now.rd (R.LL_STAT n) = s.now.rd (R.LL_STAT n)) ∧ (s.now.laneTripped n = true →
      (t.now.llSt n).duties = (s.now.llSt n).duties ∧
      t.now.get (F.LL_STAT_TSKIP n) = satAdd 8 (s.now.get (F.LL_STAT_TSKIP n)) 1) ∧ Frame.lane n (fun a => a = R.LL_STAT n) s t) ∧
    (∀ (y : LaneCommit) (rest : List LaneCommit), (s.now.llSt n).commits = y :: rest → y.due ≤ s.tick →
      y.eng ≠ s.now.laneEng n → Answers (.laneCommitArrival n) s fun t => ((t.now.llSt n).commits = rest ∧
      (t.now.llSt n).duties = (s.now.llSt n).duties) ∧
      t.now.get (vcFld (some (regionOf y.eng)) .owner) = satAdd 16 (s.now.get (vcFld (some (regionOf y.eng)) .owner)) 1 ∧
      (((t.now.suSt (clusterOf y.eng)).isoDue.any fun x => x.1 == y.eng) = true) ∧
      Leaves (fun t b => { b with ll := t.ll, su := t.su }) evRegion s t) ∧
    (∀ (y : LaneCommit) (rest : List LaneCommit), (s.now.llSt n).duties = y :: rest → y.due ≤ s.tick →
      Answers (.laneEngineDutyTransfer n) s fun t => (t.now.llSt n).duties = rest ∧
      (∀ k : Fin 4, t.now.rd (R.LL_MON n k) = y.mons.getD k 0 % 2 ^ 32) ∧ (s.now.on (F.LL_OUT_V2 n) = true →
      t.now.rd (R.EG_DUTY (s.now.get (F.LL_OUT_EG2 n))) = mapDuty (s.now.on (F.LL_CFG_BIP n)) (y.duties.getD 2 0) % 2 ^ 32) ∧
      (s.now.on (F.LL_OUT_V1 n) = true → s.now.on (F.LL_OUT_V2 n) = false →
      t.now.rd (R.EG_DUTY (s.now.get (F.LL_OUT_EG1 n))) = mapDuty (s.now.on (F.LL_CFG_BIP n)) (y.duties.getD 1 0) % 2 ^ 32) ∧
      (s.now.on (F.LL_OUT_V0 n) = true → s.now.on (F.LL_OUT_V1 n) = false → s.now.on (F.LL_OUT_V2 n) = false →
      t.now.rd (R.EG_DUTY (s.now.get (F.LL_OUT_EG0 n))) = mapDuty (s.now.on (F.LL_CFG_BIP n)) (y.duties.getD 0 0) % 2 ^ 32) ∧
      Frame.lanes (fun a => block (R.LL_MON n 0) 0x10 a ∨ block 0x40200000 0x4000 a) s t)

/-- SAR converters. A START latches a conversion that ends 80 fc later, at the entry PTR names, PTR then naming the next (log
entry 165), or, in a sequence, at entry 0, and is held while a conversion is in progress; the end of a conversion forms the code
of the ball's voltage, writes LAST and TICK, emits EOC, and EOS at the last entry, and the result joins the FIFO at the end of
the fc; STOP and a write of EN = 0 drop a held START and a START of that fc; a flush and a read take from the FIFO what it held
at the start of the fc. Comparators. The raw output follows the ball's voltage against the reference with polarity and
hysteresis, and drives Bramble's source; the synchronised output sets OUT, SEEN and CNT and emits ASSERT, and DEASSERT when it
falls; RAMP loads the ramp from REF, BLANK opens a window of BLK fc, and an output that is active when the window ends gives
ASSERT then. Rests on the model's choices of log entries 24, 140 and 165. -/
def Obligations.ConverterAndComparatorEffects : Prop :=
  ∀ (s : State),
    (∀ (n : Fin 32), Waits s (AD.startIn n) → s.now.acted (AD.stopIn n) = false → s.start.on (F.AD_CTL_EN n) = true →
      s.now.on (F.AD_STAT_PEND n) = false → (s.now.adSt n).conv = none → (s.now.adSt n).seqRun = false →
      s.now.get (F.AD_CFG_MODE n) ≠ 3 → Answers (.adStart n) s fun t => (s.now.get (F.AD_CFG_MODE n) = 0 →
      (t.now.adSt n).conv = some ⟨s.now.get (F.AD_STAT_PTR n), s.start.rd (R.AD_SEQ n (s.now.get (F.AD_STAT_PTR n))), s.tick +
        80⟩ ∧
      t.now.get (F.AD_STAT_PTR n) = (if s.now.get (F.AD_STAT_PTR n) < s.now.get (F.AD_CFG_LEN n) then s.now.get
        (F.AD_STAT_PTR n) + 1 else 0)) ∧
      (s.now.get (F.AD_CFG_MODE n) ≠ 0 → (t.now.adSt n).conv = some ⟨0, s.start.rd (R.AD_SEQ n 0), s.tick + 80⟩ ∧
      (t.now.adSt n).seqRun = true ∧ t.now.get (F.AD_STAT_PTR n) = 0) ∧ t.now.on (F.AD_STAT_BUSY n) = true ∧
      (t.now.adSt n).fifo = (s.now.adSt n).fifo ∧ Frame.ad n (fun a => a = R.AD_STAT n) s t) ∧
    (∀ (n : Fin 32), Waits s (AD.startIn n) → s.now.acted (AD.stopIn n) = false → s.start.on (F.AD_CTL_EN n) = true →
      s.now.on (F.AD_STAT_PEND n) = false → (s.now.adSt n).conv.isSome = true → s.now.get (F.AD_CFG_MODE n) ≠ 2 →
      Answers (.adStart n) s fun t => t.now.on (F.AD_STAT_PEND n) = true ∧ (t.now.adSt n).conv = (s.now.adSt n).conv ∧
      Frame.ad n (fun a => a = R.AD_STAT n) s t) ∧
    (∀ (n : Fin 32) (ag : Agent) (v : Word), Reaches s ag (R.AD_CTL n) → bit v.toNat 0 = true → bit v.toNat 1 = true →
      bit v.toNat 2 = false → (s.start.on (F.AD_CTL_EN n) = true → s.now.acted (AD.startIn n) = false) →
      s.now.acted (AD.stopIn n) = false → s.now.on (F.AD_STAT_PEND n) = false → (s.now.adSt n).conv = none →
      s.now.get (F.AD_CFG_MODE n) = 0 → Answers (.adSoftwareStart ag n v) s fun t =>
      (t.now.adSt n).conv = some ⟨s.now.get (F.AD_STAT_PTR n), s.start.rd (R.AD_SEQ n (s.now.get (F.AD_STAT_PTR n))), s.tick +
        80⟩ ∧
      t.now.get (F.AD_STAT_PTR n) = (if s.now.get (F.AD_STAT_PTR n) < s.now.get (F.AD_CFG_LEN n) then s.now.get
        (F.AD_STAT_PTR n) + 1 else 0) ∧
      t.now.on (F.AD_STAT_BUSY n) = true ∧ t.now.on (F.AD_CTL_EN n) = true ∧ Frame.ad n (block (R.baseAD n) 0x100) s t) ∧
    (∀ (n : Fin 32) (x : AdConv) (y : Volts) (code pin : Nat) (left : List Nat), (s.now.adSt n).conv = some x →
      x.endAt ≤ s.tick → pin = bits x.word 6 0 → pin < nAIN s.hw →
      (code = if y.v.toInt < 0 then 0 else if y.vref.toInt ≤ y.v.toInt then 0xFFFF else
        (y.v.toInt * 65536 / y.vref.toInt).toNat) →
      (left = if (s.now.adSt n).flush then [] else (s.now.adSt n).fifo.drop (s.now.fc.reads.count (R.AD_FIFO n))) →
      Answers (.adConversionEnd n y) s fun t =>
      t.now.rd (R.AD_LAST n) = (2 ^ 31 + x.entry * 2 ^ 24 + pin * 65536 + code) % 2 ^ 32 ∧
      t.now.rd (R.AD_TICK n) = (x.endAt - 56) % 2 ^ 32 ∧ (bit x.word 9 = false → left.length < 16 →
      ((adEndFc s.ctx t.now n).adSt n).fifo = left ++ [2 ^ 31 + x.entry * 2 ^ 24 + pin * 65536 + code]) ∧
      (bit x.word 9 = false → 16 ≤ left.length → (adEndFc s.ctx t.now n).on (F.AD_STAT_FOVF n) = true ∧
      ((adEndFc s.ctx t.now n).adSt n).fifo = left) ∧ t.now.emittedNow .ad n 0 = true ∧ (x.entry = s.now.get (F.AD_CFG_LEN n) →
      t.now.emittedNow .ad n 1 = true) ∧ ((s.now.adSt n).seqRun = false → s.now.on (F.AD_STAT_PEND n) = false →
      t.now.get (F.AD_STAT_PTR n) = s.now.get (F.AD_STAT_PTR n)) ∧ Frame.ad n (blockOr (R.baseAD n) 0x100) s t) ∧
    (∀ (n : Fin 32), Waits s (AD.stopIn n) → s.now.get (F.AD_CFG_MODE n) ≠ 3 → (s.now.adSt n).slostNow = false →
      s.now.adLatched s.ctx n = false → Answers (.adStop n) s fun t => t.now.on (F.AD_STAT_PEND n) = false ∧
      (t.now.adSt n).stopped = (s.now.adSt n).conv.isSome ∧ (t.now.adSt n).conv = (s.now.adSt n).conv ∧
      Frame.ad n (fun a => a = R.AD_STAT n) s t) ∧
    (∀ (n : Fin 32), Waits s (AD.stopIn n) → s.now.get (F.AD_CFG_MODE n) ≠ 3 → (s.now.adSt n).slostNow = false →
      s.now.adLatched s.ctx n = true → Answers (.adStop n) s fun t => t.now.on (F.AD_STAT_PEND n) = false ∧
      ((t.now.adSt n).conv = none ∧ (t.now.adSt n).seqRun = false ∧ t.now.on (F.AD_STAT_BUSY n) = false) ∧
      t.now.get (F.AD_STAT_PTR n) = (if s.now.get (F.AD_CFG_MODE n) = 0 then s.start.get (F.AD_STAT_PTR n) else 0) ∧
      Frame.ad n (fun a => a = R.AD_STAT n) s t) ∧
    (∀ (n : Fin 32) (ag : Agent) (v : Word), Reaches s ag (R.AD_CTL n) → bit v.toNat 0 = false → bit v.toNat 2 = false →
      s.start.on (F.AD_CTL_EN n) = true → s.now.acted (AD.stopIn n) = false → s.now.adLatched s.ctx n = false →
      Answers (.adEnClearWrite ag n v) s fun t => t.now.on (F.AD_CTL_EN n) = false ∧ t.now.on (F.AD_STAT_PEND n) = false ∧
      (t.now.adSt n).stopped = (s.now.adSt n).conv.isSome ∧ Frame.ad n (block (R.baseAD n) 0x100) s t) ∧
    (∀ (n : Fin 32), Waits s (AD.flushIn n) → Answers (.adFlush n) s fun t => (t.now.adSt n).flush = true ∧
      ((adEndFc s.ctx t.now n).adSt n).fifo = (s.now.adSt n).land.toList ∧ Frame.ad n (fun _ => False) s t) ∧
    (∀ (n : Fin 32) (ag : Agent) (v : Word), Reaches s ag (R.AD_CTL n) → bit v.toNat 0 = s.start.on (F.AD_CTL_EN n) →
      bit v.toNat 1 = false → bit v.toNat 2 = true → s.now.acted (AD.flushIn n) = false →
      Answers (.adFlushWrite ag n v) s fun t => ((adEndFc s.ctx t.now n).adSt n).fifo = (s.now.adSt n).land.toList ∧
      t.now.on (F.AD_CTL_EN n) = s.start.on (F.AD_CTL_EN n) ∧ Frame.ad n (block (R.baseAD n) 0x100) s t) ∧
    (∀ (n : Fin 32) (ag : Agent) (k : Nat), n.val < nAD s.hw → k = s.now.fc.reads.count (R.AD_FIFO n) →
      Answers (.adFifoRead ag n) s fun t => t.now.resp = (s.start.adSt n).fifo.getD k 0 % 2 ^ 32 ∧
      ((s.now.adSt n).flush = false → (s.now.adSt n).land = none →
      ((adEndFc s.ctx t.now n).adSt n).fifo = (s.now.adSt n).fifo.drop (k + 1)) ∧ Frame.ad n (fun _ => False) s t) ∧
    (∀ (n : Fin 64) (x : Volts) (on : Bool), on = (s.start.acLive s.hw n && acLevel (s.start.on (F.AC_CFG_POL n))
        (s.now.acSt n).raw x.v.toInt x.vref.toInt (s.start.acDacv n) (s.start.acHys n)) →
      Answers (.acOutputChange n x) s fun t => (t.now.acSt n).raw = on ∧ (t.now.acSt n).vin = some (x.v.toInt, x.vref.toInt) ∧
      ((s.now.acSt n).raw ≠ on → t.now.asyncSrc.contains n.val = on) ∧ Frame.ac n (fun _ => False) s t) ∧
    (∀ (n : Fin 64), n.val < nAC s.hw → s.now.on (F.AC_STAT_OUT n) = false → s.now.acFollows s.ctx n true = true →
      Answers (.acAssert n) s fun t => t.now.on (F.AC_STAT_OUT n) = true ∧ (acBlanked s.ctx n = false →
      t.now.on (F.AC_STAT_SEEN n) = true ∧ t.now.get (F.AC_CNT_CNT n) = satAdd 16 (s.now.get (F.AC_CNT_CNT n)) 1 ∧
      t.now.emittedNow .ac n 0 = true) ∧ (acBlanked s.ctx n = true → t.now.get (F.AC_CNT_CNT n) = s.now.get (F.AC_CNT_CNT n)) ∧
      Frame.ac n (blockOr (R.baseAC n) 0x40) s t) ∧
    (∀ (n : Fin 64), n.val < nAC s.hw → s.now.on (F.AC_STAT_OUT n) = true → s.now.acFollows s.ctx n false = true →
      Answers (.acDeassert n) s fun t => t.now.on (F.AC_STAT_OUT n) = false ∧ ((s.now.acSt n).asserted = true →
      acBlanked s.ctx n = false → t.now.emittedNow .ac n 1 = true) ∧ Frame.ac n (blockOr (R.baseAC n) 0x40) s t) ∧
    (∀ (n : Fin 64), Waits s (AC.rampIn n) → Answers (.acRamp n) s fun t =>
      (t.now.acSt n).ramp = s.start.get (F.AC_REF_REF n) * 2 ^ 12 ∧ (t.now.acSt n).ramping = true ∧ (s.now.acMode n ≠ 0 →
      ((acRampTick t.now n).acSt n).ramp = s.start.get (F.AC_REF_REF n) * 2 ^ 12) ∧ Frame.ac n (fun _ => False) s t) ∧
    (∀ (n : Fin 64), Waits s (AC.blankIn n) → s.start.get (F.AC_BLK_BLK n) ≠ 0 → Answers (.acBlank n) s fun t =>
      s.tick + s.start.get (F.AC_BLK_BLK n) ≤ (t.now.acSt n).blankEnd ∧ ((s.now.acSt n).blankEnd < s.tick →
      (t.now.acSt n).blankEnd = s.tick + s.start.get (F.AC_BLK_BLK n)) ∧ Frame.ac n (fun _ => False) s t) ∧
    (∀ (n : Fin 64), (s.start.acSt n).blankEnd ≠ 0 → (s.start.acSt n).blankEnd < s.tick → s.start.on (F.AC_STAT_OUT n) = true →
      (s.start.acSt n).asserted = false → s.now.emittedNow .ac n 0 = false → Answers (.acBlankEnd n) s fun t =>
      ((s.now.acSt n).blankEnd < s.tick → (t.now.acSt n).blankEnd = 0) ∧ (t.now.acSt n).asserted = s.now.on (F.AC_STAT_OUT n) ∧
      t.now.on (F.AC_STAT_SEEN n) = true ∧ t.now.emittedNow .ac n 0 = true ∧ (s.now.on (F.AC_STAT_OUT n) = false →
      t.now.emittedNow .ac n 1 = true) ∧ Frame.ac n (blockOr (R.baseAC n) 0x40) s t)

/-- Sigma-delta demodulators. At the sampling edge of SDC a bit enters the running sums; the bit that completes a decimation
gives, once the filter has settled, the result of R239 with NEW, SETL = 0 and RESULT; SYNC clears the filter at the end of the
fc; setting EN clears it and starts the clock; a clock loss sets CLKLOSS, clears the filter and ends with the next edge; a read
of RES clears NEW. Rests on the model's choices of log entries 144, 169 and 170. -/
def Obligations.DemodulatorEffects : Prop :=
  ∀ (s : State) (n : Fin 32) (x up : Bool),
    (sdRuns s.ctx n = true → s.now.sdCompletes n = true → s.now.sdOrd n ≤ (s.now.sdSt n).got + 1 →
      sdEdge s.ctx n up s.now = true → Answers (.sdResult n ⟨x, up⟩) s fun t =>
      t.now.rd
        (R.SD_RES
        n) =
        ofSigned
        32 (fracSat
        (sdScale
        (sdDiffs ((sdSums (if x then 1 else -1) ((s.now.sdSt n).integ.take (s.now.sdOrd n))).getD (s.now.sdOrd n - 1) 0)
        (s.now.sdOrd n) (s.now.sdSt n).comb).1 (s.now.get (F.SD_CFG_SCL n)))) ∧
      t.now.rd (R.SD_TICK n) = s.tick % 2 ^ 32 ∧ t.now.on (F.SD_STAT_NEW n) = true ∧ t.now.on (F.SD_STAT_SETL n) = false ∧
      (s.now.on (F.SD_STAT_NEW n) = true → t.now.on (F.SD_STAT_OVR n) = true) ∧ (t.now.sdSt n).cnt = 0 ∧
      t.now.emittedNow .sd n 0 = true ∧ Frame.sd n (blockOr (R.baseSD n) 0x40) s t) ∧
    (sdRuns s.ctx n = true → s.now.sdCompletes n = false → sdEdge s.ctx n up s.now = true →
      Answers (.sdBitSample n ⟨x, up⟩) s fun t =>
      (t.now.sdSt n).integ = sdSums (if x then 1 else -1) ((s.now.sdSt n).integ.take (s.now.sdOrd n)) ∧
      (t.now.sdSt n).cnt = (s.now.sdSt n).cnt + 1 ∧ (t.now.sdSt n).lastEdge = s.tick ∧ Frame.sd n (fun _ => False) s t) ∧
    (Waits s (SD.syncIn n) → s.start.on (F.SD_CTL_EN n) = true → Answers (.sdSync n) s fun t => (t.now.sdSt n).sync = true ∧
      ((sdEndFc s.ctx t.now n).sdSt n).integ = [0, 0, 0, 0] ∧ (((sdEndFc s.ctx t.now n).sdSt n).cnt = 0 ∧
      ((sdEndFc s.ctx t.now n).sdSt n).got = 0) ∧ (sdEndFc s.ctx t.now n).on (F.SD_STAT_SETL n) = true ∧
      Frame.sd n (fun _ => False) s t) ∧
    (sdRuns s.ctx n = true → s.now.on (F.SD_CFG_CLKO n) = false → (s.now.sdSt n).loss = false →
      (s.now.sdSt n).lastEdge + 1024 ≤ s.tick → Answers (.sdClockLoss n) s fun t => t.now.on (F.SD_STAT_CLKLOSS n) = true ∧
      (t.now.sdSt n).loss = true ∧ t.now.on (F.SD_STAT_SETL n) = true ∧ t.now.emittedNow .sd n 1 = true ∧
      Frame.sd n (blockOr (R.baseSD n) 0x40) s t) ∧
    (sdRuns s.ctx n = true → (s.now.sdSt n).loss = true → s.now.sdCompletes n = false → sdEdge s.ctx n up s.now = true →
      Answers (.sdClockLossEnd n ⟨x, up⟩) s fun t => (t.now.sdSt n).loss = false ∧ (t.now.sdSt n).lastEdge = s.tick ∧
      (t.now.sdSt n).cnt = (s.now.sdSt n).cnt + 1 ∧ Frame.sd n (fun _ => False) s t) ∧
    (∀ (ag : Agent) (v : Word), Reaches s ag (R.SD_CTL n) → bit v.toNat 0 = true → s.now.on (F.SD_CTL_EN n) = false →
      Answers (.sdEnable ag n v) s fun t => (s.now.sdBad n = false → t.now.on (F.SD_CTL_EN n) = true ∧
      (t.now.sdSt n).integ = [0, 0, 0, 0] ∧ (t.now.sdSt n).cnt = 0 ∧ (t.now.sdSt n).lastEdge = s.tick ∧
      t.now.on (F.SD_STAT_SETL n) = true ∧
      (t.now.sdSt n).clkAt = (if s.now.on (F.SD_CFG_CLKO n) then some (s.tick + 1) else none)) ∧ (s.now.sdBad n = true →
      t.now.on (F.SD_CTL_EN n) = false ∧ t.now.on (F.SD_STAT_CFGERR n) = true) ∧ Frame.sd n (block (R.baseSD n) 0x40) s t) ∧
    (∀ (ag : Agent), n.val < nAD s.hw → s.now.emittedNow .sd n 0 = false → Answers (.sdResRead ag n) s fun t =>
      t.now.resp = s.now.rd (R.SD_RES n) ∧ t.now.on (F.SD_STAT_NEW n) = false ∧ Frame.sd n (fun a => a = R.SD_STAT n) s t)

/-- Head-drive lanes, starts and waveforms. A start from Hedgerow, from a fire or from software joins the queue with its stamp;
the head entry begins its waveform at its stamp (WST, WAVE START) and the waveform ends (WAVE END); ABORT clears the queue, ends
the waveform and undoes what the starts of that fc counted; a descriptor or point that is not in use takes what is written, one
in use keeps its value and sets WBUSY. Rests on the model's choice of log entry 133. -/
def Obligations.HeadLaneStartEffects : Prop :=
  ∀ (s : State) (n : Fin 16) (ag : Agent) (v : Word),
    (∀ (x : Act) (stamp : Nat), (s.now.fc.latched.find? (fun a => a.input == HL.startIn n && !a.done) = some x) →
      stamp = (s.tick + 2) * 64 + x.fine.getD 0 → s.now.firePending s.ctx n = false → s.start.on (F.HL_CTL_EN n) = true →
      s.now.acted (HL.abortIn n) = false → (s.now.hlSt n).forced = false →
      s.start.hlValid n (s.start.get (F.HL_CTL_WSEL n)) = true → (s.now.hlSt n).queue.length < 4 →
      (s.now.hlSt n).lastEnd ≤ stamp → Answers (.hlHedgerowStart n) s fun t =>
      (t.now.hlSt n).queue = (s.now.hlSt n).queue ++ [⟨stamp, s.start.get (F.HL_CTL_WSEL n)⟩] ∧
      Frame.hl n (fun a => (s.now.fc.writes.any fun y => y.1 == a) = true ∨ a = R.HL_STAT n) s t) ∧
    (∀ (f : FireToLane), (s.now.fires.find? (fun f => f.lane == n.val && f.due ≤ s.tick) = some f) →
      s.start.on (F.HL_CTL_EN n) = true → s.now.acted (HL.abortIn n) = false → (s.now.hlSt n).forced = false →
      s.start.hlValid n f.wsel = true → (s.tick + 2) * 64 ≤ f.stamp → (s.now.hlSt n).queue.length < 4 →
      (s.now.hlSt n).lastEnd ≤ f.stamp → Answers (.hlFireStart n) s fun t =>
      (t.now.hlSt n).queue = (s.now.hlSt n).queue ++ [⟨f.stamp, f.wsel⟩] ∧ t.now.fires = s.now.fires.erase f ∧
      Frame.hl n (fun a => evRegion a ∨ (s.now.fc.writes.any fun y => y.1 == a) = true ∨ a = R.HL_STAT n) s t) ∧
    (∀ (w : Nat), Reaches s ag (R.HL_CTL n) → bit v.toNat 0 = true → bit v.toNat 1 = true → bit v.toNat 2 = false →
      w = bits v.toNat 6 4 → s.now.on (F.HL_CTL_EN n) = true → s.now.acted (HL.startIn n) = false →
      s.now.acted (HL.abortIn n) = false → (s.now.hlSt n).forced = false → s.start.hlValid n w = true →
      (s.now.hlSt n).queue.length < 4 → (s.now.hlSt n).lastEnd ≤ (s.tick + 2) * 64 →
      Answers (.hlSoftwareStart ag n v) s fun t => (t.now.hlSt n).queue = (s.now.hlSt n).queue ++ [⟨(s.tick + 2) * 64, w⟩] ∧
      Frame.hl n (fun a => a = R.HL_CTL n ∨ (s.now.fc.writes.any fun y => y.1 == a) = true ∨ a = R.HL_STAT n) s t) ∧
    (∀ (q : HlStart) (rest : List HlStart), (s.now.hlSt n).queue = q :: rest → tickOf q.stamp ≤ s.tick →
      Answers (.hlWaveformStart n) s fun t =>
      (t.now.hlSt n).waves = ⟨q.stamp, q.stamp + wavLen (s.now.hlPoints n q.wf), q.wf, s.now.hlPoints n q.wf, false⟩ ::
        (s.now.hlSt n).waves.take 2 ∧
      t.now.rd (R.HL_WST n) = tickOf q.stamp % 2 ^ 32 ∧ (rest = [] → (t.now.hlSt n).queue = []) ∧
      t.now.emittedNow .hl n 0 = true ∧ Frame.hl n (blockOr (R.baseHL n) 0x100) s t) ∧
    (∀ (w : HlWave), ((s.now.hlSt n).waves.find? (fun w => !w.ended && tickOf w.e ≤ s.tick) = some w) →
      Answers (.hlWaveformEnd n) s fun t => t.now.emittedNow .hl n 1 = true ∧
      ((t.now.hlSt n).waves = (s.now.hlSt n).waves.map fun x => if x = w then { x with ended := true } else x) ∧
      Frame.hl n evRegion s t) ∧
    (Waits s (HL.abortIn n) → Answers (.hlAbort n) s fun t => (t.now.hlSt n).queue = [] ∧
      (∀ w ∈ (t.now.hlSt n).waves, w.ended = true ∨ w.e < (s.tick + 1) * 64) ∧ ((s.now.hlSt n).flagged = [] →
      (s.now.hlSt n).counted = [] → t.now.rd (R.HL_STAT n) = s.now.rd (R.HL_STAT n) ∧
      t.now.rd (R.HL_CNT n) = s.now.rd (R.HL_CNT n)) ∧ ((s.now.hlSt n).flagged = [F.HL_STAT_WFERR n] →
      (s.now.hlSt n).counted = [] → s.start.on (F.HL_STAT_WFERR n) = false → t.now.on (F.HL_STAT_WFERR n) = false) ∧
      ((s.now.hlSt n).flagged = [] → (s.now.hlSt n).counted = [F.HL_CNT_TSKIP n] →
      s.now.fc.rcAdd.getD 0 ((F.HL_CNT_TSKIP n).addr * 32 + (F.HL_CNT_TSKIP n).lo) = 1 →
      bits (s.now.fc.cleared.getD 0 (F.HL_CNT_TSKIP n).addr) (F.HL_CNT_TSKIP n).hi (F.HL_CNT_TSKIP n).lo = 0 →
      t.now.get (F.HL_CNT_TSKIP n) = s.start.get (F.HL_CNT_TSKIP n)) ∧ ((t.now.hlSt n).took = none ∧
      (t.now.hlSt n).flagged = [] ∧ (t.now.hlSt n).counted = []) ∧ Frame.hl n (fun a => a = R.HL_STAT n ∨ a = R.HL_CNT n) s t) ∧
    (Reaches s ag (R.HL_CTL n) → bit v.toNat 0 = s.now.on (F.HL_CTL_EN n) → bit v.toNat 1 = false → bit v.toNat 2 = true →
      s.now.acted (HL.abortIn n) = false → Answers (.hlAbortWrite ag n v) s fun t => (t.now.hlSt n).queue = [] ∧
      (∀ w ∈ (t.now.hlSt n).waves, w.ended = true ∨ w.e < (s.tick + 1) * 64) ∧ ((s.now.hlSt n).flagged = [] →
      (s.now.hlSt n).counted = [] → t.now.rd (R.HL_STAT n) = s.now.rd (R.HL_STAT n) ∧
      t.now.rd (R.HL_CNT n) = s.now.rd (R.HL_CNT n)) ∧ ((s.now.hlSt n).flagged = [F.HL_STAT_WFERR n] →
      (s.now.hlSt n).counted = [] → s.start.on (F.HL_STAT_WFERR n) = false → t.now.on (F.HL_STAT_WFERR n) = false) ∧
      ((s.now.hlSt n).flagged = [] → (s.now.hlSt n).counted = [F.HL_CNT_TSKIP n] →
      s.now.fc.rcAdd.getD 0 ((F.HL_CNT_TSKIP n).addr * 32 + (F.HL_CNT_TSKIP n).lo) = 1 →
      bits (s.now.fc.cleared.getD 0 (F.HL_CNT_TSKIP n).addr) (F.HL_CNT_TSKIP n).hi (F.HL_CNT_TSKIP n).lo = 0 →
      t.now.get (F.HL_CNT_TSKIP n) = s.start.get (F.HL_CNT_TSKIP n)) ∧ ((t.now.hlSt n).took = none ∧
      (t.now.hlSt n).flagged = [] ∧ (t.now.hlSt n).counted = []) ∧
      Frame.hl n (fun a => a = R.HL_CTL n ∨ a = R.HL_STAT n ∨ a = R.HL_CNT n) s t) ∧
    (∀ (k : Fin 1024), Reaches s ag (R.HLPT_DUR n k) → Answers (.hlWaveformWrite ag n (.dur k) v) s fun t =>
      (s.now.hlPointInUse n k = false → t.now.rd (R.HLPT_DUR n k) = v.toNat) ∧ (s.now.hlPointInUse n k = true →
      t.now.rd (R.HLPT_DUR n k) = s.now.rd (R.HLPT_DUR n k) ∧ t.now.on (F.HL_STAT_WBUSY n) = true) ∧
      Frame.hl n (fun a => a = R.HLPT_DUR n k ∨ a = R.HL_STAT n) s t) ∧
    (∀ (k : Fin 1024), Reaches s ag (R.HLPT_LVL n k) → Answers (.hlWaveformWrite ag n (.lvl k) v) s fun t =>
      (s.now.hlPointInUse n k = false → t.now.get (F.HLPT_LVL_LEVEL n k) = v.toNat % 65536) ∧ (s.now.hlPointInUse n k = true →
      t.now.rd (R.HLPT_LVL n k) = s.now.rd (R.HLPT_LVL n k) ∧ t.now.on (F.HL_STAT_WBUSY n) = true) ∧
      Frame.hl n (fun a => a = R.HLPT_LVL n k ∨ a = R.HL_STAT n) s t) ∧
    (∀ (k : Fin 8), Reaches s ag (R.HL_WF n k) → Answers (.hlWaveformWrite ag n (.desc k) v) s fun t =>
      (s.now.hlInUse n k = false → t.now.get (F.HL_WF_FIRST n k) = bits v.toNat 9 0 ∧
      t.now.get (F.HL_WF_CNT n k) = bits v.toNat 26 16 ∧ t.now.on (F.HL_WF_V n k) = bit v.toNat 31) ∧
      (s.now.hlInUse n k = true → t.now.rd (R.HL_WF n k) = s.now.rd (R.HL_WF n k) ∧ t.now.on (F.HL_STAT_WBUSY n) = true) ∧
      Frame.hl n (fun a => a = R.HL_WF n k ∨ a = R.HL_STAT n) s t)

/-- Head-drive lanes, control. The codes of the two converters are formed from the voltages and kept with their sample fc and
trips or flags what exceeds PLIM; an update computes iref, D and the on-time by the law of R276 (where VBUSC is 0 with a free
value for the quotient the spec does not state, log entry 3); a period takes its update's region and windows; setting EN starts
the lane, or sets CFGERR. Rests on the model's choices of log entries 3, 24, 25, 146, 171 and 172. -/
def Obligations.HeadLaneControlEffects : Prop :=
  ∀ (s : State) (n : Fin 16),
    (∀ (i x : Volts) (ci cx : Nat), n.val < nHL s.hw → 10 ≤ s.tick → (s.now.hlSt n).smp.contains (s.tick - 10) = true →
      ci = hlCode i.v.toInt i.vref.toInt → cx = hlCode x.v.toInt x.vref.toInt → Answers (.hlConverterResult n i x) s fun t =>
      (t.now.hlSt n).res.head? = some (s.tick - 10, ci, cx) ∧ (s.now.get (F.HL_PLIM_ICL n) < (hlCurrent ci).natAbs →
      t.now.on (F.HL_STAT_ICL n) = true ∧ t.now.emittedNow .hl n 3 = true) ∧ (s.now.get (F.HL_PLIM_OVT n) < cx →
      t.now.on (F.HL_STAT_OVV n) = true ∧ t.now.emittedNow .hl n 4 = true) ∧ Frame.trip tripRegs s t) ∧
    (∀ (swp vm vt : Nat) (im opn : Int) (law : HlLaw), n.val < nHL s.hw → s.start.on (F.HL_CTL_EN n) = true →
      swp = s.start.get (F.HL_CFG_SWP n) → swp ≠ 0 → (s.tick + 8) % swp = s.start.get (F.HL_TIMING_PH n) →
      ((s.now.hlSt n).upd.all (fun u => u.p != s.tick + 8) = true) →
      ((s.now.hlSt n).currents (s.tick + 8) swp).length = swp / 10 →
      vm = (((s.now.hlSt n).sample (s.tick + 8 - 20)).map (·.2)).getD 0 →
      im = roundDiv (((s.now.hlSt n).currents (s.tick + 8) swp).foldl (· + ·) 0) (swp / 10) →
      vt = s.start.hlTarget n ((s.tick + 8 + swp) * 64) →
      opn = ((if s.start.get (F.HL_BUS_VBUSC n) = 0 then Config.freeValue s.now.freeCount else 0 : Nat) : Int) →
      law = trackLaw opn vt vm im (s.start.get (F.HL_LAW_KC n)) (s.start.get (F.HL_LAW_KI n)) (s.start.get (F.HL_CFG_VTH n))
        (s.start.get (F.HL_BUS_ILIM n)) (s.start.get (F.HL_BUS_VBUSC n)) (s.start.get (F.HL_DLIM_DMIN n))
        (s.start.get (F.HL_DLIM_DMAX n)) swp →
      Answers (.hlUpdate n) s fun t => t.now.rd (R.HL_MON1 n) = ofSigned 16 law.iref * 65536 + ofSigned 16 im ∧
      t.now.rd (R.HL_MON2 n) = ofSigned 16 law.d * 65536 ∧ (s.now.on (F.HL_PROT_TEE n) = false →
      (t.now.hlSt n).upd = some ⟨s.tick + 8, law.boost, law.w, s.start.get (F.HL_TIMING_DTG n)⟩) ∧ Frame.trip tripRegs s t) ∧
    (∀ (u : HlUpd) (swp : Nat) (same : Bool), (s.now.hlSt n).upd = some u → u.p = s.tick → s.start.on (F.HL_CTL_EN n) = true →
      (s.now.hlSt n).forced = false → swp = s.now.get (F.HL_CFG_SWP n) → (s.now.hlSt n).since + swp + 10 ≤ u.p →
      same = ((s.now.hlSt n).switching && s.now.on (F.HL_STAT_REG n) == u.boost) → Answers (.hlPeriodStart n) s fun t =>
      (t.now.hlSt n).upd = none ∧ (t.now.hlSt n).switching = true ∧
      (t.now.hlSt n).wins = periodWins u.p swp u.dtg u.w ((s.now.hlSt n).heldFrom u.p u.dtg same u.boost) u.boost ∧
      t.now.on (F.HL_STAT_REG n) = u.boost ∧ Frame.hl n (fun a => a = R.HL_STAT n) s t) ∧
    (∀ (ag : Agent) (v : Word), Reaches s ag (R.HL_CTL n) → bit v.toNat 0 = true → bit v.toNat 1 = false →
      bit v.toNat 2 = false → s.now.on (F.HL_CTL_EN n) = false → Answers (.hlEnable ag n v) s fun t => (s.now.hlBad n = false →
      t.now.on (F.HL_CTL_EN n) = true ∧ (t.now.hlSt n).since = s.tick + 1 ∧ (t.now.hlSt n).res = [] ∧ (t.now.hlSt n).smp = []) ∧
      (s.now.hlBad n = true → t.now.on (F.HL_CTL_EN n) = false ∧ t.now.on (F.HL_STAT_CFGERR n) = true) ∧
      Frame.hl n (fun a => a = R.HL_CTL n ∨ a = R.HL_STAT n) s t)

/-- Fire generators. ARM takes the staging set as the pass of the next fc, or as the pending pass while one runs; STOP ends both
with the fc; EN is refused by R345; an issue gives its fire the predicted stamp, or, late, the earliest one, and advances FIDX;
SHOT comes in the fc of the stamp; the pass ends after its last fire and the pending pass starts with the next fc. Rests on the
model's choices of log entries 34 and 152. -/
def Obligations.FireGeneratorEffects : Prop :=
  ∀ (s : State) (n : Fin 16) (ag : Agent) (v : Word),
    (Waits s (FG.armIn n) → s.now.acted (FG.stopIn n) = false → s.start.on (F.FG_CTL_EN n) = true →
      s.start.rd (R.FG_PITCH n) ≠ 0 → s.start.on (F.FG_STAT_PEND n) = false → Answers (.fgArm n) s fun t =>
      (s.now.on (F.FG_STAT_RUN n) = true → (t.now.fgSt n).pend = some (s.start.fgStaged n) ∧
      t.now.on (F.FG_STAT_PEND n) = true) ∧ (s.now.on (F.FG_STAT_RUN n) = false →
      (t.now.fgSt n).next = some (s.start.fgStaged n)) ∧ (s.now.on (F.FG_STAT_RUN n) = false → (s.now.fgSt n).stop = false →
      ((fgEndFc s.ctx t.now n).fgSt n).pass = some (s.start.fgStaged n) ∧
      ((fgEndFc s.ctx t.now n).fgSt n).startAt = s.tick + 1 ∧ (fgEndFc s.ctx t.now n).on (F.FG_STAT_RUN n) = true ∧
      (fgEndFc s.ctx t.now n).rd (R.FG_FIDX n) = 0) ∧ Frame.fg n (fun a => a = R.FG_STAT n) s t) ∧
    (Reaches s ag (R.FG_CTL n) → bit v.toNat 0 = true → bit v.toNat 1 = false → bit v.toNat 2 = true →
      s.now.acted (FG.armIn n) = false → s.now.acted (FG.stopIn n) = false → s.start.on (F.FG_CTL_EN n) = true →
      s.now.on (F.FG_CTL_EN n) = true → s.start.rd (R.FG_PITCH n) ≠ 0 → s.start.on (F.FG_STAT_PEND n) = false →
      Answers (.fgArmWrite ag n v) s fun t => (s.now.on (F.FG_STAT_RUN n) = true →
      (t.now.fgSt n).pend = some (s.start.fgStaged n) ∧ t.now.on (F.FG_STAT_PEND n) = true) ∧
      (s.now.on (F.FG_STAT_RUN n) = false → (t.now.fgSt n).next = some (s.start.fgStaged n)) ∧
      (s.now.on (F.FG_STAT_RUN n) = false → (s.now.fgSt n).stop = false →
      ((fgEndFc s.ctx t.now n).fgSt n).pass = some (s.start.fgStaged n) ∧
      ((fgEndFc s.ctx t.now n).fgSt n).startAt = s.tick + 1 ∧ (fgEndFc s.ctx t.now n).on (F.FG_STAT_RUN n) = true ∧
      (fgEndFc s.ctx t.now n).rd (R.FG_FIDX n) = 0) ∧ Frame.fg n (fun a => a = R.FG_STAT n ∨ a = R.FG_CTL n) s t) ∧
    (Waits s (FG.stopIn n) → Answers (.fgStop n) s fun t => (t.now.fgSt n).stop = true ∧
      (s.start.on (F.FG_STAT_ARMERR n) = false → t.now.on (F.FG_STAT_ARMERR n) = false) ∧
      (((fgEndFc s.ctx t.now n).fgSt n).pass = none ∧ ((fgEndFc s.ctx t.now n).fgSt n).pend = none) ∧
      ((fgEndFc s.ctx t.now n).on (F.FG_STAT_RUN n) = false ∧ (fgEndFc s.ctx t.now n).on (F.FG_STAT_PEND n) = false) ∧
      Frame.fg n (fun a => a = R.FG_STAT n) s t) ∧
    (Reaches s ag (R.FG_CTL n) → bit v.toNat 0 = s.now.on (F.FG_CTL_EN n) → bit v.toNat 1 = true → bit v.toNat 2 = false →
      s.now.acted (FG.stopIn n) = false → Answers (.fgStopWrite ag n v) s fun t => (t.now.fgSt n).stop = true ∧
      (s.start.on (F.FG_STAT_ARMERR n) = false → t.now.on (F.FG_STAT_ARMERR n) = false) ∧
      (((fgEndFc s.ctx t.now n).fgSt n).pass = none ∧ ((fgEndFc s.ctx t.now n).fgSt n).pend = none) ∧
      ((fgEndFc s.ctx t.now n).on (F.FG_STAT_RUN n) = false ∧ (fgEndFc s.ctx t.now n).on (F.FG_STAT_PEND n) = false) ∧
      Frame.fg n (fun a => a = R.FG_STAT n ∨ a = R.FG_CTL n) s t) ∧
    (Reaches s ag (R.FG_CTL n) → bit v.toNat 0 = true → bit v.toNat 1 = false → bit v.toNat 2 = false →
      s.now.on (F.FG_CTL_EN n) = false → Answers (.fgEnable ag n v) s fun t => (s.now.fgBad s.hw n = false →
      t.now.on (F.FG_CTL_EN n) = true) ∧ (s.now.fgBad s.hw n = true → t.now.on (F.FG_CTL_EN n) = false ∧
      t.now.on (F.FG_STAT_CFGERR n) = true) ∧ Frame.fg n (fun a => a = R.FG_STAT n ∨ a = R.FG_CTL n) s t) ∧
    (∀ (q : FgPass) (j first : Nat), n.val < nHL s.hw → s.start.on (F.FG_CTL_EN n) = true → (s.now.fgSt n).pass = some q →
      (s.now.fgSt n).startAt ≤ s.tick → (s.now.fgSt n).issueAt ≠ some s.tick → (s.now.fgSt n).lastEnd = none →
      (s.now.fgSt n).haltAt = none → j = (s.now.fgSt n).j → first = (s.tick + s.now.get (F.FG_LEAD_MINL n)) * 64 →
      s.now.fgPred n = true → ((first : Nat) : Int) ≤ s.now.fgCross n (q.point j) q →
      s.now.fgCross n (q.point j) q ≤ (((s.tick + s.now.get (F.FG_LEAD_LKA n)) * 64 : Nat) : Int) →
      Answers (.fgIssue n) s fun t => (t.now.fgSt n).lst = (s.now.fgCross n (q.point j) q).toNat ∧
      (t.now.rd (R.FG_FIDX n) = (j + 1) % 2 ^ 32 ∧ (t.now.fgSt n).j = j + 1) ∧ (t.now.fgSt n).issueAt = some s.tick ∧
      t.now.faFires
        = s.now.faFires
        ++ [⟨s.tick, n, j, q.dir, if s.now.on (F.FG_WSEL_WOVR n) then s.now.get (F.FG_WSEL_WSEL n) else q.wsel, s.now.get
        (F.FG_PNUM_PNUM n), q.ncol, (faHeads s.ctx n j (s.now.fgCross n (q.point j) q).toNat first false q s.now).1⟩] ∧
      t.now.emittedNow .fg n 0 = true ∧ Frame.fire fireRegs s t) ∧
    (∀ (q : FgPass) (j first : Nat), n.val < nHL s.hw → s.start.on (F.FG_CTL_EN n) = true → (s.now.fgSt n).pass = some q →
      (s.now.fgSt n).startAt ≤ s.tick → (s.now.fgSt n).issueAt ≠ some s.tick → (s.now.fgSt n).lastEnd = none →
      (s.now.fgSt n).haltAt = none → j = (s.now.fgSt n).j → first = (s.tick + s.now.get (F.FG_LEAD_MINL n)) * 64 →
      s.now.fgPred n = true → s.now.fgCross n (q.point j) q < ((first : Nat) : Int) →
      s.now.get (F.FG_LEAD_MINL n) ≤ s.now.get (F.FG_LEAD_LKA n) → Answers (.fgIssue n) s fun t =>
      t.now.on (F.FG_STAT_LATE n) = true ∧ t.now.emittedNow .fg n 2 = true ∧ (t.now.rd (R.FG_FIDX n) = (j + 1) % 2 ^ 32 ∧
      (t.now.fgSt n).j = j + 1) ∧ (s.now.on (F.FG_CFG_SKIP n) = false → (t.now.fgSt n).lst = first ∧
      t.now.emittedNow .fg n 0 = true ∧ t.now.faFires.length = s.now.faFires.length + 1) ∧ (s.now.on (F.FG_CFG_SKIP n) = true →
      t.now.faFires = s.now.faFires ∧ t.now.get (F.FG_CNT_DROP n) = satAdd 8 (s.now.get (F.FG_CNT_DROP n)) 1) ∧
      Frame.fire fireRegs s t) ∧
    (∀ (x : Nat), ((s.now.fgSt n).shots.find? (fun x => tickOf x ≤ s.tick) = some x) → Answers (.fgShot n) s fun t =>
      (t.now.fgSt n).shots = (s.now.fgSt n).shots.erase x ∧ t.now.emittedNow .fg n 1 = true ∧ Frame.fg n evRegion s t) ∧
    (∀ (q : FgPass) (x : Nat), (s.now.fgSt n).pass = some q → (s.now.fgSt n).lastEnd = some x → x ≤ s.tick →
      (((s.now.fgSt n).shots.any fun y => tickOf y ≤ s.tick) = false) → Answers (.fgPassEnd n) s fun t =>
      t.now.emittedNow .fg n 3 = true ∧ ((t.now.fgSt n).pass = none ∧ (t.now.fgSt n).pend = none ∧
      t.now.on (F.FG_STAT_RUN n) = false ∧ t.now.on (F.FG_STAT_PEND n) = false) ∧ ((s.now.fgSt n).next = none →
      (s.now.fgSt n).stop = false → (s.now.fgSt n).pend.isSome = true →
      ((fgEndFc s.ctx t.now n).fgSt n).pass = (s.now.fgSt n).pend ∧ (fgEndFc s.ctx t.now n).on (F.FG_STAT_RUN n) = true) ∧
      Frame.fg n (blockOr (R.baseFG n) 0x80) s t)

/-- The fire assembler. In the fc after the issue the FIRE cell of each head that follows the generator joins its lane's queue;
a cell slot of a HEAD lane takes the head of the queue with the channel's next SEQ; ADV adds WINC to WCOL, and a write of WCOL
sets it. Rests on the model's choices of log entries 42 and 153. -/
def Obligations.FireAssemblerEffects : Prop :=
  ∀ (s : State),
    (∀ (f : FaFire) (x : FaHead) (lane : Nat), s.now.faFires = [f] → f.at_ < s.tick → f.heads = [x] →
      s.now.hcTakes f.fg x.h = true → s.now.get (F.HC_CSH_CSH x.h) ≤ f.j → (s.now.fgSt f.fg).haltAt = none →
      lane = s.now.get (F.HC_CFG_LANE x.h) → (s.now.laneQueue lane).length < 1024 → Answers (.faQueueCells) s fun t =>
      t.now.faFires = [] ∧
      (t.now.laneQueue lane)[(s.now.laneQueue lane).length]? = some (fireCell (s.now.get (F.HC_CFG_CH x.h))
        (((s.now.hcSt x.h).k0 + (f.j - s.now.get (F.HC_CSH_CSH x.h))) % 2 ^ 32) (f.j - s.now.get (F.HC_CSH_CSH x.h)) f.fg f.pnum
        x.stamp
        f.wsel
        f.dir x.late ((s.now.hcSt x.h).blanks.contains (((s.now.hcSt x.h).k0 + (f.j - s.now.get (F.HC_CSH_CSH x.h))) % 2 ^ 32)))
        ∧
      Others Block.laneQueue lane s t ∧ Frame.fire fireRegs s t) ∧
    (∀ (n : Fin 8) (x : Cell) (rest : List Cell), s.now.on (F.GL_STAT_TXRDY n) = true → s.now.glHead n = true →
      (s.now.glSt n).syncDue = false → s.now.laneQueue n = x :: rest → x.fire = none → Answers (.faCellDepart n) s fun t =>
      t.now.laneQueue n = rest ∧
      (t.now.glSt n).out = some ⟨setBits x.head 19 12 ((s.now.glSt n).seq.getD 0 (bits x.head 27 20)), x.payload, x.poison⟩ ∧
      Frame.gl n (fun _ => False) s t) ∧
    (∀ (n : Fin 8) (x : Cell) (rest : List Cell) (g stamp : Nat), s.now.on (F.GL_STAT_TXRDY n) = true → s.now.glHead n = true →
      (s.now.glSt n).syncDue = false → s.now.laneQueue n = x :: rest → x.fire = some (g, stamp) →
      stamp < (s.tick + s.now.get (F.LQ_MRG_MRG n)) * 64 → Answers (.faCellDepart n) s fun t => t.now.laneQueue n = rest ∧
      t.now.get (F.LQ_STAT_LATE n) = satAdd 8 (s.now.get (F.LQ_STAT_LATE n)) 1 ∧
      (t.now.glSt n).out = some ⟨setBits x.head 19 12 ((s.now.glSt n).seq.getD 0 (bits x.head 27 20)), setBits x.payload 74 74
        1, x.poison⟩ ∧
      Frame.gl n (fun a => a = R.LQ_STAT n) s t) ∧
    (∀ (h : Fin 64), Waits s (FA.advIn h) → Answers (.faAdv h) s fun t =>
      t.now.rd (R.HC_WCOL h) = (s.now.rd (R.HC_WCOL h) + s.start.get (F.HC_WINC_WINC h)) % 2 ^ 32 ∧
      Frame.regs (fun a => a = R.HC_WCOL h) s t) ∧
    (∀ (h : Fin 64) (ag : Agent) (v : Word), Reaches s ag (R.HC_WCOL h) → Answers (.faWcolWrite ag h v) s fun t =>
      (s.now.actDone (FA.advIn h) = false → t.now.rd (R.HC_WCOL h) = v.toNat) ∧ (s.now.actDone (FA.advIn h) = true →
      t.now.rd (R.HC_WCOL h) = (v.toNat + s.start.get (F.HC_WINC_WINC h)) % 2 ^ 32) ∧ Frame.regs (fun a => a = R.HC_WCOL h) s t)

/-- Position feedback, counting. Edges of A and B that qualify under the filter in this fc make a quadrature step, edges of U, V
and W a Hall step: a step to a neighbouring state counts by one in its direction, with the stamp of its edge; a jump of two is
an error; a level that stood before the outputs started is the reference and counts nothing; a qualified index loads IDXV and
keeps the count in IDXL; ARM arms it; a write of POS waits for the next fc, a read and LATCH give the position in force with its
fraction and fc. Rests on the model's choices of log entries 26, 27, 28, 35, 147, 148, 149, 164 and 167. -/
def Obligations.PositionCountEffects : Prop :=
  ∀ (s : State) (n : Fin 24),
    (∀ (onA : Bool) (w : BallEdge) (y : Option BallEdge) (xa xb : Option BallEdge) (da db up : Bool) (x m : Nat),
        (xa = (if onA then some w else y) ∧
      xb = (if onA then y else some w)) → fbSampled s.ctx n = true → s.now.fbJudged n 0 = false → s.now.fbQuad n = true →
      s.start.on (F.FB_CTL_EN n) = true → da = (fbEdge s.ctx n (s.now.fbSt n).refA xa).isSome →
      db = (fbEdge s.ctx n (s.now.fbSt n).refB xb).isSome →
      (quadIdx ((s.now.fbSt n).refA != da) ((s.now.fbSt n).refB != db) + 4 - quadIdx
        ((s.now.fbSt n).refA != wasStanding s.ctx (fbEdge s.ctx n (s.now.fbSt n).refA xa))
        ((s.now.fbSt n).refB != wasStanding s.ctx (fbEdge s.ctx n (s.now.fbSt n).refB xb))) % 4 = (if up then 1 else 3) →
      x = laterStamp (fbEdge s.ctx n (s.now.fbSt n).refA xa) (fbEdge s.ctx n (s.now.fbSt n).refB xb) →
      s.now.fbLater n x = true →
      (m = if s.now.emittedNow .fb n 1 then s.now.rd (R.FB_IDXL n) else (s.now.fbSt n).pos / 2 ^ 16) →
      Answers (.fbQuadCount n onA w y) s fun t => t.now.on (F.FB_STAT_DIR n) = (up == s.now.on (F.FB_CFG_DIRI n)) ∧
      (s.now.emittedNow .fb n 1 = false →
      (t.now.fbSt n).pos = (if up != s.now.on (F.FB_CFG_DIRI n) then (m + 1) % 2 ^ 32 * 2 ^ 16 else (m + 2 ^ 32 - 1) % 2 ^ 32 *
        2 ^ 16 + 0xFFFF)) ∧
      (s.now.emittedNow .fb n 1 = true → (t.now.fbSt n).pos = (s.now.fbSt n).pos ∧
      t.now.rd (R.FB_IDXL n) = (if up != s.now.on (F.FB_CFG_DIRI n) then (m + 1) % 2 ^ 32 * 2 ^ 16 else (m + 2 ^ 32 - 1) % 2 ^
        32 * 2 ^ 16 + 0xFFFF) / 2 ^ 16) ∧
      (t.now.fbSt n).last = some x ∧ ((t.now.fbSt n).refA = ((s.now.fbSt n).refA != da) ∧
      (t.now.fbSt n).refB = ((s.now.fbSt n).refB != db)) ∧ t.now.emittedNow .fb n 0 = true ∧
      Frame.fb n (blockOr (R.baseFB n) 0x200) s t) ∧
    (∀ (onA : Bool) (w : BallEdge) (y : Option BallEdge) (xa xb : Option BallEdge), (xa = (if onA then some w else y) ∧
      xb = (if onA then y else some w)) → fbSampled s.ctx n = true → s.now.fbJudged n 0 = false → s.now.fbQuad n = true →
      s.start.on (F.FB_CTL_EN n) = true → (fbEdge s.ctx n (s.now.fbSt n).refA xa).isSome = true →
      (fbEdge s.ctx n (s.now.fbSt n).refB xb).isSome = true →
      wasStanding s.ctx (fbEdge s.ctx n (s.now.fbSt n).refA xa) = false →
      wasStanding s.ctx (fbEdge s.ctx n (s.now.fbSt n).refB xb) = false →
      s.now.fbLater n (laterStamp (fbEdge s.ctx n (s.now.fbSt n).refA xa) (fbEdge s.ctx n (s.now.fbSt n).refB xb)) = true →
      Answers (.fbQuadCount n onA w y) s fun t => t.now.get (F.FB_ERR_QERR n) = satAdd 8 (s.now.get (F.FB_ERR_QERR n)) 1 ∧
      t.now.on (F.FB_STAT_IVAL n) = false ∧ ((t.now.fbSt n).refA = (!(s.now.fbSt n).refA) ∧
      (t.now.fbSt n).refB = (!(s.now.fbSt n).refB)) ∧ t.now.emittedNow .fb n 2 = true ∧
      Frame.fb n (blockOr (R.baseFB n) 0x200) s t) ∧
    (∀ (onA : Bool) (w : BallEdge) (y : Option BallEdge) (xa xb : Option BallEdge) (da db : Bool),
        (xa = (if onA then some w else y) ∧
      xb = (if onA then y else some w)) → fbSampled s.ctx n = true → s.now.fbJudged n 0 = false →
      (s.now.fbQuad n = false ∨ s.now.fbLater n (laterStamp (fbEdge s.ctx n (s.now.fbSt n).refA xa)
        (fbEdge s.ctx n (s.now.fbSt n).refB xb)) = true) →
      da = (fbEdge s.ctx n (s.now.fbSt n).refA xa).isSome → db = (fbEdge s.ctx n (s.now.fbSt n).refB xb).isSome →
      (da || db) = true → wasStanding s.ctx (fbEdge s.ctx n (s.now.fbSt n).refA xa) = da →
      wasStanding s.ctx (fbEdge s.ctx n (s.now.fbSt n).refB xb) = db → Answers (.fbQuadCount n onA w y) s fun t =>
      ((t.now.fbSt n).refA = ((s.now.fbSt n).refA != da) ∧ (t.now.fbSt n).refB = ((s.now.fbSt n).refB != db)) ∧
      ((t.now.fbSt n).pos = (s.now.fbSt n).pos ∧ (t.now.fbSt n).last = (s.now.fbSt n).last) ∧ Frame.fb n (fun _ => False) s t) ∧
    (∀ (xu xv xw : Option BallEdge) (eu ev ew : Option BallEdge) (h x m q r : Nat) (up : Bool), fbSampled s.ctx n = true →
      s.now.fbJudged n 3 = false → s.now.get (F.FB_CFG_MODE n) = 1 → s.start.on (F.FB_CTL_EN n) = true →
      eu = fbEdge s.ctx n (bit (s.now.get (F.FB_HALL_H n)) 0) xu → ev = fbEdge s.ctx n (bit (s.now.get (F.FB_HALL_H n)) 1) xv →
      ew = fbEdge s.ctx n (bit (s.now.get (F.FB_HALL_H n)) 2) xw → (eu.isSome || ev.isSome || ew.isSome) = true →
      x = max (laterStamp eu ev) (laterStamp ew none) → s.now.fbLater n x = true →
      h = hallState (s.now.get (F.FB_HALL_H n)) eu.isSome ev.isSome ew.isSome → hallSector h = some q →
      (s.now.fbSt n).sector = some r → (q = (r + 1) % 6 ∨ r = (q + 1) % 6) → q ≠ r → up = (q == (r + 1) % 6) →
      m = (s.now.fbSt n).pos / 2 ^ 16 → Answers (.fbHallChange n xu ⟨xv, xw⟩) s fun t => t.now.get (F.FB_HALL_H n) = h ∧
      t.now.get (F.FB_HALL_SECT n) = q ∧ (s.now.emittedNow .fb n 1 = false →
      (t.now.fbSt n).pos = (if up != s.now.on (F.FB_CFG_DIRI n) then (m + 1) % 2 ^ 32 * 2 ^ 16 else (m + 2 ^ 32 - 1) % 2 ^ 32 *
        2 ^ 16 + 0xFFFF)) ∧
      (t.now.fbSt n).last = some x ∧ t.now.emittedNow .fb n 0 = true ∧ Frame.fb n (blockOr (R.baseFB n) 0x200) s t) ∧
    (∀ (xu xv xw : Option BallEdge) (eu ev ew : Option BallEdge) (h : Nat), fbSampled s.ctx n = true →
      s.now.fbJudged n 3 = false → s.now.fbHall n = true → s.start.on (F.FB_CTL_EN n) = true →
      eu = fbEdge s.ctx n (bit (s.now.get (F.FB_HALL_H n)) 0) xu → ev = fbEdge s.ctx n (bit (s.now.get (F.FB_HALL_H n)) 1) xv →
      ew = fbEdge s.ctx n (bit (s.now.get (F.FB_HALL_H n)) 2) xw → (eu.isSome || ev.isSome || ew.isSome) = true →
      s.now.fbLater n (max (laterStamp eu ev) (laterStamp ew none)) = true →
      h = hallState (s.now.get (F.FB_HALL_H n)) eu.isSome ev.isSome ew.isSome → hallSector h = none →
      (wasStanding s.ctx eu || wasStanding s.ctx ev || wasStanding s.ctx ew) = false →
      Answers (.fbHallChange n xu ⟨xv, xw⟩) s fun t => t.now.get (F.FB_HALL_H n) = h ∧
      t.now.get (F.FB_ERR_HERR n) = satAdd 8 (s.now.get (F.FB_ERR_HERR n)) 1 ∧ t.now.on (F.FB_STAT_IVAL n) = false ∧
      t.now.emittedNow .fb n 3 = true ∧ Frame.fb n (blockOr (R.baseFB n) 0x200) s t) ∧
    (∀ (xu xv xw : Option BallEdge) (eu ev ew : Option BallEdge) (h : Nat), fbSampled s.ctx n = true →
      s.now.fbJudged n 3 = false → s.now.fbHall n = true → eu = fbEdge s.ctx n (bit (s.now.get (F.FB_HALL_H n)) 0) xu →
      ev = fbEdge s.ctx n (bit (s.now.get (F.FB_HALL_H n)) 1) xv → ew = fbEdge s.ctx n (bit (s.now.get (F.FB_HALL_H n)) 2) xw →
      s.now.fbLater n (max (laterStamp eu ev) (laterStamp ew none)) = true →
      h = hallState (s.now.get (F.FB_HALL_H n)) eu.isSome ev.isSome ew.isSome → hallSector h = none →
      (wasStanding s.ctx eu || wasStanding s.ctx ev || wasStanding s.ctx ew) = true →
      Answers (.fbHallChange n xu ⟨xv, xw⟩) s fun t => t.now.get (F.FB_HALL_H n) = h ∧ (t.now.fbSt n).pos = (s.now.fbSt n).pos ∧
      Frame.fb n (fun a => a = R.FB_HALL n) s t) ∧
    (∀ (x : BallEdge), fbSampled s.ctx n = true → s.now.fbJudged n 1 = false →
      (fbEdge s.ctx n (s.now.fbSt n).refZ (some x)).isSome = true → standing s.ctx x = false →
      s.start.on (F.FB_CTL_EN n) = true → ((!(s.now.fbSt n).refZ) != s.now.on (F.FB_CFG_ZPOL n)) = true →
      (!s.now.on (F.FB_CFG_ZQE n) || ((s.now.fbSt n).refA == s.now.on (F.FB_CFG_ZQA n) && (s.now.fbSt n).refB == s.now.on
        (F.FB_CFG_ZQB n))) = true →
      (s.now.get (F.FB_CFG_IDXM n) = 1 ∨ (s.now.get (F.FB_CFG_IDXM n) = 2 ∧ s.start.on (F.FB_STAT_ARMD n) = true)) →
      Answers (.fbIndex n x) s fun t => t.now.rd (R.FB_IDXL n) = s.now.fbPos n s.tick / 2 ^ 16 % 2 ^ 32 ∧
      (t.now.fbSt n).pos = s.now.rd (R.FB_IDXV n) * 2 ^ 16 ∧ (s.now.get (F.FB_CFG_IDXM n) = 2 →
      s.now.acted (FB.armIn n) = false → t.now.on (F.FB_STAT_ARMD n) = false) ∧ t.now.emittedNow .fb n 1 = true ∧
      Frame.fb n (blockOr (R.baseFB n) 0x200) s t) ∧
    (∀ (x : BallEdge), fbSampled s.ctx n = true → s.now.fbJudged n 1 = false →
      (fbEdge s.ctx n (s.now.fbSt n).refZ (some x)).isSome = true → standing s.ctx x = true → Answers (.fbIndex n x) s fun t =>
      (t.now.fbSt n).refZ = !(s.now.fbSt n).refZ ∧ (t.now.fbSt n).pos = (s.now.fbSt n).pos ∧ Frame.fb n (fun _ => False) s t) ∧
    (Waits s (FB.armIn n) → Answers (.fbArm n) s fun t => t.now.on (F.FB_STAT_ARMD n) = true ∧
      Frame.regs (fun a => a = R.FB_STAT n) s t) ∧
    (∀ (ag : Agent) (v : Word), Reaches s ag (R.FB_CTL n) → bit v.toNat 0 = s.now.on (F.FB_CTL_EN n) → bit v.toNat 2 = false →
      bit v.toNat 3 = true → s.now.acted (FB.armIn n) = false → Answers (.fbArmWrite ag n v) s fun t =>
      t.now.on (F.FB_STAT_ARMD n) = true ∧ Frame.regs (fun a => a = R.FB_STAT n ∨ a = R.FB_CTL n) s t) ∧
    (∀ (ag : Agent) (v : Word), Reaches s ag (R.FB_POS n) → Answers (.fbPosWrite ag n v) s fun t =>
      (t.now.fbSt n).write = some v.toNat ∧ (t.now.fbSt n).pos = (s.now.fbSt n).pos ∧ Frame.fb n (fun _ => False) s t) ∧
    (∀ (ag : Agent), n.val < nFB s.hw → Answers (.fbPosRead ag n) s fun t =>
      t.now.resp = s.now.fbPos n s.tick / 2 ^ 16 % 2 ^ 32 ∧ t.now.get (F.FB_FRAC_FRAC n) = s.now.fbPos n s.tick % 2 ^ 16 ∧
      t.now.on (F.FB_FRAC_IVAL n) = s.now.on (F.FB_STAT_IVAL n) ∧ t.now.rd (R.FB_PTICK n) = s.tick % 2 ^ 32 ∧
      Frame.regs (fun a => a = R.FB_FRAC n ∨ a = R.FB_PTICK n) s t) ∧
    (Waits s (FB.latchIn n) → Answers (.fbLatch n) s fun t => t.now.rd (R.FB_LAT n) = s.now.fbPos n s.tick / 2 ^ 16 % 2 ^ 32 ∧
      t.now.rd (R.FB_LATF n) = s.now.fbPos n s.tick % 2 ^ 16 ∧ t.now.rd (R.FB_LTICK n) = s.tick % 2 ^ 32 ∧
      Frame.regs (fun a => a = R.FB_LAT n ∨ a = R.FB_LATF n ∨ a = R.FB_LTICK n) s t) ∧
    (∀ (ag : Agent) (v : Word), Reaches s ag (R.FB_CTL n) → bit v.toNat 0 = true → bit v.toNat 2 = false →
      bit v.toNat 3 = false → s.now.on (F.FB_CTL_EN n) = false → Answers (.fbEnable ag n v) s fun t =>
      (s.now.fbBad s.hw n = false → t.now.on (F.FB_CTL_EN n) = true ∧ t.now.on (F.FB_STAT_IVAL n) = false ∧
      (t.now.fbSt n).stamps = [] ∧ (t.now.fbSt n).last = none ∧ (t.now.fbSt n).prevV = none) ∧ (s.now.fbBad s.hw n = true →
      t.now.on (F.FB_CTL_EN n) = false ∧ t.now.on (F.FB_STAT_CFGERR n) = true) ∧ Frame.fb n (block (R.baseFB n) 0x200) s t)

/-- Position feedback, speed and compares. Between counts the speed decays to one count in the gap and becomes 0 at ZTO; in
window mode it is the move of the window; a compare that the position crosses emits CMPc and, without auto-add, clears its EN;
one whose value is behind is flagged LATE and, unless it waits, acts one fc later; a write of VAL commits the value. Rests on
the model's choices of log entries 35, 37 and 148. -/
def Obligations.SpeedAndCompareEffects : Prop :=
  ∀ (s : State) (n : Fin 24) (k : Fin 8),
    (∀ (gap : Nat), gap = s.tick * 64 - (s.now.fbSt n).last.getD 0 → n.val < nFB s.hw → s.start.on (F.FB_CTL_EN n) = true →
      s.now.on (F.FB_SPDC_SMODE n) = false → s.now.get (F.FB_SPDC_SPW n) ≠ 0 → s.tick % s.now.get (F.FB_SPDC_SPW n) = 0 →
      (s.now.fbSt n).last.isSome = true → (s.now.fbSt n).countAt ≠ some s.tick → (s.now.fbSt n).n ≠ 0 →
      (s.now.fbSt n).delta < gap * (s.now.fbSt n).n → (s.now.fbSt n).zeroed = false →
      (s.now.get (F.FB_ZTO_ZTO n) = 0 ∨ gap < s.now.get (F.FB_ZTO_ZTO n) * 64) → s.now.emittedNow .fb n 6 = false →
      Answers (.fbSpeedDecay n) s fun t =>
      t.now.rd
        (R.FB_SPD n) = ofSigned 32 (fracSat (roundDiv (s.now.fbSigned n 64 * 2 ^ (s.now.get (F.FB_SPDC_SSCL n) + 31)) gap)) ∧
      t.now.emittedNow .fb n 6 = true ∧ Frame.fb n (blockOr (R.baseFB n) 0x200) s t) ∧
    (n.val < nFB s.hw → s.start.on (F.FB_CTL_EN n) = true → (s.now.fbSt n).last.isSome = true → s.now.get (F.FB_ZTO_ZTO n) ≠ 0 →
      s.now.get (F.FB_ZTO_ZTO n) * 64 ≤ s.tick * 64 - (s.now.fbSt n).last.getD 0 → (s.now.fbSt n).countAt ≠ some s.tick →
      (s.now.fbSt n).zeroed = false → Answers (.fbZeroSpeed n) s fun t => t.now.rd (R.FB_SPD n) = 0 ∧
      (t.now.fbSt n).zeroed = true ∧ ((s.now.fbSt n).setAt ≠ some s.tick →
      (t.now.fbSt n).pos = (s.now.fbSt n).pos / 2 ^ 16 * 2 ^ 16 + (if s.now.on (F.FB_STAT_DIR n) then 0xFFFF else 0)) ∧
      t.now.on (F.FB_STAT_IVAL n) = false ∧ t.now.emittedNow .fb n 6 = true ∧ Frame.fb n (blockOr (R.baseFB n) 0x200) s t) ∧
    (n.val < nFB s.hw → s.start.on (F.FB_CTL_EN n) = true → s.now.on (F.FB_SPDC_SMODE n) = true →
      s.now.get (F.FB_SPDC_SPW n) ≠ 0 → s.tick % s.now.get (F.FB_SPDC_SPW n) = 0 → (s.now.fbSt n).zeroed = false →
      s.now.emittedNow .fb n 6 = false → Answers (.fbWindowSpeed n) s fun t =>
      t.now.rd (R.FB_WCNT n) = ofSigned 32 (sPos (s.now.fbPos n s.tick) / 2 ^ 16 - (s.now.fbSt n).winRef / 2 ^ 16) ∧
      t.now.rd
        (R.FB_SPD
        n) =
        ofSigned
        32 (fracSat (roundDiv ((sPos (s.now.fbPos n s.tick) - (s.now.fbSt n).winRef) * 2 ^ (s.now.get (F.FB_SPDC_SSCL n) + 31))
        (2 ^ 16 * s.now.get (F.FB_SPDC_SPW n)))) ∧
      (s.now.on (F.FB_CTL_EN n) = true → s.now.acted (FB.latchIn n) = false → (s.now.fbSt n).lapse = none →
      ((fbEndFc s.ctx t.now n).fbSt n).winRef = sPos (s.now.fbPos n s.tick)) ∧ t.now.emittedNow .fb n 6 = true ∧
      Frame.fb n (blockOr (R.baseFB n) 0x200) s t) ∧
    (∀ (p q : Int) (v : Nat) (up : Bool), (p, q) = s.now.fbMove s.ctx n → v = (s.start.fbCmp n k).val → n.val < nFB s.hw →
      s.start.on (F.FB_CMP_CTL_EN n k) = true → crosses p q (sPos v) up = true →
      dirAdmits (s.start.get (F.FB_CMP_CTL_DIRF n k)) up = true → s.now.emittedNow .fb n (8 + k) = false →
      fbBehind s.ctx n k s.now = false → Answers (.fbCmpCrossing n k) s fun t => t.now.emittedNow .fb n (8 + k) = true ∧
      (s.start.on (F.FB_CMP_CTL_AA n k) = false → t.now.on (F.FB_CMP_CTL_EN n k) = false) ∧
      Frame.fb n (blockOr (R.baseFB n) 0x200) s t) ∧
    (n.val < nFB s.hw → (s.now.fbCmp n k).late = none → fbBehind s.ctx n k s.now = true → Answers (.fbCmpLate n k) s fun t =>
      t.now.on (F.FB_CMP_CTL_LATE n k) = true ∧ (s.start.on (F.FB_CMP_CTL_WAIT n k) = false →
      (t.now.fbCmp n k).late = some (s.tick + 1, (s.start.fbCmp n k).val)) ∧ (s.start.on (F.FB_CMP_CTL_WAIT n k) = true →
      t.now.fb = s.now.fb) ∧ Frame.fb n (fun a => a = R.FB_CMP_CTL n k) s t) ∧
    (∀ (x v : Nat), (s.now.fbCmp n k).late = some (x, v) → x ≤ s.tick → Answers (.fbCmpLate n k) s fun t =>
      t.now.emittedNow .fb n (8 + k) = true ∧ (t.now.fbCmp n k).late = none ∧ (s.start.on (F.FB_CMP_CTL_AA n k) = false →
      t.now.on (F.FB_CMP_CTL_EN n k) = false) ∧ Frame.fb n (blockOr (R.baseFB n) 0x200) s t) ∧
    (∀ (ag : Agent) (v : Word), Reaches s ag (R.FB_CMP_VAL n k) → Answers (.fbCmpValWrite ag n k v) s fun t =>
      (t.now.fbCmp n k).val = v.toNat * 65536 + (s.now.fbCmp n k).stF ∧ ((t.now.fbCmp n k).judge = some (s.tick + 1) ∧
      (t.now.fbCmp n k).cmt = some s.tick) ∧ (∀ j : Fin 8, j ≠ k → t.now.fbCmp n j = s.now.fbCmp n j) ∧
      Frame.fb n (fun _ => False) s t)

/-- Position feedback, serial sensors. A request sets BUSY, or counts RQLOST while one is in progress; a character, each of its
bits the majority of three samples, joins the response; the frame's end hands the value on for 4 fc later and clears BUSY; a
start bit that has not come by the end of its fc gives the frame up; a good frame sets the position and is told as FRAME, a bad
one sets SCAUSE, counts SERR and is told as SERR. Rests on the model's choices of log entries 29, 38, 39, 40, 41 and 134. -/
def Obligations.SerialSensorEffects : Prop :=
  ∀ (s : State) (n : Fin 24) (lb : Bool),
    (Waits s (FB.reqIn n) → s.start.on (F.FB_CTL_EN n) = true → s.now.fbSerial n = true →
      s.start.on (F.FB_STAT_BUSY n) = false → (s.now.fbSsi n = true → lb = true) → Answers (.fbReq n lb) s fun t =>
      t.now.on (F.FB_STAT_BUSY n) = true ∧ (t.now.fbSt n).reqAt = some s.tick ∧ (t.now.fbSt n).chars = [] ∧
      (s.now.fbFrm n = true → (t.now.fbSt n).send = (fbRequestBytes n (s.now.get (F.FB_FRM_RQN n)) s.now).1) ∧
      Frame.fb n (fun a => a = R.FB_STAT n) s t) ∧
    (Waits s (FB.reqIn n) → s.start.on (F.FB_CTL_EN n) = true → s.now.fbSerial n = true → s.start.on (F.FB_STAT_BUSY n) = true →
      ((s.start.ssiFree n).all (fun x => s.tick < x) = true) → Answers (.fbReq n lb) s fun t =>
      t.now.get (F.FB_ERR_RQLOST n) = satAdd 8 (s.now.get (F.FB_ERR_RQLOST n)) 1 ∧ (t.now.fbSt n).reqAt = (s.now.fbSt n).reqAt ∧
      Frame.fb n (fun a => a = R.FB_ERR n) s t) ∧
    (∀ (ag : Agent) (v : Word), Reaches s ag (R.FB_CTL n) → bit v.toNat 0 = true → bit v.toNat 2 = true →
      bit v.toNat 3 = false → s.start.on (F.FB_CTL_EN n) = true → s.now.on (F.FB_CTL_EN n) = true →
      s.now.acted (FB.reqIn n) = false → s.now.fbSerial n = true → s.start.on (F.FB_STAT_BUSY n) = false →
      (s.now.fbSsi n = true → lb = true) → Answers (.fbSwrq ag n ⟨v, lb⟩) s fun t => t.now.on (F.FB_STAT_BUSY n) = true ∧
      (t.now.fbSt n).reqAt = some s.tick ∧ (t.now.fbSt n).chars = [] ∧ (s.now.fbFrm n = true →
      (t.now.fbSt n).send = (fbRequestBytes n (s.now.get (F.FB_FRM_RQN n)) s.now).1) ∧
      Frame.fb n (fun a => a = R.FB_STAT n ∨ a = R.FB_CTL n) s t) ∧
    (n.val < nFB s.hw → s.now.get (F.FB_REQP_REQP n) ≠ 0 → s.tick % s.now.get (F.FB_REQP_REQP n) = 0 →
      s.start.on (F.FB_CTL_EN n) = true → s.now.acted (FB.reqIn n) = false → s.now.fbSerial n = true →
      s.start.on (F.FB_STAT_BUSY n) = false → (s.now.fbSsi n = true → lb = true) → Answers (.fbPeriodicRequest n lb) s fun t =>
      t.now.on (F.FB_STAT_BUSY n) = true ∧ (t.now.fbSt n).reqAt = some s.tick ∧ Frame.fb n (fun a => a = R.FB_STAT n) s t) ∧
    (∀ (x v : Nat) (bs : BitVec 35), (s.now.fbSt n).reqAt = some x → s.now.fbSsi n = true → s.now.ssiEnd n x ≤ s.tick →
      v = ssiValue (s.now.get (F.FB_SSI_LEAD n)) (s.now.get (F.FB_CFG_NB n)) bs.toNat → Answers (.fbSsiFrameEnd n bs) s fun t =>
      (t.now.fbSt n).frame = some ⟨s.now.ssiEnd n x + 4, v, 0, false, []⟩ ∧ ((s.now.fbSt n).again = false →
      (t.now.fbSt n).reqAt = none) ∧ ((s.now.fbSt n).again = false → s.now.get (F.FB_SSI_MONO n) = 0 →
      t.now.on (F.FB_STAT_BUSY n) = false) ∧ ((s.now.fbSt n).again = true → (s.now.fbSt n).lineB = true →
      (t.now.fbSt n).reqAt = some s.tick ∧ t.now.on (F.FB_STAT_BUSY n) = true) ∧ (s.now.get (F.FB_SSI_MONO n) ≠ 0 →
      (t.now.fbSt n).pauseEnd = some (s.now.ssiEnd n x + s.now.get (F.FB_SSI_MONO n) * 64)) ∧
      Frame.fb n (blockOr (R.baseFB n) 0x200) s t) ∧
    (∀ (x : Nat), (s.now.fbSt n).pauseEnd = some x → x ≤ s.tick → Answers (.fbSsiPauseEnd n) s fun t =>
      t.now.on (F.FB_STAT_BUSY n) = false ∧ (t.now.fbSt n).pauseEnd = none ∧ Frame.fb n (fun a => a = R.FB_STAT n) s t) ∧
    (∀ (data : BitVec 24) (par stop : BitVec 3), s.now.fbExpects n = true → (s.now.fbSt n).chars = [] →
      (s.now.fbSt n).zLow ≤ s.tick * 64 + 63 → s.tick ≤ tickOf (s.now.fbSt n).zLow + s.now.get (F.FB_TMO_TO n) →
      Answers (.fbStartBit n data par stop) s fun t =>
      ((t.now.fbSt n).chars = [(List.range 8).foldl (fun v k => v + b2n (majority data.toNat k) * 2 ^ k) 0]) ∧
      (t.now.fbSt n).frmBad = ((s.now.fbSt n).frmBad || !majority stop.toNat 0) ∧
      ((t.now.fbSt n).parBad = ((s.now.fbSt n).parBad || (s.now.fbParBits n == 1 && majority par.toNat 0 != s.now.fbParity n
        ((List.range 8).foldl (fun v k => v + b2n (majority data.toNat k) * 2 ^ k) 0)))) ∧
      (t.now.fbSt n).lapse = none ∧ Frame.fb n (fun _ => False) s t) ∧
    (s.now.fbFrm n = true → (s.now.fbSt n).reqAt.isSome = true → (s.now.fbSt n).chars.length = s.now.get (F.FB_FRM_RSN n) + 1 →
      tickOf (s.now.fbSt n).charCtr ≤ s.tick → Answers (.fbFrameEnd n) s fun t =>
      (t.now.fbSt n).frame = some ⟨tickOf (s.now.fbSt n).charCtr + 4, bits (leNum (s.now.fbSt n).chars)
        (s.now.get (F.FB_FRM_PB n) + s.now.get (F.FB_CFG_NB n) - 1) (s.now.get (F.FB_FRM_PB n)), if (s.now.fbSt n).frmBad then 4
        else if (s.now.fbSt n).parBad then 5 else 0, s.now.on (F.FB_CRC_CRCEN n), s.now.fbCvLeft n⟩ ∧
      (t.now.fbSt n).reqAt = none ∧ t.now.on (F.FB_STAT_BUSY n) = false ∧
      Frame.fb n (fun a => a = R.FB_STAT n ∨ block (R.FB_RSB n 0) 0x20 a) s t) ∧
    (s.now.fbExpects n = true → (s.now.fbSt n).chars = [] → tickOf (s.now.fbSt n).zLow + s.now.get (F.FB_TMO_TO n) ≤ s.tick →
      Answers (.fbResponseTimeout n) s fun t => (t.now.fbSt n).lapse = some 2 ∧ (((fbLapse s.ctx n t.now).fbSt n).reqAt = none ∧
      ((fbLapse s.ctx n t.now).fbSt n).chars = []) ∧ ((fbLapse s.ctx n t.now).on (F.FB_STAT_BUSY n) = false ∧
      (fbLapse s.ctx n t.now).get (F.FB_STAT_SCAUSE n) = 2) ∧
      ((fbLapse s.ctx n t.now).get (F.FB_ERR_SERR n) = satAdd 8 (s.now.get (F.FB_ERR_SERR n)) 1 ∧
      (fbLapse s.ctx n t.now).emittedNow .fb n 5 = true) ∧ Frame.fb n (fun _ => False) s t) ∧
    (s.now.fbExpects n = true → (s.now.fbSt n).chars ≠ [] → s.now.get (F.FB_TMO_GAP n) ≠ 0 →
      tickOf ((s.now.fbSt n).charEnd + s.now.get (F.FB_TMO_GAP n) * s.now.get (F.FB_BT_BT n)) ≤ s.tick →
      Answers (.fbGapTimeout n) s fun t => (t.now.fbSt n).lapse = some 3 ∧ (((fbLapse s.ctx n t.now).fbSt n).reqAt = none ∧
      ((fbLapse s.ctx n t.now).fbSt n).chars = []) ∧ ((fbLapse s.ctx n t.now).on (F.FB_STAT_BUSY n) = false ∧
      (fbLapse s.ctx n t.now).get (F.FB_STAT_SCAUSE n) = 3) ∧
      ((fbLapse s.ctx n t.now).get (F.FB_ERR_SERR n) = satAdd 8 (s.now.get (F.FB_ERR_SERR n)) 1 ∧
      (fbLapse s.ctx n t.now).emittedNow .fb n 5 = true) ∧ Frame.fb n (fun _ => False) s t) ∧
    (∀ (f : FbFrame) (v : Nat), (s.now.fbSt n).frame = some f → f.due ≤ s.tick → f.cause = 0 → f.wait = false →
      v = (if s.now.on (F.FB_CFG_GRAY n) then gray32 f.v else f.v) → Answers (.fbGoodFrame n) s fun t =>
      (s.now.on (F.FB_CFG_EXT n) = false → (t.now.fbSt n).pos = v * 2 ^ s.now.get (F.FB_CFG_FSH n) % 2 ^ 48) ∧
      (∀ o ∈ (s.now.fbSt n).prevV, s.now.on (F.FB_CFG_EXT n) = true →
      (t.now.fbSt n).pos = ofSigned 48 (sPos (s.now.fbSt n).pos + toSigned (s.now.get (F.FB_CFG_NB n))
        (v + 2 ^ s.now.get (F.FB_CFG_NB n) - o) * 2 ^ s.now.get (F.FB_CFG_FSH n))) ∧
      (t.now.fbSt n).prevV = some v ∧ (t.now.fbSt n).frame = none ∧ t.now.emittedNow .fb n 4 = true ∧ Frame.fb n evRegion s t) ∧
    (∀ (f : FbFrame), (s.now.fbSt n).frame = some f → f.due ≤ s.tick → f.cause ≠ 0 → f.wait = false →
      Answers (.fbBadFrame n) s fun t => t.now.get (F.FB_STAT_SCAUSE n) = f.cause % 8 ∧
      t.now.get (F.FB_ERR_SERR n) = satAdd 8 (s.now.get (F.FB_ERR_SERR n)) 1 ∧ (t.now.fbSt n).frame = none ∧
      (t.now.fbSt n).pos = (s.now.fbSt n).pos ∧ t.now.emittedNow .fb n 5 = true ∧ Frame.fb n (blockOr (R.baseFB n) 0x200) s t)

/-- Encoder emulation. Setting EN and RESYNC take a new reference, the output count becoming OFS; an edge that fell due moves
the count by one no earlier than MSP after the last; a write of WPOS commits with its staged fraction; a bad configuration is
refused with CFGERR. Rests on the model's choice of log entry 36. -/
def Obligations.EmulationOutputEffects : Prop :=
  ∀ (s : State) (m : Fin 8) (ag : Agent) (v : Word),
    (Reaches s ag (R.EMU_CTL m) → bit v.toNat 0 = true → bit v.toNat 1 = false → s.now.on (F.EMU_CTL_EN m) = false →
      Answers (.emuEnable ag m v) s fun t => (s.now.get (F.EMU_RATIO_N m) ≠ 0 → s.now.get (F.EMU_RATIO_M m) ≠ 0 →
      2098 ≤ s.now.get (F.EMU_MSP_MSP m) → t.now.on (F.EMU_CTL_EN m) = true ∧
      (t.now.emuSt m).o = toSigned 32 (s.now.rd (R.EMU_OFS m)) ∧ (t.now.emuSt m).due = none ∧
      t.now.rd (R.EMU_OUT m) = s.now.rd (R.EMU_OFS m)) ∧ (s.now.get (F.EMU_MSP_MSP m) < 2098 →
      t.now.on (F.EMU_CTL_EN m) = false ∧ t.now.on (F.EMU_STAT_CFGERR m) = true) ∧ Frame.emu m (block (R.baseEMU m) 0x40) s t) ∧
    (Waits s (EMU.resyncIn m) → s.start.on (F.EMU_CTL_EN m) = true → Answers (.emuResync m) s fun t =>
      (t.now.emuSt m).o = toSigned 32 (s.now.rd (R.EMU_OFS m)) ∧
      (t.now.emuSt m).ref = (s.now.emuSource s.ctx m).getD (sPos (s.now.fbPos (s.now.get (F.EMU_CFG_SRC m)) s.tick)) ∧
      t.now.get (F.EMU_STAT_LAG m) = 0 ∧ Frame.emu m (block (R.baseEMU m) 0x40) s t) ∧
    (Reaches s ag (R.EMU_CTL m) → bit v.toNat 0 = true → bit v.toNat 1 = true → s.now.on (F.EMU_CTL_EN m) = true →
      s.start.on (F.EMU_CTL_EN m) = true → s.now.acted (EMU.resyncIn m) = false → Answers (.emuResyncWrite ag m v) s fun t =>
      (t.now.emuSt m).o = toSigned 32 (s.now.rd (R.EMU_OFS m)) ∧
      (t.now.emuSt m).ref = (s.now.emuSource s.ctx m).getD (sPos (s.now.fbPos (s.now.get (F.EMU_CFG_SRC m)) s.tick)) ∧
      t.now.get (F.EMU_STAT_LAG m) = 0 ∧ Frame.emu m (block (R.baseEMU m) 0x40) s t) ∧
    (∀ (u e : Nat) (up : Bool), (s.now.emuSt m).due = some (u, up) → s.now.on (F.EMU_CTL_EN m) = true →
      (s.now.emuSt m).held = false →
      e = (match (s.now.emuSt m).lastEdge with | some x => max ((u + 2) * 64) (x + s.now.get (F.EMU_MSP_MSP m)) | none => (u +
        2) * 64) →
      tickOf e ≤ s.tick → Answers (.emuEdge m) s fun t =>
      (t.now.emuSt m).o = (if up then (s.now.emuSt m).o + 1 else (s.now.emuSt m).o - 1) ∧
      t.now.rd (R.EMU_OUT m) = ofSigned 32 (t.now.emuSt m).o ∧ (t.now.emuSt m).lastEdge = some e ∧ (t.now.emuSt m).due = none ∧
      Frame.emu m (fun a => a = R.EMU_OUT m) s t) ∧
    (Reaches s ag (R.EMU_WPOS m) → Answers (.emuWposWrite ag m v) s fun t =>
      (t.now.emuSt m).wpos = v.toNat * 65536 + s.now.get (F.EMU_WPOSF_FRAC m) ∧ (t.now.emuSt m).o = (s.now.emuSt m).o ∧
      Frame.emu m (fun a => a = R.EMU_WPOS m) s t)

/-- Hedgerow. A delivery ends the events of its channel that fall due and latches an action at each fork, with their hop count
and fine field, merging with an action already there (MERGE counts). A software raise carries one event of hop count 0 at once,
timed by the channel's latency. A write of SRC or of a fork keeps what R391 accepts and sets CFGERR otherwise; a fork to an
input the channel's owner does not own counts OWNER. Rests on the model's choices of log entries 43 and 136. -/
def Obligations.EventFabricEffects : Prop :=
  ∀ (s : State) (n : Fin 2048),
    (∀ (f : Flight) (i : Input), f ∈ s.now.flights → f.chan = n.val → f.due ≤ s.tick → i ∈ f.forks →
      Answers (.evDelivery n) s fun t => t.now.acted i = true ∧
      (t.now.flights = s.now.flights.filter fun g => !(g.chan == n.val && g.due ≤ s.tick)) ∧ Frame.regs evRegion s t) ∧
    (∀ (f : Flight) (i : Input), ((s.now.flights.filter fun g => g.chan == n.val && g.due ≤ s.tick) = [f]) → i ∈ f.forks →
      i.unit ≠ .task → s.now.acted i = false → Answers (.evDelivery n) s fun t => ⟨i, f.hop, f.fine, false⟩ ∈ t.now.fc.latched ∧
      Frame.regs evRegion s t) ∧
    (∀ (f : Flight) (i : Input), ((s.now.flights.filter fun g => g.chan == n.val && g.due ≤ s.tick) = [f]) → f.forks = [i] →
      i.unit ≠ .task → s.now.acted i = true → Answers (.evDelivery n) s fun t =>
      t.now.get (vcFld (s.now.mergeSet i) .merge) = satAdd 16 (s.now.get (vcFld (s.now.mergeSet i) .merge)) 1 ∧
      t.now.fc.latched = mergeInto i f.hop f.fine s.now.fc.latched ∧
      Frame.regs (fun a => a = (vcFld (s.now.mergeSet i) .merge).addr) s t) ∧
    (∀ (ag : Agent) (v : Word), Reaches s ag (R.EV_SW n) → bit v.toNat 0 = true → s.start.on (F.EV_CTL_EN n) = true →
      ((s.now.fc.carried.find? fun p => p.1 == n.val) = none) → Answers (.evSoftwareRaise ag n v) s fun t =>
      t.now.flights = s.now.flights ++ (if s.start.forksOf n = [] then [] else
        [⟨n.val, s.tick + s.start.chanLat n, 0, none, s.start.forksOf n⟩]) ∧
      t.now.get (F.EV_STAT_HOP n) = 0 ∧ t.now.get (F.EV_CNT_CNT n) = satAdd 16 (s.now.get (F.EV_CNT_CNT n)) 1 ∧
      Frame.regs (fun a => a = R.EV_STAT n ∨ a = R.EV_CNT n) s t) ∧
    (∀ (ag : Agent) (v : Word), Reaches s ag (R.EV_SW n) → (bit v.toNat 0 = false ∨ s.start.on (F.EV_CTL_EN n) = false) →
      Answers (.evSoftwareRaise ag n v) s fun t => t.now.flights = s.now.flights ∧ Frame.regs (fun _ => False) s t) ∧
    (∀ (ag : Agent) (v : Word), Reaches s ag (R.EV_SRC n) → (ag = .boot ∨ s.start.on (F.EV_CTL_LOCK n) = false) →
      s.now.srcValid s.hw v.toNat = true → Answers (.evSrcWrite ag n v) s fun t =>
      (t.now.get (F.EV_SRC_KIND n) = bits v.toNat 31 24 ∧ t.now.get (F.EV_SRC_INST n) = bits v.toNat 23 8 ∧
      t.now.get (F.EV_SRC_EVT n) = bits v.toNat 3 0) ∧ Frame.regs (fun a => a = R.EV_SRC n) s t) ∧
    (∀ (ag : Agent) (v : Word), Reaches s ag (R.EV_SRC n) → s.start.on (F.EV_CTL_LOCK n) = false →
      s.now.srcValid s.hw v.toNat = false → Answers (.evSrcWrite ag n v) s fun t => t.now.on (F.EV_STAT_CFGERR n) = true ∧
      Frame.regs (fun a => a = R.EV_STAT n) s t) ∧
    (∀ (ag : Agent) (k : Fin 8) (v : Word) (i : Input), Reaches s ag (R.EV_DST n k) → s.start.on (F.EV_CTL_LOCK n) = false →
      s.now.dstValid s.hw v.toNat = true → forkOf v.toNat = some i → (ag = .boot ∨ s.now.inputOwner i = s.now.owner (ownEV n)) →
      Answers (.evDstWrite ag n k v) s fun t => t.now.rd (R.EV_DST n k) = v.toNat ∧ forkOf (t.now.rd (R.EV_DST n k)) = some i ∧
      Frame.regs (fun a => a = R.EV_DST n k) s t) ∧
    (∀ (ag : Agent) (k : Fin 8) (v : Word), Reaches s ag (R.EV_DST n k) → s.start.on (F.EV_CTL_LOCK n) = false →
      s.now.dstValid s.hw v.toNat = false → Answers (.evDstWrite ag n k v) s fun t => t.now.on (F.EV_STAT_CFGERR n) = true ∧
      Frame.regs (fun a => a = R.EV_STAT n) s t) ∧
    (∀ (ag : Agent) (k : Fin 8) (v : Word) (i : Input), Reaches s ag (R.EV_DST n k) → s.start.on (F.EV_CTL_LOCK n) = false →
      s.now.dstValid s.hw v.toNat = true → forkOf v.toNat = some i → ag ≠ .boot → s.now.inputOwner i ≠ s.now.owner (ownEV n) →
      Answers (.evDstWrite ag n k v) s fun t =>
      t.now.get (vcFld (s.now.setOf ag) .owner) = satAdd 16 (s.now.get (vcFld (s.now.setOf ag) .owner)) 1 ∧
      Frame.regs (fun a => a = (vcFld (s.now.setOf ag) .owner).addr) s t)

/-- Interrupt controllers. The first edge of a batch sets PEND, CNT 1 and starts the timer; a further one adds to CNT,
saturating at 255 with SAT; the count threshold or the timer makes the batch due; a delivery takes the first due source after
LAST and the first enabled entry after PTR, records both, empties the batch, but for an edge of the same fc, and sends the
activation for 4 fc later; CLR empties with the fc; GDIS stops deliveries, not batches; a target entry R586 would refuse is not
written. Rests on the model's choices of log entries 2, 50, 51 and 138. -/
def Obligations.InterruptControllerEffects : Prop :=
  ∀ (s : State) (d : Fin 2) (n : Fin 1024),
    (((s.now.edges.any fun x => x.die == d.val && x.src == n.val && x.due ≤ s.tick) = true) →
      s.start.on (F.IC_SRC_CFG_EN d n) = true → (s.now.icSt d n).edgeAt ≠ some s.tick → (s.now.icSt d n).clrAt ≠ some s.tick →
      s.now.on (F.IC_SRC_STAT_PEND d n) = false → Answers (.icEdge d n) s fun t => t.now.on (F.IC_SRC_STAT_PEND d n) = true ∧
      t.now.get (F.IC_SRC_STAT_CNT d n) = 1 ∧
      t.now.on (F.IC_SRC_STAT_DUE d n) = decide (s.start.get (F.IC_SRC_CFG_CCNT d n) ≤ 1) ∧ (t.now.icSt d n).p = s.tick ∧
      (t.now.edges = s.now.edges.filter fun x => !(x.die == d.val && x.src == n.val && x.due ≤ s.tick)) ∧
      Frame.ic (d * 1024 + n) (fun a => a = R.IC_SRC_STAT d n) s t) ∧
    (((s.now.edges.any fun x => x.die == d.val && x.src == n.val && x.due ≤ s.tick) = true) →
      s.start.on (F.IC_SRC_CFG_EN d n) = true → (s.now.icSt d n).edgeAt ≠ some s.tick → (s.now.icSt d n).clrAt ≠ some s.tick →
      s.now.on (F.IC_SRC_STAT_PEND d n) = true → Answers (.icEdge d n) s fun t =>
      t.now.get (F.IC_SRC_STAT_CNT d n) = satAdd 8 (s.now.get (F.IC_SRC_STAT_CNT d n)) 1 ∧
      (s.now.get (F.IC_SRC_STAT_CNT d n) = 255 → t.now.on (F.IC_SRC_STAT_SAT d n) = true) ∧
      t.now.on (F.IC_SRC_STAT_DUE d n) = (s.now.on (F.IC_SRC_STAT_DUE d n) || decide
        (max 1 (s.start.get (F.IC_SRC_CFG_CCNT d n)) ≤ satAdd 8 (s.now.get (F.IC_SRC_STAT_CNT d n)) 1)) ∧
      Frame.ic (d * 1024 + n) (fun a => a = R.IC_SRC_STAT d n) s t) ∧
    (s.start.on (F.IC_SRC_CFG_EN d n) = false → Answers (.icEdge d n) s fun t =>
      t.now.rd (R.IC_SRC_STAT d n) = s.now.rd (R.IC_SRC_STAT d n) ∧ Frame.ic (d * 1024 + n) (fun _ => False) s t) ∧
    (∀ (ag : Agent) (v : Word), Reaches s ag (R.IC_SRC_CMD d n) → bit v.toNat 0 = true → bit v.toNat 1 = false →
      s.start.on (F.IC_SRC_CFG_EN d n) = true → (s.now.icSt d n).edgeAt ≠ some s.tick → (s.now.icSt d n).clrAt ≠ some s.tick →
      s.now.on (F.IC_SRC_STAT_PEND d n) = false → Answers (.icSoftwareEdge ag d n v) s fun t =>
      t.now.on (F.IC_SRC_STAT_PEND d n) = true ∧ t.now.get (F.IC_SRC_STAT_CNT d n) = 1 ∧ (t.now.icSt d n).p = s.tick ∧
      t.now.on (F.IC_SRC_STAT_DUE d n) = decide (s.start.get (F.IC_SRC_CFG_CCNT d n) ≤ 1) ∧
      Frame.ic (d * 1024 + n) (fun a => a = R.IC_SRC_STAT d n) s t) ∧
    (∀ (ag : Agent) (v : Word), Reaches s ag (R.IC_SRC_CMD d n) → bit v.toNat 0 = true → bit v.toNat 1 = false →
      (s.now.icSt d n).edgeAt = some s.tick → Answers (.icSoftwareEdge ag d n v) s fun t =>
      t.now.rd (R.IC_SRC_STAT d n) = s.now.rd (R.IC_SRC_STAT d n) ∧ Frame.ic (d * 1024 + n) (fun _ => False) s t) ∧
    (s.now.on (F.IC_SRC_STAT_PEND d n) = true → s.now.on (F.IC_SRC_STAT_DUE d n) = false →
      s.start.get (F.IC_SRC_CFG_CTIM d n) ≠ 0 → (s.now.icSt d n).p + s.start.get (F.IC_SRC_CFG_CTIM d n) * 1024 = s.tick →
      Answers (.icBatchTimer d n) s fun t => t.now.on (F.IC_SRC_STAT_DUE d n) = true ∧
      t.now.get (F.IC_SRC_STAT_CNT d n) = s.now.get (F.IC_SRC_STAT_CNT d n) ∧
      (t.now.icSt d n).byTime = ((s.now.icSt d n).edgeAt != some s.tick) ∧
      Frame.ic (d * 1024 + n) (fun a => a = R.IC_SRC_STAT d n) s t) ∧
    (∀ (u : Fin 64) (k : Fin 8) (late : Bool), nextDue (s.now.get (F.IC_SET_LAST_SRC d u)) (s.now.icDue s.ctx d u) = some n.val
        →
      nextAfter 8 (s.now.get (F.IC_SET_CTL_PTR d u)) ((List.range 8).filter (s.now.icTarget s.ctx d u)) = some k.val →
      d.val < nDies s.hw → (s.start.on (F.IC_CTL_GDIS d) = false ∨ s.now.on (F.IC_CTL_GDIS d) = false) →
      s.now.icLast.find? (d * 64 + u) ≠ some s.tick →
      late = (s.start.on (F.IC_SRC_STAT_DUE d n) && (s.now.icSt d n).edgeAt == some s.tick) →
      Answers (.icDelivery d u) s fun t =>
      t.now.pendActs
        = s.now.pendActs
        ++ [⟨s.tick + 4, s.start.get (F.IC_SET_T_ENG d u k) * 64 + s.start.get (F.IC_SET_T_TASK d u k), 4, n.val⟩] ∧
      t.now.get (F.IC_SET_LAST_SRC d u) = n.val ∧
      t.now.on (F.IC_SET_LAST_TOUT d u) = (if late then (s.start.icSt d n).byTime else (s.now.icSt d n).byTime) ∧
      t.now.get (F.IC_SET_LAST_CNT d u) = (if late then s.start.get (F.IC_SRC_STAT_CNT d n) else s.now.get
        (F.IC_SRC_STAT_CNT d n)) ∧
      t.now.get (F.IC_SET_CTL_PTR d u) = k.val ∧ (late = false → t.now.on (F.IC_SRC_STAT_PEND d n) = false ∧
      t.now.on (F.IC_SRC_STAT_DUE d n) = false ∧ t.now.get (F.IC_SRC_STAT_CNT d n) = 0) ∧ (late = true →
      t.now.on (F.IC_SRC_STAT_PEND d n) = true ∧ t.now.get (F.IC_SRC_STAT_CNT d n) = 1 ∧ (t.now.icSt d n).p = s.tick) ∧
      Frame.ic (d * 1024 + n) (fun a => a = R.IC_SRC_STAT d n ∨ a = R.IC_SET_LAST d u ∨ a = R.IC_SET_CTL d u) s t) ∧
    (∀ (u : Fin 64), (s.start.on (F.IC_CTL_GDIS d) && s.now.on (F.IC_CTL_GDIS d)) = true → Idle (.icDelivery d u) s) ∧
    (∀ (ag : Agent) (v : Word), Reaches s ag (R.IC_SRC_CMD d n) → bit v.toNat 0 = false → bit v.toNat 1 = true →
      (s.now.icSt d n).edgeAt ≠ some s.tick → Answers (.icClr ag d n v) s fun t => (t.now.icSt d n).clrAt = some s.tick ∧
      t.now.rd (R.IC_SRC_STAT d n) = s.now.rd (R.IC_SRC_STAT d n) ∧
      ((icEndFc s.ctx d n t.now).on (F.IC_SRC_STAT_PEND d n) = false ∧
      (icEndFc s.ctx d n t.now).on (F.IC_SRC_STAT_DUE d n) = false ∧
      (icEndFc s.ctx d n t.now).get (F.IC_SRC_STAT_CNT d n) = 0) ∧ Frame.ic (d * 1024 + n) (fun _ => False) s t) ∧
    (∀ (ag : Agent) (v : Word), Reaches s ag (R.IC_SRC_CMD d n) → bit v.toNat 0 = false → bit v.toNat 1 = true →
      (s.now.icSt d n).edgeAt = some s.tick → Answers (.icClr ag d n v) s fun t =>
      ((icBeginFc ⟨s.hw, s.tick + 1, icEndFc s.ctx d n t.now⟩ d n (icEndFc s.ctx d n t.now)).on (F.IC_SRC_STAT_PEND d n) = true
        ∧
      (icBeginFc ⟨s.hw, s.tick + 1, icEndFc s.ctx d n t.now⟩ d n (icEndFc s.ctx d n t.now)).get (F.IC_SRC_STAT_CNT d n) = 1) ∧
      (icBeginFc ⟨s.hw, s.tick + 1, icEndFc s.ctx d n t.now⟩ d n (icEndFc s.ctx d n t.now)).on (F.IC_SRC_STAT_DUE d n) = decide
        (t.now.get (F.IC_SRC_CFG_CCNT d n) ≤ 1) ∧
      ((icBeginFc ⟨s.hw, s.tick + 1, icEndFc s.ctx d n t.now⟩ d n (icEndFc s.ctx d n t.now)).icSt d n).p = s.tick + 1 ∧
      Frame.ic (d * 1024 + n) (fun a => a = R.IC_SRC_STAT d n) s t) ∧
    (∀ (ag : Agent) (v : Word), Reaches s ag (R.IC_CTL d) → Answers (.icGdisWrite ag d v) s fun t =>
      t.now.on (F.IC_CTL_GDIS d) = bit v.toNat 0 ∧ t.now.on (F.IC_CTL_LOCK d) = (s.now.on (F.IC_CTL_LOCK d) || bit v.toNat 1) ∧
      Frame.regs (fun a => a = R.IC_CTL d) s t) ∧
    (∀ (ag : Agent) (u : Fin 64) (k : Fin 8) (v : Word), Reaches s ag (R.IC_SET_T d u k) →
      s.start.on (F.IC_CTL_LOCK d) = false → s.now.icEntryOk s.hw d v.toNat = true →
      Answers (.icTargetWrite ag d u k v) s fun t => (t.now.on (F.IC_SET_T_V d u k) = bit v.toNat 31 ∧
      t.now.get (F.IC_SET_T_ENG d u k) = bits v.toNat 29 22 ∧ t.now.get (F.IC_SET_T_TASK d u k) = bits v.toNat 21 16) ∧
      Frame.regs (fun a => a = R.IC_SET_T d u k) s t) ∧
    (∀ (ag : Agent) (u : Fin 64) (k : Fin 8) (v : Word), Reaches s ag (R.IC_SET_T d u k) →
      s.now.icEntryOk s.hw d v.toNat = false → Answers (.icTargetWrite ag d u k v) s fun t =>
      t.now.on (F.IC_STAT_CFGERR d) = true ∧ Frame.regs (fun a => a = R.IC_STAT d) s t)

/-- DMA channels: RUN, HALT, ABORT. RUN starts an idle channel whose configuration holds together and sets CFGERR otherwise,
resumes a halted one, and is kept as RPEND by a running one; HALT stops a running or pausing channel, after the element in
progress, and undoes a RUN of its fc; ABORT ends the descriptor in use with ABORT, or the channel where none is in use. Rests on
the model's choice of log entry 157. -/
def Obligations.DmaControlEffects : Prop :=
  ∀ (s : State) (n : Fin 64),
    (Waits s (dmRunIn n) → s.now.acted (dmHaltIn n) = false → s.now.dmState n = 0 → Answers (.dmaRun n) s fun t =>
      t.now.dmState n = (if s.now.dmBadCfg s.hw n then 0 else 1) ∧
      t.now.on (F.DM_STAT_CFGERR n) = (s.now.on (F.DM_STAT_CFGERR n) || s.now.dmBadCfg s.hw n) ∧
      (s.now.dmBadCfg s.hw n = false → (t.now.dmSt n).desc = none ∧ (t.now.dmSt n).fin = false) ∧
      Frame.dm n (fun a => a = R.DM_STAT n) s t) ∧
    (Waits s (dmRunIn n) → s.now.acted (dmHaltIn n) = false → (s.now.dmState n = 1 ∨ s.now.dmState n = 2) →
      Answers (.dmaRun n) s fun t => t.now.on (F.DM_STAT_RPEND n) = true ∧ t.now.dmState n = s.now.dmState n ∧
      Frame.dm n (fun a => a = R.DM_STAT n) s t) ∧
    (Waits s (dmRunIn n) → s.now.acted (dmHaltIn n) = false → s.now.dmState n = 3 → Answers (.dmaRun n) s fun t =>
      (t.now.dmState n = (if (s.now.dmSt n).desc.isSome ∧ !(s.now.dmSt n).fin ∧ !s.start.dmMayRun n then 2 else 1)) ∧
      (t.now.dmSt n).fresh = true ∧ Frame.dm n (fun a => a = R.DM_STAT n) s t) ∧
    (∀ (ag : Agent) (v : Word), Reaches s ag (R.DM_CTL n) → bits v.toNat 2 0 = 1 → s.now.acted (dmRunIn n) = false →
      s.now.acted (dmHaltIn n) = false → s.now.dmState n = 0 → s.now.dmBadCfg s.hw n = false →
      Answers (.dmaRunWrite ag n v) s fun t => t.now.dmState n = 1 ∧ ((t.now.dmSt n).desc = none ∧ (t.now.dmSt n).fin = false) ∧
      Frame.dm n (fun a => a = R.DM_STAT n) s t) ∧
    (Waits s (dmHaltIn n) → ((s.now.fc.latched.any fun x => x.input == dmRunIn n && x.done) = false) →
      (s.now.dmState n = 1 ∨ s.now.dmState n = 2) → (s.now.dmSt n).move = none → Answers (.dmaHalt n) s fun t =>
      t.now.dmState n = 3 ∧ (t.now.dmSt n).desc = (s.now.dmSt n).desc ∧ Frame.dm n (fun a => a = R.DM_STAT n) s t) ∧
    (Waits s (dmHaltIn n) → ((s.now.fc.latched.any fun x => x.input == dmRunIn n && x.done) = false) → s.now.dmState n = 1 →
      (s.now.dmSt n).move.isSome = true → Answers (.dmaHalt n) s fun t => t.now.dmState n = 1 ∧
      t.now.dmSt n = { s.now.dmSt n with halt := true } ∧ Frame.dm n (fun _ => False) s t) ∧
    (Waits s (dmHaltIn n) → ((s.now.fc.latched.any fun x => x.input == dmRunIn n && x.done) = true) → s.start.dmState n = 0 →
      Answers (.dmaHalt n) s fun t => t.now.dmState n = 0 ∧ t.now.dmSt n = s.start.dmSt n ∧
      t.now.on (F.DM_STAT_CFGERR n) = s.start.on (F.DM_STAT_CFGERR n) ∧ Frame.dm n (fun a => a = R.DM_STAT n) s t) ∧
    (∀ (ag : Agent) (v : Word), Reaches s ag (R.DM_CTL n) → bits v.toNat 2 0 = 2 → s.now.acted (dmRunIn n) = false →
      s.now.acted (dmHaltIn n) = false → (s.now.dmState n = 1 ∨ s.now.dmState n = 2) → (s.now.dmSt n).move = none →
      Answers (.dmaHaltWrite ag n v) s fun t => t.now.dmState n = 3 ∧ (t.now.dmSt n).desc = (s.now.dmSt n).desc ∧
      Frame.dm n (fun a => a = R.DM_STAT n) s t) ∧
    (∀ (ag : Agent) (v : Word), Reaches s ag (R.DM_CTL n) → bits v.toNat 2 0 = 4 → s.now.dmState n ≠ 0 →
      Answers (.dmaAbort ag n v) s fun t => ((s.now.dmSt n).desc = none → t.now.dmState n = 0) ∧
      ((s.now.dmSt n).desc.isSome = true → t.now.dmState n = s.now.dmState n ∧
      t.now.dmSt n = { s.now.dmSt n with acc := max (s.now.dmSt n).acc 4, fin := true, stop := true, pauseAt := none }) ∧
      Frame.dm n (fun a => a = R.DM_STAT n) s t)

/-- DMA channels at work. A fetch takes a valid descriptor into use, stops with EMPTY at an invalid one unless a RUN is kept,
with DPSN at a POISON one; an element reads and writes one granule an fc at each side, copies its bytes, by SWAP, from where the
fc began with them, and moves PROG on; the pacing level pauses a channel, lets it go on, and past PTMO ends the descriptor with
PACE; the hand-back writes word 0 with V 0 and STS, counts, moves IDX on and emits DONE. Rests on the model's choices of log
entries 70, 71, 157 and 178. -/
def Obligations.DmaTransferEffects : Prop :=
  ∀ (s : State) (n : Fin 64),
    (∀ (a : Nat) (w : List Nat), n.val < nDM s.hw → s.now.dmState n = 1 → (s.now.dmSt n).desc = none →
      a = s.now.rd (R.DM_RBASE n) + s.now.get (F.DM_IDX_IDX n) * 32 →
      s.now.oddFree s.tick (dmAgent n) (oddSlots s.hw none a) = true → s.start.granBad (a / 32) = false →
      (w = (List.range 8).map fun k => bits (s.start.granData (a / 32)) (32 * k + 31) (32 * k)) → bit (w.getD 0 0) 31 = true →
      Answers (.dmaDescriptorFetch n) s fun t => (t.now.dmSt n).desc = some (a, w) ∧ (t.now.dmSt n).fin = descBad s.hw n w ∧
      (t.now.dmSt n).acc = (if descBad s.hw n w then 2 else 0) ∧ t.now.rd (R.DM_PROG n) = 0 ∧
      Frame.dmStore n (fun _ => False) (fun x => x = R.DM_PROG n ∨ sumRegs x) s t) ∧
    (∀ (a : Nat), n.val < nDM s.hw → s.now.dmState n = 1 → (s.now.dmSt n).desc = none →
      a = s.now.rd (R.DM_RBASE n) + s.now.get (F.DM_IDX_IDX n) * 32 →
      s.now.oddFree s.tick (dmAgent n) (oddSlots s.hw none a) = true → s.start.granBad (a / 32) = false →
      bit (s.start.granData (a / 32)) 31 = false → Answers (.dmaDescriptorFetch n) s fun t =>
      t.now.on (F.DM_STAT_RPEND n) = false ∧ t.now.dmState n = (if s.now.on (F.DM_STAT_RPEND n) then 1 else 0) ∧
      t.now.on (F.DM_STAT_EMPTY n) = (s.now.on (F.DM_STAT_EMPTY n) || !s.now.on (F.DM_STAT_RPEND n)) ∧
      Frame.dmStore n (fun _ => False) (fun x => x = R.DM_STAT n ∨ sumRegs x) s t) ∧
    (∀ (a : Nat), n.val < nDM s.hw → s.now.dmState n = 1 → (s.now.dmSt n).desc = none →
      a = s.now.rd (R.DM_RBASE n) + s.now.get (F.DM_IDX_IDX n) * 32 →
      s.now.oddFree s.tick (dmAgent n) (oddSlots s.hw none a) = true → s.start.granBad (a / 32) = true →
      Answers (.dmaDescriptorFetch n) s fun t => t.now.on (F.DM_STAT_DPSN n) = true ∧ t.now.dmState n = 0 ∧
      Frame.dmStore n (fun _ => False) (fun x => x = R.DM_STAT n ∨ sumRegs x) s t) ∧
    (∀ (r : Nat) (w : List Nat) (x y k : Nat), s.now.dmState n = 1 → (s.now.dmSt n).desc = some (r, w) →
      (s.now.dmSt n).fin = false → (s.now.dmSt n).move = none → ((s.now.dmSt n).elemAt.all (fun u => u < s.tick) = true) →
      (if (s.now.dmSt n).fresh then s.start.dmMayRun n else !s.start.dmMustPause n) = true → descSsp w = false →
      bit (w.getD 0 0) 23 = false → k = descLen w →
      x = elemAddr 32 (descSrc w) (s.now.get (F.DM_PROG_I0 n)) (s.now.get (F.DM_PROG_I1 n)) (s.now.get (F.DM_PROG_I2 n))
        (descStep w 0) (descStep w 1) (descStep w 2) →
      y = elemAddr 32 (w.getD 2 0) (s.now.get (F.DM_PROG_I0 n)) (s.now.get (F.DM_PROG_I1 n)) (s.now.get (F.DM_PROG_I2 n))
        (descStep w 3) (descStep w 4) (descStep w 5) →
      (0x10000000 ≤ x ∧ x + k ≤ 0x10000000 + 0x100000 * nClusters s.hw) → (0x20000000 ≤ y ∧
      y + k ≤ 0x20000000 + 0x1000000 * nDies s.hw) → ((x + k - 1) / 32 = x / 32 ∧ (y + k - 1) / 32 = y / 32) →
      s.start.granBad (x / 32) = false → s.now.oddFree s.tick (dmAgent n) (oddSlots s.hw none x) = true →
      Answers (.dmaElement n) s fun t => (∀ j, j < k →
      t.now.goodByte
        (y + j) = ((swapBytes (bits (w.getD 0 0) 25 24) ((List.range k).map fun i => ⟨s.start.goodByte (x + i), false, 0⟩)).getD
        j {}).v % 256) ∧
      t.now.rd
        (R.DM_PROG
        n) =
        (let z := nextIndex w (s.now.get (F.DM_PROG_I0 n)) (s.now.get (F.DM_PROG_I1 n)) (s.now.get (F.DM_PROG_I2 n)); (z.1 *
        2 ^ 20 + z.2.1 * 2 ^ 10 + z.2.2.1) % 2 ^ 32) ∧
      (t.now.dmSt n).fin = (nextIndex w (s.now.get (F.DM_PROG_I0 n)) (s.now.get (F.DM_PROG_I1 n))
        (s.now.get (F.DM_PROG_I2 n))).2.2.2 ∧
      (t.now.dmSt n).acc = (s.now.dmSt n).acc ∧ ((t.now.dmSt n).elemAt = some s.tick ∧ (t.now.dmSt n).move = none) ∧
      ((s.now.dmSt n).halt = false → t.now.dmState n = 1) ∧ Frame.dmStore n (fun z => y ≤ z ∧
      z < y + k) (fun z => z = R.DM_PROG n ∨ z = R.DM_STAT n ∨ sumRegs z) s t) ∧
    (∀ (r : Nat) (w : List Nat) (x y k : Nat), s.now.dmState n = 1 → (s.now.dmSt n).desc = some (r, w) →
      (s.now.dmSt n).fin = false → (s.now.dmSt n).move = none → ((s.now.dmSt n).elemAt.all (fun u => u < s.tick) = true) →
      (if (s.now.dmSt n).fresh then s.start.dmMayRun n else !s.start.dmMustPause n) = true → descSsp w = false →
      bit (w.getD 0 0) 23 = false → k = descLen w →
      x = elemAddr 32 (descSrc w) (s.now.get (F.DM_PROG_I0 n)) (s.now.get (F.DM_PROG_I1 n)) (s.now.get (F.DM_PROG_I2 n))
        (descStep w 0) (descStep w 1) (descStep w 2) →
      y = elemAddr 32 (w.getD 2 0) (s.now.get (F.DM_PROG_I0 n)) (s.now.get (F.DM_PROG_I1 n)) (s.now.get (F.DM_PROG_I2 n))
        (descStep w 3) (descStep w 4) (descStep w 5) →
      (0x10000000 ≤ x ∧ x + k ≤ 0x10000000 + 0x100000 * nClusters s.hw) → (0x20000000 ≤ y ∧
      y + k ≤ 0x20000000 + 0x1000000 * nDies s.hw) → (x + k - 1) / 32 ≠ x / 32 → s.start.granBad (x / 32) = false →
      s.now.oddFree s.tick (dmAgent n) (oddSlots s.hw none x) = true → Answers (.dmaElement n) s fun t =>
      ((t.now.dmSt
        n).move
        = some
        { reads := [((x / 32 + 1) * 32, k - ((x / 32 + 1) * 32 - x))], writes := elemAccesses y k, got :=
        (List.range ((x / 32 + 1) * 32 - x)).map fun i => ⟨s.start.goodByte (x + i), false, 0⟩ }) ∧
      ((t.now.dmSt n).desc = (s.now.dmSt n).desc ∧ t.now.dmState n = 1) ∧ Frame.dmStore n (fun _ => False) sumRegs s t) ∧
    (∀ (r : Nat) (w : List Nat) (y k : Nat) (m : DmMove), (s.now.dmSt n).desc = some (r, w) → (s.now.dmSt n).move = some m →
      (m.reads = [] ∧ m.got = [] ∧ m.writes = [(y, k)] ∧ m.out.length = k ∧ k < 32) → (0x20000000 ≤ y ∧
      y + k ≤ 0x20000000 + 0x1000000 * nDies s.hw) → (m.out.any (fun z => z.bad) = false) → (∀ j, j < k →
      (moveTick s.ctx s.now n).goodByte (y + j) = (m.out.getD j {}).v % 256) ∧ ((moveTick s.ctx s.now n).dmSt n).move = none ∧
      ((moveTick s.ctx s.now n).dmSt n).elemAt = some s.tick ∧ ((s.now.dmSt n).halt = true →
      (moveTick s.ctx s.now n).dmState n = 3)) ∧
    (∀ (r : Nat) (w : List Nat), s.now.dmState n = 1 → (s.now.dmSt n).desc = some (r, w) → (s.now.dmSt n).fin = false →
      (s.now.dmSt n).move = none → ((s.now.dmSt n).elemAt.all (fun u => u < s.tick) = true) → s.now.flashBusy s.ctx = false →
      (if (s.now.dmSt n).fresh then !s.start.dmMayRun n else s.start.dmMustPause n) = true → Answers (.dmaElement n) s fun t =>
      t.now.dmState n = 2 ∧ (t.now.dmSt n).pauseAt = some s.tick ∧ Frame.dm n (fun a => a = R.DM_STAT n) s t) ∧
    (s.now.dmState n = 2 → (s.now.dmSt n).fin = false → s.start.dmMayRun n = true → Answers (.dmaPaceResume n) s fun t =>
      t.now.dmState n = 1 ∧ (t.now.dmSt n).pauseAt = none ∧ (t.now.dmSt n).desc = (s.now.dmSt n).desc ∧
      Frame.dm n (fun a => a = R.DM_STAT n) s t) ∧
    (∀ (p : Nat), s.now.dmState n = 2 → (s.now.dmSt n).fin = false → (s.now.dmSt n).pauseAt = some p →
      s.now.get (F.DM_PTMO_PTMO n) ≠ 0 → p + s.now.get (F.DM_PTMO_PTMO n) * 1024 ≤ s.tick → s.start.dmMayRun n = false →
      Answers (.dmaPaceTimeout n) s fun t =>
      t.now.dmSt n = { s.now.dmSt n with acc := max (s.now.dmSt n).acc 3, fin := true, stop := true, pauseAt := none } ∧
      Frame.dm n (fun _ => False) s t) ∧
    (∀ (a : Nat) (w : List Nat), (s.now.dmSt n).desc = some (a, w) → (s.now.dmSt n).fin = true → (s.now.dmSt n).move = none →
      ((s.now.dmSt n).elemAt.all (fun u => u ≤ s.tick) = true) →
      s.now.oddFree s.tick (dmAgent n) (oddSlots s.hw none a) = true → (a % 32 = 0 ∧ a < 0x80000000) →
      Answers (.dmaHandback n) s fun t =>
      numFrom t.now.goodByte a 4 = setBits (setBits (w.getD 0 0) 31 31 0) 30 28 (s.now.dmSt n).acc % 2 ^ 32 ∧
      (bit (w.getD 0 0) 27 = true ∨ (s.now.dmSt n).acc ≠ 0 → t.now.emittedNow .dm n 0 = true) ∧
      t.now.get (F.DM_CNT_CNT n) = satAdd 16 (s.now.get (F.DM_CNT_CNT n)) 1 ∧
      t.now.get (F.DM_STAT_LSTS n) = (s.now.dmSt n).acc % 8 ∧
      t.now.on (F.DM_STAT_ERR n) = (s.now.on (F.DM_STAT_ERR n) || (s.now.dmSt n).acc != 0) ∧
      t.now.get (F.DM_IDX_IDX n) = (s.now.get (F.DM_IDX_IDX n) + 1) % (s.now.get (F.DM_RLEN_RLEN n) + 1) ∧
      (t.now.dmState n = (if (s.now.dmSt n).stop ∨ bit (w.getD 0 0) 26 then 0 else s.now.dmState n)) ∧
      ((t.now.dmSt n).desc = none ∧ (t.now.dmSt n).fin = false) ∧
      Frame.dmStore n (stored s.hw a 4) (fun x => blockOr (R.baseDM n) 0x40 x ∨ sumRegs x) s t)

/-- Check-value units. A software write waits for the next fc (R620) and acts there: START begins a message at INIT, DATA
absorbs one, two or four bytes, END closes the message, whose results stand one fc later, a write of RUN sets the running value
and opens the message, DATA or END without a message sets SEQERR. The frame engine presents what is left of its response, its
expected bytes kept out of the running value, and takes the verdict. Rests on the model's choices of log entries 44, 45 and 150.
-/
def Obligations.CheckValueEffects : Prop :=
  ∀ (s : State) (n : Fin 32),
    (∀ (ag : Agent) (v : Word), Reaches s ag (R.CV_CTL n) → Answers (.cvStart ag n v) s fun t =>
      t.now.cvq = s.now.cvq ++ [(n.val, 0x10, v.toNat)] ∧ Frame.cv n 0 (fun _ => False) s t) ∧
    (∀ (ag : Agent) (v : Word), Reaches s ag (R.CV_CTL n) → s.now.cvq = [] → bits v.toNat 3 2 = 1 →
      (s.now.on (F.CV_STAT_OPEN n) = false ∨ (s.now.cvSt n).client = none) → Answers (.cvStart ag n v) s fun t =>
      (cvTick t.now).rd (R.CV_RUN n) = s.now.cvReg n (R.CV_INIT n) ∧ (cvTick t.now).on (F.CV_STAT_OPEN n) = true ∧
      (cvTick t.now).get (F.CV_ALV_BPOS n) = 0 ∧ (cvTick t.now).get (F.CV_CTL_DW n) = bits v.toNat 1 0 ∧
      Frame.cv n 0 (fun _ => False) s t) ∧
    (∀ (ag : Agent) (v : Word), Reaches s ag (R.CV_DATA n) → Answers (.cvData ag n v) s fun t =>
      t.now.cvq = s.now.cvq ++ [(n.val, 0x14, v.toNat)] ∧ Frame.cv n 0 (fun _ => False) s t) ∧
    (∀ (ag : Agent) (v : Word), Reaches s ag (R.CV_DATA n) → s.now.cvq = [] → s.now.on (F.CV_STAT_OPEN n) = true →
      (s.now.cvSt n).client = none → Answers (.cvData ag n v) s fun t =>
      ((cvTick t.now).rd (R.CV_RUN n) = ((List.range (match s.now.get (F.CV_CTL_DW n) with | 0 => 1 | 1 => 2 | _ => 4)).map fun
        j => bits v.toNat (8 * j + 7) (8 * j)).foldl (fun r x => crcByte (s.now.cvWidth n) (s.now.cvReg n (R.CV_POLY n))
        (s.now.on (F.CV_CFG_REFIN n)) r x) (s.now.cvReg n (R.CV_RUN n))) ∧
      (cvTick t.now).get (F.CV_ALV_BPOS n) = (s.now.get (F.CV_ALV_BPOS n) +
        (match s.now.get (F.CV_CTL_DW n) with | 0 => 1 | 1 => 2 | _ => 4)) % 2 ^ 16 ∧
      Frame.cv n 0 (fun _ => False) s t) ∧
    (∀ (ag : Agent) (v : Word), Reaches s ag (R.CV_DATA n) → s.now.cvq = [] → s.now.on (F.CV_STAT_OPEN n) = false →
      Answers (.cvData ag n v) s fun t => (cvTick t.now) = { t.now with cvq := [] }.flag (F.CV_STAT_SEQERR n) ∧
      Frame.cv n 0 (fun _ => False) s t) ∧
    (∀ (ag : Agent) (v : Word), Reaches s ag (R.CV_CTL n) → Answers (.cvEnd ag n v) s fun t =>
      t.now.cvq = s.now.cvq ++ [(n.val, 0x10, v.toNat)] ∧ Frame.cv n 0 (fun _ => False) s t) ∧
    (∀ (ag : Agent) (v : Word), Reaches s ag (R.CV_CTL n) → s.now.cvq = [] → bits v.toNat 3 2 = 2 →
      s.now.on (F.CV_STAT_OPEN n) = true → (s.now.cvSt n).client = none → Answers (.cvEnd ag n v) s fun t =>
      ((cvTick t.now).on (F.CV_STAT_OPEN n) = true ∧ (cvEndFc (cvTick t.now) n).on (F.CV_STAT_OPEN n) = false) ∧
      (cvResultTick ⟨s.hw, s.tick + 2, cvEndFc (cvTick t.now) n⟩ (cvEndFc (cvTick t.now) n) n).rd (R.CV_RES n) =
        (if s.now.on (F.CV_CFG_REFOUT n) then reflectBits (s.now.cvWidth n) (s.now.cvReg n (R.CV_RUN n)) else s.now.cvReg n
        (R.CV_RUN n)) ^^^ s.now.cvReg n (R.CV_XOR n) ∧
      (cvResultTick ⟨s.hw, s.tick + 2, cvEndFc (cvTick t.now) n⟩ (cvEndFc (cvTick t.now) n) n).on (F.CV_STAT_CM n) =
        (cvCompare n && (cvResultTick ⟨s.hw, s.tick + 2, cvEndFc (cvTick t.now) n⟩ (cvEndFc (cvTick t.now) n) n).rd (R.CV_RES n)
        != s.now.rd (R.CV_EXP n)) ∧
      (cvResultTick ⟨s.hw, s.tick + 2, cvEndFc (cvTick t.now) n⟩ (cvEndFc (cvTick t.now) n) n).get (F.CV_STAT_CRCERR n) =
        (if (cvResultTick ⟨s.hw, s.tick + 2, cvEndFc (cvTick t.now) n⟩ (cvEndFc (cvTick t.now) n) n).on (F.CV_STAT_CM n) then
        satAdd 8 (s.now.get (F.CV_STAT_CRCERR n)) 1 else s.now.get (F.CV_STAT_CRCERR n)) ∧
      Frame.cv n 0 (fun _ => False) s t) ∧
    (∀ (ag : Agent) (v : Word), Reaches s ag (R.CV_CTL n) → s.now.cvq = [] → bits v.toNat 3 2 = 2 →
      s.now.on (F.CV_STAT_OPEN n) = false → Answers (.cvEnd ag n v) s fun t => ((cvTick t.now).on (F.CV_STAT_SEQERR n) = true ∧
      ((cvTick t.now).cvSt n).fin = (s.now.cvSt n).fin) ∧ Frame.cv n 0 (fun _ => False) s t) ∧
    (∀ (ag : Agent) (v : Word), Reaches s ag (R.CV_RUN n) → Answers (.cvRunWrite ag n v) s fun t =>
      t.now.cvq = s.now.cvq ++ [(n.val, 0x18, v.toNat)] ∧ Frame.cv n 0 (fun _ => False) s t) ∧
    (∀ (ag : Agent) (v : Word), Reaches s ag (R.CV_RUN n) → s.now.cvq = [] →
      (s.now.on (F.CV_STAT_OPEN n) = false ∨ (s.now.cvSt n).client = none) → Answers (.cvRunWrite ag n v) s fun t =>
      (cvTick t.now).rd (R.CV_RUN n) = v.toNat % 2 ^ s.now.cvWidth n ∧ (cvTick t.now).on (F.CV_STAT_OPEN n) = true ∧
      Frame.cv n 0 (fun _ => False) s t) ∧
    (∀ (f : Fin 24) (x : FbFrame), s.now.fbCv s.hw f = some n.val → (s.now.fbSt f).frame = some x → x.wait = true →
      x.left ≠ [] → (s.now.fbSt f).shown = 0 → (s.now.fbSt f).cvGone = false → s.now.on (F.CV_STAT_OPEN n) = false →
      Answers (.cvClientMessage f) s fun t =>
      (t.now.cvReg n (R.CV_RUN n) = (x.left.filter fun y => !y.2).foldl
        (fun r y => crcByte (s.now.cvWidth n) (s.now.cvReg n (R.CV_POLY n)) (s.now.on (F.CV_CFG_REFIN n)) r (y.1 % 256))
        (s.now.cvReg n (R.CV_INIT n))) ∧
      (cvEndFc t.now n).on (F.CV_STAT_OPEN n) = false ∧
      ((cvResultTick ⟨s.hw, s.tick + 1, cvEndFc t.now n⟩ (cvEndFc t.now n) n).rd (R.CV_EXP n) = cvExpected
        (s.now.on (F.CV_CFG_EXPO n)) ((x.left.filter (·.2)).map fun y => y.1 % 256)) ∧
      (cvResultTick ⟨s.hw, s.tick + 1, cvEndFc t.now n⟩ (cvEndFc t.now n) n).on (F.CV_STAT_CM n) =
        ((cvResultTick ⟨s.hw, s.tick + 1, cvEndFc t.now n⟩ (cvEndFc t.now n) n).rd (R.CV_RES n) !=
        (cvResultTick ⟨s.hw, s.tick + 1, cvEndFc t.now n⟩ (cvEndFc t.now n) n).rd (R.CV_EXP n)) ∧
      ((cvResultTick ⟨s.hw, s.tick + 1, cvEndFc t.now n⟩ (cvEndFc t.now n) n).fbSt f).frame = some
        { x with
        cause := (if x.cause ≠ 0 then x.cause else if (cvResultTick ⟨s.hw, s.tick + 1,
        cvEndFc t.now n⟩ (cvEndFc t.now n) n).on (F.CV_STAT_CM n) then 6 else if (cvResultTick ⟨s.hw, s.tick + 1,
        cvEndFc t.now n⟩ (cvEndFc t.now n) n).get (F.CV_STAT_AV n) ≠ 0 then 7 else 0), wait := false, left := [] } ∧
      Frame.cv n f (block (R.baseCV n) 0x40) s t) ∧
    (∀ (f : Fin 24) (x : FbFrame), s.now.fbCv s.hw f = some n.val → (s.now.fbSt f).frame = some x → x.wait = true →
      x.left ≠ [] → (s.now.fbSt f).shown ≠ 0 → (s.now.fbSt f).cvGone = false → s.now.cvHas n (.fb f) = true →
      Answers (.cvClientMessage f) s fun t =>
      (t.now.cvReg n (R.CV_RUN n) = (x.left.filter fun y => !y.2).foldl
        (fun r y => crcByte (s.now.cvWidth n) (s.now.cvReg n (R.CV_POLY n)) (s.now.on (F.CV_CFG_REFIN n)) r (y.1 % 256))
        (s.now.cvReg n (R.CV_RUN n))) ∧
      (cvEndFc t.now n).on (F.CV_STAT_OPEN n) = false ∧
      ((cvResultTick ⟨s.hw, s.tick + 1, cvEndFc t.now n⟩ (cvEndFc t.now n) n).rd (R.CV_EXP n) = cvExpected
        (s.now.on (F.CV_CFG_EXPO n)) ((s.now.cvSt n).exps ++ ((x.left.filter (·.2)).map fun y => y.1 % 256))) ∧
      (cvResultTick ⟨s.hw, s.tick + 1, cvEndFc t.now n⟩ (cvEndFc t.now n) n).on (F.CV_STAT_CM n) =
        ((cvResultTick ⟨s.hw, s.tick + 1, cvEndFc t.now n⟩ (cvEndFc t.now n) n).rd (R.CV_RES n) !=
        (cvResultTick ⟨s.hw, s.tick + 1, cvEndFc t.now n⟩ (cvEndFc t.now n) n).rd (R.CV_EXP n)) ∧
      ((cvResultTick ⟨s.hw, s.tick + 1, cvEndFc t.now n⟩ (cvEndFc t.now n) n).fbSt f).frame = some
        { x with
        cause := (if x.cause ≠ 0 then x.cause else if (cvResultTick ⟨s.hw, s.tick + 1,
        cvEndFc t.now n⟩ (cvEndFc t.now n) n).on (F.CV_STAT_CM n) then 6 else if (cvResultTick ⟨s.hw, s.tick + 1,
        cvEndFc t.now n⟩ (cvEndFc t.now n) n).get (F.CV_STAT_AV n) ≠ 0 then 7 else 0), wait := false, left := [] } ∧
      Frame.cv n f (block (R.baseCV n) 0x40) s t)

/-- Arithmetic, logic, shifts, comparisons, tags and constants: wherever the instruction issues and the tag table accepts its
operands, Gd takes the result with the tag the table gives, readable in the next fc; G0 keeps its 0; the PC passes the
instruction; nothing else changes. Rests on the model's choices of log entries 58, 60 and 63. -/
def Obligations.ArithmeticLogicResults : Prop :=
  ∀ e : Fin 256,
    (∀ (rd ra rb : Reg), Gives (.add e rd ra rb) e { uses := [ra, rb], writes := [rd] } rd 1
      (rr ra rb (addTags false) fun _ _ t x y => byTag t (numOf t x + numOf t y))) ∧
    (∀ (rd ra rb : Reg), Gives (.sub e rd ra rb) e { uses := [ra, rb], writes := [rd] } rd 1
      (rr ra rb (addTags true) fun _ _ t x y => byTag t (numOf t x - numOf t y))) ∧
    (∀ (rd ra rb : Reg), Gives (.min e rd ra rb) e { uses := [ra, rb], writes := [rd] } rd 1
      (rr ra rb numTags fun _ _ t x y => minMax false t x y)) ∧
    (∀ (rd ra rb : Reg), Gives (.max e rd ra rb) e { uses := [ra, rb], writes := [rd] } rd 1
      (rr ra rb numTags fun _ _ t x y => minMax true t x y)) ∧
    (∀ (rd ra : Reg), Gives (.neg e rd ra) e { uses := [ra], writes := [rd] } rd 1
      (r1 ra (among [Tag.int, Tag.frac, Tag.fix, Tag.ang]) fun _ t x => byTag t (-numOf t x))) ∧
    (∀ (rd ra : Reg), Gives (.abs e rd ra) e { uses := [ra], writes := [rd] } rd 1
      (r1 ra (among [Tag.int, Tag.frac, Tag.fix]) fun _ t x => byTag t (numOf t x).natAbs)) ∧
    (∀ (rd ra rb : Reg), Gives (.and e rd ra rb) e { uses := [ra, rb], writes := [rd] } rd 1
      (rr ra rb (logicTags true) fun _ _ t x y => logic .and t x y)) ∧
    (∀ (rd ra rb : Reg), Gives (.or e rd ra rb) e { uses := [ra, rb], writes := [rd] } rd 1
      (rr ra rb (logicTags true) fun _ _ t x y => logic .or t x y)) ∧
    (∀ (rd ra rb : Reg), Gives (.xor e rd ra rb) e { uses := [ra, rb], writes := [rd] } rd 1
      (rr ra rb (logicTags false) fun _ _ t x y => logic .xor t x y)) ∧
    (∀ (rd ra rb : Reg), Gives (.andn e rd ra rb) e { uses := [ra, rb], writes := [rd] } rd 1
      (rr ra rb (logicTags false) fun _ _ t x y => logic .andn t x y)) ∧
    (∀ (rd ra : Reg), Gives (.not e rd ra) e { uses := [ra], writes := [rd] } rd 1
      (r1 ra (among [Tag.raw, Tag.int, Tag.uns, Tag.bool]) fun _ t x => logicNot t x)) ∧
    (∀ (rd ra rb : Reg), Gives (.sll e rd ra rb) e { uses := [ra, rb], writes := [rd] } rd 1 (rs .sll ra rb)) ∧
    (∀ (rd ra rb : Reg), Gives (.srl e rd ra rb) e { uses := [ra, rb], writes := [rd] } rd 1 (rs .srl ra rb)) ∧
    (∀ (rd ra rb : Reg), Gives (.sra e rd ra rb) e { uses := [ra, rb], writes := [rd] } rd 1 (rs .sra ra rb)) ∧
    (∀ (rd ra rb : Reg), Gives (.ror e rd ra rb) e { uses := [ra, rb], writes := [rd] } rd 1 (rs .ror ra rb)) ∧
    (∀ (rd ra : Reg), Gives (.clz e rd ra) e { uses := [ra], writes := [rd] } rd 1
      (r1 ra (amongTo [Tag.raw, Tag.int, Tag.uns] Tag.int) fun _ t x => word (clz x) t)) ∧
    (∀ (rd ra : Reg), Gives (.sextb e rd ra) e { uses := [ra], writes := [rd] } rd 1
      (r1 ra (amongTo [Tag.raw, Tag.int, Tag.uns] Tag.int) fun _ t x => wordI (toSigned 8 x) t)) ∧
    (∀ (rd ra : Reg), Gives (.sexth e rd ra) e { uses := [ra], writes := [rd] } rd 1
      (r1 ra (amongTo [Tag.raw, Tag.int, Tag.uns] Tag.int) fun _ t x => wordI (toSigned 16 x) t)) ∧
    (∀ (rd ra : Reg), Gives (.zextb e rd ra) e { uses := [ra], writes := [rd] } rd 1
      (r1 ra (amongTo [Tag.raw, Tag.int, Tag.uns] Tag.uns) fun _ t x => word (x % 2 ^ 8) t)) ∧
    (∀ (rd ra : Reg), Gives (.zexth e rd ra) e { uses := [ra], writes := [rd] } rd 1
      (r1 ra (amongTo [Tag.raw, Tag.int, Tag.uns] Tag.uns) fun _ t x => word (x % 2 ^ 16) t)) ∧
    (∀ (rd ra rb : Reg), Gives (.cmpeq e rd ra rb) e { uses := [ra, rb], writes := [rd] } rd 1
      (rr ra rb eqTags fun _ _ t x y => word (b2n (eqVals t x y)) Tag.bool)) ∧
    (∀ (rd ra rb : Reg), Gives (.cmplt e rd ra rb) e { uses := [ra, rb], writes := [rd] } rd 1
      (rr ra rb ltTags fun _ _ t x y => word (b2n (ltVals t x y)) Tag.bool)) ∧
    (∀ (rd ra rb : Reg), Gives (.cmpltu e rd ra rb) e { uses := [ra, rb], writes := [rd] } rd 1
      (rr ra rb ltuTags fun _ _ _ x y => word (b2n (decide (x < y))) Tag.bool)) ∧
    (∀ (rd ra : Reg), Gives (.mov e rd ra) e { moves := [ra], writes := [rd] } rd 1 (fun t => .ok (t.reg ra))) ∧
    (∀ (rd ra : Reg), Gives (.gett e rd ra) e { moves := [ra], writes := [rd] } rd 1
      (fun t => .ok (word (t.reg ra).t.toNat Tag.int))) ∧
    (∀ (rd ra : Reg) (n : TagNo), Gives (.sett e rd ra n) e { uses := [ra], writes := [rd], bad := (if plainTag n then none
      else some 1) } rd 1
      (r1 ra (fun a => (anyTag a).map fun _ => n) fun _ t x => word x t)) ∧
    (∀ (rd ra : Reg) (i : BitVec 11), Gives (.addi e rd ra i) e { uses := [ra], writes := [rd] } rd 1
      (r1 ra (fun a => addTags false a (if a = Tag.uns then Tag.uns else Tag.int)) fun _ t x => byTag t (numOf t x +
            imm11 i.toNat))) ∧
    (∀ (rd ra : Reg) (i : BitVec 11), Gives (.andi e rd ra i) e { uses := [ra], writes := [rd] } rd 1
      (r1 ra (logicImmTags true) fun _ t x => logic .and t x (ofSigned 32 (imm11 i.toNat)))) ∧
    (∀ (rd ra : Reg) (i : BitVec 11), Gives (.ori e rd ra i) e { uses := [ra], writes := [rd] } rd 1
      (r1 ra (logicImmTags true) fun _ t x => logic .or t x (ofSigned 32 (imm11 i.toNat)))) ∧
    (∀ (rd ra : Reg) (i : BitVec 11), Gives (.xori e rd ra i) e { uses := [ra], writes := [rd] } rd 1
      (r1 ra (logicImmTags false) fun _ t x => logic .xor t x (ofSigned 32 (imm11 i.toNat)))) ∧
    (∀ (rd ra : Reg) (i : BitVec 11), Gives (.shi e rd ra i) e { uses := [ra], writes := [rd], bad := (if bits i.toNat 10 7 =
      0 then none else some 1) } rd 1
      (r1 ra (among (shiftTags (shiftKind (bits i.toNat 6 5)))) fun _ t x => shift (shiftKind (bits i.toNat 6 5)) t x
            (bits i.toNat 4 0))) ∧
    (∀ (rd : Reg) (n : TagNo) (i : BitVec 16), Gives (.lil e rd n i) e { writes := [rd], bad := (if plainTag n then none else
      some 1) } rd 1
      (fun _ => .ok (word i.toNat n))) ∧
    (∀ (rd : Reg) (i : BitVec 16), Gives (.lih e rd i) e { uses := [rd], writes := [rd] } rd 1
      (r1 rd anyTag fun _ t x => word (x % 2 ^ 16 + i.toNat * 2 ^ 16) t))

/-- The short forms act on G8–G15 as their long forms do, on 2 bytes. -/
def Obligations.ShortFormResults : Prop :=
  ∀ e : Fin 256,
    (∀ (rd ra : Reg), Gives (.movS e rd ra) e { len := 2, moves := [ra], writes := [rd] } rd 1 (fun t => .ok (t.reg ra))) ∧
    (∀ (rd ra rb : ShortReg), Gives (.addS e rd ra rb) e { len := 2, uses := [short ra, short rb], writes := [short rd] }
      (short rd) 1
      (rr (short ra) (short rb) (addTags false) fun _ _ t x y => byTag t (numOf t x + numOf t y))) ∧
    (∀ (rd ra rb : ShortReg), Gives (.subS e rd ra rb) e { len := 2, uses := [short ra, short rb], writes := [short rd] }
      (short rd) 1
      (rr (short ra) (short rb) (addTags true) fun _ _ t x y => byTag t (numOf t x - numOf t y))) ∧
    (∀ (rd ra rb : ShortReg), Gives (.andS e rd ra rb) e { len := 2, uses := [short ra, short rb], writes := [short rd] }
      (short rd) 1
      (rr (short ra) (short rb) (logicTags true) fun _ _ t x y => logic .and t x y)) ∧
    (∀ (rd ra rb : ShortReg), Gives (.orS e rd ra rb) e { len := 2, uses := [short ra, short rb], writes := [short rd] }
      (short rd) 1
      (rr (short ra) (short rb) (logicTags true) fun _ _ t x y => logic .or t x y)) ∧
    (∀ (rd ra rb : ShortReg), Gives (.xorS e rd ra rb) e { len := 2, uses := [short ra, short rb], writes := [short rd] }
      (short rd) 1
      (rr (short ra) (short rb) (logicTags false) fun _ _ t x y => logic .xor t x y)) ∧
    (∀ (rd ra rb : ShortReg), Gives (.mulS e rd ra rb) e { len := 2, uses := [short ra, short rb], writes := [short rd] }
      (short rd) 2
      (rr (short ra) (short rb) mulTags fun ta tz t x y => mulLow ta tz t x y)) ∧
    (∀ (rd ra rb : ShortReg), Gives (.minS e rd ra rb) e { len := 2, uses := [short ra, short rb], writes := [short rd] }
      (short rd) 1
      (rr (short ra) (short rb) numTags fun _ _ t x y => minMax false t x y)) ∧
    (∀ (rd ra rb : ShortReg), Gives (.maxS e rd ra rb) e { len := 2, uses := [short ra, short rb], writes := [short rd] }
      (short rd) 1
      (rr (short ra) (short rb) numTags fun _ _ t x y => minMax true t x y)) ∧
    (∀ (rd : ShortReg) (i : BitVec 8), Gives (.addiS e rd i) e { len := 2, uses := [short rd], writes := [short rd] } (short
      rd) 1
      (r1 (short rd) (fun a => addTags false a (if a = Tag.uns then Tag.uns else Tag.int)) fun _ t x => byTag t (numOf t
            x + imm8 i.toNat))) ∧
    (∀ (rd : ShortReg) (i : BitVec 8), Gives (.lis e rd i) e { len := 2, writes := [short rd] } (short rd) 1
      (fun _ => .ok (wordI (imm8 i.toNat) Tag.int))) ∧
    (∀ (rd : ShortReg) (q : Fin 4) (i : Fin 32), Gives (.shiS e rd q i) e { len := 2, uses := [short rd], writes := [short
      rd] } (short rd) 1
      (r1 (short rd) (among (shiftTags (shiftKind q))) fun _ t x => shift (shiftKind q) t x i))

/-- Products are readable after 2 fc; FADD, FSUB and FMUL send a result that lands after 3 fc; FMIN, FMAX, FNEG, FABS and RDA
give theirs at once; CVT is late where FLT is on either side; MAC, MSU and MACZ change an accumulator alone, in one kind; CLRA
clears it. Rests on the model's choice of log entry 62. -/
def Obligations.ProductAndFloatResults : Prop :=
  ∀ e : Fin 256,
    (∀ (rd ra rb : Reg), Gives (.mul e rd ra rb) e { uses := [ra, rb], writes := [rd] } rd 2
      (rr ra rb mulTags fun ta tz t x y => mulLow ta tz t x y)) ∧
    (∀ (rd ra rb : Reg), Gives (.mulh e rd ra rb) e { uses := [ra, rb], writes := [rd] } rd 2
      (rr ra rb wholeTags fun _ _ t x y => mulHigh t x y)) ∧
    (∀ (rd ra rb : Reg), GivesLate (.fadd e rd ra rb) e { uses := [ra, rb], writes := [rd] } rd 3
      (rr ra rb fltTags fun _ _ _ x y => word (F32.add x y) Tag.flt)) ∧
    (∀ (rd ra rb : Reg), GivesLate (.fsub e rd ra rb) e { uses := [ra, rb], writes := [rd] } rd 3
      (rr ra rb fltTags fun _ _ _ x y => word (F32.sub x y) Tag.flt)) ∧
    (∀ (rd ra rb : Reg), GivesLate (.fmul e rd ra rb) e { uses := [ra, rb], writes := [rd] } rd 3
      (rr ra rb fltTags fun _ _ _ x y => word (F32.mul x y) Tag.flt)) ∧
    (∀ (rd ra rb : Reg), Gives (.fmin e rd ra rb) e { uses := [ra, rb], writes := [rd] } rd 1
      (rr ra rb fltTags fun _ _ _ x y => word (F32.min x y) Tag.flt)) ∧
    (∀ (rd ra rb : Reg), Gives (.fmax e rd ra rb) e { uses := [ra, rb], writes := [rd] } rd 1
      (rr ra rb fltTags fun _ _ _ x y => word (F32.max x y) Tag.flt)) ∧
    (∀ (rd ra : Reg), Gives (.fneg e rd ra) e { uses := [ra], writes := [rd] } rd 1
      (r1 ra (among [Tag.flt]) fun _ t x => word (F32.neg x) t)) ∧
    (∀ (rd ra : Reg), Gives (.fabs e rd ra) e { uses := [ra], writes := [rd] } rd 1
      (r1 ra (among [Tag.flt]) fun _ t x => word (F32.abs x) t)) ∧
    (∀ (rd : Reg) (n : AccNo) (i : TagNo), Gives (.rda e rd n i) e { moves := [accReg n], writes := [rd] } rd 1
      (fun t => .ok ((t.acc n).readOut (toSigned 4 i)))) ∧
    (∀ (rd ra : Reg) (n : TagNo) (s : State) (k : Nat) (v : TWord),
      Issues s e k { uses := [ra], writes := [rd], bad := (if 1 ≤ n.val ∧ n.val ≤ 5 then none else some 1) } = true →
      (r1 ra (among [Tag.int, Tag.uns, Tag.frac, Tag.fix, Tag.flt]) fun _ t x => convert t x n) (s.now.taskSt e k) = .ok
            v →
      Answers (.cvt e rd ra n) s fun t => if ((s.now.taskSt e k).opd ra).t = Tag.flt ∨ n.val = Tag.flt
        then LateResult s t e k rd 4 3 v else Result s t e k rd 4 1 v) ∧
    (∀ (n : AccNo) (ra rb : Reg) (s : State) (k : Nat) (x : Nat × Nat × Nat),
      Issues s e k { uses := [ra, rb], moves := [accReg n], writes := [accReg n] } = true →
      pairUp numTags ((s.now.taskSt e k).opd ra) ((s.now.taskSt e k).opd rb) = .ok x →
      ((s.now.taskSt e k).acc n).kind = 0 ∨ ((s.now.taskSt e k).acc n).kind = x.2.2 →
      Answers (.mac e n ra rb) s fun t => Accumulates s t e k 4 n
        (((s.now.taskSt e k).acc n).plus x.2.2 (product x.2.2 ((s.now.taskSt e k).opd ra).d ((s.now.taskSt e k).opd
              rb).d))) ∧
    (∀ (n : AccNo) (ra rb : Reg) (s : State) (k : Nat) (x : Nat × Nat × Nat),
      Issues s e k { uses := [ra, rb], moves := [accReg n], writes := [accReg n] } = true →
      pairUp numTags ((s.now.taskSt e k).opd ra) ((s.now.taskSt e k).opd rb) = .ok x →
      ((s.now.taskSt e k).acc n).kind = 0 ∨ ((s.now.taskSt e k).acc n).kind = x.2.2 →
      Answers (.msu e n ra rb) s fun t => Accumulates s t e k 4 n
        (((s.now.taskSt e k).acc n).plus x.2.2 (-product x.2.2 ((s.now.taskSt e k).opd ra).d ((s.now.taskSt e k).opd
              rb).d))) ∧
    (∀ (n : AccNo) (ra rb : Reg) (s : State) (k : Nat) (x : Nat × Nat × Nat),
      Issues s e k { uses := [ra, rb], writes := [accReg n] } = true →
      pairUp numTags ((s.now.taskSt e k).opd ra) ((s.now.taskSt e k).opd rb) = .ok x →
      Answers (.macz e n ra rb) s fun t => Accumulates s t e k 4 n
        (({} : AccV).plus x.2.2 (product x.2.2 ((s.now.taskSt e k).opd ra).d ((s.now.taskSt e k).opd rb).d))) ∧
    (∀ (n : AccNo) (ra rb : ShortReg) (s : State) (k : Nat) (x : Nat × Nat × Nat),
      Issues s e k { len := 2, uses := [short ra, short rb], moves := [accReg n], writes := [accReg n] } = true →
      pairUp numTags ((s.now.taskSt e k).opd (short ra)) ((s.now.taskSt e k).opd (short rb)) = .ok x →
      ((s.now.taskSt e k).acc n).kind = 0 ∨ ((s.now.taskSt e k).acc n).kind = x.2.2 →
      Answers (.macS e n ra rb) s fun t => Accumulates s t e k 2 n
        (((s.now.taskSt e k).acc n).plus x.2.2 (product x.2.2 ((s.now.taskSt e k).opd (short ra)).d ((s.now.taskSt e
              k).opd (short rb)).d))) ∧
    (∀ (n : AccNo) (ra rb : ShortReg) (s : State) (k : Nat) (x : Nat × Nat × Nat),
      Issues s e k { len := 2, uses := [short ra, short rb], moves := [accReg n], writes := [accReg n] } = true →
      pairUp numTags ((s.now.taskSt e k).opd (short ra)) ((s.now.taskSt e k).opd (short rb)) = .ok x →
      ((s.now.taskSt e k).acc n).kind = 0 ∨ ((s.now.taskSt e k).acc n).kind = x.2.2 →
      Answers (.msuS e n ra rb) s fun t => Accumulates s t e k 2 n
        (((s.now.taskSt e k).acc n).plus x.2.2 (-product x.2.2 ((s.now.taskSt e k).opd (short ra)).d ((s.now.taskSt e
              k).opd (short rb)).d))) ∧
    (∀ (n : AccNo) (s : State) (k : Nat), Issues s e k { writes := [accReg n] } = true →
      Answers (.clra e n) s fun t => Accumulates s t e k 4 n {})

/-- Branches and jumps. A compare-and-branch goes to pc + 2 × offset where its comparison holds under the tag table, and past
itself otherwise; JAL and JALR give the link, pc + 4 with tag CPTR; JALR and JR go to the CPTR in their register, bit 0 ignored;
the costs and the BHT and BTB follow R417–R420. Rests on the model's choices of log entries 57 and 75. -/
def Obligations.BranchResults : Prop :=
  ∀ (s : State) (e : Fin 256) (k : Nat),
    (∀ (ra rb : Reg) (ofs : BitVec 15) (x : Nat × Nat × Nat), Issues s e k { uses := [ra, rb], branch := true } = true →
      (pairUp eqTags ((s.now.taskSt e k).opd ra) ((s.now.taskSt e k).opd rb)).toOption = some x →
      Answers (.cbeq e ra rb ofs) s fun t =>
      (Branched s t e k 4 .conditional (offsetTarget (s.now.taskSt e k).pc (toSigned 15 ofs.toNat))
        (eqVals x.2.2 ((s.now.taskSt e k).opd ra).d ((s.now.taskSt e k).opd rb).d) (fun _ => False))) ∧
    (∀ (ra rb : Reg) (ofs : BitVec 15) (x : Nat × Nat × Nat), Issues s e k { uses := [ra, rb], branch := true } = true →
      (pairUp eqTags ((s.now.taskSt e k).opd ra) ((s.now.taskSt e k).opd rb)).toOption = some x →
      Answers (.cbne e ra rb ofs) s fun t =>
      (Branched s t e k 4 .conditional (offsetTarget (s.now.taskSt e k).pc (toSigned 15 ofs.toNat))
        (!eqVals x.2.2 ((s.now.taskSt e k).opd ra).d ((s.now.taskSt e k).opd rb).d) (fun _ => False))) ∧
    (∀ (ra rb : Reg) (ofs : BitVec 15) (x : Nat × Nat × Nat), Issues s e k { uses := [ra, rb], branch := true } = true →
      (pairUp ltTags ((s.now.taskSt e k).opd ra) ((s.now.taskSt e k).opd rb)).toOption = some x →
      Answers (.cblt e ra rb ofs) s fun t =>
      (Branched s t e k 4 .conditional (offsetTarget (s.now.taskSt e k).pc (toSigned 15 ofs.toNat))
        (ltVals x.2.2 ((s.now.taskSt e k).opd ra).d ((s.now.taskSt e k).opd rb).d) (fun _ => False))) ∧
    (∀ (ra rb : Reg) (ofs : BitVec 15) (x : Nat × Nat × Nat), Issues s e k { uses := [ra, rb], branch := true } = true →
      (pairUp ltTags ((s.now.taskSt e k).opd ra) ((s.now.taskSt e k).opd rb)).toOption = some x →
      Answers (.cbge e ra rb ofs) s fun t =>
      (Branched s t e k 4 .conditional (offsetTarget (s.now.taskSt e k).pc (toSigned 15 ofs.toNat))
        (geVals x.2.2 ((s.now.taskSt e k).opd ra).d ((s.now.taskSt e k).opd rb).d) (fun _ => False))) ∧
    (∀ (ra rb : Reg) (ofs : BitVec 15) (x : Nat × Nat × Nat), Issues s e k { uses := [ra, rb], branch := true } = true →
      (pairUp ltuTags ((s.now.taskSt e k).opd ra) ((s.now.taskSt e k).opd rb)).toOption = some x →
      Answers (.cbltu e ra rb ofs) s fun t =>
      (Branched s t e k 4 .conditional (offsetTarget (s.now.taskSt e k).pc (toSigned 15 ofs.toNat))
        (decide (((s.now.taskSt e k).opd ra).d < ((s.now.taskSt e k).opd rb).d)) (fun _ => False))) ∧
    (∀ (ra rb : Reg) (ofs : BitVec 15) (x : Nat × Nat × Nat), Issues s e k { uses := [ra, rb], branch := true } = true →
      (pairUp ltuTags ((s.now.taskSt e k).opd ra) ((s.now.taskSt e k).opd rb)).toOption = some x →
      Answers (.cbgeu e ra rb ofs) s fun t =>
      (Branched s t e k 4 .conditional (offsetTarget (s.now.taskSt e k).pc (toSigned 15 ofs.toNat))
        (decide (((s.now.taskSt e k).opd rb).d ≤ ((s.now.taskSt e k).opd ra).d)) (fun _ => False))) ∧
    (∀ (ra : ShortReg) (ofs : BitVec 8), Issues s e k { len := 2, uses := [short ra], branch := true } = true →
      plainTag ((s.now.taskSt e k).opd (short ra)).t = true → Answers (.cbz e ra ofs) s fun t =>
      (Branched s t e k 2 .conditional (offsetTarget (s.now.taskSt e k).pc (toSigned 8 ofs.toNat))
        (((s.now.taskSt e k).opd (short ra)).d == 0) (fun _ => False))) ∧
    (∀ (ra : ShortReg) (ofs : BitVec 8), Issues s e k { len := 2, uses := [short ra], branch := true } = true →
      plainTag ((s.now.taskSt e k).opd (short ra)).t = true → Answers (.cbnz e ra ofs) s fun t =>
      (Branched s t e k 2 .conditional (offsetTarget (s.now.taskSt e k).pc (toSigned 8 ofs.toNat))
        (((s.now.taskSt e k).opd (short ra)).d != 0) (fun _ => False))) ∧
    (∀ (rd : Reg) (ofs : BitVec 20), Issues s e k { writes := [rd], branch := true } = true → Answers (.jal e rd ofs) s fun t =>
      (Branched s t e k 4 .direct (offsetTarget (s.now.taskSt e k).pc (toSigned 20 ofs.toNat)) true (fun r => r = rd)) ∧
      (rd ≠ 0 → (t.now.taskSt e k).reg rd = word ((s.now.taskSt e k).pc + 4) Tag.cptr)) ∧
    (∀ (ofs : BitVec 11), Issues s e k { len := 2, branch := true } = true → Answers (.bS e ofs) s fun t =>
      (Branched s t e k 2 .direct (offsetTarget (s.now.taskSt e k).pc (toSigned 11 ofs.toNat)) true (fun _ => False))) ∧
    (∀ (rd ra : Reg), Issues s e k { uses := [ra], writes := [rd], branch := true } = true →
      ((s.now.taskSt e k).opd ra).t = Tag.cptr → Answers (.jalr e rd ra) s fun t =>
      (Branched s t e k 4 .register (((s.now.taskSt e k).opd ra).d / 2 * 2) true (fun r => r = rd)) ∧ (rd ≠ 0 →
      (t.now.taskSt e k).reg rd = word ((s.now.taskSt e k).pc + 4) Tag.cptr)) ∧
    (∀ (ra : Reg), Issues s e k { len := 2, uses := [ra], branch := true } = true → ((s.now.taskSt e k).opd ra).t = Tag.cptr →
      Answers (.jrS e ra) s fun t =>
      (Branched s t e k 2 .register (((s.now.taskSt e k).opd ra).d / 2 * 2) true (fun _ => False)))

/-- NOP, WAIT, DRAIN, ERET, BRK, SYS, cache maintenance, EVR. WAIT ends the activation, or begins the next where APEND is set;
ERET returns the task of ESTAT.TASK to EPC at the privilege of ESTAT.PRIV clamped to its CEIL, and T00 to WAIT; BRK and SYS
raise their exception with EPC at the next instruction; DRAIN holds the next issue to 4 fc after the last buffered store; the
cache instructions act in mode P alone; EVR buffers a store of 1 to EVnnnn_SW. Rests on the model's choices of log entries 154
and 175. -/
def Obligations.SystemInstructionResults : Prop :=
  ∀ (s : State) (e : Fin 256) (k : Nat),
    (Issues s e k { len := 4 } = true → Answers (.nop e) s fun t => Passed s t e k 4 1 0 ∧
      Frame.regsOf (fun _ => False) e k s t) ∧
    (Issues s e k { len := 2 } = true → Answers (.nopS e) s fun t => Passed s t e k 2 1 0 ∧
      Frame.regsOf (fun _ => False) e k s t) ∧
    (Issues s e k { len := 4, alone := true } = true → (k ≠ 0 ∨ (s.now.engSt e).act = false) →
      (s.now.taskSt e k).apend = false → Answers (.wait e) s fun t => ((t.now.taskSt e k).st = .wait ∧
      (t.now.taskSt e k).deadline = none) ∧ ((t.now.taskSt e k).waited = true ∧ (t.now.taskSt e k).waitAt = some s.tick) ∧
      (t.now.engSt e).run = none ∧ (t.now.taskSt e k).pc = ((s.now.taskSt e k).pc + 4) % 2 ^ 32 ∧
      Frame.instr (fun t s => { s with run := t.run, sel := t.sel }) (fun t s =>
        { s with st := t.st, deadline := t.deadline, waited := t.waited, waitAt := t.waitAt }) (fun _ => False) e k s t) ∧
    (Issues s e k { len := 4, alone := true } = true → (k ≠ 0 ∨ (s.now.engSt e).act = false) → (s.now.taskSt e k).apend = true →
      Answers (.wait e) s fun t => ((t.now.taskSt e k).st = .ready ∧ (t.now.taskSt e k).readySince = s.tick ∧
      (t.now.taskSt e k).apend = false) ∧ ((t.now.taskSt e k).acKind = (s.now.taskSt e k).pendKind ∧
      (t.now.taskSt e k).acIrq = (s.now.taskSt e k).pendIrq) ∧ (t.now.taskSt e k).atick = s.tick % 2 ^ 32 ∧
      (t.now.taskSt e k).deadline = (if (s.now.taskSt e k).dln = 0 then none else some (s.tick + (s.now.taskSt e k).dln)) ∧
      (t.now.engSt e).run = none ∧
      Frame.instr (fun t s => { s with run := t.run, sel := t.sel }) (fun t s => t.activated s) (fun _ => False) e k s t) ∧
    (Issues s e k { len := 2, alone := true } = true → (k ≠ 0 ∨ (s.now.engSt e).act = false) →
      (s.now.taskSt e k).apend = false → Answers (.waitS e) s fun t => ((t.now.taskSt e k).st = .wait ∧
      (t.now.taskSt e k).deadline = none) ∧ ((t.now.taskSt e k).waited = true ∧ (t.now.taskSt e k).waitAt = some s.tick) ∧
      (t.now.engSt e).run = none ∧ (t.now.taskSt e k).pc = ((s.now.taskSt e k).pc + 2) % 2 ^ 32 ∧
      Frame.instr (fun t s => { s with run := t.run, sel := t.sel }) (fun t s =>
        { s with st := t.st, deadline := t.deadline, waited := t.waited, waitAt := t.waitAt }) (fun _ => False) e k s t) ∧
    (Issues s e k { len := 2, alone := true } = true → (k ≠ 0 ∨ (s.now.engSt e).act = false) → (s.now.taskSt e k).apend = true →
      Answers (.waitS e) s fun t => ((t.now.taskSt e k).st = .ready ∧ (t.now.taskSt e k).readySince = s.tick ∧
      (t.now.taskSt e k).apend = false) ∧ ((t.now.taskSt e k).acKind = (s.now.taskSt e k).pendKind ∧
      (t.now.taskSt e k).acIrq = (s.now.taskSt e k).pendIrq) ∧ (t.now.taskSt e k).atick = s.tick % 2 ^ 32 ∧
      (t.now.taskSt e k).deadline = (if (s.now.taskSt e k).dln = 0 then none else some (s.tick + (s.now.taskSt e k).dln)) ∧
      (t.now.engSt e).run = none ∧
      Frame.instr (fun t s => { s with run := t.run, sel := t.sel }) (fun t s => t.activated s) (fun _ => False) e k s t) ∧
    (Issues s e k { len := 4, mem := true } = true → Answers (.drain e) s fun t =>
      (t.now.taskSt e k).drain = some (s.now.taskSt e k).pc ∧
      ((t.now.engSt e).issueAt = (s.now.engSt e).stores.foldl (fun m x => max m (x.due.getD 0)) s.tick + 4) ∧
      (t.now.taskSt e k).pc = ((s.now.taskSt e k).pc + 4) % 2 ^ 32 ∧ Frame.regsOf (fun _ => False) e k s t) ∧
    (Issues s e k { len := 2, mem := true } = true → Answers (.drainS e) s fun t =>
      (t.now.taskSt e k).drain = some (s.now.taskSt e k).pc ∧
      ((t.now.engSt e).issueAt = (s.now.engSt e).stores.foldl (fun m x => max m (x.due.getD 0)) s.tick + 4) ∧
      (t.now.taskSt e k).pc = ((s.now.taskSt e k).pc + 2) % 2 ^ 32 ∧ Frame.regsOf (fun _ => False) e k s t) ∧
    (Issues s e 0 { len := 4, cost := 4, alone := true, priv := true } = true → (s.now.engSt e).act = true →
      k = (s.now.engSt e).etask → k ≠ 0 → (s.now.taskSt e k).st = .held → (s.now.engSt e).ewait = false →
      Answers (.eret e) s fun t => ((t.now.engSt e).act = false ∧ (t.now.engSt e).run = none) ∧ ((t.now.taskSt e 0).st = .wait ∧
      (t.now.taskSt e 0).pc = ((s.now.taskSt e 0).pc + 4) % 2 ^ 32) ∧
      t.now.taskSt e k = (s.now.taskSt e k).returned (s.now.engSt e) s.tick ∧ ((s.now.engSt e).epriv = false →
      (s.now.taskSt e k).ceil = true →
      t.now.get (vcFld (some (regionOf e)) .priv) = satAdd 16 (s.now.get (vcFld (some (regionOf e)) .priv)) 1) ∧
      Frame.engine (fun t b => { b with edges := t.edges }) (fun t s =>
        { t.booked s with act := t.act, run := t.run, sel := t.sel }) (fun j => j = 0 ∨ j = k) e
        (fun a => sumRegs a ∨ a = (vcFld (some (regionOf e)) .priv).addr) s t) ∧
    (Issues s e 0 { len := 2, cost := 4, alone := true, priv := true } = true → (s.now.engSt e).act = true →
      k = (s.now.engSt e).etask → k ≠ 0 → (s.now.taskSt e k).st = .held → (s.now.engSt e).ewait = false →
      Answers (.eretS e) s fun t => ((t.now.engSt e).act = false ∧ (t.now.engSt e).run = none) ∧
      ((t.now.taskSt e 0).st = .wait ∧ (t.now.taskSt e 0).pc = ((s.now.taskSt e 0).pc + 2) % 2 ^ 32) ∧
      t.now.taskSt e k = (s.now.taskSt e k).returned (s.now.engSt e) s.tick ∧ ((s.now.engSt e).epriv = false →
      (s.now.taskSt e k).ceil = true →
      t.now.get (vcFld (some (regionOf e)) .priv) = satAdd 16 (s.now.get (vcFld (some (regionOf e)) .priv)) 1) ∧
      Frame.engine (fun t b => { b with edges := t.edges }) (fun t s =>
        { t.booked s with act := t.act, run := t.run, sel := t.sel }) (fun j => j = 0 ∨ j = k) e
        (fun a => sumRegs a ∨ a = (vcFld (some (regionOf e)) .priv).addr) s t) ∧
    (Issues s e k { len := 4, alone := true } = true → k ≠ 0 → Answers (.brk e) s fun t =>
      Raised s t e k (((s.now.taskSt e k).pc + 4) % 2 ^ 32) { code := excBrk }) ∧
    (Issues s e k { len := 2, alone := true } = true → k ≠ 0 → Answers (.brkS e) s fun t =>
      Raised s t e k (((s.now.taskSt e k).pc + 2) % 2 ^ 32) { code := excBrk }) ∧
    (∀ (x : BitVec 9), Issues s e k { alone := true } = true → k ≠ 0 → Answers (.sys e x) s fun t =>
      Raised s t e k (((s.now.taskSt e k).pc + 4) % 2 ^ 32) { code := excSys, einfo := x.toNat }) ∧
    (∀ (ra : Reg), Issues s e k { uses := [ra], mem := true } = true → ((s.now.taskSt e k).opd ra).t = Tag.dptr →
      Answers (.dinv e ra) s fun t =>
      (t.now.engSt e).dcache = (if (s.now.engSt e).modeP then ((s.now.engSt e).dDrop ((s.now.taskSt e k).opd ra).d).dcache else
        (s.now.engSt e).dcache) ∧
      Passed s t e k 4 1 0 ∧ Frame.instr (fun t s => { s with dcache := t.dcache }) (fun _ s => s) (fun _ => False) e k s t) ∧
    (Issues s e k { mem := true, priv := true } = true → Answers (.dinva e) s fun t =>
      (t.now.engSt e).dcache = (if (s.now.engSt e).modeP then [] else (s.now.engSt e).dcache) ∧ ((s.now.engSt e).modeP = true →
      (t.now.engSt e).issueAt = s.tick + 64) ∧ Passed s t e k 4 1 0 ∧
      Frame.instr (fun t s => { s with dcache := t.dcache }) (fun _ s => s) (fun _ => False) e k s t) ∧
    (∀ (ra : Reg), Issues s e k { uses := [ra], mem := true } = true →
      (((s.now.taskSt e k).opd ra).t = Tag.dptr ∨ ((s.now.taskSt e k).opd ra).t = Tag.cptr) → Answers (.iinv e ra) s fun t =>
      ((s.now.engSt e).modeP = true → (t.now.engSt e).iHas (((s.now.taskSt e k).opd ra).d / 64) = false) ∧
      ((s.now.engSt e).modeP = false → (t.now.engSt e).icache = (s.now.engSt e).icache ∧
      (t.now.engSt e).lbuf = (s.now.engSt e).lbuf) ∧ Passed s t e k 4 1 0 ∧ Frame.regsOf (fun _ => False) e k s t) ∧
    (Issues s e k { mem := true, priv := true } = true → Answers (.iinva e) s fun t => ((s.now.engSt e).modeP = true →
      (t.now.engSt e).icache = [] ∧ (t.now.engSt e).lbuf = [] ∧ (t.now.engSt e).issueAt = s.tick + 64) ∧
      ((s.now.engSt e).modeP = false → (t.now.engSt e).icache = (s.now.engSt e).icache ∧
      (t.now.engSt e).lbuf = (s.now.engSt e).lbuf) ∧ Passed s t e k 4 1 0 ∧ Frame.regsOf (fun _ => False) e k s t) ∧
    (∀ (ra : Reg) (n : Nat) (a : Nat), Issues s e k { uses := [ra], mem := true } = true →
      (s.now.taskSt e k).opd ra = ⟨ra, n, Tag.evh⟩ → n < 2048 → (s.now.engSt e).stores.length < 8 → a = R.EV_SW n →
      Answers (.evr e ra) s fun t =>
      (t.now.engSt e).stores = (s.now.engSt e).stores ++ [⟨k, a, 4, word 1 Tag.raw, false, if (s.now.engSt e).modeP then none
        else some (((s.now.engSt e).takeSlot e s.tick (figureOf e a)).1 + (figureOf e a).b), false⟩] ∧
      Passed s t e k 4 1 0 ∧
      Frame.instr (fun t s => { s with stores := t.stores, lastC := t.lastC, lastR := t.lastR }) (fun _ s => s) (fun _ => False)
        e k s t) ∧
    (∀ (ra : Reg) (n : Nat), Issues s e k { uses := [ra], mem := true } = true → (s.now.taskSt e k).opd ra = ⟨ra, n, Tag.evh⟩ →
      2048 ≤ n → Answers (.evr e ra) s fun t =>
      t.now.get (vcFld (some (regionOf e)) .absent) = satAdd 16 (s.now.get (vcFld (some (regionOf e)) .absent)) 1 ∧
      Frame.engine (fun t b => { b with edges := t.edges }) (fun t u => t.booked (u.holdTo s.tick k t.holdEnd)) (fun j => j = k)
        e (fun a => sumRegs a ∨ a = (vcFld (some (regionOf e)) .absent).addr) s t)

/-- CSR instructions and lane registers. A read gives the CSR's value with its tag (ALOST is cleared by it, TIMEL snapshots
TIMEH); DLN, VBASE, TSEL, MPBn and MPLn take what a write gives their writable bits, under MPLOCK none; a set and a clear give
the old value; TACT asks for an activation; an access by U to an S register raises PRIV; RDL gives a lane input with its tag;
WRL keeps a lane output and, for LOUTc of a law task, commits the set. Rests on the model's choices of log entries 88, 89, 90
and 91. -/
def Obligations.ControlRegisterResults : Prop :=
  ∀ (s : State) (e : Fin 256) (k : Nat),
    (∀ (rd : Reg) (n : BitVec 11) (i : CsrInfo), csrInfo n.toNat = some i →
      Issues s e k { writes := [rd], alone := true } = true → (i.t00 = false ∨ k = 0) →
      (i.rdS = false ∨ (s.now.taskSt e k).priv = false) → (n ≠ 0x003 ∧ n ≠ 0x008 ∧ n ≠ 0x010 ∧ n ≠ 0x029) →
      Answers (.csrr e rd n) s fun t => Result s t e k rd 4 1 (s.now.csrValue s.ctx e k n.toNat)) ∧
    (∀ (rd : Reg), Issues s e k { writes := [rd], alone := true } = true → Answers (.csrr e rd 0x008) s fun t => (rd ≠ 0 →
      (t.now.taskSt e k).reg rd = word (s.now.taskSt e k).alost Tag.uns) ∧ (t.now.taskSt e k).alost = 0 ∧
      Passed s t e k 4 1 (groupBit rd) ∧
      Frame.instr (fun _ s => s) (fun t s => { s with alost := t.alost }) (fun r => r = rd) e k s t) ∧
    (∀ (rd : Reg), Issues s e k { writes := [rd], alone := true } = true → Answers (.csrr e rd 0x010) s fun t => (rd ≠ 0 →
      (t.now.taskSt e k).reg rd = word s.tick Tag.time) ∧ (t.now.taskSt e k).timeh = s.tick / 2 ^ 32 % 2 ^ 32 ∧
      Frame.instr (fun _ s => s) (fun t s => { s with timeh := t.timeh }) (fun r => r = rd) e k s t) ∧
    (∀ (ra : Reg), Issues s e k { uses := [ra], alone := true } = true → (s.now.taskSt e k).priv = false →
      plainTag ((s.now.taskSt e k).opd ra).t = true → Answers (.csrw e 0x002 ra) s fun t =>
      (t.now.taskSt e k).dln = ((s.now.taskSt e k).opd ra).d ∧ Passed s t e k 4 1 0 ∧
      Frame.instr (fun _ s => s) (fun t s => { s with dln := t.dln }) (fun _ => False) e k s t) ∧
    (∀ (ra : Reg), Issues s e k { uses := [ra], alone := true } = true → (s.now.taskSt e k).priv = false →
      ((s.now.taskSt e k).opd ra).t = Tag.dptr → Answers (.csrw e 0x020 ra) s fun t => ((s.now.engSt e).mplock = false →
      (t.now.engSt e).vbase = ((s.now.taskSt e k).opd ra).d &&& 0xFFFFFFC0) ∧ ((s.now.engSt e).mplock = true →
      (t.now.engSt e).vbase = (s.now.engSt e).vbase) ∧
      Frame.engine (fun t b => { b with edges := t.edges }) (fun t s => { t.booked s with vbase := t.vbase }) (fun j => j = k) e
        (fun a => sumRegs a ∨ a = (vcFld (some (regionOf e)) .locked).addr) s t) ∧
    (∀ (ra : Reg), Issues s e 0 { uses := [ra], alone := true } = true → (s.now.taskSt e 0).priv = false →
      plainTag ((s.now.taskSt e 0).opd ra).t = true → Answers (.csrw e 0x028 ra) s fun t =>
      (t.now.engSt e).tsel = ((s.now.taskSt e 0).opd ra).d &&& 0x3F3F ∧
      Frame.instr (fun t s => { s with tsel := t.tsel }) (fun _ s => s) (fun _ => False) e 0 s t) ∧
    (∀ (rd ra : Reg) (n : Fin 8), Issues s e k { uses := [ra], writes := [rd], alone := true } = true →
      (s.now.taskSt e k).priv = false → plainTag ((s.now.taskSt e k).opd ra).t = true → (s.now.engSt e).mpb.length = 8 →
      (s.now.engSt e).mplock = false → Answers (.csrs e rd ra (BitVec.ofNat 11 (0x030 + n))) s fun t => (rd ≠ 0 →
      (t.now.taskSt e k).reg rd = word ((s.now.engSt e).mpb.getD n 0) Tag.uns) ∧
      (t.now.engSt
        e).mpb
        = (s.now.engSt e).mpb.set n ((((s.now.engSt e).mpb.getD n 0 &&& (((s.now.taskSt e k).opd ra).d ^^^ 0xFFFFFFFF)) |||
        ((s.now.taskSt e k).opd ra).d) &&& 0xFFFFFFBF) ∧
      Frame.instr (fun t s => { s with mpb := t.mpb }) (fun _ s => s) (fun r => r = rd) e k s t) ∧
    (∀ (rd ra : Reg), Issues s e k { uses := [ra], writes := [rd], alone := true } = true → (s.now.taskSt e k).priv = false →
      plainTag ((s.now.taskSt e k).opd ra).t = true → Answers (.csrc e rd ra 0x002) s fun t => (rd ≠ 0 →
      (t.now.taskSt e k).reg rd = word (s.now.taskSt e k).dln Tag.uns) ∧
      (t.now.taskSt e k).dln = (s.now.taskSt e k).dln &&& (((s.now.taskSt e k).opd ra).d ^^^ 0xFFFFFFFF) ∧
      Frame.instr (fun _ s => s) (fun t s => { s with dln := t.dln }) (fun r => r = rd) e k s t) ∧
    (∀ (ra : Reg), Issues s e k { uses := [ra], alone := true } = true → plainTag ((s.now.taskSt e k).opd ra).t = true →
      bits ((s.now.taskSt e k).opd ra).d 5 0 < s.now.nt.getD 0 e → Answers (.csrw e 0x013 ra) s fun t =>
      t.now.pendActs = s.now.pendActs ++ [⟨s.tick + 1, e * 64 + bits ((s.now.taskSt e k).opd ra).d 5 0, 8, 0⟩] ∧
      Frame.engine (fun t b => { b with edges := t.edges, pendActs := t.pendActs })
        (fun t u => t.booked (u.holdTo s.tick k t.holdEnd)) (fun j => j = k) e sumRegs s t) ∧
    (∀ (rd : Reg) (n : BitVec 11) (i : CsrInfo), csrInfo n.toNat = some i →
      Issues s e k { writes := [rd], alone := true } = true → i.t00 = false → i.rdS = true → (s.now.taskSt e k).priv = true →
      k ≠ 0 → Answers (.csrr e rd n) s fun t => Raised s t e k (s.now.taskSt e k).pc { code := excPriv, einfo := n.toNat }) ∧
    (∀ (rd : Reg) (i : LaneReg), Issues s e k { len := 4, writes := [rd] } = true → Answers (.rdl e rd i) s fun t =>
      Result s t e k rd 4 1 ((s.now.taskSt e k).linWord i)) ∧
    (∀ (rd : Reg) (i : LaneReg), Issues s e k { len := 2, writes := [rd] } = true → Answers (.rdlS e rd i) s fun t =>
      Result s t e k rd 2 1 ((s.now.taskSt e k).linWord i)) ∧
    (∀ (ra : Reg) (i : LaneReg), Issues s e k { len := 4, uses := [ra] } = true →
      plainTag ((s.now.taskSt e k).opd ra).t = true → (3 < i.val ∨ (i.val < 3 ∧ ((s.now.taskSt e k).opd ra).t = Tag.frac)) →
      s.now.laneOfTask s.hw e k = none → Answers (.wrl e i ra) s fun t =>
      (t.now.taskSt e k).lout = (s.now.taskSt e k).lout.set i ((s.now.taskSt e k).reg ra) ∧ Passed s t e k 4 1 0 ∧
      Frame.instr (fun _ s => s) (fun t s => { s with lout := t.lout }) (fun _ => False) e k s t) ∧
    (∀ (ra : Reg) (i : LaneReg) (n : Nat), Issues s e k { len := 4, uses := [ra] } = true → (i.val < 3 ∧
      ((s.now.taskSt e k).opd ra).t = Tag.frac) → s.now.laneOfTask s.hw e k = some n → s.now.get (F.LL_CFG_CMT n) = i.val →
      Answers (.wrl e i ra) s fun t => (((t.now.llSt n).commits.getLast?.map fun x => x.due) = some (s.tick + 9)) ∧
      (((t.now.llSt n).commits.getLast?.map fun x => x.duties) = some ((List.range 3).map fun j =>
        (((s.now.taskSt e k).lout.set i ((s.now.taskSt e k).reg ra)).getD j {}).d.toNat)) ∧
      (t.now.llSt n).commits.length = (s.now.llSt n).commits.length + 1 ∧ Others Block.llSt n s t ∧
      Frame.engine (fun t b => { b with edges := t.edges, ll := t.ll }) (fun t u => t.booked (u.holdTo s.tick k t.holdEnd))
        (fun j => j = k) e sumRegs s t) ∧
    (∀ (ra : Reg) (i : LaneReg), Issues s e k { len := 2, uses := [ra] } = true →
      plainTag ((s.now.taskSt e k).opd ra).t = true → (3 < i.val ∨ (i.val < 3 ∧ ((s.now.taskSt e k).opd ra).t = Tag.frac)) →
      s.now.laneOfTask s.hw e k = none → Answers (.wrlS e i ra) s fun t =>
      (t.now.taskSt e k).lout = (s.now.taskSt e k).lout.set i ((s.now.taskSt e k).reg ra) ∧ Passed s t e k 2 1 0 ∧
      Frame.instr (fun _ s => s) (fun t s => { s with lout := t.lout }) (fun _ => False) e k s t) ∧
    (∀ (ra : Reg) (i : LaneReg) (n : Nat), Issues s e k { len := 2, uses := [ra] } = true → (i.val < 3 ∧
      ((s.now.taskSt e k).opd ra).t = Tag.frac) → s.now.laneOfTask s.hw e k = some n → s.now.get (F.LL_CFG_CMT n) = i.val →
      Answers (.wrlS e i ra) s fun t => (((t.now.llSt n).commits.getLast?.map fun x => x.due) = some (s.tick + 9)) ∧
      (((t.now.llSt n).commits.getLast?.map fun x => x.duties) = some ((List.range 3).map fun j =>
        (((s.now.taskSt e k).lout.set i ((s.now.taskSt e k).reg ra)).getD j {}).d.toNat)) ∧
      (t.now.llSt n).commits.length = (s.now.llSt n).commits.length + 1 ∧ Others Block.llSt n s t ∧
      Frame.engine (fun t b => { b with edges := t.edges, ll := t.ll }) (fun t u => t.booked (u.holdTo s.tick k t.holdEnd))
        (fun j => j = k) e sumRegs s t)

/-- Loads and stores. A load of the engine's own TCM gives its bytes as the fc began with them, extended, with the word's own
tag in the D-TCM and the hint's elsewhere, readable after 2 fc; one forwarded from a buffered store that covers it gives that
store's bytes; a fabric load in mode D takes its slot and goes outstanding with the fcs of R439. A store enters the buffer with
the fc it is written in; nothing in memory changes at its issue. Rests on the model's choices of log entries 64, 65, 66, 69,
155, 156 and 163. -/
def Obligations.LoadStoreResults : Prop :=
  ∀ (s : State) (e : Fin 256) (k : Nat) (a : Nat),
    (∀ (rd ra
        : Reg)
        (h :
        TagNo)
        (i :
        BitVec 11), Issues s e k { uses := [ra], writes := [rd], mem := true, bad := (if plainTag h then none else some 1) } =
        true →
      ((s.now.taskSt e k).opd ra).t = Tag.dptr → a = ofSigned 32 ((((s.now.taskSt e k).opd ra).d : Int) + imm11 i.toNat) →
      mpJudge (s.now.engSt e) (s.now.taskSt e k).priv false a 1 = none → (s.now.engSt e).lastMeeting e a 1 = none →
      (ownTcm e a = true ∧ firstPart a 1 = 1) →
      ((granulesOf (unalias e a) 1).any s.start.granBad || (taggedWord s.hw (unalias e a) 1 && s.start.granBad
        (tagByteAddr (unalias e a) / 32))) = false →
      Answers (.lb e rd ra h i) s fun t =>
      Result s t e k rd 4 2 (word (extend 1 true (numFrom s.start.goodByte (unalias e a) 1))
        (if taggedWord s.hw (unalias e a) 1 then s.start.tagOf (unalias e a) else h))) ∧
    (∀ (rd ra
        : Reg)
        (h :
        TagNo)
        (i :
        BitVec 11), Issues s e k { uses := [ra], writes := [rd], mem := true, bad := (if plainTag h then none else some 1) } =
        true →
      ((s.now.taskSt e k).opd ra).t = Tag.dptr → a = ofSigned 32 ((((s.now.taskSt e k).opd ra).d : Int) + imm11 i.toNat) →
      mpJudge (s.now.engSt e) (s.now.taskSt e k).priv false a 1 = none → (s.now.engSt e).lastMeeting e a 1 = none →
      (s.now.engSt e).modeP = false → ownTcm e a = false → (s.now.engSt e).loads.length < 4 →
      Answers (.lb e rd ra h i) s fun t =>
      (t.now.engSt e).loads = (s.now.engSt e).loads ++ [(s.now.engSt e).farLoad e k (s.now.taskSt e k).pc rd a 1 true h s.tick]
        ∧
      Passed s t e k 4 1 0 ∧
      Frame.instr (fun t s => { s with loads := t.loads, lastC := t.lastC, lastR := t.lastR }) (fun _ s => s) (fun _ => False) e
        k s t) ∧
    (∀ (rd ra
        : Reg)
        (h :
        TagNo)
        (i :
        BitVec 11), Issues s e k { uses := [ra], writes := [rd], mem := true, bad := (if plainTag h then none else some 1) } =
        true →
      ((s.now.taskSt e k).opd ra).t = Tag.dptr → a = ofSigned 32 ((((s.now.taskSt e k).opd ra).d : Int) + imm11 i.toNat) →
      mpJudge (s.now.engSt e) (s.now.taskSt e k).priv false a 1 = none → (s.now.engSt e).lastMeeting e a 1 = none →
      (ownTcm e a = true ∧ firstPart a 1 = 1) →
      ((granulesOf (unalias e a) 1).any s.start.granBad || (taggedWord s.hw (unalias e a) 1 && s.start.granBad
        (tagByteAddr (unalias e a) / 32))) = false →
      Answers (.lbu e rd ra h i) s fun t =>
      Result s t e k rd 4 2 (word (extend 1 false (numFrom s.start.goodByte (unalias e a) 1))
        (if taggedWord s.hw (unalias e a) 1 then s.start.tagOf (unalias e a) else h))) ∧
    (∀ (rd ra
        : Reg)
        (h :
        TagNo)
        (i :
        BitVec 11), Issues s e k { uses := [ra], writes := [rd], mem := true, bad := (if plainTag h then none else some 1) } =
        true →
      ((s.now.taskSt e k).opd ra).t = Tag.dptr → a = ofSigned 32 ((((s.now.taskSt e k).opd ra).d : Int) + imm11 i.toNat) →
      mpJudge (s.now.engSt e) (s.now.taskSt e k).priv false a 1 = none → (s.now.engSt e).lastMeeting e a 1 = none →
      (s.now.engSt e).modeP = false → ownTcm e a = false → (s.now.engSt e).loads.length < 4 →
      Answers (.lbu e rd ra h i) s fun t =>
      (t.now.engSt e).loads = (s.now.engSt e).loads ++ [(s.now.engSt e).farLoad e k (s.now.taskSt e k).pc rd a 1 false h s.tick]
        ∧
      Passed s t e k 4 1 0 ∧
      Frame.instr (fun t s => { s with loads := t.loads, lastC := t.lastC, lastR := t.lastR }) (fun _ s => s) (fun _ => False) e
        k s t) ∧
    (∀ (rd ra
        : Reg)
        (h :
        TagNo)
        (i :
        BitVec 11), Issues s e k { uses := [ra], writes := [rd], mem := true, bad := (if plainTag h then none else some 1) } =
        true →
      ((s.now.taskSt e k).opd ra).t = Tag.dptr → a = ofSigned 32 ((((s.now.taskSt e k).opd ra).d : Int) + imm11 i.toNat) →
      mpJudge (s.now.engSt e) (s.now.taskSt e k).priv false a 2 = none → (s.now.engSt e).lastMeeting e a 2 = none →
      (ownTcm e a = true ∧ firstPart a 2 = 2) →
      ((granulesOf (unalias e a) 2).any s.start.granBad || (taggedWord s.hw (unalias e a) 2 && s.start.granBad
        (tagByteAddr (unalias e a) / 32))) = false →
      Answers (.lh e rd ra h i) s fun t =>
      Result s t e k rd 4 2 (word (extend 2 true (numFrom s.start.goodByte (unalias e a) 2))
        (if taggedWord s.hw (unalias e a) 2 then s.start.tagOf (unalias e a) else h))) ∧
    (∀ (rd ra
        : Reg)
        (h :
        TagNo)
        (i :
        BitVec 11), Issues s e k { uses := [ra], writes := [rd], mem := true, bad := (if plainTag h then none else some 1) } =
        true →
      ((s.now.taskSt e k).opd ra).t = Tag.dptr → a = ofSigned 32 ((((s.now.taskSt e k).opd ra).d : Int) + imm11 i.toNat) →
      mpJudge (s.now.engSt e) (s.now.taskSt e k).priv false a 2 = none → (s.now.engSt e).lastMeeting e a 2 = none →
      (s.now.engSt e).modeP = false → ownTcm e a = false → (s.now.engSt e).loads.length < 4 →
      Answers (.lh e rd ra h i) s fun t =>
      (t.now.engSt e).loads = (s.now.engSt e).loads ++ [(s.now.engSt e).farLoad e k (s.now.taskSt e k).pc rd a 2 true h s.tick]
        ∧
      Passed s t e k 4 1 0 ∧
      Frame.instr (fun t s => { s with loads := t.loads, lastC := t.lastC, lastR := t.lastR }) (fun _ s => s) (fun _ => False) e
        k s t) ∧
    (∀ (rd ra
        : Reg)
        (h :
        TagNo)
        (i :
        BitVec 11), Issues s e k { uses := [ra], writes := [rd], mem := true, bad := (if plainTag h then none else some 1) } =
        true →
      ((s.now.taskSt e k).opd ra).t = Tag.dptr → a = ofSigned 32 ((((s.now.taskSt e k).opd ra).d : Int) + imm11 i.toNat) →
      mpJudge (s.now.engSt e) (s.now.taskSt e k).priv false a 2 = none → (s.now.engSt e).lastMeeting e a 2 = none →
      (ownTcm e a = true ∧ firstPart a 2 = 2) →
      ((granulesOf (unalias e a) 2).any s.start.granBad || (taggedWord s.hw (unalias e a) 2 && s.start.granBad
        (tagByteAddr (unalias e a) / 32))) = false →
      Answers (.lhu e rd ra h i) s fun t =>
      Result s t e k rd 4 2 (word (extend 2 false (numFrom s.start.goodByte (unalias e a) 2))
        (if taggedWord s.hw (unalias e a) 2 then s.start.tagOf (unalias e a) else h))) ∧
    (∀ (rd ra
        : Reg)
        (h :
        TagNo)
        (i :
        BitVec 11), Issues s e k { uses := [ra], writes := [rd], mem := true, bad := (if plainTag h then none else some 1) } =
        true →
      ((s.now.taskSt e k).opd ra).t = Tag.dptr → a = ofSigned 32 ((((s.now.taskSt e k).opd ra).d : Int) + imm11 i.toNat) →
      mpJudge (s.now.engSt e) (s.now.taskSt e k).priv false a 2 = none → (s.now.engSt e).lastMeeting e a 2 = none →
      (s.now.engSt e).modeP = false → ownTcm e a = false → (s.now.engSt e).loads.length < 4 →
      Answers (.lhu e rd ra h i) s fun t =>
      (t.now.engSt e).loads = (s.now.engSt e).loads ++ [(s.now.engSt e).farLoad e k (s.now.taskSt e k).pc rd a 2 false h s.tick]
        ∧
      Passed s t e k 4 1 0 ∧
      Frame.instr (fun t s => { s with loads := t.loads, lastC := t.lastC, lastR := t.lastR }) (fun _ s => s) (fun _ => False) e
        k s t) ∧
    (∀ (rd ra
        : Reg)
        (h :
        TagNo)
        (i :
        BitVec 11), Issues s e k { uses := [ra], writes := [rd], mem := true, bad := (if plainTag h then none else some 1) } =
        true →
      ((s.now.taskSt e k).opd ra).t = Tag.dptr → a = ofSigned 32 ((((s.now.taskSt e k).opd ra).d : Int) + imm11 i.toNat) →
      mpJudge (s.now.engSt e) (s.now.taskSt e k).priv false a 4 = none → (s.now.engSt e).lastMeeting e a 4 = none →
      (ownTcm e a = true ∧ firstPart a 4 = 4) →
      ((granulesOf (unalias e a) 4).any s.start.granBad || (taggedWord s.hw (unalias e a) 4 && s.start.granBad
        (tagByteAddr (unalias e a) / 32))) = false →
      Answers (.lw e rd ra h i) s fun t =>
      Result s t e k rd 4 2 (word (extend 4 false (numFrom s.start.goodByte (unalias e a) 4))
        (if taggedWord s.hw (unalias e a) 4 then s.start.tagOf (unalias e a) else h))) ∧
    (∀ (rd ra
        : Reg)
        (h :
        TagNo)
        (i :
        BitVec 11), Issues s e k { uses := [ra], writes := [rd], mem := true, bad := (if plainTag h then none else some 1) } =
        true →
      ((s.now.taskSt e k).opd ra).t = Tag.dptr → a = ofSigned 32 ((((s.now.taskSt e k).opd ra).d : Int) + imm11 i.toNat) →
      mpJudge (s.now.engSt e) (s.now.taskSt e k).priv false a 4 = none → (s.now.engSt e).lastMeeting e a 4 = none →
      (s.now.engSt e).modeP = false → ownTcm e a = false → (s.now.engSt e).loads.length < 4 →
      Answers (.lw e rd ra h i) s fun t =>
      (t.now.engSt e).loads = (s.now.engSt e).loads ++ [(s.now.engSt e).farLoad e k (s.now.taskSt e k).pc rd a 4 false h s.tick]
        ∧
      Passed s t e k 4 1 0 ∧
      Frame.instr (fun t s => { s with loads := t.loads, lastC := t.lastC, lastR := t.lastR }) (fun _ s => s) (fun _ => False) e
        k s t) ∧
    (∀ (x : StoreEnt) (rd ra : Reg) (h : TagNo) (i : BitVec 11), Issues s e k
        { uses := [ra], writes := [rd], mem := true, bad := (if plainTag h then none else some 1) } = true →
      ((s.now.taskSt e k).opd ra).t = Tag.dptr → a = ofSigned 32 ((((s.now.taskSt e k).opd ra).d : Int) + imm11 i.toNat) →
      mpJudge (s.now.engSt e) (s.now.taskSt e k).priv false a 4 = none → (s.now.engSt e).lastMeeting e a 4 = some x →
      x.covers e a 4 = true → ownTcm e a = true → Answers (.lw e rd ra h i) s fun t =>
      Result s t e k rd 4 2 (word (extend 4 false (x.v.d.toNat / 256 ^ (unalias e a - unalias e x.addr) % 256 ^ 4))
        (forwardTag s.hw e a h x))) ∧
    (∀ (rd ra : ShortReg) (i : Fin 32), Issues s e k { len := 2, uses := [short ra], writes := [short rd], mem := true } = true
        →
      ((s.now.taskSt e k).opd (short ra)).t = Tag.dptr →
      a = ofSigned 32 ((((s.now.taskSt e k).opd (short ra)).d : Int) + ((4 * i.val : Nat) : Int)) →
      mpJudge (s.now.engSt e) (s.now.taskSt e k).priv false a 4 = none → (s.now.engSt e).lastMeeting e a 4 = none →
      (ownTcm e a = true ∧ firstPart a 4 = 4) →
      ((granulesOf (unalias e a) 4).any s.start.granBad || (taggedWord s.hw (unalias e a) 4 && s.start.granBad
        (tagByteAddr (unalias e a) / 32))) = false →
      Answers (.lwS e rd ra i) s fun t =>
      Result s t e k (short rd) 2 2 (word (extend 4 false (numFrom s.start.goodByte (unalias e a) 4))
        (if taggedWord s.hw (unalias e a) 4 then s.start.tagOf (unalias e a) else Tag.raw))) ∧
    (∀ (rd ra : ShortReg) (i : Fin 32), Issues s e k { len := 2, uses := [short ra], writes := [short rd], mem := true } = true
        →
      ((s.now.taskSt e k).opd (short ra)).t = Tag.dptr →
      a = ofSigned 32 ((((s.now.taskSt e k).opd (short ra)).d : Int) + ((4 * i.val : Nat) : Int)) →
      mpJudge (s.now.engSt e) (s.now.taskSt e k).priv false a 4 = none → (s.now.engSt e).lastMeeting e a 4 = none →
      (s.now.engSt e).modeP = false → ownTcm e a = false → (s.now.engSt e).loads.length < 4 →
      Answers (.lwS e rd ra i) s fun t =>
      (t.now.engSt e).loads = (s.now.engSt e).loads ++ [(s.now.engSt e).farLoad e k (s.now.taskSt e k).pc (short rd) a 4 false
        Tag.raw s.tick] ∧
      Passed s t e k 2 1 0 ∧
      Frame.instr (fun t s => { s with loads := t.loads, lastC := t.lastC, lastR := t.lastR }) (fun _ s => s) (fun _ => False) e
        k s t) ∧
    (∀ (rs ra : Reg) (i : BitVec 11), Issues s e k { uses := [ra], moves := [rs], mem := true } = true →
      ((s.now.taskSt e k).opd ra).t = Tag.dptr → plainTag ((s.now.taskSt e k).opd rs).t = true →
      a = ofSigned 32 ((((s.now.taskSt e k).opd ra).d : Int) + imm11 i.toNat) →
      mpJudge (s.now.engSt e) (s.now.taskSt e k).priv true a 1 = none → (s.now.engSt e).stores.length < 8 → (ownTcm e a = true ∧
      ownTcm e ((a + 0) % 2 ^ 32) = true ∧ firstPart a 1 = 1) → Answers (.sb e rs ra 0 i) s fun t =>
      (t.now.engSt e).stores = (s.now.engSt e).stores ++ [⟨k, a, 1, word (((s.now.taskSt e k).opd rs).d % 256 ^ 1)
        (storeTag s.hw e a 1 ((s.now.taskSt e k).opd rs).t), true, some (s.tick + 3), false⟩] ∧
      Passed s t e k 4 1 0 ∧
      Frame.instr (fun t s => { s with stores := t.stores, lastC := t.lastC, lastR := t.lastR }) (fun _ s => s) (fun _ => False)
        e k s t) ∧
    (∀ (rs ra : Reg) (i : BitVec 11), Issues s e k { uses := [ra], moves := [rs], mem := true } = true →
      ((s.now.taskSt e k).opd ra).t = Tag.dptr → plainTag ((s.now.taskSt e k).opd rs).t = true →
      a = ofSigned 32 ((((s.now.taskSt e k).opd ra).d : Int) + imm11 i.toNat) →
      mpJudge (s.now.engSt e) (s.now.taskSt e k).priv true a 1 = none → (s.now.engSt e).stores.length < 8 →
      ((s.now.engSt e).modeP = false ∧ ownTcm e a = false ∧ inFlash a = false) → Answers (.sb e rs ra 0 i) s fun t =>
      (t.now.engSt e).stores = (s.now.engSt e).stores ++ [(s.now.engSt e).farStore e k a 1
        (word (((s.now.taskSt e k).opd rs).d % 256 ^ 1) (storeTag s.hw e a 1 ((s.now.taskSt e k).opd rs).t)) s.tick] ∧
      Passed s t e k 4 1 0 ∧
      Frame.instr (fun t s => { s with stores := t.stores, lastC := t.lastC, lastR := t.lastR }) (fun _ s => s) (fun _ => False)
        e k s t) ∧
    (∀ (rs ra : Reg) (i : BitVec 11), Issues s e k { uses := [ra], moves := [rs], mem := true } = true →
      ((s.now.taskSt e k).opd ra).t = Tag.dptr → plainTag ((s.now.taskSt e k).opd rs).t = true →
      a = ofSigned 32 ((((s.now.taskSt e k).opd ra).d : Int) + imm11 i.toNat) →
      mpJudge (s.now.engSt e) (s.now.taskSt e k).priv true a 2 = none → (s.now.engSt e).stores.length < 8 → (ownTcm e a = true ∧
      ownTcm e ((a + 1) % 2 ^ 32) = true ∧ firstPart a 2 = 2) → Answers (.sh e rs ra 0 i) s fun t =>
      (t.now.engSt e).stores = (s.now.engSt e).stores ++ [⟨k, a, 2, word (((s.now.taskSt e k).opd rs).d % 256 ^ 2)
        (storeTag s.hw e a 2 ((s.now.taskSt e k).opd rs).t), true, some (s.tick + 3), false⟩] ∧
      Passed s t e k 4 1 0 ∧
      Frame.instr (fun t s => { s with stores := t.stores, lastC := t.lastC, lastR := t.lastR }) (fun _ s => s) (fun _ => False)
        e k s t) ∧
    (∀ (rs ra : Reg) (i : BitVec 11), Issues s e k { uses := [ra], moves := [rs], mem := true } = true →
      ((s.now.taskSt e k).opd ra).t = Tag.dptr → plainTag ((s.now.taskSt e k).opd rs).t = true →
      a = ofSigned 32 ((((s.now.taskSt e k).opd ra).d : Int) + imm11 i.toNat) →
      mpJudge (s.now.engSt e) (s.now.taskSt e k).priv true a 2 = none → (s.now.engSt e).stores.length < 8 →
      ((s.now.engSt e).modeP = false ∧ ownTcm e a = false ∧ inFlash a = false) → Answers (.sh e rs ra 0 i) s fun t =>
      (t.now.engSt e).stores = (s.now.engSt e).stores ++ [(s.now.engSt e).farStore e k a 2
        (word (((s.now.taskSt e k).opd rs).d % 256 ^ 2) (storeTag s.hw e a 2 ((s.now.taskSt e k).opd rs).t)) s.tick] ∧
      Passed s t e k 4 1 0 ∧
      Frame.instr (fun t s => { s with stores := t.stores, lastC := t.lastC, lastR := t.lastR }) (fun _ s => s) (fun _ => False)
        e k s t) ∧
    (∀ (rs ra : Reg) (i : BitVec 11), Issues s e k { uses := [ra], moves := [rs], mem := true } = true →
      ((s.now.taskSt e k).opd ra).t = Tag.dptr → plainTag ((s.now.taskSt e k).opd rs).t = true →
      a = ofSigned 32 ((((s.now.taskSt e k).opd ra).d : Int) + imm11 i.toNat) →
      mpJudge (s.now.engSt e) (s.now.taskSt e k).priv true a 4 = none → (s.now.engSt e).stores.length < 8 → (ownTcm e a = true ∧
      ownTcm e ((a + 3) % 2 ^ 32) = true ∧ firstPart a 4 = 4) → Answers (.sw e rs ra 0 i) s fun t =>
      (t.now.engSt e).stores = (s.now.engSt e).stores ++ [⟨k, a, 4, word (((s.now.taskSt e k).opd rs).d % 256 ^ 4)
        (storeTag s.hw e a 4 ((s.now.taskSt e k).opd rs).t), true, some (s.tick + 3), false⟩] ∧
      Passed s t e k 4 1 0 ∧
      Frame.instr (fun t s => { s with stores := t.stores, lastC := t.lastC, lastR := t.lastR }) (fun _ s => s) (fun _ => False)
        e k s t) ∧
    (∀ (rs ra : Reg) (i : BitVec 11), Issues s e k { uses := [ra], moves := [rs], mem := true } = true →
      ((s.now.taskSt e k).opd ra).t = Tag.dptr → plainTag ((s.now.taskSt e k).opd rs).t = true →
      a = ofSigned 32 ((((s.now.taskSt e k).opd ra).d : Int) + imm11 i.toNat) →
      mpJudge (s.now.engSt e) (s.now.taskSt e k).priv true a 4 = none → (s.now.engSt e).stores.length < 8 →
      ((s.now.engSt e).modeP = false ∧ ownTcm e a = false ∧ inFlash a = false) → Answers (.sw e rs ra 0 i) s fun t =>
      (t.now.engSt e).stores = (s.now.engSt e).stores ++ [(s.now.engSt e).farStore e k a 4
        (word (((s.now.taskSt e k).opd rs).d % 256 ^ 4) (storeTag s.hw e a 4 ((s.now.taskSt e k).opd rs).t)) s.tick] ∧
      Passed s t e k 4 1 0 ∧
      Frame.instr (fun t s => { s with stores := t.stores, lastC := t.lastC, lastR := t.lastR }) (fun _ s => s) (fun _ => False)
        e k s t) ∧
    (∀ (rs ra : ShortReg) (i : Fin 32), Issues s e k { len := 2, uses := [short ra], moves := [short rs], mem := true } = true →
      ((s.now.taskSt e k).opd (short ra)).t = Tag.dptr → plainTag ((s.now.taskSt e k).opd (short rs)).t = true →
      a = ofSigned 32 ((((s.now.taskSt e k).opd (short ra)).d : Int) + ((4 * i.val : Nat) : Int)) →
      mpJudge (s.now.engSt e) (s.now.taskSt e k).priv true a 4 = none → (s.now.engSt e).stores.length < 8 → (ownTcm e a = true ∧
      ownTcm e ((a + 3) % 2 ^ 32) = true ∧ firstPart a 4 = 4) → Answers (.swS e rs ra i) s fun t =>
      (t.now.engSt e).stores = (s.now.engSt e).stores ++ [⟨k, a, 4, word (((s.now.taskSt e k).opd (short rs)).d % 256 ^ 4)
        (storeTag s.hw e a 4 ((s.now.taskSt e k).opd (short rs)).t), true, some (s.tick + 3), false⟩] ∧
      Passed s t e k 2 1 0 ∧
      Frame.instr (fun t s => { s with stores := t.stores, lastC := t.lastC, lastR := t.lastR }) (fun _ s => s) (fun _ => False)
        e k s t) ∧
    (∀ (rs ra : ShortReg) (i : Fin 32), Issues s e k { len := 2, uses := [short ra], moves := [short rs], mem := true } = true →
      ((s.now.taskSt e k).opd (short ra)).t = Tag.dptr → plainTag ((s.now.taskSt e k).opd (short rs)).t = true →
      a = ofSigned 32 ((((s.now.taskSt e k).opd (short ra)).d : Int) + ((4 * i.val : Nat) : Int)) →
      mpJudge (s.now.engSt e) (s.now.taskSt e k).priv true a 4 = none → (s.now.engSt e).stores.length < 8 →
      ((s.now.engSt e).modeP = false ∧ ownTcm e a = false ∧ inFlash a = false) → Answers (.swS e rs ra i) s fun t =>
      (t.now.engSt e).stores = (s.now.engSt e).stores ++ [(s.now.engSt e).farStore e k a 4
        (word (((s.now.taskSt e k).opd (short rs)).d % 256 ^ 4) (storeTag s.hw e a 4 ((s.now.taskSt e k).opd (short rs)).t))
        s.tick] ∧
      Passed s t e k 2 1 0 ∧
      Frame.instr (fun t s => { s with stores := t.stores, lastC := t.lastC, lastR := t.lastR }) (fun _ s => s) (fun _ => False)
        e k s t)

/-- The register transforms, DIV, REM and SQRT, issued afresh and left at no boundary: wherever they issue with operands their
rule accepts they complete with their results, hold the next issue for their whole cost in mode D, and change nothing else. The
results the spec bounds without fixing every bit (CLARKE's second, SINCOS, ATAN2) are free within their bound (log entry 5).
Rests on the model's choices of log entries 5, 56, 74, 78 and 87. -/
def Obligations.TransformResults : Prop :=
  ∀ e : Fin 256,
    (∀ (rd ra rb : Reg), GivesAll (.clarke e rd ra rb none) e
      { uses := [ra, rb], writes := regsFrom rd 2, cost := 6, bad := regRules (regsFrom rd 2) true [ra, rb] }
      (fun t =>
        (fracPair (t.opd ra) (t.opd rb)).map fun _ =>
          [(rd, word (t.opd ra).d Tag.frac), (rd + 1, clarkeBeta (t.opd ra).d (t.opd rb).d)])) ∧
    (∀ (rd ra rb : Reg), GivesAll (.park e rd ra rb none) e
      { uses := regsFrom ra 2 ++ regsFrom rb 2, writes := regsFrom rd 2, cost := 6,
        bad := regRules (regsFrom rd 2) true (regsFrom ra 2 ++ regsFrom rb 2) }
      (fun t =>
        (fracPair (t.opd ra) (t.opd (ra + 1))).bind fun _ => (fracPair (t.opd rb) (t.opd (rb + 1))).map fun _ =>
          [(rd, parkD (t.opd ra).d (t.opd (ra + 1)).d (t.opd rb).d (t.opd (rb + 1)).d),
          (rd + 1, parkQ (t.opd ra).d (t.opd (ra + 1)).d (t.opd rb).d (t.opd (rb + 1)).d)])) ∧
    (∀ (rd ra rb : Reg), GivesAll (.ipark e rd ra rb none) e
      { uses := regsFrom ra 2 ++ regsFrom rb 2, writes := regsFrom rd 2, cost := 6,
        bad := regRules (regsFrom rd 2) true (regsFrom ra 2 ++ regsFrom rb 2) }
      (fun t =>
        (fracPair (t.opd ra) (t.opd (ra + 1))).bind fun _ => (fracPair (t.opd rb) (t.opd (rb + 1))).map fun _ =>
          [(rd, iparkAlpha (t.opd ra).d (t.opd (ra + 1)).d (t.opd rb).d (t.opd (rb + 1)).d),
          (rd + 1, iparkBeta (t.opd ra).d (t.opd (ra + 1)).d (t.opd rb).d (t.opd (rb + 1)).d)])) ∧
    (∀ (rd ra : Reg), GivesAll (.sincos e rd ra none) e
      { uses := [ra], writes := regsFrom rd 2, cost := 18, bad := regRules (regsFrom rd 2) true [ra] }
      (fun t =>
        (single (among [Tag.ang]) (t.opd ra)).map fun _ =>
          [(rd, sincosOut 0 (t.opd ra).d), (rd + 1, sincosOut 1 (t.opd ra).d)])) ∧
    (∀ (rd ra rb : Reg), GivesAll (.atan2 e rd ra rb none) e
      { uses := [ra, rb], writes := regsFrom rd 2, cost := 22, bad := regRules (regsFrom rd 2) true [ra, rb] }
      (fun t =>
        (pairUp (fun u v => if u = v ∧ (u = Tag.int ∨ u = Tag.frac ∨ u = Tag.fix) then some u else none) (t.opd ra)
          (t.opd rb)).map fun x =>
            [(rd, atanAngle (t.opd ra).d (t.opd rb).d), (rd + 1, atanMag x.2.2 (t.opd ra).d (t.opd rb).d)])) ∧
    (∀ (rd ra rb : Reg), GivesAll (.div e rd ra rb none) e
      { uses := [ra, rb], writes := [rd], cost := 18, bad := regRules [rd] false [ra, rb] }
      (fun t =>
        (pairUp numTags (t.opd ra) (t.opd rb)).bind fun x =>
          if (t.opd rb).d = 0 then .error { code := excDivz }
          else .ok [(rd, quotient x.2.2 (t.opd ra).d (t.opd rb).d)])) ∧
    (∀ (rd ra rb : Reg), GivesAll (.rem e rd ra rb none) e
      { uses := [ra, rb], writes := [rd], cost := 18, bad := regRules [rd] false [ra, rb] }
      (fun t =>
        (pairUp wholeTags (t.opd ra) (t.opd rb)).bind fun x =>
          if (t.opd rb).d = 0 then .error { code := excDivz }
          else .ok [(rd, remainder x.2.2 (t.opd ra).d (t.opd rb).d)])) ∧
    (∀ (rd ra : Reg), GivesAll (.sqrt e rd ra none) e
      { uses := [ra], writes := [rd], cost := 20, bad := regRules [rd] false [ra] }
      (fun t =>
        (single (among [Tag.uns, Tag.frac, Tag.fix, Tag.flt]) (t.opd ra)).map fun x => [(rd, root x (t.opd ra).d)]))

/-- LDM, STM, SAVEG, LOADG, BCOPY, VMAC, FIRQ and MTX3, issued afresh and left at no boundary, on words of the engine's own
D-TCM that memory protection allows: the registers, words, accumulators they move or compute, with their tags, and the frame of
registers and of memory. A microcoded instruction left at a boundary keeps its address and records in RSM and RSW the element it
goes on with; issued again with that record it does the remaining elements alone and completes. Rests on the model's choices of
log entries 6, 8, 74, 76, 77, 79 and 82. -/
def Obligations.BlockMoveResults : Prop :=
  ∀ (s : State) (e : Fin 256) (k : Nat),
    (∀ (ra rb : Reg) (b m n : Nat), ((s.now.taskSt e k).opd ra) = ⟨ra, b, Tag.dptr⟩ → ((s.now.taskSt e k).opd rb).d = m →
      (((s.now.taskSt e k).opd rb).t = Tag.int ∨ ((s.now.taskSt e k).opd rb).t = Tag.uns) → n = (maskRegs m).length →
      Issues s e k (moving [ra, rb] [] (maskRegs m) (2 + n)) = true → (s.now.taskSt e k).rsmV = false →
      s.now.microPlain e = true → (bit m 0 = false ∧ bit m ra = false ∧ bit m rb = false) → ownWords e b n = true →
      (∀ j ∈ List.range (n), mpJudge (s.now.engSt e) (s.now.taskSt e k).priv false (b + 4 * j) 4 = none) →
      Answers (.ldm e ra rb none) s fun t =>
      (Completes s t e k (2 + n) ((List.range n).map fun j => ((maskRegs m).getD j 0, (wideLoad s.ctx e (b + 4 * j) s.now).1)))) ∧
    (∀ (ra rb : Reg) (b m n : Nat), ((s.now.taskSt e k).opd ra) = ⟨ra, b, Tag.dptr⟩ → ((s.now.taskSt e k).opd rb).d = m →
      (((s.now.taskSt e k).opd rb).t = Tag.int ∨ ((s.now.taskSt e k).opd rb).t = Tag.uns) → n = (maskRegs m).length →
      Issues s e k (moving [ra, rb] (maskRegs m) [] (1 + n)) = true → (s.now.taskSt e k).rsmV = false →
      s.now.microPlain e = true → (bit m 0 = false ∧ b % 4 = 0) → ownWords e b n = true →
      (∀ j ∈ List.range (n), mpJudge (s.now.engSt e) (s.now.taskSt e k).priv true (b + 4 * j) 4 = none) →
      (∀ j ∈ List.range (n), s.now.granBad (unalias e (b + 4 * j) / 32) = false ∧
      s.now.granBad (tagByteAddr (unalias e (b + 4 * j)) / 32) = false) → s.now.unwritten 0 (unalias e b) (4 * n) = true →
      Answers (.stm e ra rb none) s fun t => (∀ j, j < n →
      (wideRead s.ctx e (b + 4 * j) t.now).1 = (s.now.taskSt e k).reg ((maskRegs m).getD j 0)) ∧ Passed s t e k 4 (1 + n) 0 ∧
      Frame.engineStore (stored s.hw (unalias e b) (4 * n)) (fun t b => { b with edges := t.edges })
        (fun t u => t.booked (u.holdTo s.tick k t.holdEnd)) (fun j => j = k) e sumRegs s t) ∧
    (∀ (ra rb : Reg) (b m n : Nat), ((s.now.taskSt e k).opd ra) = ⟨ra, b, Tag.dptr⟩ → ((s.now.taskSt e k).opd rb).d = m →
      m < 64 → (((s.now.taskSt e k).opd rb).t = Tag.int ∨ ((s.now.taskSt e k).opd rb).t = Tag.uns) →
      (n = ((List.range 41).filter fun j => (s.now.taskSt e k).saves m j).length) →
      Issues s e k (moving [ra, rb] (wordRegs ((s.now.taskSt e k).saves m)) [] (1 + n)) = true →
      (s.now.taskSt e k).rsmV = false → s.now.microPlain e = true → b % 4 = 0 → ownWords e b 41 = true →
      (∀ j ∈ List.range (41), mpJudge (s.now.engSt e) (s.now.taskSt e k).priv true (b + 4 * j) 4 = none) →
      (∀ j ∈ List.range (41), s.now.granBad (unalias e (b + 4 * j) / 32) = false ∧
      s.now.granBad (tagByteAddr (unalias e (b + 4 * j)) / 32) = false) → s.now.unwritten 0 (unalias e b) 164 = true →
      Answers (.saveg e ra rb none) s fun t => (∀ j ∈ List.range 41, (s.now.taskSt e k).saves m j = true →
      (wideRead s.ctx e (b + 4 * j) t.now).1 = ({ (s.now.taskSt e k) with pc := ((s.now.taskSt e k).pc + 4) % 2 ^ 32 } :
        TaskSt).saveWord j) ∧
      (∀ g ∈ List.range 6, bit (t.now.taskSt e k).ds g = (bit ((s.now.taskSt e k).ds ||| 32) g && !bit m g)) ∧
      (t.now.taskSt e k).dc = (s.now.taskSt e k).dc ||| 32 ∧ (t.now.taskSt e k).pc = ((s.now.taskSt e k).pc + 4) % 2 ^ 32 ∧
      (∀ r ∈ List.range 32, (t.now.taskSt e k).reg r = (s.now.taskSt e k).reg r) ∧
      Frame.engineStore (stored s.hw (unalias e b) 164) (fun t b => { b with edges := t.edges })
        (fun t u => t.booked (u.holdTo s.tick k t.holdEnd)) (fun j => j = k) e sumRegs s t) ∧
    (∀ (ra rb : Reg) (b m n : Nat), ((s.now.taskSt e k).opd ra) = ⟨ra, b, Tag.dptr⟩ → ((s.now.taskSt e k).opd rb).d = m →
      m < 16 → (((s.now.taskSt e k).opd rb).t = Tag.int ∨ ((s.now.taskSt e k).opd rb).t = Tag.uns) →
      (n = ((List.range 41).filter fun j => bit m (wordGroup j)).length) →
      (Issues s e k (moving [ra, rb] [] (wordRegs fun j => bit m (wordGroup j)) (1 + n)) = true) →
      (s.now.taskSt e k).rsmV = false → s.now.microPlain e = true → (bit m (wordGroup (ra.val - 1)) = false ∧
      bit m (wordGroup (rb.val - 1)) = false ∧ ra ≠ 0) → ownWords e b 41 = true →
      (∀ j ∈ List.range (41), mpJudge (s.now.engSt e) (s.now.taskSt e k).priv false (b + 4 * j) 4 = none) →
      Answers (.loadg e ra rb none) s fun t => (∀ j ∈ List.range 31, bit m (wordGroup j) = true →
      (t.now.taskSt e k).reg (j + 1) = (wideLoad s.ctx e (b + 4 * j) s.now).1) ∧
      (t.now.taskSt e k).pc = ((s.now.taskSt e k).pc + 4) % 2 ^ 32 ∧ (∀ g ∈ List.range 4, bit m g = true →
      bit (t.now.taskSt e k).ds g = false ∧ bit (t.now.taskSt e k).dc g = true) ∧ Frame.regsOf (fun r => r ≠ 0 ∧
      bit m (wordGroup (r - 1)) = true) e k s t) ∧
    (∀ (rd ra rb : Reg) (y x g : Nat), ((s.now.taskSt e k).opd rd) = ⟨rd, y, Tag.dptr⟩ →
      ((s.now.taskSt e k).opd ra) = ⟨ra, x, Tag.dptr⟩ → ((s.now.taskSt e k).opd rb).d = g →
      (((s.now.taskSt e k).opd rb).t = Tag.int ∨ ((s.now.taskSt e k).opd rb).t = Tag.uns) → (1 ≤ g ∧ g ≤ 1024) →
      Issues s e k (moving [rd, ra, rb] [] [] (2 + 2 * g)) = true → (s.now.taskSt e k).rsmV = false →
      s.now.microPlain e = true → (y % 32 = 0 ∧ x % 32 = 0 ∧ ownWords e y (8 * g) = true ∧ ownWords e x (8 * g) = true) →
      (unalias e x + 32 * g ≤ unalias e y ∨ unalias e y + 32 * g ≤ unalias e x) → (∀ j, j < g →
      mpJudge (s.now.engSt e) (s.now.taskSt e k).priv false (x + 32 * j) 4 = none ∧
      mpJudge (s.now.engSt e) (s.now.taskSt e k).priv true (y + 32 * j) 4 = none) → (∀ j, j < 8 * g →
      (s.now.wideSrc s.ctx [unalias e x / 32 + j / 8]).granBad (tagByteAddr (unalias e (x + 4 * j)) / 32) = false ∧
      s.now.granBad (tagByteAddr (unalias e (y + 4 * j)) / 32) = false) → s.now.unwritten 0 (unalias e y) (32 * g) = true →
      Answers (.bcopy e rd ra rb none) s fun t => (∀ j, j < 32 * g →
      t.now.goodByte (unalias e y + j) = (s.now.wideSrc s.ctx [unalias e x / 32 + j / 32]).goodByte (unalias e x + j)) ∧
      (∀ j, j < 8 * g →
      t.now.tagOf (unalias e y + 4 * j) = (s.now.wideSrc s.ctx [unalias e x / 32 + j / 8]).tagOf (unalias e x + 4 * j)) ∧
      (∀ j, j < g →
      t.now.granBad (unalias e y / 32 + j) = (s.now.wideSrc s.ctx [unalias e x / 32 + j]).granBad (unalias e x / 32 + j)) ∧
      Passed s t e k 4 (2 + 2 * g) 0 ∧
      Frame.engineStore (stored s.hw (unalias e y) (32 * g)) (fun t b => { b with edges := t.edges })
        (fun t u => t.booked (u.holdTo s.tick k t.holdEnd)) (fun j => j = k) e sumRegs s t) ∧
    (∀ (rd ra rb : Reg) (q : AccNo) (x y n g : Nat), ((s.now.taskSt e k).opd rd).d = n →
      (((s.now.taskSt e k).opd rd).t = Tag.int ∨ ((s.now.taskSt e k).opd rd).t = Tag.uns) →
      ((s.now.taskSt e k).opd ra) = ⟨ra, x, Tag.dptr⟩ → ((s.now.taskSt e k).opd rb) = ⟨rb, y, Tag.dptr⟩ → (1 ≤ n ∧ n ≤ 256) →
      Issues s e k (moving [rd, ra, rb] [] [] (3 + n)) = true → (s.now.taskSt e k).rsmV = false → s.now.microPlain e = true →
      (ownWords e x n = true ∧ ownWords e y n = true) →
      (∀ j ∈ List.range (n), mpJudge (s.now.engSt e) (s.now.taskSt e k).priv false (x + 4 * j) 4 = none) →
      (∀ j ∈ List.range (n), mpJudge (s.now.engSt e) (s.now.taskSt e k).priv false (y + 4 * j) 4 = none) → (1 ≤ g ∧ g ≤ 4) →
      (ra ≠ 0 ∧ rb ≠ 0) → (∀ j, j < n → ((wideLoad s.ctx e (x + 4 * j) s.now).1).t.toNat = g ∧
      ((wideLoad s.ctx e (y + 4 * j) s.now).1).t.toNat = g) →
      (((s.now.taskSt e k).acc q).kind = 0 ∨ ((s.now.taskSt e k).acc q).kind = g) →
      Answers (.vmac e rd ra rb (if q = 0 then 0 else 1) none) s fun t =>
      ((t.now.taskSt e k).acc q = (List.range n).foldl (fun z j => z.plus g
        (product g ((wideLoad s.ctx e (x + 4 * j) s.now).1).d.toNat ((wideLoad s.ctx e (y + 4 * j) s.now).1).d.toNat))
        ((s.now.taskSt e k).acc q)) ∧
      (t.now.taskSt e k).acc (1 - q) = (s.now.taskSt e k).acc (1 - q) ∧ Passed s t e k 4 (3 + n) 16 ∧
      Frame.instr (fun _ s => s) (fun t s => { s with acc0 := t.acc0, acc1 := t.acc1 }) (fun _ => False) e k s t) ∧
    (∀ (rd ra rb : Reg) (q : AccNo) (b n h c : Nat) (v : TWord), ((s.now.taskSt e k).opd ra).t = Tag.frac →
      ((s.now.taskSt e k).opd rb) = ⟨rb, b, Tag.dptr⟩ → v = (wideRead s.ctx e (b) s.now).1 → (v.d.toNat < 2 ^ 14 ∧
      bits v.d.toNat 7 6 = 0 ∧ v.t ≠ 15) → n = bits v.d.toNat 5 0 + 1 → bits v.d.toNat 13 8 < n →
      h = (bits v.d.toNat 13 8 + 1) % n → c = 2 * n + 1 → b % 4 = 0 →
      Issues s e k { moving [ra, rb] [] [rd] (4 + n) with bad := regRules [rd] false [ra, rb] } = true →
      (s.now.taskSt e k).rsmV = false → s.now.microPlain e = true → rb ≠ 0 → ownWords e b c = true →
      (∀ j ∈ List.range (c), mpJudge (s.now.engSt e) (s.now.taskSt e k).priv false (b + 4 * j) 4 = none) →
      (∀ j ∈ List.range (c), mpJudge (s.now.engSt e) (s.now.taskSt e k).priv true (b + 4 * j) 4 = none) →
      (∀ j ∈ List.range (c), s.now.granBad (unalias e (b + 4 * j) / 32) = false ∧
      s.now.granBad (tagByteAddr (unalias e (b + 4 * j)) / 32) = false) → (∀ j ∈ List.range c, j ≠ 0 → j ≠ n + 1 + h →
      ((wideRead s.ctx e (b + 4 * j) s.now).1).t.toNat = Tag.frac) →
      (∀ j ∈ List.range c, (wideRead s.ctx e (b + 4 * j) s.start).1 = (wideRead s.ctx e (b + 4 * j) s.now).1) →
      (s.now.unwritten 0 (unalias e b) 4 = true ∧ s.now.unwritten 0 (unalias e (b + 4 * (n + 1 + h))) 4 = true) →
      Answers (.firq e rd ra rb (if q = 0 then 0 else 1) none) s fun t =>
      ((t.now.taskSt e k).acc q = (List.range n).foldl (fun z i => z.plus Tag.frac
        (product Tag.frac (wideRead s.ctx e (b + 4 * (i + 1)) s.now).1.d.toNat
        (if i = 0 then ((s.now.taskSt e k).opd ra).d else (wideRead s.ctx e (b + 4 * (n + 1 + (h + n - i) % n))
        s.now).1.d.toNat))) ⟨0, Tag.frac⟩) ∧
      (t.now.taskSt e k).reg rd = (if rd = 0 then ⟨0, 1⟩ else ((t.now.taskSt e k).acc q).readOut 0) ∧
      (wideRead s.ctx e (b) t.now).1 = { v with d := BitVec.ofNat 32 (setBits v.d.toNat 13 8 h) } ∧
      (wideRead s.ctx e (b + 4 * (n + 1 + h)) t.now).1 = (s.now.taskSt e k).reg ra ∧
      Passed s t e k 4 (4 + n) (16 ||| groupBit rd) ∧ (∀ r ∈ List.range 32, r ≠ rd →
      (t.now.taskSt e k).reg r = (s.now.taskSt e k).reg r) ∧
      Frame.engineStore (fun z => stored s.hw (unalias e b) 4 z ∨ stored s.hw (unalias e (b + 4 * (n + 1 + h))) 4 z)
        (fun t b => { b with edges := t.edges }) (fun t u => t.booked (u.holdTo s.tick k t.holdEnd)) (fun j => j = k) e sumRegs
        s t) ∧
    (∀ (rd ra rb : Reg) (b g : Nat), ((s.now.taskSt e k).opd ra) = ⟨ra, b, Tag.dptr⟩ → (g = Tag.frac ∨ g = Tag.fix) →
      (∀ i ∈ List.range 3, ((s.now.taskSt e k).opd (rb + i)).t = g) →
      Issues
        s e
        k { moving (ra :: regsFrom rb 3) [] (regsFrom rd 3) 6 with bad := regRules (regsFrom rd 3) true (ra :: regsFrom rb 3) }
        = true →
      (s.now.taskSt e k).rsmV = false → s.now.microPlain e = true → ownWords e b 9 = true →
      (∀ j ∈ List.range (9), mpJudge (s.now.engSt e) (s.now.taskSt e k).priv false (b + 4 * j) 4 = none) →
      (∀ j ∈ List.range 9, ((wideLoad s.ctx e (b + 4 * j) s.now).1).t.toNat = g) → Answers (.mtx3 e rd ra rb none) s fun t =>
      (Completes
        s t
        e k
        6 ((List.range 3).map fun r => (rd + r, rowProd g ((List.range 3).map fun i =>
        (wideLoad s.ctx e (b + 4 * (3 * r + i)) s.now).1.d.toNat) ((List.range 3).map fun i =>
        ((s.now.taskSt e k).opd (rb + i)).d))))) ∧
    (∀ (rd ra rb : Reg) (j : Nat) (x : Nat × Nat × Nat), (0 < j ∧ j < 9) →
      (pairUp numTags ((s.now.taskSt e k).opd ra) ((s.now.taskSt e k).opd rb)).toOption = some x →
      ((s.now.taskSt e k).opd rb).d ≠ 0 →
      Issues s e k { uses := [ra, rb], writes := [rd], micro := true, cost := 18, bad := regRules [rd] false [ra, rb] } = true →
      (s.now.taskSt e k).rsmV = false → s.now.microPlain e = true → Answers (.div e rd ra rb (some j)) s fun t =>
      ((t.now.taskSt e k).rsmV = true ∧ (t.now.taskSt e k).rsmIdx = j) ∧
      (t.now.taskSt e k).pc = (s.now.taskSt e k).pc % 2 ^ 32 ∧ (t.now.engSt e).holdEnd = s.tick + 2 * j ∧
      Frame.instr (fun _ s => s) (fun t s => { s with rsmV := t.rsmV, rsmIdx := t.rsmIdx, rsw := t.rsw }) (fun _ => False) e k s
        t) ∧
    (∀ (rd ra rb : Reg) (j : Nat) (x : Nat × Nat × Nat) (w : Nat), (0 < j ∧ j < 9) →
      (pairUp numTags ((s.now.taskSt e k).opd ra) ((s.now.taskSt e k).opd rb)).toOption = some x →
      ((s.now.taskSt e k).opd rb).d ≠ 0 →
      Issues
        s e
        k { uses := [ra, rb], writes := [rd], micro := true, elems := 9, cost := 18 - 2 * j, bad := regRules [rd] false [ra,
        rb] } = true →
      ((s.now.taskSt e k).rsmV = true ∧ (s.now.taskSt e k).rsmIdx = j) →
      w = Config.midWord MicroKind.div.num j [((s.now.taskSt e k).opd ra).d, ((s.now.taskSt e k).opd rb).d, x.2.2] →
      (s.now.taskSt e k).rsw = word w (w / 2 ^ 32 % 12) → s.now.microPlain e = true → Answers (.div e rd ra rb none) s fun t =>
      (t.now.taskSt e k).rsmV = false ∧
      (t.now.taskSt e k).reg rd = (if rd = 0 then ⟨0, 1⟩ else quotient x.2.2 ((s.now.taskSt e k).opd ra).d
        ((s.now.taskSt e k).opd rb).d) ∧
      Passed s t e k 4 (18 - 2 * j) (groupBit rd) ∧
      Frame.instr (fun _ s => s) (fun t s => { s with rsmV := t.rsmV }) (fun r => r = rd) e k s t)

/-- Activation, selection, deadline, task commands: TASK_ACTIVATION makes a task in WAIT READY with the kinds and the lowest
source of all that reached it and starts its deadline, sets APEND of a task in any other state, and counts ALOST where an
activation is lost; TASK_FIRST_ISSUE makes the selected task RUN; TACT_WRITE sends an activation for the next fc; TIMEL_READ
answers the time and keeps its upper half; DEADLINE_EXPIRY raises DLM; TCMD_PARK and TCMD_RESTART stop a task. Rests on the
model's choices of log entries 20, 48 and 53. -/
def Obligations.TaskActivationEffects : Prop :=
  ∀ (s : State) (e : Fin 256),
    (∀ (k : Fin 64) (l : List (Nat × Nat)), l = s.now.arrivals s.tick e k → (l ≠ [] ∧ k.val < s.now.nt.getD 0 e) →
      s.now.alive s.ctx e = true → (s.now.engSt e).takeAt = none → (s.now.taskSt e k).st = .wait →
      Answers (.taskActivation e k) s fun t => t.now.taskSt e k = (s.now.taskSt e k).begun l s.tick ∧
      (t.now.pendActs = s.now.pendActs.filter fun p => !(p.inst == e.val * 64 + k.val && p.due ≤ s.tick)) ∧
      ((s.now.engSt e).run = none → (s.now.engSt e).sel = none → (s.now.engSt e).candidates = [] →
      (s.now.dozeSt (regionOf e)).asleep = false → (s.now.dozeSt (regionOf e)).wake = none →
      (t.now.engSt e).sel = some ⟨k, s.tick, s.tick + 1, s.tick + 5⟩) ∧
      Frame.engine (fun t b => { b with pendActs := t.pendActs, doze := t.doze }) (fun t s => { s with sel := t.sel })
        (fun j => j = k.val) e evRegion s t) ∧
    (∀ (k : Fin 64) (l : List (Nat × Nat)), l = s.now.arrivals s.tick e k → (l ≠ [] ∧ k.val < s.now.nt.getD 0 e) →
      s.now.alive s.ctx e = true → ((s.now.taskSt e k).st ≠ .wait ∧ (s.now.taskSt e k).st ≠ .parked) →
      (s.now.taskSt e k).apend = false → Answers (.taskActivation e k) s fun t =>
      t.now.taskSt e k = { s.now.taskSt e k with apend := true, pendKind := kindsOf l, pendIrq := irqOf l, waited := false } ∧
      Frame.engine (fun t b => { b with pendActs := t.pendActs }) (fun _ s => s) (fun j => j = k.val) e evRegion s t) ∧
    (∀ (k : Fin 64), (s.now.arrivals s.tick e k ≠ [] ∧ k.val < s.now.nt.getD 0 e) → s.now.alive s.ctx e = true →
      (s.now.taskSt e k).st ≠ .wait → ((s.now.taskSt e k).apend = true ∨ (s.now.taskSt e k).st = .parked) →
      Answers (.taskActivation e k) s fun t =>
      (t.now.taskSt
        e k
        = { s.now.taskSt e k with
        alost := min 255 ((s.now.taskSt e k).alost + 1), waited := if (s.now.taskSt e k).st = .parked then
        (s.now.taskSt e k).waited else false }) ∧
      Frame.engine (fun t b => { b with pendActs := t.pendActs }) (fun _ s => s) (fun j => j = k.val) e evRegion s t) ∧
    (∀ (x : Sel), (s.now.engSt e).sel = some x → x.first ≤ s.tick → s.now.alive s.ctx e = true →
      (s.now.taskSt e x.task).st = .ready → (s.now.engSt e).run = none → Answers (.taskFirstIssue e) s fun t =>
      t.now.taskSt e x.task = { s.now.taskSt e x.task with st := .run } ∧ ((t.now.engSt e).run = some x.task ∧
      (t.now.engSt e).sel = none) ∧ (t.now.engSt e).issueAt = max (s.now.engSt e).issueAt s.tick ∧
      Frame.engine (fun _ b => b) (fun t s => { s with run := t.run, sel := t.sel, issueAt := t.issueAt, holdEnd := t.holdEnd })
        (fun j => j = x.task) e (fun _ => False) s t) ∧
    (∀ (x : Sel) (k : Nat), (s.now.engSt e).sel = some x → x.first ≤ s.tick → s.now.alive s.ctx e = true →
      (s.now.taskSt e x.task).st = .ready → ((s.now.engSt e).run = some k ∧ k ≠ x.task) → (s.now.taskSt e k).drain = none →
      Answers (.taskFirstIssue e) s fun t => (t.now.engSt e).run = some x.task ∧
      t.now.taskSt e k = { s.now.taskSt e k with st := .ready, readySince := s.tick } ∧
      Frame.engine (fun _ b => b) (fun t s => { s with run := t.run, sel := t.sel, issueAt := t.issueAt, holdEnd := t.holdEnd })
        (fun j => j = x.task ∨ j = k) e (fun _ => False) s t) ∧
    (∀ (k : Fin 64), k.val < s.now.nt.getD 0 e → Answers (.tactWrite e k) s fun t =>
      t.now.pendActs = s.now.pendActs ++ [⟨s.tick + 1, e * 64 + k, 8, 0⟩] ∧
      Leaves (fun t b => { b with pendActs := t.pendActs }) (fun _ => False) s t) ∧
    (∀ (k : Nat), (s.now.engSt e).run = some k → Answers (.timelRead e) s fun t => (t.now.resp = s.tick % 2 ^ 32 ∧
      t.now.respTag = Tag.time) ∧ t.now.taskSt e k = { s.now.taskSt e k with timeh := s.tick / 2 ^ 32 % 2 ^ 32 } ∧
      Frame.engine (fun _ b => b) (fun _ s => s) (fun j => j = k) e (fun _ => False) s t) ∧
    (∀ (k : Fin 64) (d : Nat), k ≠ 0 → (s.now.taskSt e k).deadline = some d → ((s.now.taskSt e k).st = .ready ∧
      d ≤ s.tick ∨ (s.now.taskSt e k).st = .run ∧ max (d + 1) (s.now.engSt e).holdEnd ≤ s.tick ∧
      s.now.fetchHeld e (s.now.taskSt e k).priv (s.now.taskSt e k).pc = false) → s.now.engOff s.hw e = false →
      Answers (.deadlineExpiry e k) s fun t => t.now.raisedFor s.now s.tick e k 8 0 (s.now.taskSt e k).dln ∧
      ((s.now.engSt e).run = some k.val → (t.now.engSt e).run = none) ∧
      Frame.engine (fun _ b => b) (fun t s => { s with queue := t.queue, run := t.run, sel := t.sel }) (fun j => j = k.val) e
        (fun _ => False) s t) ∧
    ((s.now.taskSt e 0).deadline = some s.tick → (s.now.taskSt e 0).st = .ready → s.now.engOff s.hw e = false →
      Answers (.deadlineExpiry e 0) s fun t => t.now.lockedUp = e.val :: s.now.lockedUp ∧
      t.now.get (F.CL_STAT_LOCK (clusterOf e)) = s.now.get (F.CL_STAT_LOCK (clusterOf e)) ||| 2 ^ (e.val % 8) ∧
      ((t.now.engSt e).run = none ∧ (t.now.engSt e).sel = none ∧ (t.now.engSt e).loads = []) ∧
      t.now.taskSt e 0 = s.now.taskSt e 0) ∧
    (∀ (k : Nat), k = bits (s.now.engSt e).tsel 13 8 → (k ≠ 0 ∧ k < s.now.nt.getD 0 e) → ((s.now.taskSt e k).st ≠ .run ∧
      (s.now.taskSt e k).st ≠ .parked) → Answers (.tcmdPark e) s fun t =>
      t.now.taskSt e k = { s.now.taskSt e k with st := .parked, apend := false, deadline := none } ∧
      Frame.engine (fun _ b => b) (fun t s => { s with sel := t.sel }) (fun j => j = k) e (fun _ => False) s t) ∧
    (∀ (k : Nat), k = bits (s.now.engSt e).tsel 13 8 → (k ≠ 0 ∧ k < s.now.nt.getD 0 e) → (s.now.taskSt e k).st ≠ .run →
      Answers (.tcmdRestart e) s fun t => t.now.taskSt e k = (s.now.taskSt e k).restarted ∧
      Frame.engine (fun _ b => b) (fun t s => { s with sel := t.sel }) (fun j => j = k) e (fun _ => False) s t)

/-- What the fabric brings an engine and what an engine does with an exception: FABRIC_LOAD_RESULT gives a register the word
performed or raises BUSERR; FABRIC_STORE_WRITTEN writes a buffered store; SERR_RETURN ends a buffered store in an error, of
which the other half is written, and raises SERR, in the yield fc where the task runs, or sets SMORE where the task is HELD,
PARKED or in the queue; EXCEPTION_ENTRY loads ESTAT, EPC, EADDR, EINFO from the head of the queue and T00's PC from the vector;
MATCH_PARITY_FAIL disables a match register and sets MPERR. Rests on the model's choices of log entries 46, 175, 176 and 178. -/
def Obligations.FabricAndExceptionEffects : Prop :=
  ∀ (s : State) (e : Fin 256),
    (∀ (i : Nat) (x : LoadEnt) (v : TWord), (s.now.engSt e).loads[i]? = some x → (x.got = some v ∧
      x.due.all (fun d => d ≤ s.tick) = true) → Answers (.fabricLoadResult e i 0) s fun t =>
      (t.now.taskSt e x.task).reg x.reg = (if x.reg = 0 then ⟨0, 1⟩ else v) ∧ (∀ r ∈ List.range 32, r ≠ x.reg →
      (t.now.taskSt e x.task).reg r = (s.now.taskSt e x.task).reg r) ∧
      (t.now.engSt e).loads = (s.now.engSt e).loads.eraseIdx i ∧
      t.now.taskSt
        e x.task
        = { s.now.taskSt e x.task with
        g := (t.now.taskSt e x.task).g, ds := (s.now.taskSt e x.task).ds ||| groupBit x.reg, dc :=
        (s.now.taskSt e x.task).dc ||| groupBit x.reg } ∧
      Frame.engine (fun _ b => b) (fun t s => { s with loads := t.loads, dcache := t.dcache }) (fun j => j = x.task) e
        (fun _ => False) s t) ∧
    (∀ (i : Nat) (x : LoadEnt) (err : Fin 3), (s.now.engSt e).loads[i]? = some x → (x.due.all (fun d => d ≤ s.tick) = true ∧
      x.got.isSome = true) → (err ≠ 0 ∧ x.task ≠ 0) → ((s.now.taskSt e x.task).st ≠ .held ∧
      (s.now.taskSt e x.task).st ≠ .parked) → Answers (.fabricLoadResult e i err) s fun t =>
      (t.now.engSt e).queue = insExc ⟨s.tick, x.task, 5, x.pc, x.addr, if err = 2 then 4 else 0, (s.now.taskSt e x.task).st ==
        .wait⟩ (s.now.engSt e).queue ∧
      t.now.taskSt e x.task = { s.now.taskSt e x.task with st := .held, deadline := none, drain := none } ∧
      (t.now.engSt e).loads = (s.now.engSt e).loads.eraseIdx i ∧
      Frame.engine (fun _ b => b) (fun t s => { s with loads := t.loads, queue := t.queue, run := t.run, sel := t.sel })
        (fun j => j = x.task) e (fun _ => False) s t) ∧
    (∀ (i : Nat) (x : StoreEnt) (c : Nat), (s.now.engSt e).stores[i]? = some x → (x.own = false ∧ x.written = false ∧
      (s.now.engSt e).iso = false ∧ x.due.all (fun d => d ≤ s.tick) = true) →
      (((s.now.engSt e).stores.take i).all (fun y => y.written || storeTarget s.hw e y.addr != storeTarget s.hw e x.addr) =
        true) →
      (x.n = 1 ∨ x.n = 2 ∨ x.n = 4) → x.addr / 32 = (x.addr + x.n - 1) / 32 → (0x10000000 ≤ x.addr ∧ x.addr < 0x12000000 ∧
      memSpace s.hw x.addr = some (.cluster c)) →
      ((s.now.engSt e).loads.all (fun l => l.got.isSome || !x.meets e l.addr l.n) = true) →
      (x.due.isSome = true ∨ s.now.oddFree s.tick e (oddSlots s.hw (some (regionOf e)) x.addr) = true) →
      s.now.granBad (x.addr / 32) = false → x.v.d.toNat < 256 ^ x.n →
      s.now.unwritten (portRank (.engine e) x.addr s.now) x.addr x.n = true → s.now.deadWriter s.hw (.engine e) x.addr = none →
      Answers (.fabricStoreWritten e i) s fun t =>
      ((List.range x.n).map (fun j => t.now.goodByte (x.addr + j)) = (List.range x.n).map
        (fun j => x.v.d.toNat / 256 ^ j % 256)) ∧
      (t.now.engSt e).stores = (s.now.engSt e).stores.set i { x with written := true } ∧
      (t.now.engSt e).lastWritten = some s.tick ∧ Frame.engineStore (fun a => x.addr ≤ a ∧
      a < x.addr + x.n) (fun t b => { b with edges := t.edges, oddWant := t.oddWant, oddLast := t.oddLast })
        (fun t s => { s with stores := t.stores, lastWritten := t.lastWritten }) (fun _ => False) e sumRegs s t) ∧
    (∀ (k : Fin 64) (a : Word) (h : Bool) (i : Nat) (x : StoreEnt), (k ≠ 0 ∧ k.val < s.now.nt.getD 0 e ∧
      s.now.engOff s.hw e = false) →
      ((s.now.engSt e).stores.findIdx? (fun y => y.task == k.val && y.addr == a.toNat && !y.own && !y.written) = some i) →
      (s.now.engSt e).stores[i]? = some x → ((s.now.engSt e).storeReady s.ctx e i x = true ∧ x.due.isSome = true) →
      (firstPart x.addr x.n = x.n ∧ h = false) → ((s.now.taskSt e k).st ≠ .held ∧ (s.now.taskSt e k).st ≠ .parked) →
      ((s.now.engSt e).queue.all (fun x => x.task != k.val) = true) → (s.now.engSt e).run ≠ some k.val →
      Answers (.serrReturn e k a h) s fun t => t.now.raisedFor s.now s.tick e k 6 a.toNat (if h then 1 else 0) ∧
      ((t.now.engSt e).stores = (s.now.engSt e).stores.set i { x with written := true } ∧
      (t.now.engSt e).lastWritten = some s.tick) ∧
      Frame.engine
        (fun
        _ b
        => b)
        (fun t s => { s with queue := t.queue, run := t.run, sel := t.sel, stores := t.stores, lastWritten := t.lastWritten })
        (fun j => j = k.val) e (fun _ => False) s t) ∧
    (∀ (k : Fin 64) (a : Word) (h : Bool) (i : Nat) (x : StoreEnt), ((s.now.engSt e).stores.findIdx?
        (fun y => y.task == k.val && y.addr == a.toNat && !y.own && !y.written) = some i) →
      (s.now.engSt e).stores[i]? = some x → ((s.now.engSt e).storeReady s.ctx e i x = true ∧ x.due.isSome = true) →
      (firstPart x.addr x.n = x.n ∧ h = false) → (s.now.engSt e).run = some k.val → Answers (.serrReturn e k a h) s fun t =>
      (t.now.engSt e).serrs = (s.now.engSt e).serrs ++ [(max (s.tick + 1) (s.now.engSt e).holdEnd, k.val, a.toNat, h)] ∧
      ((t.now.engSt e).stores = (s.now.engSt e).stores.set i { x with written := true } ∧
      (t.now.engSt e).lastWritten = some s.tick) ∧
      Frame.engine (fun _ b => b) (fun t s => { s with serrs := t.serrs, stores := t.stores, lastWritten := t.lastWritten })
        (fun _ => False) e (fun _ => False) s t) ∧
    (∀ (k : Fin 64) (a : Word) (h : Bool) (i j : Nat) (x : StoreEnt), ((s.now.engSt e).stores.findIdx?
        (fun y => y.task == k.val && y.addr == a.toNat && !y.own && !y.written) = some i) →
      (s.now.engSt e).stores[i]? = some x → ((s.now.engSt e).storeReady s.ctx e i x = true ∧ x.due.isSome = true) →
      (s.now.engSt e).run = some k.val → (x.n = 2 ∨ x.n = 4) → (j = firstPart x.addr x.n ∧ j < x.n) →
      s.now.unwritten (portRank (.engine e) x.addr s.now) x.addr x.n = true → (0x10000000 ≤ x.addr ∧
      x.addr + x.n < 0x10000000 + 0x100000 * nClusters s.hw) → (s.now.granBad (x.addr / 32) = false ∧
      s.now.granBad (x.addr / 32 + 1) = false) → s.now.deadWriter s.hw (.engine e) x.addr = none →
      Answers (.serrReturn e k a h) s fun t => (h = true → ∀ m, m < j →
      t.now.goodByte (x.addr + m) = x.v.d.toNat / 256 ^ m % 256) ∧ (h = false → ∀ m, m < x.n - j →
      t.now.goodByte (x.addr + j + m) = x.v.d.toNat / 256 ^ (j + m) % 256) ∧
      (t.now.engSt e).serrs = (s.now.engSt e).serrs ++ [(max (s.tick + 1) (s.now.engSt e).holdEnd, k.val, a.toNat, h)] ∧
      ((t.now.engSt e).stores = (s.now.engSt e).stores.set i { x with written := true } ∧
      (t.now.engSt e).lastWritten = some s.tick) ∧ Frame.engineStore (fun z => (if h then x.addr else x.addr + j) ≤ z ∧
      z < (if h then x.addr + j else x.addr + x.n)) (fun t b => { b with edges := t.edges })
        (fun t s => { s with serrs := t.serrs, stores := t.stores, lastWritten := t.lastWritten }) (fun _ => False) e sumRegs s
        t) ∧
    (∀ (k : Fin 64) (a : Word) (h : Bool), ((s.now.engSt e).stores.any (fun y => y.task == k.val && y.addr == a.toNat && !y.own
        && !y.written) = false) →
      Idle (.serrReturn e k a h) s) ∧
    (∀ (d k a : Nat) (h : Bool), (s.now.engSt e).serrs = [(d, k, a, h)] → (k ≠ 0 ∧ s.now.engOff s.hw e = false) →
      ((s.now.taskSt e k).st ≠ .held ∧ (s.now.taskSt e k).st ≠ .parked) →
      ((s.now.engSt e).queue.all (fun x => x.task != k) = true) →
      (serrTick ⟨s.hw, d, s.start⟩ s.now e).raisedFor s.now d e k 6 a (if h then 1 else 0) ∧
      ((serrTick ⟨s.hw, d, s.start⟩ s.now e).engSt e).serrs = [] ∧ (d ≠ 0 →
      ((serrTick ⟨s.hw, d - 1, s.start⟩ s.now e).engSt e).serrs = [(d, k, a, h)])) ∧
    (∀ (k : Fin 64) (a : Word) (h : Bool) (i : Nat) (x : StoreEnt), (k.val < s.now.nt.getD 0 e ∧ s.now.engOff s.hw e = false) →
      ((s.now.engSt e).stores.findIdx? (fun y => y.task == k.val && y.addr == a.toNat && !y.own && !y.written) = some i) →
      (s.now.engSt e).stores[i]? = some x → ((s.now.engSt e).storeReady s.ctx e i x = true ∧ x.due.isSome = true) →
      (firstPart x.addr x.n = x.n ∧ h = false) → (s.now.engSt e).run ≠ some k.val →
      ((s.now.taskSt e k).st = .held ∨ (s.now.taskSt e k).st = .parked ∨ (s.now.engSt e).queue.any (fun x => x.task == k.val) =
        true) →
      Answers (.serrReturn e k a h) s fun t => (t.now.engSt e).smore = true ∧
      ((t.now.engSt e).stores = (s.now.engSt e).stores.set i { x with written := true } ∧
      (t.now.engSt e).lastWritten = some s.tick) ∧
      Frame.engine (fun _ b => b) (fun t s => { s with smore := t.smore, stores := t.stores, lastWritten := t.lastWritten })
        (fun _ => False) e (fun _ => False) s t) ∧
    (∀ (x : Exc) (l : List Exc) (v w : Nat), (s.now.engSt e).queue = x :: l → ((s.now.engSt e).act = false ∧
      (s.now.taskSt e 0).st = .wait) → ((s.now.engSt e).sel.any (fun y => y.task == 0) = true) → s.now.engOff s.hw e = false →
      v = unalias e ((s.now.engSt e).vbase + 4 * x.code) → (inDtcm e v = true ∧ v % 4 = 0) → (s.start.granBad (v / 32) = false ∧
      s.start.granBad (tagByteAddr v / 32) = false ∧ s.start.tagOf v = 9) → w = numFrom s.start.goodByte v 4 →
      (fetchable (s.now.engSt e).modeP e w = true ∧ (s.now.engSt e).mpAllows (s.now.taskSt e 0).priv 2 w = true) →
      Answers (.exceptionEntry e) s fun t =>
      t.now.taskSt e 0 = { s.now.taskSt e 0 with pc := w, st := .ready, readySince := s.tick }.ctDirty ∧
      ((t.now.engSt e).queue = l ∧ (t.now.engSt e).act = true ∧ (t.now.engSt e).ewait = x.wait) ∧
      ((t.now.engSt e).etask = x.task ∧ (t.now.engSt e).ecause = x.code ∧
      (t.now.engSt e).epriv = (s.now.taskSt e x.task).priv) ∧ ((t.now.engSt e).epc = x.epc ∧ (t.now.engSt e).eaddr = x.eaddr ∧
      (t.now.engSt e).einfo = x.einfo) ∧
      Frame.engine (fun t b => { b with edges := t.edges }) (fun t s =>
        { s with
        queue := t.queue, act := t.act, etask := t.etask, ecause := t.ecause, epriv := t.epriv, ewait := t.ewait, epc := t.epc,
        eaddr := t.eaddr, einfo := t.einfo }) (fun j => j = 0) e sumRegs s t) ∧
    (∀ (x : Exc) (l : List Exc), (s.now.engSt e).queue = x :: l → ((s.now.engSt e).act = false ∧
      (s.now.taskSt e 0).st = .wait) → ((s.now.engSt e).sel.any (fun y => y.task == 0) = true) → s.now.engOff s.hw e = false →
      inDtcm e (unalias e ((s.now.engSt e).vbase + 4 * x.code)) = false → Answers (.exceptionEntry e) s fun t =>
      t.now.lockedUp = e.val :: s.now.lockedUp ∧
      t.now.get (F.CL_STAT_LOCK (clusterOf e)) = s.now.get (F.CL_STAT_LOCK (clusterOf e)) ||| 2 ^ (e.val % 8) ∧
      t.now.balls.getD 0 1 = 1) ∧
    (∀ (k : Fin 16), e.val < nEngines s.hw → Answers (.matchParityFail e k) s fun t => k.val ∈ (t.now.engSt e).badMatch ∧
      (∀ j ∈ List.range 16, j ≠ k → (j ∈ (t.now.engSt e).badMatch ↔ j ∈ (s.now.engSt e).badMatch)) ∧
      t.now.on (F.UC_STAT_MPERR e) = true ∧
      Frame.engine (fun _ b => b) (fun t s => { s with badMatch := t.badMatch }) (fun _ => False) e (fun a => a = R.UC_STAT e) s
        t)

/-- Memory errors: MEMORY_BIT_ERROR flips a stored bit; of a granule that was good every byte still reads as before, corrected;
of a patch word an odd number of flips among the same 16 bits fails its parity. SCRUB_READ reads the next granule, moves POS on,
counts what it corrects and holds the corrected granule for SCRUB_WRITEBACK, which stores it good unless a write came between.
-/
def Obligations.MemoryErrorEffects : Prop :=
  ∀ (s : State),
    (∀ (g : BitVec 27) (m : Nat), m < 272 → (32 * g.toNat < 0x80000000 ∧ (memSpace s.hw (g.toNat * 32)).isSome = true) →
      s.now.granSyn g.toNat = 0 → Answers (.memoryBitError (.granule g) [m]) s fun t => t.now.granSyn g.toNat = xpow m ∧
      decodeSyn (t.now.granSyn g.toNat) = .one m ∧
      (∀ k ∈ List.range 32, t.now.goodByte (32 * g.toNat + k) = s.now.goodByte (32 * g.toNat + k)) ∧ (16 ≤ m →
      t.now.granRaw g.toNat = s.now.granRaw g.toNat ^^^ 2 ^ (m - 16)) ∧
      Stores (fun a => a / 32 = g.toNat) (fun _ b => b) (fun _ => False) s t) ∧
    (∀ (g : BitVec 27) (m n : Nat), (m < n ∧ n < 272) → (32 * g.toNat < 0x80000000 ∧
      (memSpace s.hw (g.toNat * 32)).isSome = true) → s.now.granSyn g.toNat = 0 →
      Answers (.memoryBitError (.granule g) [m, n]) s fun t => t.now.granBad g.toNat = true ∧
      Stores (fun a => a / 32 = g.toNat) (fun _ b => b) (fun _ => False) s t) ∧
    (∀ (e : Fin 256) (i : Fin 64), e.val < nEngines s.hw → parityBad (s.now.engSt e).badMicro i = false →
      Answers (.memoryBitError (.micro e i) [3]) s fun t => parityBad (t.now.engSt e).badMicro i = true ∧
      (∀ j ∈ List.range 64, j ≠ i.val → parityBad (t.now.engSt e).badMicro j = parityBad (s.now.engSt e).badMicro j) ∧
      t.now.rd (R.UC_ID e + 0x400 + (if isKd2 s.hw then 16 else 4) * i) =
        (s.now.rd (R.UC_ID e + 0x400 + (if isKd2 s.hw then 16 else 4) * i) ^^^ 8) % 2 ^ 32 ∧
      Frame.engine (fun _ b => b) (fun t s => { s with badMicro := t.badMicro }) (fun _ => False) e
        (fun a => a = R.UC_ID e + 0x400 + (if isKd2 s.hw then 16 else 4) * i) s t) ∧
    (∀ (e : Fin 256) (i : Fin 64), e.val < nEngines s.hw → parityBad (s.now.engSt e).badMicro i = false →
      Answers (.memoryBitError (.micro e i) [3, 5]) s fun t => parityBad (t.now.engSt e).badMicro i = false ∧
      Frame.engine (fun _ b => b) (fun t s => { s with badMicro := t.badMicro }) (fun _ => False) e
        (fun a => a = R.UC_ID e + 0x400 + (if isKd2 s.hw then 16 else 4) * i) s t) ∧
    (∀ (e : Fin 256) (i : Fin 64), e.val < nEngines s.hw → parityBad (s.now.engSt e).badMicro i = false →
      Answers (.memoryBitError (.micro e i) [3, 16]) s fun t => parityBad (t.now.engSt e).badMicro i = true ∧
      Frame.engine (fun _ b => b) (fun t s => { s with badMicro := t.badMicro }) (fun _ => False) e
        (fun a => a = R.UC_ID e + 0x400 + (if isKd2 s.hw then 16 else 4) * i) s t) ∧
    (∀ (e : Fin 256) (i : Fin 32), e.val < nEngines s.hw → isKd2 s.hw = false → parityBad (s.now.engSt e).badNano i = false →
      Answers (.memoryBitError (.nano e i) [143]) s fun t => parityBad (t.now.engSt e).badNano i = true ∧
      (∀ j ∈ List.range 32, j ≠ i.val → parityBad (t.now.engSt e).badNano j = parityBad (s.now.engSt e).badNano j) ∧
      t.now.rd (R.UC_ID e + 0x810 + 32 * i) = (s.now.rd (R.UC_ID e + 0x810 + 32 * i) ^^^ 32768) % 2 ^ 32 ∧
      Frame.engine (fun _ b => b) (fun t s => { s with badNano := t.badNano }) (fun _ => False) e
        (fun a => a = R.UC_ID e + 0x810 + 32 * i) s t) ∧
    (∀ (d : Fin 2) (g m : Nat), (d.val < nDies s.hw ∧ s.now.on (F.SUM_SCR_CTL_EN d) = true) → (s.now.scrubSt d).pend = none →
      (s.now.scrubSt d).nextAt ≤ s.tick → g = s.now.scrubPos d →
      s.now.oddFree s.tick (320 + d) (oddSlots s.hw none (g * 32)) = true → decodeSyn (s.start.granSyn g) = .one m →
      Answers (.scrubRead d) s fun t => ((t.now.scrubSt d).pend = some (g, s.start.granData g, 0) ∧
      (t.now.scrubSt d).nextAt = s.tick + 16 * 2 ^ s.now.get (F.SUM_SCR_CTL_RATE d)) ∧
      (t.now.scrubSt d).cancel = s.now.fc.touched.contains g ∧
      t.now.rd (R.SUM_SCR_POS d) = 32 * (nextGran g (scrubRuns s.hw d)).getD (firstGran d) ∧
      (∀ r ∈ List.range 4, memSpace s.hw (g * 32) = some (.dtcm (32 * r + 3)) →
      t.now.get (F.SUM_RG_MEC_CORR (r / 4) (r % 4)) = min 65535 (s.now.get (F.SUM_RG_MEC_CORR (r / 4) (r % 4)) + 1) ∧
      t.now.rd (R.SUM_RG_MCA (r / 4) (r % 4)) = g * 32) ∧
      Leaves (fun t b => { b with scrub := t.scrub, edges := t.edges, oddWant := t.oddWant, oddLast := t.oddLast }) sumRegs s t) ∧
    (∀ (d : Fin 2) (g : Nat), (d.val < nDies s.hw ∧ s.now.on (F.SUM_SCR_CTL_EN d) = true) → (s.now.scrubSt d).pend = none →
      (s.now.scrubSt d).nextAt ≤ s.tick → g = s.now.scrubPos d →
      s.now.oddFree s.tick (320 + d) (oddSlots s.hw none (g * 32)) = true → s.start.granSyn g = 0 →
      Answers (.scrubRead d) s fun t => (t.now.scrubSt d).pend = none ∧
      t.now.rd (R.SUM_SCR_POS d) = 32 * (nextGran g (scrubRuns s.hw d)).getD (firstGran d) ∧
      t.now.get (F.SUM_SCR_STAT_PASS d) = (s.now.get (F.SUM_SCR_STAT_PASS d) + if (nextGran g (scrubRuns s.hw d)).isNone then 1
        else 0) % 65536 ∧
      Leaves (fun t b => { b with scrub := t.scrub, oddWant := t.oddWant, oddLast := t.oddLast })
        (fun a => a = R.SUM_SCR_POS d ∨ a = R.SUM_SCR_STAT d) s t) ∧
    (∀ (d : Fin 2) (g v y : Nat), (s.now.scrubSt d).pend = some (g, v, y) → (s.now.scrubSt d).cancel = false →
      (y = 0 ∨ y = poisonSyn) → s.now.oddFree s.tick (320 + d) (oddSlots s.hw none (g * 32)) = true → (v < 2 ^ 256 ∧
      32 * g < 0x80000000) → Answers (.scrubWriteback d) s fun t => (t.now.scrubSt d).pend = none ∧ t.now.granSyn g = y ∧
      t.now.granRaw g = v ∧
      Stores (fun a => a / 32 = g) (fun t b => { b with oddWant := t.oddWant, oddLast := t.oddLast }) (fun _ => False) s t) ∧
    (∀ (d : Fin 2) (x : Nat × Nat × Nat), (s.now.scrubSt d).pend = some x → (s.now.scrubSt d).cancel = true →
      Answers (.scrubWriteback d) s fun t => (t.now.scrubSt d).pend = none ∧ t.now.on (F.SUM_SCR_STAT_CANC d) = true ∧
      Leaves (fun t b => { b with scrub := t.scrub }) (fun a => a = R.SUM_SCR_STAT d) s t)

/-- Operands that the tag table of an instruction refuses raise TAG, in any task but T00: the exception joins the queue with the
instruction's own address, the register and its tag, the task is HELD, no register changes. Rests on the model's choices of log
entries 59, 60 and 61. -/
def Obligations.OperandExceptions : Prop :=
  ∀ e : Fin 256,
    (∀ (rd ra rb : Reg), Raises (.add e rd ra rb) e { uses := [ra, rb], writes := [rd] }
      (rr ra rb (addTags false) fun _ _ t x y => byTag t (numOf t x + numOf t y))) ∧
    (∀ (rd ra rb : Reg), Raises (.sub e rd ra rb) e { uses := [ra, rb], writes := [rd] }
      (rr ra rb (addTags true) fun _ _ t x y => byTag t (numOf t x - numOf t y))) ∧
    (∀ (rd ra rb : Reg), Raises (.min e rd ra rb) e { uses := [ra, rb], writes := [rd] }
      (rr ra rb numTags fun _ _ t x y => minMax false t x y)) ∧
    (∀ (rd ra rb : Reg), Raises (.max e rd ra rb) e { uses := [ra, rb], writes := [rd] }
      (rr ra rb numTags fun _ _ t x y => minMax true t x y)) ∧
    (∀ (rd ra : Reg), Raises (.neg e rd ra) e { uses := [ra], writes := [rd] }
      (r1 ra (among [Tag.int, Tag.frac, Tag.fix, Tag.ang]) fun _ t x => byTag t (-numOf t x))) ∧
    (∀ (rd ra : Reg), Raises (.abs e rd ra) e { uses := [ra], writes := [rd] }
      (r1 ra (among [Tag.int, Tag.frac, Tag.fix]) fun _ t x => byTag t (numOf t x).natAbs)) ∧
    (∀ (rd ra rb : Reg), Raises (.and e rd ra rb) e { uses := [ra, rb], writes := [rd] }
      (rr ra rb (logicTags true) fun _ _ t x y => logic .and t x y)) ∧
    (∀ (rd ra rb : Reg), Raises (.or e rd ra rb) e { uses := [ra, rb], writes := [rd] }
      (rr ra rb (logicTags true) fun _ _ t x y => logic .or t x y)) ∧
    (∀ (rd ra rb : Reg), Raises (.xor e rd ra rb) e { uses := [ra, rb], writes := [rd] }
      (rr ra rb (logicTags false) fun _ _ t x y => logic .xor t x y)) ∧
    (∀ (rd ra rb : Reg), Raises (.andn e rd ra rb) e { uses := [ra, rb], writes := [rd] }
      (rr ra rb (logicTags false) fun _ _ t x y => logic .andn t x y)) ∧
    (∀ (rd ra : Reg), Raises (.not e rd ra) e { uses := [ra], writes := [rd] }
      (r1 ra (among [Tag.raw, Tag.int, Tag.uns, Tag.bool]) fun _ t x => logicNot t x)) ∧
    (∀ (rd ra rb : Reg), Raises (.sll e rd ra rb) e { uses := [ra, rb], writes := [rd] }
      (rs .sll ra rb)) ∧
    (∀ (rd ra rb : Reg), Raises (.srl e rd ra rb) e { uses := [ra, rb], writes := [rd] }
      (rs .srl ra rb)) ∧
    (∀ (rd ra rb : Reg), Raises (.sra e rd ra rb) e { uses := [ra, rb], writes := [rd] }
      (rs .sra ra rb)) ∧
    (∀ (rd ra rb : Reg), Raises (.ror e rd ra rb) e { uses := [ra, rb], writes := [rd] }
      (rs .ror ra rb)) ∧
    (∀ (rd ra : Reg), Raises (.clz e rd ra) e { uses := [ra], writes := [rd] }
      (r1 ra (amongTo [Tag.raw, Tag.int, Tag.uns] Tag.int) fun _ t x => word (clz x) t)) ∧
    (∀ (rd ra : Reg), Raises (.sextb e rd ra) e { uses := [ra], writes := [rd] }
      (r1 ra (amongTo [Tag.raw, Tag.int, Tag.uns] Tag.int) fun _ t x => wordI (toSigned 8 x) t)) ∧
    (∀ (rd ra : Reg), Raises (.sexth e rd ra) e { uses := [ra], writes := [rd] }
      (r1 ra (amongTo [Tag.raw, Tag.int, Tag.uns] Tag.int) fun _ t x => wordI (toSigned 16 x) t)) ∧
    (∀ (rd ra : Reg), Raises (.zextb e rd ra) e { uses := [ra], writes := [rd] }
      (r1 ra (amongTo [Tag.raw, Tag.int, Tag.uns] Tag.uns) fun _ t x => word (x % 2 ^ 8) t)) ∧
    (∀ (rd ra : Reg), Raises (.zexth e rd ra) e { uses := [ra], writes := [rd] }
      (r1 ra (amongTo [Tag.raw, Tag.int, Tag.uns] Tag.uns) fun _ t x => word (x % 2 ^ 16) t)) ∧
    (∀ (rd ra rb : Reg), Raises (.cmpeq e rd ra rb) e { uses := [ra, rb], writes := [rd] }
      (rr ra rb eqTags fun _ _ t x y => word (b2n (eqVals t x y)) Tag.bool)) ∧
    (∀ (rd ra rb : Reg), Raises (.cmplt e rd ra rb) e { uses := [ra, rb], writes := [rd] }
      (rr ra rb ltTags fun _ _ t x y => word (b2n (ltVals t x y)) Tag.bool)) ∧
    (∀ (rd ra rb : Reg), Raises (.cmpltu e rd ra rb) e { uses := [ra, rb], writes := [rd] }
      (rr ra rb ltuTags fun _ _ _ x y => word (b2n (decide (x < y))) Tag.bool)) ∧
    (∀ (rd ra : Reg) (n : TagNo), Raises (.sett e rd ra n) e { uses := [ra], writes := [rd], bad := (if plainTag n then none
      else some 1) }
      (r1 ra (fun a => (anyTag a).map fun _ => n) fun _ t x => word x t)) ∧
    (∀ (rd ra : Reg) (i : BitVec 11), Raises (.addi e rd ra i) e { uses := [ra], writes := [rd] }
      (r1 ra (fun a => addTags false a (if a = Tag.uns then Tag.uns else Tag.int)) fun _ t x => byTag t (numOf t x +
            imm11 i.toNat))) ∧
    (∀ (rd ra : Reg) (i : BitVec 11), Raises (.andi e rd ra i) e { uses := [ra], writes := [rd] }
      (r1 ra (logicImmTags true) fun _ t x => logic .and t x (ofSigned 32 (imm11 i.toNat)))) ∧
    (∀ (rd ra : Reg) (i : BitVec 11), Raises (.ori e rd ra i) e { uses := [ra], writes := [rd] }
      (r1 ra (logicImmTags true) fun _ t x => logic .or t x (ofSigned 32 (imm11 i.toNat)))) ∧
    (∀ (rd ra : Reg) (i : BitVec 11), Raises (.xori e rd ra i) e { uses := [ra], writes := [rd] }
      (r1 ra (logicImmTags false) fun _ t x => logic .xor t x (ofSigned 32 (imm11 i.toNat)))) ∧
    (∀ (rd ra : Reg) (i : BitVec 11), Raises (.shi e rd ra i) e { uses := [ra], writes := [rd], bad := (if bits i.toNat 10 7
      = 0 then none else some 1) }
      (r1 ra (among (shiftTags (shiftKind (bits i.toNat 6 5)))) fun _ t x => shift (shiftKind (bits i.toNat 6 5)) t x
            (bits i.toNat 4 0))) ∧
    (∀ (rd : Reg) (i : BitVec 16), Raises (.lih e rd i) e { uses := [rd], writes := [rd] }
      (r1 rd anyTag fun _ t x => word (x % 2 ^ 16 + i.toNat * 2 ^ 16) t)) ∧
    (∀ (rd ra rb : ShortReg), Raises (.addS e rd ra rb) e { len := 2, uses := [short ra, short rb], writes := [short rd] }
      (rr (short ra) (short rb) (addTags false) fun _ _ t x y => byTag t (numOf t x + numOf t y))) ∧
    (∀ (rd ra rb : ShortReg), Raises (.subS e rd ra rb) e { len := 2, uses := [short ra, short rb], writes := [short rd] }
      (rr (short ra) (short rb) (addTags true) fun _ _ t x y => byTag t (numOf t x - numOf t y))) ∧
    (∀ (rd ra rb : ShortReg), Raises (.andS e rd ra rb) e { len := 2, uses := [short ra, short rb], writes := [short rd] }
      (rr (short ra) (short rb) (logicTags true) fun _ _ t x y => logic .and t x y)) ∧
    (∀ (rd ra rb : ShortReg), Raises (.orS e rd ra rb) e { len := 2, uses := [short ra, short rb], writes := [short rd] }
      (rr (short ra) (short rb) (logicTags true) fun _ _ t x y => logic .or t x y)) ∧
    (∀ (rd ra rb : ShortReg), Raises (.xorS e rd ra rb) e { len := 2, uses := [short ra, short rb], writes := [short rd] }
      (rr (short ra) (short rb) (logicTags false) fun _ _ t x y => logic .xor t x y)) ∧
    (∀ (rd ra rb : ShortReg), Raises (.mulS e rd ra rb) e { len := 2, uses := [short ra, short rb], writes := [short rd] }
      (rr (short ra) (short rb) mulTags fun ta tz t x y => mulLow ta tz t x y)) ∧
    (∀ (rd ra rb : ShortReg), Raises (.minS e rd ra rb) e { len := 2, uses := [short ra, short rb], writes := [short rd] }
      (rr (short ra) (short rb) numTags fun _ _ t x y => minMax false t x y)) ∧
    (∀ (rd ra rb : ShortReg), Raises (.maxS e rd ra rb) e { len := 2, uses := [short ra, short rb], writes := [short rd] }
      (rr (short ra) (short rb) numTags fun _ _ t x y => minMax true t x y)) ∧
    (∀ (rd : ShortReg) (i : BitVec 8), Raises (.addiS e rd i) e { len := 2, uses := [short rd], writes := [short rd] }
      (r1 (short rd) (fun a => addTags false a (if a = Tag.uns then Tag.uns else Tag.int)) fun _ t x => byTag t (numOf t
            x + imm8 i.toNat))) ∧
    (∀ (rd : ShortReg) (q : Fin 4) (i : Fin 32), Raises (.shiS e rd q i) e { len := 2, uses := [short rd], writes := [short
      rd] }
      (r1 (short rd) (among (shiftTags (shiftKind q))) fun _ t x => shift (shiftKind q) t x i)) ∧
    (∀ (rd ra rb : Reg), Raises (.mul e rd ra rb) e { uses := [ra, rb], writes := [rd] }
      (rr ra rb mulTags fun ta tz t x y => mulLow ta tz t x y)) ∧
    (∀ (rd ra rb : Reg), Raises (.mulh e rd ra rb) e { uses := [ra, rb], writes := [rd] }
      (rr ra rb wholeTags fun _ _ t x y => mulHigh t x y)) ∧
    (∀ (rd ra rb : Reg), Raises (.fadd e rd ra rb) e { uses := [ra, rb], writes := [rd] }
      (rr ra rb fltTags fun _ _ _ x y => word (F32.add x y) Tag.flt)) ∧
    (∀ (rd ra rb : Reg), Raises (.fsub e rd ra rb) e { uses := [ra, rb], writes := [rd] }
      (rr ra rb fltTags fun _ _ _ x y => word (F32.sub x y) Tag.flt)) ∧
    (∀ (rd ra rb : Reg), Raises (.fmul e rd ra rb) e { uses := [ra, rb], writes := [rd] }
      (rr ra rb fltTags fun _ _ _ x y => word (F32.mul x y) Tag.flt)) ∧
    (∀ (rd ra rb : Reg), Raises (.fmin e rd ra rb) e { uses := [ra, rb], writes := [rd] }
      (rr ra rb fltTags fun _ _ _ x y => word (F32.min x y) Tag.flt)) ∧
    (∀ (rd ra rb : Reg), Raises (.fmax e rd ra rb) e { uses := [ra, rb], writes := [rd] }
      (rr ra rb fltTags fun _ _ _ x y => word (F32.max x y) Tag.flt)) ∧
    (∀ (rd ra : Reg), Raises (.fneg e rd ra) e { uses := [ra], writes := [rd] }
      (r1 ra (among [Tag.flt]) fun _ t x => word (F32.neg x) t)) ∧
    (∀ (rd ra : Reg), Raises (.fabs e rd ra) e { uses := [ra], writes := [rd] }
      (r1 ra (among [Tag.flt]) fun _ t x => word (F32.abs x) t))

/-- What an instruction raises before its own effect: an undefined encoding ILL 1, a hardwired instruction with RSM.V set ILL 4,
a privileged one in U PRIV, an operand that carries POISON its register, a fetch that memory protection refuses ACCV, one beyond
what may be fetched ILL 2, which at an absent address also counts ABSENT; CHKT raises TAG but where the tag is the one it names.
A raising T00 locks the engine up. A result on its way lands when it is due. Rests on the model's choices of log entries 79, 85,
137 and 166. -/
def Obligations.IssueExceptions : Prop :=
  ∀ (s : State) (e : Fin 256) (k : Nat),
    (k ≠ 0 → (Fetches s e k { len := 4 } = true ∧ (s.now.taskSt e k).rsmV = false) → Answers (.sopReserved e true) s fun t =>
      Raised s t e k (s.now.taskSt e k).pc ⟨3, 0, 1, false⟩) ∧
    (k ≠ 0 → (Fetches s e k { len := 2 } = true ∧ (s.now.taskSt e k).rsmV = false) → Answers (.sopReserved e false) s fun t =>
      Raised s t e k (s.now.taskSt e k).pc ⟨3, 0, 1, false⟩) ∧
    (∀ (ra : Reg) (n : TagNo), Issues s e k { uses := [ra] } = true → (((s.now.taskSt e k).opd ra).t = n.val ∧ n.val < 12) →
      Answers (.chkt e ra n) s fun t => Completes s t e k 1 []) ∧
    (∀ (ra : Reg) (n : TagNo), k ≠ 0 → Issues s e k { uses := [ra] } = true → ((s.now.taskSt e k).opd ra).t ≠ n.val →
      Answers (.chkt e ra n) s fun t =>
      Raised s t e k (s.now.taskSt e k).pc ⟨0, 0, 256 * ra.val + ((s.now.taskSt e k).opd ra).t, false⟩) ∧
    (∀ (rd ra rb : Reg), k ≠ 0 → Fetches s e k { uses := [ra, rb], writes := [rd] } = true → (s.now.taskSt e k).rsmV = true →
      Answers (.add e rd ra rb) s fun t =>
      (t.now.engSt e).queue = insExc ⟨s.tick, k, 3, (s.now.taskSt e k).pc, 0, 4, (s.now.taskSt e k).st == .wait⟩
        (s.now.engSt e).queue ∧
      ((t.now.taskSt e k).st = .held ∧ (t.now.taskSt e k).rsmV = false ∧ (t.now.taskSt e k).pc = (s.now.taskSt e k).pc) ∧
      Frame.instr (fun t s => { s with queue := t.queue, run := t.run, sel := t.sel })
        (fun t s => { s with st := t.st, deadline := t.deadline, rsmV := t.rsmV }) (fun _ => False) e k s t) ∧
    (k ≠ 0 → Fetches s e k { cost := 4, alone := true, priv := true } = true → ((s.now.taskSt e k).rsmV = false ∧
      (s.now.taskSt e k).priv = true) → Answers (.eret e) s fun t => Raised s t e k (s.now.taskSt e k).pc ⟨2, 0, 0, false⟩) ∧
    (∀ (rd ra rb : Reg), k ≠ 0 → Fetches s e k { uses := [ra, rb], writes := [rd] } = true → (s.now.taskSt e k).rsmV = false →
      ((s.now.taskSt e k).reg ra).t = 15 → Answers (.add e rd ra rb) s fun t =>
      Raised s t e k (s.now.taskSt e k).pc ⟨1, 0, 256 * ra.val, false⟩) ∧
    (∀ (rd ra rb : Reg), k ≠ 0 → (s.now.engSt e).run = some k →
      s.now.mayIssue s.ctx e k { uses := [ra, rb], writes := [rd] } = true →
      (s.now.engSt e).mpAllows (s.now.taskSt e k).priv 2 (s.now.taskSt e k).pc = true →
      fetchable (s.now.engSt e).modeP e (s.now.taskSt e k).pc = false → absent s.hw (unalias e (s.now.taskSt e k).pc) = false →
      Answers (.add e rd ra rb) s fun t => Raised s t e k (s.now.taskSt e k).pc ⟨3, (s.now.taskSt e k).pc, 2, false⟩) ∧
    (∀ (rd ra rb : Reg), k ≠ 0 → (s.now.engSt e).run = some k →
      s.now.mayIssue s.ctx e k { uses := [ra, rb], writes := [rd] } = true →
      (s.now.engSt e).mpAllows (s.now.taskSt e k).priv 2 (s.now.taskSt e k).pc = true →
      fetchable (s.now.engSt e).modeP e (s.now.taskSt e k).pc = false → absent s.hw (unalias e (s.now.taskSt e k).pc) = true →
      Answers (.add e rd ra rb) s fun t =>
      (t.now.engSt e).queue = insExc ⟨s.tick, k, 3, (s.now.taskSt e k).pc, (s.now.taskSt e k).pc, 2, (s.now.taskSt e k).st ==
        .wait⟩ (s.now.engSt e).queue ∧
      t.now.get (vcFld (some (regionOf e)) .absent) = min 65535 (s.now.get (vcFld (some (regionOf e)) .absent) + 1) ∧
      ((t.now.engSt e).run = none ∧ (t.now.taskSt e k).st = .held ∧ (t.now.taskSt e k).pc = (s.now.taskSt e k).pc) ∧
      (Others Block.engSt e s t ∧ ∀ r ∈ List.range 32, (t.now.taskSt e k).reg r = (s.now.taskSt e k).reg r) ∧
      Leaves (fun t b => { b with eng := t.eng }) (fun a => a = (vcFld (some (regionOf e)) .absent).addr) s t) ∧
    (∀ (rd ra rb : Reg), k ≠ 0 → (s.now.engSt e).run = some k →
      s.now.mayIssue s.ctx e k { uses := [ra, rb], writes := [rd] } = true →
      (s.now.engSt e).mpAllows (s.now.taskSt e k).priv 2 (s.now.taskSt e k).pc = false → Answers (.add e rd ra rb) s fun t =>
      Raised s t e k (s.now.taskSt e k).pc ⟨4, (s.now.taskSt e k).pc, 2, false⟩) ∧
    (Fetches s e 0 { len := 4 } = true → Answers (.sopReserved e true) s fun t => t.now.lockedUp = e.val :: s.now.lockedUp ∧
      t.now.get (F.CL_STAT_LOCK (clusterOf e)) = s.now.get (F.CL_STAT_LOCK (clusterOf e)) ||| 2 ^ (e.val % 8) ∧
      ((t.now.engSt e).run = none ∧ (t.now.engSt e).queue = (s.now.engSt e).queue ∧ t.now.balls.getD 0 1 = 1)) ∧
    (∀ (x : LateRes), (s.now.engSt e).late = [x] →
      ((lateTick x.due s.now e).taskSt e x.task).reg x.reg = (if x.reg = 0 then ⟨0, 1⟩ else x.v) ∧
      ((lateTick x.due s.now e).engSt e).late = [] ∧ (x.due ≠ 0 → ((lateTick (x.due - 1) s.now e).engSt e).late = [x]))

/-- Package resets: a rail below its POR threshold, RST_N low for 100 ns or more, the twin's reset message. Each leaves the
state of R634 with TB 0, keeps flash, keys and the Lichen domain, and shows its cause and the state before it in BOOT_RESET;
VDD_L resets the Lichen domain too. RST_N low for less than 20 ns does nothing. RETRY in HOLD begins the sequence anew, once a
flash operation has ended. A reset or RETRY that falls due acts with the fc. Rests on the model's choices of log entries 2, 101,
102, 103 and 104. -/
def Obligations.PackageResetEffects : Prop :=
  ∀ (s : State),
    (∀ (r : Fin 10), r ≠ 9 → s.now.always.sleeping = false → s.now.flCmd = none → Answers (.powerOnReset r) s fun t =>
      t.tick = 0 ∧ (t.now.get F.BOOT_RESET_CAUSE = 1 ∧ t.now.get F.BOOT_RESET_PREV = s.now.get F.BOOT_STATUS_STATE) ∧
      t.now.get F.PW_LSTAT_BORRAIL = r.val + 1 ∧ (t.now.rd R.PW_WAKE = s.now.rd R.PW_WAKE ∧
      t.now.rd R.PW_WKTL = s.now.rd R.PW_WKTL ∧ t.now.rd R.PW_WKTH = s.now.rd R.PW_WKTH) ∧
      (t.now.always = { s.now.always with low := t.now.always.low } ∧ r.val ∈ t.now.always.low) ∧ ResetOf resetRegs s t) ∧
    (s.now.flCmd = none → Answers (.powerOnReset 9) s fun t => t.tick = 0 ∧ (t.now.rd R.BOOT_RESET = regReset R.BOOT_RESET ∧
      t.now.rd R.PW_LSTAT = regReset R.PW_LSTAT ∧ t.now.rd R.PW_WAKE = regReset R.PW_WAKE) ∧
      (t.now.always.keys = s.now.always.keys ∧ t.now.always.elock = s.now.always.elock ∧ t.now.always.ltb = 0) ∧
      (9 ∈ t.now.always.low ∧ t.now.always.sleeping = false) ∧ ResetOf (fun a => block 0x60000000 0x10000 a) s t) ∧
    (∀ (n : Nat), 100 ≤ n → s.now.always.sleeping = false → s.now.flCmd = none → Answers (.rstNAssert n) s fun t => t.tick = 0 ∧
      (t.now.get F.BOOT_RESET_CAUSE = 2 ∧ t.now.get F.BOOT_RESET_PREV = s.now.get F.BOOT_STATUS_STATE) ∧
      t.now.always = { s.now.always with rstLow := true } ∧ t.now.rd R.PW_LSTAT = s.now.rd R.PW_LSTAT ∧ ResetOf resetRegs s t) ∧
    (∀ (n : Nat), n < 20 → Idle (.rstNAssert n) s) ∧
    (s.now.pv.twinRst = true → s.now.flCmd = none → Answers (.twinReset) s fun t => t.tick = 0 ∧
      (t.now.get F.BOOT_RESET_CAUSE = 5 ∧ t.now.get F.BOOT_RESET_PREV = s.now.get F.BOOT_STATUS_STATE) ∧
      t.now.always = s.now.always ∧ ResetOf resetRegs s t) ∧
    ((s.now.inHold = true ∧ s.now.retry = false) → s.now.flCmd = none → Answers (.mntRetry) s fun t => t.tick = s.tick ∧
      (t.now.get F.BOOT_STATUS_STATE = 0 ∧ t.now.pllF = true) ∧ (t.now.always = s.now.always ∧
      t.now.rd R.BOOT_RESET = s.now.rd R.BOOT_RESET) ∧ ResetOf (fun a => resetRegs a ∨ a = F.PW_PLL_F.addr) s t) ∧
    (∀ (x : FlCmd), (s.now.inHold = true ∧ s.now.retry = false) → s.now.flCmd = some x → Answers (.mntRetry) s fun t =>
      t.now.retry = true ∧ Leaves (fun t b => { b with retry := t.retry }) (fun _ => False) s t) ∧
    (∀ (k : Nat), (s.pending = [] ∧ s.now.pllF = true) → ((endFc s.ctx s.now).resetDue = some k ∧ k < 8) → StepsTo s fun t =>
      (t.tick = 0 ∧ t.now.get F.BOOT_RESET_CAUSE = k ∧
      t.now.get F.BOOT_RESET_PREV = (endFc s.ctx s.now).get F.BOOT_STATUS_STATE) ∧ (t.now.get F.BOOT_STATUS_STATE = 0 ∧
      t.now.outputs = false ∧ t.now.eng = [] ∧ t.now.hp = {} ∧ t.now.hostOut = (endFc s.ctx s.now).hostOut)) ∧
    ((s.pending = [] ∧ s.now.pllF = true) → ((endFc s.ctx s.now).resetDue = none ∧ (endFc s.ctx s.now).retry = true ∧
      (endFc s.ctx s.now).flCmd = none) → StepsTo s fun t => (t.tick = s.tick + 1 ∧ t.now.get F.BOOT_STATUS_STATE = 0 ∧
      t.now.retry = false) ∧ (t.now.rd R.BOOT_RESET = (endFc s.ctx s.now).rd R.BOOT_RESET ∧ t.now.eng = [] ∧ t.now.hp = {}))

/-- The boot sequence ends in RUN or in HOLD, and nothing drives the part in HOLD; BOOTSEL 2 and 3 are refused with causes 0x01
and 0x02, an absent selection with 0x03, a silent external flash with 0x04. In RUN ownership is enforced and the outputs are on
from fc S. The maintenance port reads BOOT_STATUS in every state and memory as any agent, writes only after S, and enrols a key
in a blank slot in HOLD; in HOLD a request waits while one before it is being served. Rests on the model's choices of log
entries 2, 4, 92 and 94. -/
def Obligations.BootAndMaintenanceEffects : Prop :=
  ∀ (s : State),
    (∀ (q : Fin 4) (x y : Option (List Nat)), s.mayBoot = true → Answers (.bootSequence q x y) s fun t =>
      (t.now.get F.BOOT_STATUS_STATE = 1 ∨ t.now.get F.BOOT_STATUS_STATE = 2) ∧ (t.now.get F.BOOT_STATUS_STATE = 1 →
      t.now.outputs = true ∧ t.now.enforced = true ∧ t.now.fcS = some s.tick) ∧ (t.now.get F.BOOT_STATUS_STATE = 2 →
      t.now.outputs = false ∧ t.now.enforced = false ∧ t.now.fcS = none ∧ t.now.eng = [] ∧ 1 ≤ t.now.get F.BOOT_STATUS_CAUSE) ∧
      (t.hw = s.hw ∧ t.tick = s.tick ∧ t.pending = s.pending ∧ t.start = t.now)) ∧
    (∀ (q : Fin 4) (x y : Option (List Nat)) (n : Nat), s.mayBoot = true → (n = 1 ∧ q = 2 ∨ n = 2 ∧ q = 3 ∨ n = 3 ∧ q.val < 2 ∧
      s.now.selection = none) → Answers (.bootSequence q x y) s fun t => (t.now.get F.BOOT_STATUS_STATE = 2 ∧
      t.now.get F.BOOT_STATUS_CAUSE = n ∧ t.now.get F.BOOT_STATUS_KSLOT = 255) ∧
      t.now.get F.BOOT_STATUS_SRC = (if q = 1 then 2 else 255)) ∧
    (∀ (y : Option (List Nat)) (g d : Nat), s.mayBoot = true → s.now.selection = some (g, d) →
      (bootMinver s.hw s.now (if bits d 64 64 = 0 then 0x10000 else 0x210000)).toOption.isSome = true →
      Answers (.bootSequence 1 none y) s fun t => (t.now.get F.BOOT_STATUS_STATE = 2 ∧ t.now.get F.BOOT_STATUS_CAUSE = 4 ∧
      t.now.get F.BOOT_STATUS_SRC = 2)) ∧
    (Answers (.mntStatus) s fun t => (t.now.resp = s.now.rd R.BOOT_STATUS ∧ t.now.respTag = 0) ∧
      Leaves (fun _ b => b) (fun _ => False) s t) ∧
    (∀ (a : Word) (c : Nat), (0x10000000 ≤ a.toNat ∧ memSpace s.hw a.toNat = some (.cluster c)) → (a.toNat % 4 = 0 ∧
      s.start.granSyn (a.toNat / 32) = 0) → (s.now.inHold = false ∨ s.now.retry = false ∧ s.now.hp.cfgs = [] ∧
      s.now.hp.later = []) → Answers (.mntRead a) s fun t => (t.now.resp = numFrom s.start.goodByte a.toNat 4 ∧
      t.now.respTag = 0) ∧ Leaves (fun _ b => b) (fun _ => False) s t) ∧
    (∀ (a v : Word) (c : Nat), (s.now.mntReady = true ∧ s.now.deadWriter s.hw .mnt a.toNat = none) → (0x10000000 ≤ a.toNat ∧
      memSpace s.hw a.toNat = some (.cluster c)) → (a.toNat % 4 = 0 ∧ s.now.granBad (a.toNat / 32) = false ∧
      s.now.unwritten (portRank .mnt a.toNat s.now) a.toNat 4 = true) → Answers (.mntWrite a v) s fun t =>
      numFrom t.now.goodByte a.toNat 4 = v.toNat ∧ Stores (fun x => a.toNat ≤ x ∧
      x < a.toNat + 4) (fun t b => { b with edges := t.edges }) sumRegs s t) ∧
    (∀ (a v : Word), s.now.fcS = none → Idle (.mntWrite a v) s) ∧
    (∀ (j : Fin 4) (h : List Nat), (s.now.inHold = true ∧ s.now.retry = false ∧ s.now.hp.cfgs = [] ∧ s.now.hp.later = []) →
      s.now.always.elock = false → (s.now.always.keys.getD j {}).st = 0 → Answers (.mntEnrol j h) s fun t =>
      t.now.always = { s.now.always with keys := s.now.always.keys.set j ⟨1, h⟩ } ∧
      Leaves (fun t b => { b with always := t.always }) (fun _ => False) s t) ∧
    (∀ (j : Fin 4) (h : List Nat), (s.now.inHold = false ∨ s.now.retry = true ∨ s.now.hp.cfgs = [] ∧ s.now.hp.later = [] ∧
      (s.now.always.elock = true ∨ (s.now.always.keys.getD j {}).st ≠ 0)) → Idle (.mntEnrol j h) s) ∧
    (∀ (j : Fin 4) (h : List Nat), (s.now.inHold = true ∧ s.now.retry = false) → (s.now.hp.cfgs ≠ [] ∨ s.now.hp.later ≠ []) →
      Answers (.mntEnrol j h) s fun t => t.now.hp.later = s.now.hp.later ++ [.enrol j h] ∧
      Leaves (fun t b => { b with hp := { b.hp with later := t.hp.later } }) (fun _ => False) s t) ∧
    (∀ (a : Word), (s.now.inHold = true ∧ s.now.retry = false) → (s.now.hp.cfgs ≠ [] ∨ s.now.hp.later ≠ []) →
      Answers (.mntRead a) s fun t => t.now.hp.later = s.now.hp.later ++ [.read a.toNat] ∧
      Leaves (fun t b => { b with hp := { b.hp with later := t.hp.later } }) (fun _ => False) s t)

/-- A write of FL_CMD while the controller is idle starts the command it names where no check of R673 refuses it: BUSY is set
with the operation, address and data copied; a PROG copies whether its granule is blank; an ERASE and SELINIT mark their sector
INCOMPLETE. A refused command ends at once with its result; a write while BUSY sets CBUSY alone. Rests on the model's choices of
log entries 55 and 107. -/
def Obligations.FlashCommandEffects : Prop :=
  ∀ (s : State) (ag : Agent),
    (Reaches s ag R.FL_CMD → (s.now.on F.FL_STAT_BUSY = false ∧ s.start.on F.FL_STAT_BUSY = false) →
      s.now.flRefusal (ag == .boot) 1 (s.now.rd R.FL_ADDR) = none → Answers (.flProg ag) s fun t =>
      (t.now.on F.FL_STAT_BUSY = true ∧ t.now.get F.FL_STAT_OP = 1) ∧
      t.now.flCmd = some ⟨1, s.now.rd R.FL_ADDR % 2 ^ 26, s.now.flData, false, s.tick, !s.now.flashBlank
        (flashGran (s.now.rd R.FL_ADDR)), (s.now.selNext 1 s.now.flData).1⟩ ∧
      Leaves (fun t b => { b with flCmd := t.flCmd }) (fun a => a = R.FL_CMD ∨ a = R.FL_STAT) s t) ∧
    (Reaches s ag R.FL_CMD → (s.now.on F.FL_STAT_BUSY = false ∧ s.start.on F.FL_STAT_BUSY = false) →
      s.now.flRefusal (ag == .boot) 2 (s.now.rd R.FL_ADDR) = none → Answers (.flErase ag) s fun t =>
      (t.now.on F.FL_STAT_BUSY = true ∧ t.now.get F.FL_STAT_OP = 2) ∧
      t.now.flCmd = some ⟨2, s.now.rd R.FL_ADDR % 2 ^ 26, s.now.flData, false, s.tick, false, (s.now.selNext 2 s.now.flData).1⟩
        ∧
      (∀ j ∈ List.range 1024, j ∈ t.now.flashInc ↔ j ∈ s.now.flashInc ∨ j = s.now.rd R.FL_ADDR / 0x10000) ∧
      Leaves (fun t b => { b with flCmd := t.flCmd, flashInc := t.flashInc })
        (fun a => a = R.FL_CMD ∨ a = R.FL_STAT ∨ block (R.FL_SST 0) 0x100 a ∨ a = R.FL_PINTA) s t) ∧
    (Reaches s ag R.FL_CMD → (s.now.on F.FL_STAT_BUSY = false ∧ s.start.on F.FL_STAT_BUSY = false) →
      s.now.flRefusal (ag == .boot) 3 (s.now.rd R.FL_ADDR) = none → Answers (.flBlank ag) s fun t =>
      (t.now.on F.FL_STAT_BUSY = true ∧ t.now.get F.FL_STAT_OP = 3) ∧
      t.now.flCmd = some ⟨3, s.now.rd R.FL_ADDR % 2 ^ 26, s.now.flData, false, s.tick, false, (s.now.selNext 3 s.now.flData).1⟩
        ∧
      Leaves (fun t b => { b with flCmd := t.flCmd }) (fun a => a = R.FL_CMD ∨ a = R.FL_STAT) s t) ∧
    (∀ (g d : Nat), Reaches s ag R.FL_CMD → (s.now.on F.FL_STAT_BUSY = false ∧ s.start.on F.FL_STAT_BUSY = false) →
      s.now.flRefusal (ag == .boot) 4 (s.now.rd R.FL_ADDR) = none → s.now.selection = some (g, d) →
      Answers (.flSwapbb ag) s fun t => (t.now.on F.FL_STAT_BUSY = true ∧ t.now.get F.FL_STAT_OP = 4) ∧
      t.now.flCmd = some ⟨4, s.now.rd R.FL_ADDR % 2 ^ 26, selData (682 - s.now.selFree) (bits d 72 72 ^^^ 0)
        (bits d 64 64 ^^^ 1) (bits d 159 128 + 1), false, s.tick, false, 682 - s.now.selFree⟩ ∧
      Leaves (fun t b => { b with flCmd := t.flCmd }) (fun a => a = R.FL_CMD ∨ a = R.FL_STAT) s t) ∧
    (∀ (g d : Nat), Reaches s ag R.FL_CMD → (s.now.on F.FL_STAT_BUSY = false ∧ s.start.on F.FL_STAT_BUSY = false) →
      s.now.flRefusal (ag == .boot) 5 (s.now.rd R.FL_ADDR) = none → s.now.selection = some (g, d) →
      Answers (.flSwapimg ag) s fun t => (t.now.on F.FL_STAT_BUSY = true ∧ t.now.get F.FL_STAT_OP = 5) ∧
      t.now.flCmd = some ⟨5, s.now.rd R.FL_ADDR % 2 ^ 26, selData (682 - s.now.selFree) (bits d 72 72 ^^^ 1)
        (bits d 64 64 ^^^ 0) (bits d 159 128 + 1), false, s.tick, false, 682 - s.now.selFree⟩ ∧
      Leaves (fun t b => { b with flCmd := t.flCmd }) (fun a => a = R.FL_CMD ∨ a = R.FL_STAT) s t) ∧
    (Reaches s ag R.FL_CMD → (s.now.on F.FL_STAT_BUSY = false ∧ s.start.on F.FL_STAT_BUSY = false) →
      s.now.flRefusal (ag == .boot) 6 (s.now.rd R.FL_ADDR) = none → Answers (.flSelinit ag) s fun t =>
      (t.now.on F.FL_STAT_BUSY = true ∧ t.now.get F.FL_STAT_OP = 6) ∧
      t.now.flCmd = some ⟨6, s.now.rd R.FL_ADDR % 2 ^ 26, selData 0 (bits s.now.flData 8 8) (bits s.now.flData 0 0) 0, false,
        s.tick, false, 0⟩ ∧
      (∀ j ∈ List.range 1024, j ∈ t.now.flashInc ↔ j ∈ s.now.flashInc ∨ j = 0) ∧
      Leaves (fun t b => { b with flCmd := t.flCmd, flashInc := t.flashInc })
        (fun a => a = R.FL_CMD ∨ a = R.FL_STAT ∨ block (R.FL_SST 0) 0x100 a ∨ a = R.FL_PINTA) s t) ∧
    (∀ (op : BitVec 4), Reaches s ag R.FL_CMD → (s.now.on F.FL_STAT_BUSY = false ∧ s.start.on F.FL_STAT_BUSY = false) →
      (op = 0 ∨ 6 < op.toNat) → Answers (.flUndefinedOp ag op) s fun t => (t.now.get F.FL_STAT_RES = 10 ∧
      t.now.on F.FL_STAT_DONE = true ∧ t.now.on F.FL_STAT_BUSY = false) ∧ (t.now.get F.FL_STAT_OP = op.toNat ∧
      t.now.flCmd = none) ∧ t.now.edges = (raiseEdge s.ctx 0x071 (raiseEdge s.ctx 0x070 s.now)).edges ∧
      Leaves (fun t b => { b with flCmd := t.flCmd, edges := t.edges }) (fun a => a = R.FL_CMD ∨ a = R.FL_STAT) s t) ∧
    (∀ (r : Nat), Reaches s ag R.FL_CMD → (s.now.on F.FL_STAT_BUSY = false ∧ s.start.on F.FL_STAT_BUSY = false) →
      s.now.flRefusal (ag == .boot) 1 (s.now.rd R.FL_ADDR) = some r → Answers (.flProg ag) s fun t =>
      (t.now.get F.FL_STAT_RES = r ∧ t.now.on F.FL_STAT_DONE = true ∧ t.now.on F.FL_STAT_BUSY = false ∧
      t.now.get F.FL_STAT_NPUL = 0) ∧ t.now.edges = (raiseEdge s.ctx 0x071 (raiseEdge s.ctx 0x070 s.now)).edges ∧
      Leaves (fun t b => { b with flCmd := t.flCmd, edges := t.edges }) (fun a => a = R.FL_CMD ∨ a = R.FL_STAT) s t) ∧
    (Reaches s ag R.FL_CMD → (s.now.on F.FL_STAT_BUSY = true ∨ s.start.on F.FL_STAT_BUSY = true) →
      Answers (.flErase ag) s fun t => t.now.on F.FL_STAT_CBUSY = true ∧
      Leaves (fun _ b => b) (fun a => a = R.FL_CMD ∨ a = R.FL_STAT) s t)

/-- A flash command that ends good has written what it was given: PROG its granule, ERASE its sector to 1 bits without
INCOMPLETE, BLANK nothing, a PROG of a granule that is not blank nothing, with a count, a swap and SELINIT the three copies of
the generation, after which FL_SEL shows the selector read anew. DONE, RES and NPUL report it and edge 0x070 is raised. A
brown-out warning ends the command with CUT. Rests on the model's choices of log entries 68, 106 and 107. -/
def Obligations.FlashEndEffects : Prop :=
  ∀ (s : State) (x : FlCmd) (n : BitVec 8),
    ((s.now.flCmd = some x ∧ x.host = false ∧ s.now.retry = false) → (x.op = 1 ∧ x.notBlank = false) → (x.addr < 2 ^ 26 ∧
      x.addr % 32 = 0 ∧ x.data < 2 ^ 256) → x.addr / 0x10000 ∉ s.now.flashInc → Answers (.flCommandEnd n none) s fun t =>
      (t.now.flCmd = none ∧ t.now.on F.FL_STAT_BUSY = false ∧ t.now.on F.FL_STAT_DONE = true ∧
      t.now.get F.FL_STAT_NPUL = min n.toNat 8) ∧ (t.now.get F.FL_STAT_RES = 0 ∧
      t.now.edges = (raiseEdge s.ctx 0x070 s.now).edges) ∧
      (∀ j ∈ List.range 32, t.now.goodByte (flashBase + x.addr + j) = x.data / 256 ^ j % 256) ∧
      Stores
        (fun a => a / 32 = flashGran x.addr) (fun t b => { b with flCmd := t.flCmd, flashChk := t.flashChk, edges := t.edges })
        (fun a => a = R.FL_STAT) s t) ∧
    ((s.now.flCmd = some x ∧ x.host = false ∧ s.now.retry = false) → (x.op = 1 ∧ x.notBlank = false) → (x.addr < 2 ^ 26 ∧
      x.addr % 32 = 0 ∧ x.data < 2 ^ 256) → Answers (.flCommandEnd n (some 0)) s fun t => (t.now.flCmd = none ∧
      t.now.on F.FL_STAT_BUSY = false ∧ t.now.on F.FL_STAT_DONE = true ∧ t.now.get F.FL_STAT_NPUL = 8) ∧
      (t.now.get F.FL_STAT_RES = 5 ∧ t.now.flashPinta = some (x.addr / 32)) ∧ x.addr / 0x10000 ∈ t.now.flashPint ∧
      t.now.edges = (raiseEdge s.ctx 0x071 (raiseEdge s.ctx 0x070 s.now)).edges ∧
      Stores
        (fun
        a =>
        a /
        32 =
        flashGran
        x.addr)
        (fun
        t b
        => { b with
        flCmd := t.flCmd, flashChk := t.flashChk, flashInc := t.flashInc, flashPint := t.flashPint, flashPinta := t.flashPinta,
        edges := t.edges }) (fun a => block 0x60000000 0x10000 a) s t) ∧
    ((s.now.flCmd = some x ∧ x.host = false ∧ s.now.retry = false) → (x.op = 2 ∧ x.notBlank = false) → x.addr < 2 ^ 26 →
      Answers (.flCommandEnd n none) s fun t => (t.now.flCmd = none ∧ t.now.on F.FL_STAT_BUSY = false ∧
      t.now.on F.FL_STAT_DONE = true ∧ t.now.get F.FL_STAT_NPUL = min n.toNat 60) ∧ (t.now.get F.FL_STAT_RES = 0 ∧
      t.now.edges = (raiseEdge s.ctx 0x070 s.now).edges) ∧
      (∀ j ∈ List.range 0x10000, t.now.goodByte (flashBase + x.addr / 0x10000 * 0x10000 + j) = 0xFF) ∧
      (x.addr / 0x10000 ∉ t.now.flashInc ∧ x.addr / 0x10000 ∉ t.now.flashPint) ∧
      Stores (fun a => a / 0x10000 = 0x8000 + x.addr / 0x10000) (fun t b =>
        { b with
        flCmd := t.flCmd, flashChk := t.flashChk, flashInc := t.flashInc, flashPint := t.flashPint, flashPinta := t.flashPinta,
        edges := t.edges }) (fun a => block 0x60000000 0x10000 a) s t) ∧
    ((s.now.flCmd = some x ∧ x.host = false ∧ s.now.retry = false) → (x.op = 3 ∧ x.notBlank = false) → (x.addr < 2 ^ 26 ∧
      x.addr / 0x10000 ∉ s.now.flashInc) → (Memory.wf s.now.mem = true ∧ Assoc.Canon (fun _ => 0xFFFF) s.now.flashChk = true) →
      Answers (.flCommandEnd n none) s fun t => (t.now.flCmd = none ∧ t.now.on F.FL_STAT_BUSY = false ∧
      t.now.on F.FL_STAT_DONE = true ∧ t.now.get F.FL_STAT_NPUL = 0) ∧
      (t.now.get F.FL_STAT_RES = if (List.range 2048).all (fun j => s.now.flashBlank
        (flashGran (x.addr / 0x10000 * 0x10000) + j)) then 0 else 11) ∧
      Leaves (fun t b => { b with flCmd := t.flCmd, edges := t.edges }) (fun a => a = R.FL_STAT) s t) ∧
    ((s.now.flCmd = some x ∧ x.host = false ∧ s.now.retry = false) → (x.op = 4 ∧ x.notBlank = false) → (x.gen < 682 ∧
      x.data < 2 ^ 256 ∧ 0 ∉ s.now.flashInc) → flDirtyCopy x s.now = none → Answers (.flCommandEnd n none) s fun t =>
      (t.now.flCmd = none ∧ t.now.on F.FL_STAT_BUSY = false ∧ t.now.on F.FL_STAT_DONE = true ∧
      t.now.get F.FL_STAT_NPUL = n.toNat) ∧ t.now.get F.FL_STAT_RES = 0 ∧
      (∀ k ∈ List.range 3, t.now.granData (x.copyGran k) = x.data) ∧ t.now.rd R.FL_SEL = (flSelRead t.now).rd R.FL_SEL ∧
      Stores (fun a => a / 32 = x.copyGran 0 ∨ a / 32 = x.copyGran 1 ∨ a / 32 = x.copyGran 2)
        (fun t b => { b with flCmd := t.flCmd, flashChk := t.flashChk, edges := t.edges })
        (fun a => a = R.FL_STAT ∨ a = R.FL_SEL) s t) ∧
    ((s.now.flCmd = some x ∧ x.host = false ∧ s.now.retry = false) → (x.op = 5 ∧ x.notBlank = false) → (x.gen < 682 ∧
      x.data < 2 ^ 256 ∧ 0 ∉ s.now.flashInc) → flDirtyCopy x s.now = none → Answers (.flCommandEnd n none) s fun t =>
      (t.now.flCmd = none ∧ t.now.on F.FL_STAT_BUSY = false ∧ t.now.on F.FL_STAT_DONE = true ∧
      t.now.get F.FL_STAT_NPUL = n.toNat) ∧ t.now.get F.FL_STAT_RES = 0 ∧
      (∀ k ∈ List.range 3, t.now.granData (x.copyGran k) = x.data) ∧ t.now.rd R.FL_SEL = (flSelRead t.now).rd R.FL_SEL ∧
      Stores (fun a => a / 32 = x.copyGran 0 ∨ a / 32 = x.copyGran 1 ∨ a / 32 = x.copyGran 2)
        (fun t b => { b with flCmd := t.flCmd, flashChk := t.flashChk, edges := t.edges })
        (fun a => a = R.FL_STAT ∨ a = R.FL_SEL) s t) ∧
    ((s.now.flCmd = some x ∧ x.host = false ∧ s.now.retry = false) → (x.op = 6 ∧ x.notBlank = false) → (x.addr = 0 ∧ x.gen = 0 ∧
      (x.data = selData 0 0 0 0 ∨ x.data = selData 0 0 1 0 ∨ x.data = selData 0 1 0 0 ∨ x.data = selData 0 1 1 0)) →
      Answers (.flCommandEnd n none) s fun t => (t.now.flCmd = none ∧ t.now.on F.FL_STAT_BUSY = false ∧
      t.now.on F.FL_STAT_DONE = true ∧ t.now.get F.FL_STAT_NPUL = n.toNat) ∧ t.now.get F.FL_STAT_RES = 0 ∧
      (∀ k ∈ List.range 3, t.now.granData (x.copyGran k) = x.data) ∧ (t.now.get F.FL_SEL_FREE = 681 ∧
      t.now.on F.FL_SEL_VALID = true ∧ t.now.get F.FL_SEL_SLOT = bits x.data 72 72) ∧
      Stores
        (fun
        a =>
        a /
        0x10000
        = 0x8000)
        (fun
        t b
        => { b with
        flCmd := t.flCmd, flashChk := t.flashChk, flashInc := t.flashInc, flashPint := t.flashPint, flashPinta := t.flashPinta,
        edges := t.edges }) (fun a => block 0x60000000 0x10000 a) s t) ∧
    (∀ (k : Fin 4), (s.now.flCmd = some x ∧ x.host = false ∧ s.now.retry = false) → x.op = 2 →
      Answers (.flBrownoutCut k n) s fun t => (t.now.flCmd = none ∧ t.now.on F.FL_STAT_BUSY = false ∧
      t.now.on F.FL_STAT_DONE = true) ∧ (t.now.get F.FL_STAT_RES = 6 ∧ t.now.get F.FL_STAT_NPUL = min n.toNat 60) ∧
      t.now.edges = (raiseEdge s.ctx 0x071 (raiseEdge s.ctx 0x070 s.now)).edges ∧
      Leaves (fun t b => { b with flCmd := t.flCmd, edges := t.edges }) (fun a => a = R.FL_STAT) s t) ∧
    (∀ (k : Fin 4), (s.now.flCmd = some x ∧ x.host = false ∧ s.now.retry = false) → (x.op = 1 ∧ x.notBlank = false ∧
      x.addr < 2 ^ 26) → Answers (.flBrownoutCut k n) s fun t => (t.now.flCmd = none ∧ t.now.get F.FL_STAT_RES = 6) ∧
      (x.addr / 0x10000 ∈ t.now.flashPint ∧ t.now.flashPinta = some (x.addr / 32)) ∧
      Stores
        (fun
        a =>
        a /
        32 =
        flashGran
        x.addr)
        (fun
        t b
        => { b with
        flCmd := t.flCmd, flashChk := t.flashChk, flashInc := t.flashInc, flashPint := t.flashPint, flashPinta := t.flashPinta,
        edges := t.edges }) (fun a => block 0x60000000 0x10000 a) s t) ∧
    ((s.now.flCmd = some x ∧ x.host = false ∧ s.now.retry = false) → (x.op = 1 ∧ x.notBlank = true ∧ x.at_ + 2 ≤ s.tick) →
      Answers (.flCommandEnd n none) s fun t => (t.now.flCmd = none ∧ t.now.on F.FL_STAT_BUSY = false ∧
      t.now.on F.FL_STAT_DONE = true ∧ t.now.get F.FL_STAT_NPUL = 0) ∧ (t.now.get F.FL_STAT_RES = 1 ∧
      t.now.get (vcFld none .notblank) = min 65535 (s.now.get (vcFld none .notblank) + 1)) ∧
      t.now.edges = (raiseEdge s.ctx 0x071 (raiseEdge s.ctx 0x070 s.now)).edges ∧
      Leaves (fun t b => { b with flCmd := t.flCmd, edges := t.edges })
        (fun a => a = R.FL_STAT ∨ a = (vcFld none .notblank).addr) s t)

/-- Golbex lanes, their states: EN starts training on a TWIN or HEAD lane and its fall turns the lane off; training, codeword
lock and cell lock lead it to UP, where SEQ counters start again; RESYNC and a loss of lock lead back; the lane's edge is raised
as it reaches or leaves UP. SYNC falls due each 4096 fc; without an updating SYNC in time SLOST is set and TV cleared. Rests on
the model's choice of log entry 158. -/
def Obligations.LinkStateEffects : Prop :=
  ∀ (s : State) (n : Fin 8),
    (∀ (ag : Agent) (v : Word), Reaches s ag (R.GL_CTL n) → bits v.toNat 1 0 = 1 → (s.now.glCells n = true ∧
      s.now.get (F.GL_STAT_LSTATE n) = 0) → Answers (.glEnable ag n v) s fun t => (t.now.on (F.GL_CTL_EN n) = true ∧
      t.now.get (F.GL_STAT_LSTATE n) = 1) ∧ t.now.glSt n = { s.now.glSt n with snum := 0, sent := [], syncDue := false } ∧
      Frame.link n (fun a => a = R.GL_CTL n ∨ a = R.GL_STAT n) s t) ∧
    (∀ (ag : Agent) (v : Word), Reaches s ag (R.GL_CTL n) → bits v.toNat 1 0 = 0 → Answers (.glEnable ag n v) s fun t =>
      (t.now.on (F.GL_CTL_EN n) = false ∧ t.now.get (F.GL_STAT_LSTATE n) = 0) ∧ (t.now.on (F.GL_STAT_TXRDY n) = false ∧
      t.now.on (F.GL_STAT_TV n) = false) ∧ Frame.link n (fun a => a = R.GL_CTL n ∨ a = R.GL_STAT n) s t) ∧
    (∀ (ag : Agent) (v : Word), Reaches s ag (R.GL_CTL n) → bits v.toNat 1 0 = 3 → (s.now.glCells n = true ∧
      s.now.get (F.GL_STAT_LSTATE n) ≠ 0) → Answers (.glResync ag n v) s fun t => (t.now.get (F.GL_STAT_LSTATE n) = 1 ∧
      t.now.on (F.GL_STAT_TV n) = false) ∧ t.now.on (F.GL_STAT_TXRDY n) = s.now.on (F.GL_STAT_TXRDY n) ∧
      Frame.link n (fun a => a = R.GL_CTL n ∨ a = R.GL_STAT n) s t) ∧
    (s.now.get (F.GL_STAT_LSTATE n) = 1 → Answers (.glTrainDone n) s fun t => (t.now.get (F.GL_STAT_LSTATE n) = 2 ∧
      t.now.on (F.GL_STAT_TXRDY n) = true) ∧
      (t.now.glSt n = if s.now.on (F.GL_STAT_TXRDY n) = true then s.now.glSt n else
        { s.now.glSt n with stream := 0, filled := 0 }) ∧
      Frame.link n (fun a => a = R.GL_STAT n) s t) ∧
    (s.now.get (F.GL_STAT_LSTATE n) = 2 → Answers (.glCodewordLock n) s fun t => t.now.get (F.GL_STAT_LSTATE n) = 3 ∧
      Frame.link n (fun a => a = R.GL_STAT n) s t) ∧
    (s.now.get (F.GL_STAT_LSTATE n) = 3 → s.now.glTwin n = false → Answers (.glCellLock n) s fun t =>
      t.now.get (F.GL_STAT_LSTATE n) = 4 ∧
      t.now.glSt
        n = { s.now.glSt n with echo := none, base := some s.tick, badCw := 0, badHead := 0, seq := [], rx := [], unseen := [] }
        ∧
      t.now.edges = (raiseEdge s.ctx (0x050 + n) s.now).edges ∧ Frame.link n (fun a => a = R.GL_STAT n) s t) ∧
    (s.now.get (F.GL_STAT_LSTATE n) = 3 → (s.now.glTwin n = true ∧ s.now.get (F.GL_STAT_LSTATE (1 - n)) = 4 ∧ n ≠ 0) →
      Answers (.glCellLock n) s fun t => t.now.get (F.GL_STAT_LSTATE n) = 4 ∧
      t.now.glSt
        n =
        { s.now.glSt n with
        echo := none, base := some s.tick, badCw := 0, badHead := 0, seq := (s.now.glSt n).seq.erase (0x100 + n) } ∧
      t.now.glSt 0 = { s.now.glSt 0 with rx := (s.now.glSt 0).rx.erase (0x100 + n) } ∧
      Frame.link n (fun a => a = R.GL_STAT n) s t) ∧
    (s.now.get (F.GL_STAT_LSTATE n) = 4 → (4 ≤ (s.now.glSt n).badCw ∨ 8 ≤ (s.now.glSt n).badHead) →
      Answers (.glLossOfLock n) s fun t => (t.now.get (F.GL_STAT_LSTATE n) = 2 ∧ t.now.on (F.GL_STAT_TV n) = false) ∧
      t.now.get (F.GL_ERR1_LOL n) = min 255 (s.now.get (F.GL_ERR1_LOL n) + 1) ∧
      t.now.edges = (raiseEdge s.ctx (0x050 + n) s.now).edges ∧ Frame.link n (fun a => a = R.GL_STAT n ∨ a = R.GL_ERR1 n) s t) ∧
    ((s.now.get (F.GL_STAT_LSTATE n) ≠ 4 ∨ (s.now.glSt n).badCw < 4 ∧ (s.now.glSt n).badHead < 8) → Idle (.glLossOfLock n) s) ∧
    ((s.now.on (F.GL_STAT_TXRDY n) = true ∧ s.now.glCells n = true) → s.tick % 4096 = 0 → Answers (.glSyncDue n) s fun t =>
      t.now.glSt n = { s.now.glSt n with syncDue := true } ∧ Frame.link n (fun _ => False) s t) ∧
    (∀ (u : Nat), (s.now.get (F.GL_STAT_LSTATE n) = 4 ∧ s.start.get (F.GL_CFG_SYNCTO n) ≠ 0) → (s.now.glSt n).base = some u →
      u + 4096 * s.start.get (F.GL_CFG_SYNCTO n) ≤ s.tick → Answers (.glSyncTimeout n) s fun t =>
      t.now.glSt n = { s.now.glSt n with lapse := true } ∧ ((glEndFc s.ctx t.now n).on (F.GL_STAT_SLOST n) = true ∧
      (glEndFc s.ctx t.now n).on (F.GL_STAT_TV n) = false) ∧ (((glEndFc s.ctx t.now n).glSt n).base = none ∧
      ((glEndFc s.ctx t.now n).glSt n).lapse = false) ∧ ((s.now.glSt n).fifo.length ≤ 64 →
      (glEndFc s.ctx t.now n).edges = (raiseEdge s.ctx (0x050 + n) s.now).edges) ∧ Frame.link n (fun _ => False) s t)

/-- Cells on a Golbex lane, judged 88 fc after their first header bit arrives: a codeword beyond correction, a cell whose header
check fails, whose payload is beyond correction, whose type the lane does not receive is counted and dropped with the lane's
edge; a good CTRL or ACK cell enters the FIFO with its channel's expected SEQ advanced and a gap counted, one too many is lost
at the end of the fc; a SYNC is echoed and its echo gives DLY and OFS. A slot carries a SYNC that is due, else the twin link's
or the software's cell, else IDLE. TXH commits a cell; RXS takes one. Rests on the model's choices of log entries 135, 151 and
158. -/
def Obligations.LinkCellEffects : Prop :=
  ∀ (s : State) (n : Fin 8),
    (∀ (h : Word) (x : BitVec 16) (p : BitVec 256) (y : BitVec 16) (a : Nat), (s.now.headUp n = true ∧ tickOf a + 88 = s.tick) →
      Answers (.glCellAccept n h x p y 2 a) s fun t =>
      t.now.get (F.GL_ERR1_FECU n) = min 255 (s.now.get (F.GL_ERR1_FECU n) + 1) ∧
      t.now.edges = (raiseEdge s.ctx (0x050 + n) s.now).edges ∧
      t.now.glSt n = { s.now.glSt n with badCw := (s.now.glSt n).badCw + 1 } ∧ Frame.link n (fun a => a = R.GL_ERR1 n) s t) ∧
    (∀ (h : Word) (x : BitVec 16) (p : BitVec 256) (y : BitVec 16) (a : Nat), (s.now.headUp n = true ∧ tickOf a + 88 = s.tick) →
      headCrc h.toNat ≠ x.toNat → Answers (.glCellAccept n h x p y 0 a) s fun t =>
      t.now.get (F.GL_ERR0_HCRC n) = min 255 (s.now.get (F.GL_ERR0_HCRC n) + 1) ∧
      t.now.edges = (raiseEdge s.ctx (0x050 + n) s.now).edges ∧
      t.now.glSt n = { s.now.glSt n with badCw := 0, badHead := (s.now.glSt n).badHead + 1 } ∧
      Frame.link n (fun a => a = R.GL_ERR0 n) s t) ∧
    (∀ (h : Word) (x : BitVec 16) (p : BitVec 256) (y : BitVec 16) (a : Nat), (s.now.headUp n = true ∧ tickOf a + 88 = s.tick) →
      headCrc h.toNat = x.toNat → decodeSyn (k272 p.toNat ^^^ y.toNat) = .bad → Answers (.glCellAccept n h x p y 0 a) s fun t =>
      t.now.get (F.GL_ERR0_PSN n) = min 255 (s.now.get (F.GL_ERR0_PSN n) + 1) ∧
      t.now.edges = (raiseEdge s.ctx (0x050 + n) s.now).edges ∧ t.now.glSt n = { s.now.glSt n with badCw := 0, badHead := 0 } ∧
      Frame.link n (fun a => a = R.GL_ERR0 n) s t) ∧
    (∀ (h : Word) (x : BitVec 16) (p : BitVec 256) (y : BitVec 16) (a : Nat), (s.now.headUp n = true ∧ tickOf a + 88 = s.tick) →
      cellGood h x p y = true → (bits h.toNat 31 28 = 8 ∨ bits h.toNat 31 28 = 7 ∧ s.now.on (F.GL_CFG_CVEN n) = false) →
      (((s.now.glSt n).rx.find? (bits h.toNat 27 20)).all (fun e => e == bits h.toNat 19 12) = true) →
      Answers (.glCellAccept n h x p y 0 a) s fun t =>
      (t.now.glSt n).fifo = (s.now.glSt n).fifo ++ [⟨h.toNat, p.toNat, false, 0⟩] ∧
      (t.now.glSt n).rx = (s.now.glSt n).rx.insert (bits h.toNat 27 20) ((bits h.toNat 19 12 + 1) % 256) ∧
      t.now.glSt n = { s.now.glSt n with badCw := 0, badHead := 0, fifo := (t.now.glSt n).fifo, rx := (t.now.glSt n).rx } ∧
      t.now.edges = s.now.edges ∧ Frame.link n (fun _ => False) s t) ∧
    (∀ (h : Word) (x : BitVec 16) (p : BitVec 256) (y : BitVec 16) (a e : Nat), (s.now.headUp n = true ∧
      tickOf a + 88 = s.tick) → cellGood h x p y = true → bits h.toNat 31 28 = 8 → ((s.now.glSt n).fifo.length = 64 ∧
      (s.now.glSt n).lapse = false) → ((s.now.glSt n).rx.find? (bits h.toNat 27 20) = some e ∧ e ≠ bits h.toNat 19 12) →
      Answers (.glCellAccept n h x p y 0 a) s fun t =>
      t.now.get (F.GL_ERR0_SEQG n) = min 255 (s.now.get (F.GL_ERR0_SEQG n) + 1) ∧
      (t.now.glSt n).rx.getD 0 (bits h.toNat 27 20) = (bits h.toNat 19 12 + 1) % 256 ∧
      (((glEndFc s.ctx t.now n).glSt n).fifo = (s.now.glSt n).fifo ∧ (glEndFc s.ctx t.now n).on (F.GL_STAT_RXOVF n) = true) ∧
      Frame.link n (fun a => a = R.GL_ERR0 n) s t) ∧
    (∀ (h : Word) (x : BitVec 16) (p : BitVec 256) (y : BitVec 16) (a : Nat), (s.now.headUp n = true ∧ tickOf a + 88 = s.tick) →
      (headCrc h.toNat = x.toNat ∧ bits h.toNat 31 28 = 15) → decodeSyn (k272 p.toNat ^^^ y.toNat) ≠ .bad →
      Answers (.glCellAccept n h x p y 1 a) s fun t =>
      t.now.get (F.GL_ERR1_FECC n) = min 65535 (s.now.get (F.GL_ERR1_FECC n) + 1) ∧
      (t.now.glSt n = { s.now.glSt n with badCw := 0, badHead := 0 } ∧ t.now.edges = s.now.edges) ∧
      Frame.link n (fun a => a = R.GL_ERR1 n) s t) ∧
    (∀ (h : Word) (x : BitVec 16) (p : BitVec 256) (y : BitVec 16) (a m : Nat), (s.now.headUp n = true ∧
      tickOf a + 88 = s.tick) → (headCrc h.toNat = x.toNat ∧ typeReceived false (bits h.toNat 31 28) = false ∧
      bits h.toNat 31 28 ≠ 15) → decodeSyn (k272 p.toNat ^^^ y.toNat) = .one m →
      Answers (.glCellAccept n h x p y 0 a) s fun t =>
      t.now.get (F.GL_CORR_CORR n) = min 65535 (s.now.get (F.GL_CORR_CORR n) + 1) ∧
      t.now.get (F.GL_ERR0_UNEXP n) = min 255 (s.now.get (F.GL_ERR0_UNEXP n) + 1) ∧
      (t.now.glSt n = { s.now.glSt n with badCw := 0, badHead := 0 } ∧
      t.now.edges = (raiseEdge s.ctx (0x050 + n) s.now).edges) ∧ Frame.link n (fun a => a = R.GL_CORR n ∨ a = R.GL_ERR0 n) s t) ∧
    (∀ (h : Word) (x : BitVec 16) (p : BitVec 256) (y : BitVec 16) (a u : Nat), (s.now.headUp n = true ∧
      tickOf a + 88 = s.tick) → (cellGood h x p y = true ∧ bits h.toNat 31 28 = 3) →
      ((s.now.glSt n).sent.find? (fun z => z.1 == bits p.toNat 167 160) = some (bits p.toNat 167 160, u)) →
      bit p.toNat 191 = true → Answers (.glCellAccept n h x p y 0 a) s fun t => (t.now.on (F.GL_STAT_TV n) = true ∧
      (t.now.glSt n).base = some s.tick) ∧ (t.now.glSt n).echo = some (bits p.toNat 87 80, a) ∧
      (t.now.glSt
        n).ofs
        = ofSigned
        64 (i64 (i64 ((mkTime (bits p.toNat 127 96 + bits p.toNat 159 128 * 2 ^ 32) (bits p.toNat 77 72) : Int) - u) - i64
        (a - (mkTime (bits p.toNat 63 0) (bits p.toNat 69 64) : Int))) / 2) ∧
      (t.now.glSt
        n).dly
        = ofSigned
        32 (i64 (i64 ((mkTime (bits p.toNat 127 96 + bits p.toNat 159 128 * 2 ^ 32) (bits p.toNat 77 72) : Int) - u) + i64
        (a - (mkTime (bits p.toNat 63 0) (bits p.toNat 69 64) : Int))) / 2 + 72 * 64) ∧
      Frame.link n (fun a => a = R.GL_STAT n ∨ a = R.GL_ERR0 n) s t) ∧
    (∀ (h : Word) (x : BitVec 16) (p : BitVec 256) (y : BitVec 16) (a : Nat), (s.now.glTwin n = true ∧
      s.now.get (F.GL_STAT_LSTATE n) = 4 ∧ tickOf a + 88 = s.tick) → cellGood h x p y = true → (4 ≤ bits h.toNat 31 28 ∧
      bits h.toNat 31 28 ≤ 8) → bits p.toNat 255 224 < s.now.rd R.PV_EPOCH → Answers (.glCellAccept n h x p y 0 a) s fun t =>
      t.now.get (vcFld none .epoch) = min 65535 (s.now.get (vcFld none .epoch) + 1) ∧
      t.now.glSt n = { s.now.glSt n with badCw := 0, badHead := 0 } ∧ Frame.link n (fun a => a = (vcFld none .epoch).addr) s t) ∧
    (∀ (h : Word) (x : BitVec 16) (p : BitVec 256) (y : BitVec 16) (a : Nat) (z : RxCell) (l : List RxCell), (n = 0 ∧
      s.now.glTwin n = true ∧ s.now.get (F.GL_STAT_LSTATE n) = 4 ∧ tickOf a + 88 = s.tick) → (cellGood h x p y = true ∧
      bits h.toNat 31 28 = 8 ∧ s.now.rd R.PV_EPOCH ≤ bits p.toNat 255 224) →
      s.now.seenOnOther n (bits h.toNat 27 20) (bits h.toNat 19 12) = true →
      s.start.seenOnOther n (bits h.toNat 27 20) (bits h.toNat 19 12) = false → ((s.now.glSt 1).fifo = l ++ [z] ∧
      z.head = h.toNat ∧ z.payload = p.toNat) → Answers (.glCellAccept n h x p y 0 a) s fun t => ((t.now.glSt 1).fifo = l ∧
      (t.now.glSt 0).fifo = (s.now.glSt 0).fifo ++ [z]) ∧ ((t.now.glSt 0).rx = (s.now.glSt 0).rx ∧ t.now.edges = s.now.edges) ∧
      Leaves (fun t b => { b with gl := t.gl, cv := t.cv }) (fun _ => False) s t) ∧
    (∀ (f : Fin 64), (s.now.on (F.GL_STAT_TXRDY n) = true ∧ s.now.glCells n = true) → (s.now.glSt n).syncDue = true →
      Answers (.glCellSlot n f) s fun t => ((t.now.glSt n).syncDue = false ∧
      (t.now.glSt n).snum = ((s.now.glSt n).snum + 1) % 256) ∧
      (t.now.glSt n).sent = (((s.now.glSt n).snum, mkTime (s.tick + 72) f) :: (s.now.glSt n).sent).take 4 ∧
      ((t.now.glSt n).out.map (fun c => (bits c.head 31 20, bits c.payload 63 0, bits c.payload 69 64)) = some
        (0x3FF, (s.tick + 72) % 2 ^ 64, f.val)) ∧
      Frame.link n (fun _ => False) s t) ∧
    (∀ (f : Fin 64) (x : SentCell), (s.now.on (F.GL_STAT_TXRDY n) = true ∧ s.now.glHead n = true) →
      ((s.now.glSt n).syncDue = false ∧ s.now.laneQueue n = [] ∧ (s.now.glSt n).sw = some x) →
      Answers (.glCellSlot n f) s fun t => ((t.now.glSt n).sw = none ∧ t.now.on (F.GL_STAT_TXBUSY n) = false) ∧
      (t.now.glSt n).out = some ⟨setBits x.head 19 12 ((s.now.glSt n).seq.getD 0 (bits x.head 27 20)), x.payload, false⟩ ∧
      (t.now.glSt n).seq.getD 0 (bits x.head 27 20) = ((s.now.glSt n).seq.getD 0 (bits x.head 27 20) + 1) % 256 ∧
      Frame.link n (fun a => a = R.GL_STAT n) s t) ∧
    (∀ (f : Fin 64) (x : TwinCell), (s.now.on (F.GL_STAT_TXRDY n) = true ∧ s.now.glTwin n = true) →
      ((s.now.glSt n).syncDue = false ∧ firstTwin (s.now.glSt n).tq = some x) → Answers (.glCellSlot n f) s fun t =>
      (t.now.glSt n).tq = (s.now.glSt n).tq.erase x ∧
      (t.now.on (F.GL_STAT_TXBUSY n) = if x.src = n then false else s.now.on (F.GL_STAT_TXBUSY n)) ∧
      (t.now.glSt n).out = some ⟨x.head, setBits x.payload 255 224 (s.now.rd R.PV_EPOCH), false⟩ ∧
      Frame.link n (fun a => a = R.GL_STAT n) s t) ∧
    (∀ (f : Fin 64), (s.now.on (F.GL_STAT_TXRDY n) = true ∧ s.now.glCells n = true) → ((s.now.glSt n).syncDue = false ∧
      s.now.laneQueue n = [] ∧ (s.now.glSt n).sw = none ∧ (s.now.glSt n).tq = []) → Answers (.glCellSlot n f) s fun t =>
      (t.now.glSt n).out = some ⟨0xF0000000, 0, false⟩ ∧
      ((t.now.glSt
        n).stream,
        (t.now.glSt
        n).filled)
        = (let z :=
        streamCell (s.now.glSt n).stream (s.now.glSt n).filled (cellBits 0xF0000000 0 (k272 0) (headCrc 0xF0000000));
        (z.1, z.2.1)) ∧
      t.now.glSt
        n =
        { s.now.glSt n with
        out := (t.now.glSt n).out, stream := (t.now.glSt n).stream, filled := (t.now.glSt n).filled, codeword :=
        (t.now.glSt n).codeword } ∧
      Frame.link n (fun _ => False) s t) ∧
    (∀ (ag : Agent) (v : Word), Reaches s ag (R.GL_TXH n) → ((bits v.toNat 31 28 = 7 ∨ bits v.toNat 31 28 = 8) ∧
      bits v.toNat 27 20 ≤ 0xFD) → (s.now.on (F.GL_STAT_TXBUSY n) = false ∧ s.start.on (F.GL_STAT_TXBUSY n) = false ∧
      s.now.glHead n = true) → Answers (.glTxCommit ag n v) s fun t => t.now.on (F.GL_STAT_TXBUSY n) = true ∧
      (t.now.glSt
        n =
        { s.now.glSt n with
        sw := some ⟨setBits v.toNat 19 12 0, payloadOf ((List.range 8).map fun k => s.now.rd (R.GL_TXW n k)), false⟩ }) ∧
      Frame.link n (fun a => a = R.GL_STAT n ∨ a = R.GL_TXH n) s t) ∧
    (∀ (ag : Agent) (v : Word), Reaches s ag (R.GL_TXH n) → ((bits v.toNat 31 28 = 7 ∨ bits v.toNat 31 28 = 8) ∧
      bits v.toNat 27 20 ≤ 0xFD) → (s.now.on (F.GL_STAT_TXBUSY n) = false ∧ s.start.on (F.GL_STAT_TXBUSY n) = false ∧
      s.now.glTwin n = true) → Answers (.glTxCommit ag n v) s fun t => t.now.on (F.GL_STAT_TXBUSY n) = true ∧
      (TwinSends s t 2 n v.toNat (payloadOf ((List.range 8).map fun k => s.now.rd (R.GL_TXW n k)))) ∧
      Frame.twin (fun a => a = R.GL_STAT n ∨ a = R.GL_TXH n) s t) ∧
    (∀ (ag : Agent) (v : Word), Reaches s ag (R.GL_TXH n) → s.now.glCells n = true → (bits v.toNat 31 28 ≠ 7 ∧
      bits v.toNat 31 28 ≠ 8 ∨ 0xFD < bits v.toNat 27 20 ∨ s.now.on (F.GL_STAT_TXBUSY n) = true ∨ s.start.on
        (F.GL_STAT_TXBUSY n) = true) →
      Answers (.glTxCommit ag n v) s fun t => t.now.on (F.GL_STAT_TXERR n) = true ∧
      Frame.regs (fun a => a = R.GL_STAT n ∨ a = R.GL_TXH n) s t) ∧
    (∀ (ag : Agent) (v : Word), Reaches s ag (R.GL_TXH n) → s.now.glCells n = false → Answers (.glTxCommit ag n v) s fun t =>
      Frame.regs (fun _ => False) s t) ∧
    (∀ (ag : Agent) (x : RxCell) (l : List RxCell), (s.now.glCells n = true ∧ (locate s.hw (R.GL_RXS n)).isSome = true) →
      ((s.now.glSt n).fifo = x :: l ∧ (s.start.glSt n).fifo ≠ []) → Answers (.glRxsRead ag n) s fun t =>
      t.now.resp = 2 ^ 31 + b2n x.cm * 2 ^ 30 + x.av % 4 * 2 ^ 28 ∧ t.now.glSt n = { s.now.glSt n with fifo := l } ∧
      Frame.link n (fun _ => False) s t) ∧
    (∀ (ag : Agent), (s.now.glCells n = true ∧ (locate s.hw (R.GL_RXS n)).isSome = true) → (s.start.glSt n).fifo = [] →
      Answers (.glRxsRead ag n) s fun t => t.now.resp = 0 ∧ Frame.link n (fun _ => False) s t)

/-- The host port: a link coming up or going down shows in LINK and LANE and raises its edge, and one coming up sends a
gratuitous ARP; ARP requests for the port's address and echo requests are answered; discarded frames are counted; HELLO opens a
session with the next number; a session's time that ends in an fc closes it with the fc; JOBCMD queues a mailbox entry and
activates its task 10 fc later; the reply in the mailbox registers, or with the fc the end of its time, answers the head entry;
READSTAT and ATTEST are answered with what the registers show; a repeated request gets its kept response again; RESET resets the
part in RUN and begins the boot sequence anew in HOLD; in HOLD a request waits while one before it is being served. Rests on the
model's choices of log entries 31, 100 and 108. -/
def Obligations.HostPortEffects : Prop :=
  ∀ (s : State),
    (∀ (q up : Bool), s.now.hostLane s.hw q = true → (s.now.on F.HP_STAT_LINK) = (s.now.hp.up6 || s.now.hp.up7) →
      Answers (.hpLinkChange q up) s fun t =>
      t.now.hp = (if q then { s.now.hp with up7 := up } else { s.now.hp with up6 := up }) ∧
      (t.now.on F.HP_STAT_LINK = (t.now.hp.up6 || t.now.hp.up7) ∧ t.now.on F.HP_STAT_LANE = (!t.now.hp.up6 && t.now.hp.up7)) ∧
      t.now.edges = (if t.now.on F.HP_STAT_LINK = s.now.on F.HP_STAT_LINK then s.now else raiseEdge s.ctx 0x058 s.now).edges ∧
      t.now.hostOut = s.now.hostOut ++ (if t.now.on F.HP_STAT_LINK && !s.now.on F.HP_STAT_LINK then
        [.gratuitous (s.now.hostMac s.hw) (s.now.hostIp s.hw)] else []) ∧
      Leaves (fun t b => { b with hp := t.hp, hostOut := t.hostOut, edges := t.edges }) (fun a => a = R.HP_STAT) s t) ∧
    (∀ (m : BitVec 48) (i j : Word), s.now.hostOn = true → j.toNat = s.now.hostIp s.hw →
      Answers (.hpArpRequest m i j) s fun t =>
      t.now.hostOut = s.now.hostOut ++ [.arp m.toNat i.toNat (s.now.hostMac s.hw) j.toNat] ∧
      Leaves (fun t b => { b with hostOut := t.hostOut }) (fun _ => False) s t) ∧
    (∀ (m : BitVec 48) (i j : Word), s.now.hostOn = true → j.toNat ≠ s.now.hostIp s.hw →
      Answers (.hpArpRequest m i j) s fun t => t.now.get F.HP_CNT0_DISC = min 255 (s.now.get F.HP_CNT0_DISC + 1) ∧
      t.now.edges = (if s.now.get F.HP_CNT0_DISC = 0 then raiseEdge s.ctx 0x05B s.now else s.now).edges ∧
      Leaves (fun t b => { b with edges := t.edges }) (fun a => a = R.HP_CNT0) s t) ∧
    (∀ (m : BitVec 48) (i : Word) (l : List Nat), s.now.hostOn = true → Answers (.hpIcmpEcho m i l) s fun t =>
      t.now.hostOut = s.now.hostOut ++ [.echo m.toNat i.toNat (s.now.hostMac s.hw) (s.now.hostIp s.hw) l] ∧
      Leaves (fun t b => { b with hostOut := t.hostOut }) (fun _ => False) s t) ∧
    (s.now.hostOn = true → Answers (.hpFrameDiscard 0) s fun t =>
      t.now.get F.HP_CNT0_FCS = min 255 (s.now.get F.HP_CNT0_FCS + 1) ∧
      t.now.edges = (if s.now.get F.HP_CNT0_FCS = 0 then raiseEdge s.ctx 0x05B s.now else s.now).edges ∧
      Leaves (fun t b => { b with edges := t.edges }) (fun a => a = R.HP_CNT0) s t) ∧
    (s.now.hostOn = true → Answers (.hpFrameDiscard 1) s fun t =>
      t.now.get F.HP_CNT0_DISC = min 255 (s.now.get F.HP_CNT0_DISC + 1) ∧
      t.now.edges = (if s.now.get F.HP_CNT0_DISC = 0 then raiseEdge s.ctx 0x05B s.now else s.now).edges ∧
      Leaves (fun t b => { b with edges := t.edges }) (fun a => a = R.HP_CNT0) s t) ∧
    (Idle (.hpFrameDiscard 2) s) ∧
    ((s.now.hostOn = true ∧ s.now.inRun = true) → Answers (.hpFrameDiscard 3) s fun t =>
      t.now.get F.HP_CNT0_ACL = min 255 (s.now.get F.HP_CNT0_ACL + 1) ∧
      t.now.edges = (if s.now.get F.HP_CNT0_ACL = 0 then raiseEdge s.ctx 0x05B s.now else s.now).edges ∧
      Leaves (fun t b => { b with edges := t.edges }) (fun a => a = R.HP_CNT0) s t) ∧
    (∀ (k : Fin 4), s.now.hostOn = false → Idle (.hpFrameDiscard k) s) ∧
    (∀ (h : KspHead), (HostTakes s h.ip = true ∧ h.good = true ∧ h.typ = 1 ∧ h.flags = 0 ∧ h.sess = 0) →
      (s.now.hp.sess.all (fun x => x.ip != h.ip || x.port != h.port) = true ∧ s.now.hp.sess.length < 4) →
      Answers (.kspHello h) s fun t =>
      t.now.hp
        = { s.now.hp with
        sess := s.now.hp.sess ++ [⟨h.ip, h.port, s.now.hp.nextSess, s.tick, []⟩], nextSess := s.now.hp.nextSess + 1 } ∧
      t.now.get F.HP_STAT_NSESS = s.now.hp.sess.length + 1 ∧
      t.now.hostOut
        = s.now.hostOut
        ++ [.ksp h.ip h.port (kspMsg ⟨s.now.hp.nextSess, h.seq, h.ip, h.port, 1⟩ 0
        ([presValue s.hw 0 % 256, presValue s.hw 0 / 256 % 256, if s.now.inRun then 1 else 2, 0] ++ beBytes 8 s.hw.ser ++
        beBytes 4 (s.now.rd R.BOOT_IMGVER) ++ beBytes 2 8192 ++ beBytes 2 64 ++ beBytes 8 (s.now.spoolSize s.hw)))] ∧
      Leaves (fun t b => { b with hp := t.hp, hostOut := t.hostOut }) (fun a => a = R.HP_STAT ∨ a = R.HP_MBS ∨ block
        (R.HP_MBD 0) 0x100 a) s t) ∧
    (∀ (h : KspHead), (HostTakes s h.ip = true ∧ h.good = true ∧ h.typ = 1 ∧ h.flags = 0 ∧ h.sess = 0) →
      (s.now.hp.sess.any (fun x => x.ip == h.ip && x.port == h.port) = true ∧ s.now.hp.sess.length ≤ 4) →
      Answers (.kspHello h) s fun t =>
      (t.now.hp.sess = (s.now.hp.sess.filter fun x => !(x.ip == h.ip && x.port == h.port)) ++
        [⟨h.ip, h.port, s.now.hp.nextSess, s.tick, []⟩]) ∧
      t.now.hostOut
        = s.now.hostOut
        ++ [.ksp h.ip h.port (kspMsg ⟨s.now.hp.nextSess, h.seq, h.ip, h.port, 1⟩ 0
        ([presValue s.hw 0 % 256, presValue s.hw 0 / 256 % 256, if s.now.inRun then 1 else 2, 0] ++ beBytes 8 s.hw.ser ++
        beBytes 4 (s.now.rd R.BOOT_IMGVER) ++ beBytes 2 8192 ++ beBytes 2 64 ++ beBytes 8 (s.now.spoolSize s.hw)))] ∧
      Leaves (fun t b => { b with hp := t.hp, hostOut := t.hostOut }) (fun a => a = R.HP_STAT ∨ a = R.HP_MBS ∨ block
        (R.HP_MBD 0) 0x100 a) s t) ∧
    (∀ (h : KspHead) (o : Nat), (HostTakes s h.ip = true ∧ h.good = true ∧ h.typ = 1 ∧ h.flags = 0 ∧ h.sess = 0) →
      (s.now.hp.sess.all (fun x => x.ip != h.ip || x.port != h.port) = true ∧ s.now.hp.sess.length = 4) →
      oldestSess s.now.hp.sess = some o → Answers (.kspHello h) s fun t =>
      (t.now.hp.sess = (s.now.hp.sess.filter fun x => x.num != o) ++ [⟨h.ip, h.port, s.now.hp.nextSess, s.tick, []⟩]) ∧
      t.now.hostOut
        = s.now.hostOut
        ++ [.ksp h.ip h.port (kspMsg ⟨s.now.hp.nextSess, h.seq, h.ip, h.port, 1⟩ 0
        ([presValue s.hw 0 % 256, presValue s.hw 0 / 256 % 256, if s.now.inRun then 1 else 2, 0] ++ beBytes 8 s.hw.ser ++
        beBytes 4 (s.now.rd R.BOOT_IMGVER) ++ beBytes 2 8192 ++ beBytes 2 64 ++ beBytes 8 (s.now.spoolSize s.hw)))] ∧
      Leaves (fun t b => { b with hp := t.hp, hostOut := t.hostOut }) (fun a => a = R.HP_STAT ∨ a = R.HP_MBS ∨ block
        (R.HP_MBD 0) 0x100 a) s t) ∧
    (∀ (m : Word) (x : KspSess), s.start.get F.HP_CFG_SESTO ≠ 0 → (x ∈ s.now.hp.sess ∧ x.num = m.toNat ∧
      x.last + s.start.get F.HP_CFG_SESTO * 2 ^ 24 ≤ s.tick) → s.now.hp.sess.length < 8 → Answers (.sessionTimeout m) s fun t =>
      t.now.hp = { s.now.hp with lapse := m.toNat :: s.now.hp.lapse } ∧
      ((sessEndFc
        s.ctx
        t.now).hp
        = { s.now.hp with
        sess := s.now.hp.sess.filter (fun y => !((m.toNat :: s.now.hp.lapse).contains y.num && s.ctx.sessLate y)), lapse :=
        [] }) ∧
      (sessEndFc s.ctx t.now).get F.HP_STAT_NSESS = (sessEndFc s.ctx t.now).hp.sess.length ∧
      Leaves (fun t b => { b with hp := t.hp }) (fun _ => False) s t) ∧
    (∀ (m : Word), (s.now.hp.sess.all (fun y => y.num != m.toNat || s.tick < y.last + s.start.get F.HP_CFG_SESTO * 2 ^ 24) =
        true) →
      Idle (.sessionTimeout m) s) ∧
    (∀ (h : KspHead) (x : KspSess) (l : List Nat), Admits s h 4 false x = true → (1 ≤ l.length ∧ l.length ≤ 256) →
      (s.now.hp.mail.length < 16 ∧ s.now.on F.HP_MBCFG_EN = true) → Answers (.kspJobcmd h l) s fun t => Noted s t (kspWho h) ∧
      (t.now.hp.mail = s.now.hp.mail ++ [⟨s.now.hp.mbTag, kspWho h, l⟩] ∧ t.now.hp.mbTag = (s.now.hp.mbTag + 1) % 65536) ∧
      (t.now.hp.headAt = if s.now.hp.mail = [] then s.tick else s.now.hp.headAt) ∧
      t.now.pendActs = s.now.pendActs ++ [⟨s.tick + 10, s.now.get F.HP_MBCFG_ENG * 64 + s.now.get F.HP_MBCFG_TASK, 1, 0⟩] ∧
      t.now.get F.HP_STAT_MBFILL = s.now.hp.mail.length + 1 ∧
      Frame.host h.sess (fun t h => { h with mail := t.mail, mbTag := t.mbTag, headAt := t.headAt })
        (fun t b => { b with pendActs := t.pendActs }) (fun a => a = R.HP_STAT ∨ a = R.HP_MBS ∨ block (R.HP_MBD 0) 0x100 a) s t) ∧
    (∀ (h : KspHead) (x : KspSess) (l : List Nat), Admits s h 4 false x = true → (1 ≤ l.length ∧ l.length ≤ 256) →
      (16 ≤ s.now.hp.mail.length ∨ s.now.on F.HP_MBCFG_EN = false) → Answers (.kspJobcmd h l) s fun t =>
      Answered s t (kspWho h) 2 [] ∧ Frame.host h.sess (fun _ h => h) (fun _ b => b) (fun _ => False) s t) ∧
    (∀ (h : KspHead) (x : KspSess) (l m : List Nat), (HostTakes s h.ip = true ∧ s.now.inRun = true ∧ h.good = true ∧ h.typ = 4 ∧
      h.flags = 0) → (1 ≤ l.length ∧ l.length ≤ 256) →
      (s.now.hp.sess.find? (fun y => y.num == h.sess && y.ip == h.ip && y.port == h.port) = some x) →
      (x.results.find? (fun r => r.1 == h.seq) = some (h.seq, some m)) → Answers (.kspJobcmd h l) s fun t =>
      t.now.hostOut = s.now.hostOut ++ [.ksp h.ip h.port m] ∧
      Frame.host h.sess (fun _ h => h) (fun _ b => b) (fun _ => False) s t) ∧
    (∀ (h : KspHead) (l : List Nat), (HostTakes s h.ip = true ∧ s.now.inRun = true ∧ h.good = true ∧ h.typ = 4 ∧ h.flags = 0) →
      (1 ≤ l.length ∧ l.length ≤ 256) →
      (s.now.hp.sess.find? (fun y => y.num == h.sess && y.ip == h.ip && y.port == h.port) = none) →
      Answers (.kspJobcmd h l) s fun t => Sent s t (kspWho h) 3 [] ∧
      Leaves (fun t b => { b with hostOut := t.hostOut }) (fun _ => False) s t) ∧
    (∀ (ag : Agent) (v : Word) (x : MbEnt) (l : List MbEnt), Reaches s ag R.HP_MBRC → (s.now.hp.mail = x :: l ∧
      x.tag = v.toNat % 65536) → s.now.rd (R.HP_MBR 63) % 512 ≤ 252 → Answers (.mailboxReply ag v) s fun t =>
      (Sent s t x.who 0 (beBytes 2 (v.toNat / 65536) ++ beBytes 2 (s.now.rd (R.HP_MBR 63) % 512) ++
        (List.range (s.now.rd (R.HP_MBR 63) % 512)).map fun i => bits (s.now.rd (R.HP_MBR (i / 4))) (31 - 8 * (i % 4))
        (24 - 8 * (i % 4)))) ∧
      (t.now.hp.mail = l ∧ t.now.hp.headAt = s.tick) ∧
      Frame.host x.who.sess (fun t h => { h with mail := t.mail, headAt := t.headAt }) (fun _ b => b)
        (fun a => a = R.HP_MBRC ∨ a = R.HP_STAT ∨ a = R.HP_MBS ∨ block (R.HP_MBD 0) 0x100 a) s t) ∧
    (∀ (ag : Agent) (v : Word), Reaches s ag R.HP_MBRC → (s.now.hp.mail.head?.all (fun x => x.tag != v.toNat % 65536) = true) →
      Answers (.mailboxReply ag v) s fun t => t.now.on F.HP_STAT_MBERR = true ∧
      Frame.regs (fun a => a = R.HP_MBRC ∨ a = R.HP_STAT) s t) ∧
    (∀ (x : MbEnt) (l : List MbEnt), s.now.hp.mail = x :: l → s.now.hp.headAt + s.start.get F.HP_CFG_MBTO * 1024 ≤ s.tick →
      Answers (.mailboxTimeout) s fun t => t.now.hp = { s.now.hp with mailLapse := some x.tag } ∧
      (mailEndFc s.ctx t.now).hostOut = s.now.hostOut ++ [.ksp x.who.ip x.who.port (kspMsg x.who 11 [])] ∧
      ((mailEndFc s.ctx t.now).hp.mail = l ∧ (mailEndFc s.ctx t.now).hp.headAt = s.tick ∧
      (mailEndFc s.ctx t.now).hp.mailLapse = none) ∧
      (mailEndFc s.ctx t.now).get F.HP_CNT0_MBTO = min 255 (s.now.get F.HP_CNT0_MBTO + 1) ∧
      (mailEndFc s.ctx t.now).edges = (raiseEdge s.ctx 0x05A (if s.now.get F.HP_CNT0_MBTO = 0 then raiseEdge s.ctx 0x05B s.now
        else s.now)).edges ∧
      Leaves (fun t b => { b with hp := t.hp }) (fun _ => False) s t) ∧
    ((s.now.hp.mail = [] ∨ s.tick < s.now.hp.headAt + s.start.get F.HP_CFG_MBTO * 1024) → Idle .mailboxTimeout s) ∧
    (∀ (h : KspHead) (x : KspSess), Admits s h 5 true x = true → Answers (.kspReadstat h 0xFFFF) s fun t =>
      (Answered
        s t
        (kspWho
        h) 0
        (([R.BOOT_STATUS, R.BOOT_INFO, R.BOOT_RESET, R.FL_SEL, R.FL_STAT, R.HP_STAT, R.PE_STAT 0, R.PE_STAT 1].flatMap fun a =>
        beBytes 4 (s.start.rd a)) ++ [255, 255] ++ List.replicate 30 0)) ∧
      Frame.host h.sess (fun _ h => h) (fun _ b => b) (fun _ => False) s t) ∧
    (∀ (h : KspHead) (x : KspSess) (j : Fin 256), Admits s h 5 true x = true → peMask s.hw ≠ 0 →
      Answers (.kspReadstat h (BitVec.ofNat 16 j)) s fun t =>
      (Answered
        s t
        (kspWho
        h) 0
        (([R.BOOT_STATUS, R.BOOT_INFO, R.BOOT_RESET, R.FL_SEL, R.FL_STAT, R.HP_STAT, R.PE_STAT 0, R.PE_STAT 1].flatMap fun a =>
        beBytes 4 (s.start.rd a)) ++ [0, j.val, s.start.get (F.JOB_CTL_STATE j), s.start.get (F.JOB_CTL_NX j)] ++ beBytes 8
        (s.start.jobLen.getD 0 j) ++ List.replicate 20 0)) ∧
      Frame.host h.sess (fun _ h => h) (fun _ b => b) (fun _ => False) s t) ∧
    (∀ (h : KspHead) (x : KspSess) (l : List Nat), Admits s h 8 true x = true → l.length = 32 →
      Answers (.kspAttest h l) s fun t =>
      (Answered s t (kspWho h) 0 (attestReport s.ctx l s.now ++ (List.range 64).map fun i =>
        (Config.sm2Sign (attestReport s.ctx l s.now)).getD i 0 % 256)) ∧
      Frame.host h.sess (fun _ h => h) (fun _ b => b) (fun _ => False) s t) ∧
    (∀ (h : KspHead) (l : List Nat), (s.now.inHold = true ∧ s.now.retry = false) → (s.now.hp.cfgs ≠ [] ∨ s.now.hp.later ≠ []) →
      Answers (.kspAttest h l) s fun t => t.now.hp.later = s.now.hp.later ++ [.attest h l] ∧
      Leaves (fun t b => { b with hp := { b.hp with later := t.hp.later } }) (fun _ => False) s t) ∧
    (∀ (h : KspHead) (x : KspSess), Admits s h 9 true x = true → (s.now.inRun = true ∧ s.now.on F.HP_CFG_RSTEN = true) →
      Answers (.kspReset h 0x52535421) s fun t => (Answered s t (kspWho h) 0 [] ∧ t.now.resetDue = some 3) ∧
      Frame.host h.sess (fun _ h => h) (fun t b => { b with resetDue := t.resetDue }) (fun _ => False) s t) ∧
    (∀ (h : KspHead) (x : KspSess), Admits s h 9 true x = true → (s.now.inRun = true ∧ s.now.on F.HP_CFG_RSTEN = false) →
      Answers (.kspReset h 0x52535421) s fun t => Answered s t (kspWho h) 12 [] ∧
      Frame.host h.sess (fun _ h => h) (fun _ b => b) (fun _ => False) s t) ∧
    (∀ (h : KspHead) (x : KspSess), Admits s h 9 true x = true → s.now.inHold = true →
      Answers (.kspReset h 0x52535421) s fun t => (Answered s t (kspWho h) 0 [] ∧ t.now.retry = true) ∧
      Frame.host h.sess (fun _ h => h) (fun t b => { b with retry := t.retry }) (fun _ => False) s t)

/-- Requests that reach the drives and the flash: WRITE places its data, zero-padded to whole units, in a free slot of the write
buffer and issues the NVMe Writes for it; when they have ended the answer is sent; COMMIT waits for the WRITEs of its job and
issues a Flush on each drive of it, and when they have ended the job is DONE with its length and every stream is dropped;
CFGWRITE and CFGSWAP join the queue of configuration requests, and an idle flash controller takes the first one's command at the
end of the fc, CFGWRITE within the area its TARGET names. A WRITE to a job that is not open is answered with 7, one beyond the
extents with 8, one to a drive that is not ready with 9. Rests on the model's choices of log entries 32, 108 and 159. -/
def Obligations.HostSpoolAndFlashRequests : Prop :=
  ∀ (s : State),
    (∀ (h : KspHead) (x : KspSess) (j : BitVec 16) (ofs : BitVec 64) (n : Word) (l : List Nat) (ps : List (Nat × Nat))
        (k : Nat), Admits s h 2 false x = true →
      (j.toNat < 256 ∧ ofs.toNat % 4096 = 0 ∧ l.length = n.toNat ∧ (n = 4096 ∨ n = 8192 ∨ h.flags = 1 ∧ n.toNat % 32 = 0 ∧
      32 ≤ n.toNat ∧ n.toNat ≤ 8192)) → (peMask s.hw ≠ 0 ∧ s.start.get (F.JOB_CTL_STATE j.toNat) = 1) →
      ofs.toNat + n.toNat ≤ extentBytes (s.now.extents j.toNat) →
      ((s.now.spanUnits j.toNat ofs.toNat ((n.toNat + 4095) / 4096 * 4096)).map (fun a => a.bind (s.now.spoolMap s.hw)) = ps.map
        some ∧
      ps.all (fun p => s.now.get (F.PE_STAT_STATE p.1) == 2) = true) →
      ((List.range (s.now.get F.HP_WBSZ_SZ)).find? (fun i => !(s.now.hp.writes.map (·.slot)).contains i) = some k) →
      (0x10000000 ≤ s.now.rd R.HP_WBUF ∧ s.now.rd R.HP_WBUF + (k + 1) * 8192 ≤ 0x12000000 ∧ s.now.rd R.HP_WBUF % 32 = 0) →
      Answers (.kspWrite h j ofs n l) s fun t => Noted s t (kspWho h) ∧
      t.now.hp.writes
        = s.now.hp.writes ++ [⟨kspWho h, j.toNat, k, (List.range (nvSpans ps).length).map (s.now.sp.nextId + ·), false⟩] ∧
      (t.now.sp
        = { s.now.sp with
        nv := s.now.sp.nv ++ (List.range (nvSpans ps).length).zipWith (fun i p => ⟨s.now.sp.nextId + i, p.1, s.tick,
        .write h.sess h.seq, p.2.1, p.2.2⟩) (nvSpans ps), nextId := s.now.sp.nextId + (nvSpans ps).length }) ∧
      (∀ i ∈ List.range ((n.toNat + 4095) / 4096 * 4096), t.now.goodByte (s.now.rd R.HP_WBUF + k * 8192 + i) = l.getD i 0 % 256)
        ∧
      Stores (fun a => s.now.rd R.HP_WBUF + k * 8192 ≤ a ∧
      a < s.now.rd R.HP_WBUF + k * 8192 + ((n.toNat + 4095) / 4096 * 4096))
        (fun t b => { b with hp := { b.hp with sess := t.hp.sess, writes := t.hp.writes }, sp := t.sp }) (fun _ => False) s t) ∧
    (∀ (h : KspHead) (x : KspSess) (j : BitVec 16) (ofs : BitVec 64) (n : Word) (l : List Nat), Admits s h 2 false x = true →
      (j.toNat < 256 ∧ ofs.toNat % 4096 = 0 ∧ l.length = n.toNat ∧ (n = 4096 ∨ n = 8192 ∨ h.flags = 1 ∧ n.toNat % 32 = 0 ∧
      32 ≤ n.toNat ∧ n.toNat ≤ 8192)) → (peMask s.hw = 0 ∨ s.start.get (F.JOB_CTL_STATE j.toNat) ≠ 1) →
      Answers (.kspWrite h j ofs n l) s fun t => Answered s t (kspWho h) 7 [] ∧
      Frame.host h.sess (fun _ h => h) (fun _ b => b) (fun _ => False) s t) ∧
    (∀ (h : KspHead) (x : KspSess) (j : BitVec 16) (ofs : BitVec 64) (n : Word) (l : List Nat), Admits s h 2 false x = true →
      (j.toNat < 256 ∧ ofs.toNat % 4096 = 0 ∧ l.length = n.toNat ∧ (n = 4096 ∨ n = 8192 ∨ h.flags = 1 ∧ n.toNat % 32 = 0 ∧
      32 ≤ n.toNat ∧ n.toNat ≤ 8192)) → (peMask s.hw ≠ 0 ∧ s.start.get (F.JOB_CTL_STATE j.toNat) = 1) →
      extentBytes (s.now.extents j.toNat) < ofs.toNat + n.toNat → Answers (.kspWrite h j ofs n l) s fun t =>
      Answered s t (kspWho h) 8 [] ∧ Frame.host h.sess (fun _ h => h) (fun _ b => b) (fun _ => False) s t) ∧
    (∀ (h : KspHead) (x : KspSess) (j : BitVec 16) (ofs : BitVec 64) (n : Word) (l : List Nat), Admits s h 2 false x = true →
      (j.toNat < 256 ∧ ofs.toNat % 4096 = 0 ∧ l.length = n.toNat ∧ (n = 4096 ∨ n = 8192 ∨ h.flags = 1 ∧ n.toNat % 32 = 0 ∧
      32 ≤ n.toNat ∧ n.toNat ≤ 8192)) → (peMask s.hw ≠ 0 ∧ s.start.get (F.JOB_CTL_STATE j.toNat) = 1) →
      ofs.toNat + n.toNat ≤ extentBytes (s.now.extents j.toNat) →
      ((s.now.spanUnits j.toNat ofs.toNat ((n.toNat + 4095) / 4096 * 4096)).any
        (fun a => (a.bind (s.now.spoolMap s.hw)).all fun p => s.now.get (F.PE_STAT_STATE p.1) != 2) = true) →
      ((s.now.spanUnits j.toNat ofs.toNat ((n.toNat + 4095) / 4096 * 4096)).all (fun a => a.isSome) = true) →
      Answers (.kspWrite h j ofs n l) s fun t => Answered s t (kspWho h) 9 [] ∧
      Frame.host h.sess (fun _ h => h) (fun _ b => b) (fun _ => False) s t) ∧
    (∀ (a b : Word) (x : KspWrite), (s.now.hp.writes.find? (fun y => y.who.sess == a.toNat && y.who.seq == b.toNat &&
        y.cmds.isEmpty) = some x) →
      s.now.hp.commits = [] → Answers (.kspWriteDone a b) s fun t => Sent s t x.who (if x.failed then 9 else 0) [] ∧
      (t.now.hp.writes = s.now.hp.writes.filter fun y => y.who != x.who) ∧
      Frame.host a.toNat (fun t h => { h with writes := t.writes }) (fun _ b => b) (fun _ => False) s t) ∧
    (∀ (a b : Word) (x : KspWrite) (y : KspCommit) (d : Nat), (s.now.hp.writes.find?
        (fun y => y.who.sess == a.toNat && y.who.seq == b.toNat && y.cmds.isEmpty) = some x) →
      (s.now.hp.commits = [y] ∧ y.before = [x.who] ∧ y.issued = false) → (s.now.jobDrives s.hw y.job = [d] ∧
      s.now.get (F.PE_STAT_STATE d) = 2) → Answers (.kspWriteDone a b) s fun t =>
      Sent s t x.who (if x.failed then 9 else 0) [] ∧ (t.now.hp.writes = s.now.hp.writes.filter fun y => y.who != x.who) ∧
      t.now.hp.commits = [{ y with before := [], issued := true, cmds := [s.now.sp.nextId], failed := false }] ∧
      t.now.sp
        = { s.now.sp with
        nv := s.now.sp.nv ++ [⟨s.now.sp.nextId, d, s.tick, .flush y.who.sess y.who.seq, 0, 0⟩], nextId := s.now.sp.nextId + 1 }
        ∧
      Frame.host a.toNat (fun t h => { h with writes := t.writes, commits := t.commits }) (fun t b => { b with sp := t.sp })
        (fun _ => False) s t) ∧
    (∀ (h : KspHead) (x : KspSess) (j : BitVec 16) (n : BitVec 64), Admits s h 3 false x = true → (j.toNat < 256 ∧
      peMask s.hw ≠ 0 ∧ s.start.get (F.JOB_CTL_STATE j.toNat) = 1) → n.toNat ≤ extentBytes (s.now.extents j.toNat) →
      (s.now.hp.writes.all (fun y => y.job != j.toNat) = true ∧ s.now.hp.commits.all (fun y => y.who != kspWho h) = true) →
      ((s.now.jobDrives s.hw j.toNat).all (fun d => s.now.get (F.PE_STAT_STATE d) == 2) = true) →
      Answers (.kspCommit h j n) s fun t => Noted s t (kspWho h) ∧
      t.now.hp.commits
        = s.now.hp.commits
        ++ [⟨kspWho h, j.toNat, n.toNat, [], true, (List.range (s.now.jobDrives s.hw j.toNat).length).map (s.now.sp.nextId + ·),
        false⟩] ∧
      (t.now.sp
        = { s.now.sp with
        nv := s.now.sp.nv ++ (List.range (s.now.jobDrives s.hw j.toNat).length).zipWith (fun i d => ⟨s.now.sp.nextId + i, d,
        s.tick, .flush h.sess h.seq, 0, 0⟩) (s.now.jobDrives s.hw j.toNat), nextId := s.now.sp.nextId +
        (s.now.jobDrives s.hw j.toNat).length }) ∧
      Frame.host h.sess (fun t h => { h with commits := t.commits }) (fun t b => { b with sp := t.sp }) (fun _ => False) s t) ∧
    (∀ (h : KspHead) (x : KspSess) (j : BitVec 16) (n : BitVec 64), Admits s h 3 false x = true → (j.toNat < 256 ∧
      peMask s.hw ≠ 0 ∧ s.start.get (F.JOB_CTL_STATE j.toNat) = 1) → n.toNat ≤ extentBytes (s.now.extents j.toNat) →
      (s.now.hp.writes.any (fun y => y.job == j.toNat) = true ∧ s.now.hp.commits.all (fun y => y.who != kspWho h) = true) →
      Answers (.kspCommit h j n) s fun t => Noted s t (kspWho h) ∧
      (t.now.hp.commits
        = s.now.hp.commits
        ++ [⟨kspWho h, j.toNat, n.toNat, (s.now.hp.writes.filter fun y => y.job == j.toNat).map (·.who), false, [], false⟩]) ∧
      Frame.host h.sess (fun t h => { h with commits := t.commits }) (fun _ b => b) (fun _ => False) s t) ∧
    (∀ (h : KspHead) (x : KspSess) (j : BitVec 16) (n : BitVec 64), Admits s h 3 false x = true → (j.toNat < 256 ∧
      (peMask s.hw = 0 ∨ s.start.get (F.JOB_CTL_STATE j.toNat) ≠ 1)) → Answers (.kspCommit h j n) s fun t =>
      Answered s t (kspWho h) 7 [] ∧ Frame.host h.sess (fun _ h => h) (fun _ b => b) (fun _ => False) s t) ∧
    (∀ (a b : Word) (x : KspCommit), (s.now.hp.commits.find? (fun y => y.who.sess == a.toNat && y.who.seq == b.toNat && y.issued
        && y.cmds.isEmpty) = some x) →
      (x.failed = false ∧ x.job < 256 ∧ x.len < 2 ^ 64) → Answers (.kspCommitDone a b) s fun t => Sent s t x.who 0 [] ∧
      (t.now.get (F.JOB_CTL_STATE x.job) = 2 ∧ t.now.jobLen.getD 0 x.job = x.len ∧
      t.now.rd (R.JOB_LENL x.job) = x.len % 2 ^ 32) ∧ (t.now.edges = (raiseEdge s.ctx 0x059 s.now).edges ∧
      t.now.hp.commits = s.now.hp.commits.filter fun y => y.who != x.who) ∧ (∀ n ∈ List.range 64, (t.now.dmSt n).stream = []) ∧
      Frame.host a.toNat (fun t h => { h with commits := t.commits }) (fun t b =>
        { b with jobLen := t.jobLen, dm := t.dm, edges := t.edges }) (fun a => a = R.JOB_CTL x.job ∨ a = R.JOB_LENL x.job) s t) ∧
    (∀ (a b : Word) (x : KspCommit), (s.now.hp.commits.find? (fun y => y.who.sess == a.toNat && y.who.seq == b.toNat && y.issued
        && y.cmds.isEmpty) = some x) →
      x.failed = true → Answers (.kspCommitDone a b) s fun t => Sent s t x.who 9 [] ∧
      (t.now.hp.commits = s.now.hp.commits.filter fun y => y.who != x.who) ∧
      Frame.host a.toNat (fun t h => { h with commits := t.commits }) (fun _ b => b) (fun _ => False) s t) ∧
    (∀ (h : KspHead) (x : KspSess) (g : BitVec 8) (ofs : Word) (r : Nat × Nat), Admits s h 6 true x = true →
      (s.now.cfgArea g.toNat = some r ∧ ofs.toNat < r.2) → Answers (.kspCfgwriteErase h g 0 ofs) s fun t =>
      Noted s t (kspWho h) ∧ t.now.hp.cfgs = s.now.hp.cfgs ++ [⟨kspWho h, 2, ofs.toNat, [], 0, some g.toNat⟩] ∧
      (s.now.hp.cfgs = [] → s.now.on F.FL_STAT_BUSY = false → s.start.on F.FL_STAT_BUSY = false →
      s.now.flRefusal s.now.inHold 2 (r.1 + ofs.toNat) = none →
      (hostFlashTick s.ctx t.now).flCmd = some ⟨2, r.1 + ofs.toNat, 0, true, s.tick, false, (s.now.selNext 2 0).1⟩ ∧
      (hostFlashTick s.ctx t.now).on F.FL_STAT_BUSY = true) ∧
      Frame.host h.sess (fun t h => { h with cfgs := t.cfgs }) (fun _ b => b) (fun _ => False) s t) ∧
    (∀ (h : KspHead) (x : KspSess) (g : BitVec 8) (n ofs : Word) (l : List Nat) (r : Nat × Nat), Admits s h 6 true x = true →
      (s.now.cfgArea g.toNat = some r ∧ ofs.toNat + n.toNat ≤ r.2) → (l.length = n.toNat ∧ n.toNat % 32 = 0 ∧ 0 < n.toNat ∧
      n.toNat ≤ 8192 ∧ ofs.toNat % 32 = 0) → Answers (.kspCfgwriteProgram h g n ofs l) s fun t => Noted s t (kspWho h) ∧
      (t.now.hp.cfgs
        = s.now.hp.cfgs
        ++ [⟨kspWho h, 1, ofs.toNat, (List.range (n.toNat / 32)).map (fun i => leBits ((l.drop (32 * i)).take 32)), 0, some
        g.toNat⟩]) ∧
      (s.now.hp.cfgs = [] → s.now.on F.FL_STAT_BUSY = false → s.start.on F.FL_STAT_BUSY = false →
      s.now.flRefusal s.now.inHold 1 (r.1 + ofs.toNat) = none →
      ((hostFlashTick s.ctx t.now).flCmd.map fun y => (y.op, y.addr, y.data, y.host)) = some
        (1, r.1 + ofs.toNat, leBits (l.take 32), true) ∧
      (hostFlashTick s.ctx t.now).on F.FL_STAT_BUSY = true) ∧
      Frame.host h.sess (fun t h => { h with cfgs := t.cfgs }) (fun _ b => b) (fun _ => False) s t) ∧
    (∀ (h : KspHead) (x : KspSess) (g : BitVec 8), Admits s h 7 true x = true → g.toNat < 2 →
      Answers (.kspCfgswap h g) s fun t => Noted s t (kspWho h) ∧
      t.now.hp.cfgs = s.now.hp.cfgs ++ [⟨kspWho h, if g = 0 then 5 else 4, 0, [], 0, none⟩] ∧ (s.now.hp.cfgs = [] →
      s.now.on F.FL_STAT_BUSY = false → s.start.on F.FL_STAT_BUSY = false →
      s.now.flRefusal s.now.inHold (if g = 0 then 5 else 4) 0 = none →
      ((hostFlashTick s.ctx t.now).flCmd.map fun y => (y.op, y.data, y.host)) = some
        (if g = 0 then 5 else 4, (s.now.selNext (if g = 0 then 5 else 4) 0).2, true) ∧
      (hostFlashTick s.ctx t.now).on F.FL_STAT_BUSY = true) ∧
      Frame.host h.sess (fun t h => { h with cfgs := t.cfgs }) (fun _ b => b) (fun _ => False) s t)

/-- The spool manager: a link up starts a drive's initialisation, which leads to READY with its capacity or to INCOMPAT; REINIT
begins it anew; a link down, and the end of a command's time with its fc, end every outstanding command of the drive; a failed
command is counted with its edge; the health log is shown; an arrived block lies in its stream's slot and is ready; a job opens
over extents within the spool and closes; a change of state that is not allowed sets JERR. Rests on the model's choices of log
entries 30, 110 and 159. -/
def Obligations.SpoolEffects : Prop :=
  ∀ (s : State),
    (∀ (n : Fin 2) (g w : Fin 8), (bit (peMask s.hw) n = true ∧ s.now.get (F.PE_STAT_STATE n) = 0) →
      Answers (.spDriveLinkUp n g w) s fun t => (t.now.get (F.PE_STAT_STATE n) = 1 ∧ t.now.get (F.PE_STAT_GEN n) = g.val ∧
      t.now.get (F.PE_STAT_WIDTH n) = w.val ∧ t.now.on F.PW_PLL_P = true) ∧
      t.now.sp
        = { (driveEnds n s.now).sp with
        nv := (driveEnds n s.now).sp.nv ++ [⟨s.now.sp.nextId, n, s.tick, .admin, 0, 0⟩], nextId := s.now.sp.nextId + 1 } ∧
      (t.now.dm = (driveEnds n s.now).dm ∧ t.now.hp = (driveEnds n s.now).hp) ∧
      t.now.edges = (raiseEdge s.ctx (0x060 + n) s.now).edges ∧
      Leaves (fun t b => { b with sp := t.sp, dm := t.dm, hp := t.hp, edges := t.edges })
        (fun a => a = R.PE_STAT n ∨ a = F.PW_PLL_P.addr) s t) ∧
    (∀ (n : Fin 2) (g w : Fin 8), (bit (peMask s.hw) n = false ∨ s.now.get (F.PE_STAT_STATE n) ≠ 0) →
      Idle (.spDriveLinkUp n g w) s) ∧
    (∀ (n : Nat), (s.now.sp.nv.map (·.id)).Nodup → (driveEnds n s.now).sp.nv = (s.now.sp.nv.filter fun x => x.drive != n) ∧
      (driveEnds n s.now).sp.nextId = s.now.sp.nextId) ∧
    (∀ (n : Nat), (s.now.sp.nv.all (fun x => x.drive != n || (x.kind == .trim || x.kind == .smart || x.kind == .admin)) = true)
        →
      (driveEnds n s.now).dm = s.now.dm ∧ (driveEnds n s.now).hp = s.now.hp) ∧
    (∀ (n : Fin 2) (k : Word) (z : Bool), (bit (peMask s.hw) n = true ∧ s.now.get (F.PE_STAT_STATE n) = 1) →
      Answers (.spDriveReady n true k z) s fun t => (t.now.get (F.PE_STAT_STATE n) = 2 ∧ t.now.rd (R.PE_CAP n) = k.toNat ∧
      t.now.on (F.PE_STAT_LBA4K n) = z) ∧ (t.now.sp.nv = s.now.sp.nv.filter fun x => !(x.drive == n.val && x.kind == .admin)) ∧
      t.now.edges = (raiseEdge s.ctx (0x060 + n) s.now).edges ∧
      Leaves (fun t b => { b with sp := t.sp, edges := t.edges }) (fun a => a = R.PE_STAT n ∨ a = R.PE_CAP n) s t) ∧
    (∀ (n : Fin 2) (k : Word) (z : Bool), (bit (peMask s.hw) n = true ∧ s.now.get (F.PE_STAT_STATE n) = 1) →
      Answers (.spDriveReady n false k z) s fun t => (t.now.get (F.PE_STAT_STATE n) = 4 ∧
      t.now.rd (R.PE_CAP n) = s.now.rd (R.PE_CAP n)) ∧
      Leaves (fun t b => { b with sp := t.sp, edges := t.edges }) (fun a => a = R.PE_STAT n) s t) ∧
    (∀ (ag : Agent) (n : Fin 2) (v : Word), Reaches s ag (R.PE_CTL n) → (bit v.toNat 0 = true ∧
      2 ≤ s.now.get (F.PE_STAT_STATE n) ∧ s.now.get (F.PE_STAT_STATE n) ≤ 4) → Answers (.spReinit ag n v) s fun t =>
      (t.now.get (F.PE_STAT_STATE n) = 1 ∧ t.now.edges = (raiseEdge s.ctx (0x060 + n) s.now).edges) ∧
      t.now.sp
        = { (driveEnds n s.now).sp with
        nv := (driveEnds n s.now).sp.nv ++ [⟨s.now.sp.nextId, n, s.tick, .admin, 0, 0⟩], nextId := s.now.sp.nextId + 1 } ∧
      (t.now.dm = (driveEnds n s.now).dm ∧ t.now.hp = (driveEnds n s.now).hp) ∧
      Leaves (fun t b => { b with sp := t.sp, dm := t.dm, hp := t.hp, edges := t.edges })
        (fun a => a = R.PE_STAT n ∨ a = R.PE_CTL n) s t) ∧
    (∀ (ag : Agent) (n : Fin 2) (v : Word), Reaches s ag (R.PE_CTL n) →
      (bit v.toNat 0 = false ∨ s.now.get (F.PE_STAT_STATE n) < 2 ∨ 4 < s.now.get (F.PE_STAT_STATE n)) →
      Answers (.spReinit ag n v) s fun t => Frame.regs (fun a => a = R.PE_CTL n) s t) ∧
    (∀ (i : Nat) (x : NvCmd) (q k : Nat), (s.now.sp.nv.find? (fun y => y.id == i) = some x) → x.kind = .read q k →
      Answers (.nvmeCompletion i false) s fun t => (t.now.sp = { s.now.sp with nv := s.now.sp.nv.filter fun y => y.id != i }) ∧
      ((t.now.dmSt q).stream = (s.now.dmSt q).stream.map fun y => if y.blk = k ∧
      !y.ready then { y with ready := true, bad := true } else y) ∧
      t.now.get (F.PE_CNT_CERR x.drive) = min 255 (s.now.get (F.PE_CNT_CERR x.drive) + 1) ∧
      t.now.edges = (raiseEdge s.ctx (0x062 + x.drive) s.now).edges ∧ Frame.dmSp q (fun a => a = R.PE_CNT x.drive) s t) ∧
    (∀ (i : Nat) (x : NvCmd) (q k : Nat) (z : Bool), (s.now.sp.nv.find? (fun y => y.id == i) = some x) →
      (x.kind = .write q k ∨ x.kind = .flush q k) → Answers (.nvmeCompletion i z) s fun t =>
      (t.now.sp = { s.now.sp with nv := s.now.sp.nv.filter fun y => y.id != i }) ∧
      (t.now.hp
        = { s.now.hp with
        writes := s.now.hp.writes.map (fun w => if w.cmds.contains i then { w with
        cmds := w.cmds.erase i, failed := w.failed || !z } else w), commits := s.now.hp.commits.map fun w =>
        if w.cmds.contains i then { w with cmds := w.cmds.erase i, failed := w.failed || !z } else w }) ∧
      (t.now.get (F.PE_CNT_CERR x.drive) = if z then s.now.get (F.PE_CNT_CERR x.drive) else min 255
        (s.now.get (F.PE_CNT_CERR x.drive) + 1)) ∧
      t.now.edges = (if z then s.now else raiseEdge s.ctx (0x062 + x.drive) s.now).edges ∧
      Leaves (fun t b => { b with sp := t.sp, hp := t.hp, edges := t.edges }) (fun a => a = R.PE_CNT x.drive) s t) ∧
    (∀ (i : Nat) (x : NvCmd) (q k : Nat), (s.now.sp.nv.find? (fun y => y.id == i) = some x) →
      (x.kind = .read q k ∨ x.kind = .trim ∨ x.kind = .smart ∨ x.kind = .admin) → Answers (.nvmeCompletion i true) s fun t =>
      (t.now.sp = { s.now.sp with nv := s.now.sp.nv.filter fun y => y.id != i }) ∧
      Leaves (fun t b => { b with sp := t.sp }) (fun _ => False) s t) ∧
    (∀ (i : Nat) (x : NvCmd), (s.now.sp.nv.find? (fun y => y.id == i) = some x) →
      (x.at_ + max 1 (s.start.get F.SP_CFG_TMO) * 2 ^ 20 ≤ s.tick ∧ s.now.sp.lapse = []) → Answers (.nvmeTimeout i) s fun t =>
      t.now.sp = { s.now.sp with lapse := [i] } ∧ ((spEndFc s.ctx t.now).get (F.PE_STAT_STATE x.drive) = 3 ∧
      (spEndFc s.ctx t.now).get (F.PE_CNT_TOUT x.drive) = min 255 (s.now.get (F.PE_CNT_TOUT x.drive) + 1)) ∧
      ((spEndFc s.ctx t.now).sp = (driveEnds x.drive s.now).sp ∧ (spEndFc s.ctx t.now).dm = (driveEnds x.drive s.now).dm ∧
      (spEndFc s.ctx t.now).hp = (driveEnds x.drive s.now).hp) ∧
      (spEndFc
        s.ctx
        t.now).edges
        = (let u := raiseEdge s.ctx (0x062 + x.drive) s.now; if s.now.get (F.PE_STAT_STATE x.drive) = 3 then u else
        raiseEdge s.ctx (0x060 + x.drive) u).edges ∧
      Leaves (fun t b => { b with sp := t.sp }) (fun _ => False) s t) ∧
    (∀ (i : Nat), (s.now.sp.nv.all (fun x => x.id != i || s.tick < x.at_ + max 1 (s.start.get F.SP_CFG_TMO) * 2 ^ 20) = true) →
      Idle (.nvmeTimeout i) s) ∧
    (∀ (n : Fin 2) (a b : BitVec 8) (v : BitVec 16), (bit (peMask s.hw) n = true ∧ s.now.get (F.PE_STAT_STATE n) = 2) →
      ((s.now.sp.polled.find? n).all (fun u => u + 2 ^ 30 ≤ s.tick) = true) → Answers (.spHealthPoll n a b v) s fun t =>
      (t.now.rd (R.PE_HLTH n) = a.toNat * 2 ^ 24 + b.toNat * 2 ^ 16 + v.toNat ∧ t.now.sp.polled.find? n = some s.tick) ∧
      (t.now.edges = (if a ≠ 0 ∧
      a.toNat ≠ s.now.get (F.PE_HLTH_CW n) then raiseEdge s.ctx (0x064 + n) s.now else s.now).edges) ∧
      Leaves (fun t b => { b with sp := { b.sp with polled := t.sp.polled }, edges := t.edges }) (fun a => a = R.PE_HLTH n) s t) ∧
    (∀ (q : Fin 64) (k z : Nat) (y : StreamBlk), (y ∈ (s.now.dmSt q).stream ∧ y.blk = k ∧ y.ready = false) →
      (0x10000000 ≤ s.now.streamAddr q k ∧ s.now.streamAddr q k + 65536 ≤ 0x80000000) →
      Answers (.spBlockArrival q k z) s fun t => ((t.now.dmSt q).stream = (s.now.dmSt q).stream.map fun y => if y.blk = k ∧
      !y.ready then { y with ready := true, bad := false } else y) ∧
      (∀ i ∈ List.range 65536, t.now.goodByte (s.now.streamAddr q k + i) = z / 256 ^ i % 256) ∧
      Stores (fun a => s.now.streamAddr q k ≤ a ∧
      a < s.now.streamAddr q k + 65536) (fun t b => { b with dm := t.dm, sp := t.sp }) (fun _ => False) s t) ∧
    (∀ (ag : Agent) (j : Fin 256) (v : Word), Reaches s ag (R.JOB_CTL j) → (s.now.get (F.JOB_CTL_STATE j) = 0 ∧
      bits v.toNat 31 28 = 4) → (1 ≤ bits v.toNat 4 0 ∧ bits v.toNat 4 0 ≤ 16) →
      ((List.range (bits v.toNat 4 0)).all (fun k => s.now.inSpool s.hw (s.now.rd (R.JOB_XS j k) * 4096)
        (s.now.rd (R.JOB_XL j k) * 4096)) = true) →
      Answers (.spJobStateWrite ag j v) s fun t => (t.now.get (F.JOB_CTL_STATE j) = 1 ∧
      t.now.get (F.JOB_CTL_NX j) = bits v.toNat 4 0 ∧ t.now.on (F.JOB_CTL_JERR j) = s.now.on (F.JOB_CTL_JERR j)) ∧
      Frame.regs (fun a => a = R.JOB_CTL j) s t) ∧
    (∀ (ag : Agent) (j : Fin 256) (v : Word), Reaches s ag (R.JOB_CTL j) → (s.now.get (F.JOB_CTL_STATE j) = 0 ∧
      bits v.toNat 31 28 = 4) → (bits v.toNat 4 0 = 0 ∨ 16 < bits v.toNat 4 0) → Answers (.spJobStateWrite ag j v) s fun t =>
      (t.now.get (F.JOB_CTL_STATE j) = 0 ∧ t.now.on (F.JOB_CTL_JERR j) = true) ∧ Frame.regs (fun a => a = R.JOB_CTL j) s t) ∧
    (∀ (ag : Agent) (j : Fin 256) (v : Word), Reaches s ag (R.JOB_CTL j) → (s.now.get (F.JOB_CTL_STATE j) = 0 ∧
      bits v.toNat 31 28 = 4) → (1 ≤ bits v.toNat 4 0 ∧ bits v.toNat 4 0 ≤ 16) →
      ((List.range (bits v.toNat 4 0)).all (fun k => s.now.inSpool s.hw (s.now.rd (R.JOB_XS j k) * 4096)
        (s.now.rd (R.JOB_XL j k) * 4096)) = false) →
      Answers (.spJobStateWrite ag j v) s fun t => (t.now.get (F.JOB_CTL_STATE j) = 0 ∧ t.now.on (F.JOB_CTL_JERR j) = true) ∧
      Frame.regs (fun a => a = R.JOB_CTL j) s t) ∧
    (∀ (ag : Agent) (j : Fin 256) (v : Word), Reaches s ag (R.JOB_CTL j) → (s.now.get (F.JOB_CTL_STATE j) ≠ 0 ∧
      bits v.toNat 31 30 = 0 ∧ bit v.toNat 28 = false) → bits v.toNat 4 0 = s.now.get (F.JOB_CTL_NX j) →
      Answers (.spJobStateWrite ag j v) s fun t => (t.now.get (F.JOB_CTL_STATE j) = 0 ∧
      t.now.on (F.JOB_CTL_JERR j) = s.now.on (F.JOB_CTL_JERR j)) ∧
      (t.now.sp
        = if
        bit
        v.toNat
        29 then
        (let l := (s.now.jobSpans s.hw j).filter fun x => s.now.get (F.PE_STAT_STATE x.1) == 2; { s.now.sp with
        nv := s.now.sp.nv ++ (List.range l.length).zipWith (fun i x => ⟨s.now.sp.nextId + i, x.1, s.tick, .trim, x.2.1,
        x.2.2⟩) l, nextId := s.now.sp.nextId + l.length }) else s.now.sp) ∧
      Leaves (fun t b => { b with sp := t.sp }) (fun a => a = R.JOB_CTL j) s t) ∧
    (∀ (ag : Agent) (j : Fin 256) (v : Word), Reaches s ag (R.JOB_CTL j) → (bits v.toNat 31 30 ≠ s.now.get (F.JOB_CTL_STATE j) ∧
      bits v.toNat 31 30 ≠ 0) → (s.now.get (F.JOB_CTL_STATE j) = 0 → bits v.toNat 31 30 ≠ 1) →
      Answers (.spJobStateWrite ag j v) s fun t => (t.now.get (F.JOB_CTL_STATE j) = s.now.get (F.JOB_CTL_STATE j) ∧
      t.now.on (F.JOB_CTL_JERR j) = true) ∧ Frame.regs (fun a => a = R.JOB_CTL j) s t) ∧
    (∀ (n : Fin 2), (bit (peMask s.hw) n = true ∧ s.now.get (F.PE_STAT_STATE n) ≠ 0) → Answers (.pcieLinkDown n) s fun t =>
      t.now.get (F.PE_STAT_STATE n) = 0 ∧ (t.now.sp = (driveEnds n s.now).sp ∧ t.now.dm = (driveEnds n s.now).dm ∧
      t.now.hp = (driveEnds n s.now).hp) ∧ t.now.edges = (raiseEdge s.ctx (0x060 + n) s.now).edges ∧
      Leaves (fun t b => { b with sp := t.sp, dm := t.dm, hp := t.hp, edges := t.edges }) (fun a => a = R.PE_STAT n) s t) ∧
    (∀ (n : Fin 2), (bit (peMask s.hw) n = false ∨ s.now.get (F.PE_STAT_STATE n) = 0) → Idle (.pcieLinkDown n) s)

/-- A store to HBe restarts the count of silence; an engine silent for HBW fc, or locked up where LKD is set, is declared: DEAD,
DCAUSE, DTICK, its edge, and where a spare is free TKO, the ownership, forks and configuration of the dead engine pass to it,
with NOSP otherwise; the spare's tasks begin 2,048 fc later; a declared engine that writes enters isolation reset. A snapshot
captures the dirty groups of a task at rest and clears them; the record takes it with the sequence count advanced. Rests on the
model's choices of log entries 52, 161 and 177. -/
def Obligations.SpareEffects : Prop :=
  ∀ (s : State),
    (∀ (ag : Agent) (q : Fin 32) (k : Fin 8) (v : Word), Reaches s ag (R.CL_HB q k) →
      Answers (.heartbeatStore ag q k v) s fun t => (t.now.suSt q).hb.find? k = some s.tick ∧
      t.now.suSt q = { s.now.suSt q with hb := (t.now.suSt q).hb } ∧
      Leaves (fun t b => { b with su := t.su }) (fun a => a = R.CL_HB q k) s t) ∧
    (∀ (q : Fin 32) (k : Fin 8) (e x : Nat), s.now.declares s.ctx q k = some x → e = s.now.watchedEng q k →
      (s.now.on (F.CL_CFG_SPV q) = false ∨ s.now.on (F.CL_STAT_TKO q) = true) → Answers (.engineDeclaredDead q k) s fun t =>
      (t.now.get (F.CL_STAT_DEAD q) = e % 8 ∧ t.now.get (F.CL_STAT_DCAUSE q) = x ∧ t.now.on (F.CL_STAT_NOSP q) = true) ∧
      (t.now.rd (R.CL_DTICK q) = s.tick % 2 ^ 32 ∧ t.now.edges = (raiseEdge s.ctx q s.now).edges) ∧
      ((t.now.suSt q).declared = e % 8 :: (s.now.suSt q).declared ∧ t.now.engSt e = { s.now.engSt e with dead := true }) ∧
      Leaves (fun t b => { b with su := t.su, eng := t.eng, edges := t.edges }) (fun a => a = R.CL_STAT q ∨ a = R.CL_DTICK q) s
        t) ∧
    (∀ (q : Fin 32) (k : Fin 8) (e x z : Nat), s.now.declares s.ctx q k = some x → (e = s.now.watchedEng q k ∧
      z = 8 * q + s.now.get (F.CL_CFG_SPARE q)) → (s.now.on (F.CL_CFG_SPV q) = true ∧ s.now.on (F.CL_STAT_TKO q) = false ∧
      z ≠ e) → Answers (.engineDeclaredDead q k) s fun t => (t.now.get (F.CL_STAT_DEAD q) = e % 8 ∧
      t.now.get (F.CL_STAT_DCAUSE q) = x ∧ t.now.on (F.CL_STAT_TKO q) = true) ∧ ((t.now.suSt q).takeover = some (s.tick, e, z) ∧
      t.now.taken = (q.val, e, z) :: s.now.taken) ∧ ((t.now.engSt z).takeAt = some s.tick ∧
      (t.now.engSt z).vbase = (s.now.engSt e).vbase ∧ t.now.nt.getD 0 z = s.now.nt.getD 0 e) ∧
      (∀ y ∈ ownKinds s.hw, ∀ i ∈ List.range y.2.1, ownEntry s.hw (y.1 + 4 * i) (ownKinds s.hw) = some true →
      t.now.owner (y.1 + 4 * i) = (if s.now.owner (y.1 + 4 * i) = e then z else s.now.owner (y.1 + 4 * i))) ∧
      ((t.now.engSt e).dead = true ∧ t.now.edges = (raiseEdge s.ctx q s.now).edges) ∧
      (∀ n ∈ List.range (nEV s.hw), ∀ j ∈ List.range 8, t.now.rd (R.EV_DST n j) = moveFork e z (s.now.rd (R.EV_DST n j)))) ∧
    (∀ (q : Fin 32) (d e z : Nat), ((s.now.suSt q).takeover = some (d, e, z) ∧ (s.now.suSt q).begun = false) →
      d + 2048 ≤ s.tick → Answers (.spareTasksBegin q) s fun t => ((t.now.suSt q).begun = true ∧
      (t.now.suSt q).hb.find? (e % 8) = some (d + 2048)) ∧ (t.now.engSt z).takeAt = none ∧ (∀ k, k < s.now.nt.getD 0 z →
      (s.now.taskSt z k).st = .wait → (s.now.taskSt z k).apend = true → (t.now.taskSt z k).st = .ready ∧
      (t.now.taskSt z k).apend = false ∧ (t.now.taskSt z k).acKind = (s.now.taskSt z k).pendKind) ∧
      Frame.outs (fun t b => { b with su := t.su, eng := t.eng, heldKeys := t.heldKeys }) outRegs s t) ∧
    (∀ (e : Fin 256) (u : Nat), ((s.now.suSt (clusterOf e)).isoDue = [(e.val, u)] ∧ u ≤ s.tick) →
      Answers (.isolationReset e) s fun t => ((t.now.engSt e).iso = true ∧ (t.now.engSt e).run = none ∧
      (t.now.engSt e).stores = [] ∧ (t.now.engSt e).loads = [] ∧ (t.now.engSt e).serrs = []) ∧
      t.now.get (F.CL_STAT_ISO (clusterOf e)) = s.now.get (F.CL_STAT_ISO (clusterOf e)) ||| 2 ^ (e.val % 8) ∧
      (t.now.suSt (clusterOf e)).isoDue = [] ∧
      Frame.engine
        (fun
        t b
        => { b with su := t.su })
        (fun
        t s
        => { s with
        iso := t.iso, stores := t.stores, loads := t.loads, late := t.late, serrs := t.serrs, run := t.run, sel := t.sel })
        (fun _ => False) e (fun a => a = R.CL_STAT (clusterOf e)) s t) ∧
    (∀ (e : Fin 256) (k : Fin 64) (p : Nat), (p = s.now.get (F.CL_CKP_CKP (clusterOf e)) ∧ p ≠ 0) →
      (s.now.on (F.CL_CFG_EN (clusterOf e)) = true ∧
      ((List.range 8).any fun j => bit (s.now.get (F.CL_CFG_HBEN (clusterOf e))) j && s.now.watchedEng (clusterOf e) j == e.val)
        = true) →
      (((s.start.engSt e).late.any fun x => x.task == k.val) = false ∧
      ((s.start.engSt e).loads.any fun x => x.task == k.val) = false) →
      (s.now.suSt (clusterOf e)).period.find? (e.val % 8 * 64 + k) ≠ some (s.tick / p) → ((s.start.taskSt e k).resting = true ∧
      (s.now.taskSt e k).resting = true ∧ (s.start.taskSt e k).dc ≠ 0 ∧ k.val < s.now.nt.getD 0 e) →
      Answers (.checkpointSnapshot e k) s fun t =>
      t.now.taskSt e k = { s.now.taskSt e k with dc := s.now.fc.hwSet.getD 0 (dcKey e k) } ∧
      (t.now.suSt (clusterOf e)).snaps = (s.now.suSt (clusterOf e)).snaps ++
        [⟨e.val % 8, k, (s.start.taskSt e k).st == .ready, (s.start.taskSt e k).dc, (List.range 41).map
        (s.start.taskSt e k).saveWord⟩] ∧
      (t.now.suSt (clusterOf e)).period.find? (e.val % 8 * 64 + k) = some (s.tick / p) ∧
      Frame.engine (fun t b => { b with su := t.su }) (fun _ s => s) (fun j => j = k.val) e (fun _ => False) s t) ∧
    (∀ (q : Fin 32) (x : Snap) (l : List Snap) (a : Nat), (s.now.suSt q).snaps = x :: l → (x.eng < 8 ∧ x.task < 64 ∧
      x.groups < 64 ∧ x.words.length = 41) → a = s.now.recordAddr q x.eng x.task → (s.now.unwritten 100 a 192 = true ∧
      s.now.sporeSends q = false) → Answers (.checkpointRecordWrite q) s fun t =>
      (∀ j ∈ List.range 41, bit x.groups (wordGroup j) = true →
      (t.now.recordWords a).getD (j + 1) 0 = (x.words.getD j {}).d.toNat ∧
      recordTag (t.now.recordWords a) j = (x.words.getD j {}).t.toNat) ∧
      (∀ j ∈ List.range 41, bit x.groups (wordGroup j) = false →
      (t.now.recordWords a).getD (j + 1) 0 = (s.start.recordWords a).getD (j + 1) 0 ∧
      t.now.granBad ((a + 4 * (j + 1)) / 32) = s.start.granBad ((a + 4 * (j + 1)) / 32)) ∧
      t.now.granBad (a / 32) = s.start.granBad (a / 32) ∧
      (t.now.recordWords a).getD 0 0 = 2 ^ 31 + b2n x.ready * 2 ^ 30 + (bits ((s.start.recordWords a).getD 0 0) 29 24 |||
        x.groups) * 2 ^ 24 + (bits ((s.start.recordWords a).getD 0 0) 15 0 + 1) % 65536 ∧
      (t.now.suSt q).snaps = l ∧ Stores (fun b => a ≤ b ∧
      b < a + 192) (fun t b => { b with su := t.su, edges := t.edges }) sumRegs s t) ∧
    (∀ (q : Fin 32) (x : Snap) (l : List Snap) (a : Nat), (s.now.suSt q).snaps = x :: l → (x.eng < 8 ∧ x.task < 64 ∧
      x.groups < 64 ∧ x.words.length = 41) → a = s.now.recordAddr q x.eng x.task → (s.now.unwritten 100 a 192 = true ∧
      s.now.sporeSends q = true ∧ s.now.glTwin 0 = true) → Answers (.checkpointRecordWrite q) s fun t =>
      (t.now.recordWords a = mergeRecord (s.start.recordWords a) x ∧ (t.now.suSt q).snaps = l) ∧
      (((t.now.glSt 0).tq.drop (s.now.glSt 0).tq.length).map (fun y => (y.prio, y.src, bits y.head 31 20, bits y.head 11 0,
        y.payload, y.poison)) = (List.range 7).map fun f => (3, 2, 0x400 + q.val, f * 512 + x.task * 8 + x.eng, payloadOf
        (((t.now.recordWords a).drop (7 * f)).take 7), (List.range 7).any fun i => 7 * f + i < 48 && t.now.granBad
        ((a + 4 * (7 * f + i)) / 32))) ∧
      Stores (fun b => a ≤ b ∧ b < a + 192) (fun t b => { b with su := t.su, gl := t.gl, edges := t.edges }) sumRegs s t)

/-- The pair: HEARTBEAT and EPOCH cells and Sporeline lane states go out on both twin lanes; a partner silent for 16,384 fc
after S is taken over from: the epoch rises, the role is TAKING, PERMIT_OUT is asserted, the permit is gained once PERMIT_IN has
been low long enough; a rise of PERMIT_IN fences a package that holds the permit; TAKING withdraws after HOLD x 4 while
PERMIT_IN stays asserted without PREF. TRST asks for the partner's reset in the next HEARTBEAT; RESEND sends records again.
Rests on the model's choices of log entries 12, 98, 99, 160 and 177. -/
def Obligations.PairEffects : Prop :=
  ∀ (s : State),
    ((s.now.on F.PV_CFG_PAIR = true ∧ s.now.twinReady = true) → s.tick % 4096 = 0 → Answers (.pairHeartbeatDue) s fun t =>
      TwinSends
        s t
        1 2
        0x6FE00000
        (payloadOf [b2n s.now.pv.rstReq * 256 + s.now.get F.PV_CFG_PREF * 8 + s.now.get F.PV_STAT_FENCED * 4 + s.now.get
        F.PV_STAT_PERM * 2 + b2n (s.now.role == 2), s.now.pv.hbNum, s.tick, s.tick / 2 ^ 32]) ∧
      t.now.pv = { s.now.pv with rstReq := false, hbNum := (s.now.pv.hbNum + 1) % 2 ^ 32 } ∧
      Leaves (fun t b => { b with gl := t.gl, pv := t.pv }) (fun _ => False) s t) ∧
    (∀ (u : Nat) (l : List Nat), (s.now.pv.epochDue = u :: l ∧ u ≤ s.tick ∧ s.now.twinReady = true) →
      Answers (.epochCellDue) s fun t =>
      TwinSends
        s t
        0 2 0x5FE00000 (payloadOf [s.now.get F.PV_CFG_PREF * 8, s.now.takingSince.getD u, s.now.takingSince.getD u / 2 ^ 32]) ∧
      t.now.pv = { s.now.pv with epochDue := l } ∧ Leaves (fun t b => { b with gl := t.gl, pv := t.pv }) (fun _ => False) s t) ∧
    (∀ (n : Fin 96) (u : Nat), s.tick % 65536 = 0 → (s.now.on (F.LL_CFG_EN n) = true ∧ s.now.on (F.LL_CFG_LAW n) = false ∧
      u = s.now.get (F.LL_CFG_LU n)) → (s.now.sporeSends (clusterOf (s.now.owner (ownLU u))) = true ∧ s.now.glTwin 0 = true) →
      Answers (.sporelineLaneState n) s fun t =>
      (((t.now.glSt 0).tq.drop (s.now.glSt 0).tq.length).map (fun x => (x.prio, bits x.head 31 20, bits x.head 11 0)) =
        [(3, 0x420, n.val), (3, 0x420, 512 + n.val)]) ∧
      (((t.now.glSt 0).tq.drop (s.now.glSt 0).tq.length).map (fun x => x.payload) =
        [payloadOf ((List.range 7).map fun k => s.now.rd (R.LU_S u k)), payloadOf
        ([s.now.rd (R.LU_S u 7)] ++ (s.now.luSt u).ys ++ [(s.now.luSt u).acc % 2 ^ 32, (s.now.luSt u).acc / 2 ^ 32, s.now.get
        (F.LL_CTL_M n)])]) ∧
      Leaves (fun t b => { b with gl := t.gl }) (fun _ => False) s t) ∧
    (s.now.pvReady = true → max (s.now.fcS.getD 0) (s.now.pv.lastHb.getD 0) + 16384 ≤ s.tick → (s.now.pv.lanes = [] ∧
      s.now.rd R.PV_CKCL = 0) → Answers (.partnerDead) s fun t =>
      ((pvEndFc s.ctx t.now).rd R.PV_EPOCH = (s.now.rd R.PV_EPOCH + 1) % 2 ^ 32 ∧ (pvEndFc s.ctx t.now).role = 1 ∧
      (pvEndFc s.ctx t.now).rd R.PV_PDTICK = s.tick % 2 ^ 32) ∧ ((pvEndFc s.ctx t.now).on F.PV_STAT_POUT = true ∧
      (pvEndFc s.ctx t.now).balls.getD 0 2 = 2 ∧ (pvEndFc s.ctx t.now).takingSince = some s.tick) ∧
      (pvEndFc
        s.ctx
        t.now).pv
        = { s.now.pv with
        lapse := false, saved := s.now.rd R.PV_EPOCH, epochDue := (if s.now.twinReady then [] else [s.tick]) ++ [s.tick + 4096,
        s.tick + 8192, s.tick + 12288] } ∧
      (pvEndFc s.ctx t.now).edges = (raiseEdge s.ctx 0x078 s.now).edges ∧ (s.now.twinReady = true →
      TwinSends s { t with now := pvEndFc s.ctx t.now } 0 2 0x5FE00000 (payloadOf
        [s.now.get F.PV_CFG_PREF * 8, s.tick, s.tick / 2 ^ 32])) ∧
      (pvEndFc s.ctx { t.now with pv := { t.now.pv with lastHb := some s.tick } }).role = 0 ∧
      t.now.pv = { s.now.pv with lapse := true } ∧ Leaves (fun t b => { b with pv := t.pv }) (fun _ => False) s t) ∧
    (∀ (e k n u a : Nat) (w : List Nat), s.now.pvReady = true →
      max (s.now.fcS.getD 0) (s.now.pv.lastHb.getD 0) + 16384 ≤ s.tick → (s.now.pv.lanes = [(n, w)] ∧ w.length = 14 ∧
      n < nEG s.hw ∧ s.now.on (F.LL_CFG_LAW n) = false ∧ u = s.now.get (F.LL_CFG_LU n)) → (e ∈ s.now.sporeEngines s.hw ∧
      k < s.now.nt.getD 0 e) → (a = s.now.recordAddr (clusterOf e) (e % 8) k ∧
      bit ((s.start.recordWords a).getD 0 0) 31 = true) → Answers (.partnerDead) s fun t =>
      (∀ j ∈ List.range 8, (pvEndFc s.ctx t.now).rd (R.LU_S u j) = w.getD j 0) ∧
      (((pvEndFc s.ctx t.now).luSt u).ys = [w.getD 8 0, w.getD 9 0, w.getD 10 0] ∧
      ((pvEndFc s.ctx t.now).luSt u).acc = w.getD 11 0 + w.getD 12 0 % 65536 * 2 ^ 32) ∧
      (pvEndFc s.ctx t.now).get (F.LL_CTL_M n) = w.getD 13 0 % 2 ∧
      ((pvEndFc s.ctx t.now).taskSt e k).st = (if bit ((s.start.recordWords a).getD 0 0) 30 then .ready else .wait) ∧
      (∀ j ∈ List.range 31, bit (bits ((s.start.recordWords a).getD 0 0) 29 24) (wordGroup j) = true →
      ((pvEndFc s.ctx t.now).taskSt e k).reg (j + 1) = (if s.start.granBad ((a + 4 * (j + 1)) / 32) || s.start.granBad
        ((a + 4 * (42 + j / 8)) / 32) then tw 0 15 else tw ((s.start.recordWords a).getD (j + 1) 0)
        (recordTag (s.start.recordWords a) j))) ∧
      (((pvEndFc s.ctx t.now).taskSt e k).dc = 0x3F ∧ (pvEndFc s.ctx t.now).role = 1)) ∧
    (s.now.pvSilent s.ctx = false → Idle .partnerDead s) ∧
    ((s.now.role = 1 ∧ s.now.takingSince.any (fun u => u + 2048 ≤ s.tick) = true) →
      (s.now.pv.pinSince.all (fun p => p + s.now.get F.PV_CFG_HOLD ≤ s.tick) = true) → Answers (.permitGained) s fun t =>
      (t.now.role = 2 ∧ t.now.on F.PV_STAT_PERM = true ∧ t.now.on F.PV_STAT_EVER = true ∧ t.now.on F.PV_STAT_PIN = false) ∧
      (t.now.takingSince = none ∧ t.now.pv = { s.now.pv with pinSince := none } ∧ t.now.pvWait = none) ∧
      (t.now.rd R.PV_EPOCH = s.now.rd R.PV_EPOCH ∧ (raiseEdge s.ctx 0x07A s.now).edges <+: t.now.edges) ∧
      Frame.outs (fun t b => { b with pv := t.pv, takingSince := t.takingSince, pvWait := t.pvWait })
        (fun a => a = R.PV_STAT ∨ outRegs a) s t) ∧
    ((s.now.on F.PV_CFG_PAIR = true ∧ s.now.on F.PV_STAT_PERM = true) → Answers (.permitInRise) s fun t => (t.now.role = 0 ∧
      t.now.on F.PV_STAT_PERM = false ∧ t.now.on F.PV_STAT_FENCED = true ∧ t.now.on F.PV_STAT_PIN = true) ∧
      (t.now.on F.PV_STAT_POUT = false ∧ t.now.takingSince = none) ∧
      t.now.pv = { s.now.pv with pinSince := some s.tick, epochDue := [] } ∧ t.now.pvWait = some (s.tick + 3) ∧
      t.now.edges = (if s.now.on F.PV_STAT_FENCED then raiseEdge s.ctx 0x07A s.now else raiseEdge s.ctx 0x079
        (raiseEdge s.ctx 0x07A s.now)).edges ∧
      Frame.outs (fun t b => { b with pv := t.pv, takingSince := t.takingSince, pvWait := t.pvWait })
        (fun a => a = R.PV_STAT ∨ outRegs a) s t) ∧
    ((s.now.on F.PV_STAT_PERM = false ∨ s.now.on F.PV_CFG_PAIR = false) → Answers (.permitInRise) s fun t =>
      (t.now.on F.PV_STAT_PIN = true ∧ t.now.role = s.now.role ∧ t.now.on F.PV_STAT_FENCED = s.now.on F.PV_STAT_FENCED) ∧
      t.now.pv = { s.now.pv with pinSince := some s.tick } ∧
      Leaves (fun t b => { b with pv := t.pv }) (fun a => a = R.PV_STAT) s t) ∧
    (∀ (u p : Nat), (s.now.role = 1 ∧ s.now.on F.PV_CFG_PREF = false ∧ s.now.on F.PV_STAT_PIN = true) →
      (s.now.takingSince = some u ∧ s.now.pv.pinSince = some p ∧ max u p + 4 * s.now.get F.PV_CFG_HOLD ≤ s.tick) →
      s.now.pv.saved < 2 ^ 32 → Answers (.takingWithdraw) s fun t => (t.now.role = 0 ∧ t.now.on F.PV_STAT_POUT = false ∧
      t.now.takingSince = none ∧ t.now.on F.PV_STAT_FENCED = s.now.on F.PV_STAT_FENCED) ∧
      (t.now.rd R.PV_EPOCH = s.now.pv.saved ∧ t.now.get F.PV_CNT_WDRAW = min 255 (s.now.get F.PV_CNT_WDRAW + 1)) ∧
      t.now.pv = { s.now.pv with epochDue := [] } ∧
      t.now.edges = (if s.now.on F.PV_STAT_PERM then raiseEdge s.ctx 0x07B (raiseEdge s.ctx 0x07A s.now) else raiseEdge s.ctx
        0x07B s.now).edges ∧
      Frame.outs (fun t b => { b with pv := t.pv, takingSince := t.takingSince, pvWait := t.pvWait })
        (fun a => a = R.PV_STAT ∨ a = R.PV_EPOCH ∨ a = R.PV_CNT ∨ outRegs a) s t) ∧
    (∀ (ag : Agent) (v : Word), Reaches s ag R.PV_CTL → bits v.toNat 1 0 = 1 → Answers (.pvTrst ag v) s fun t =>
      t.now.pv = { s.now.pv with rstReq := true } ∧ Leaves (fun t b => { b with pv := t.pv }) (fun _ => False) s t) ∧
    (∀ (ag : Agent) (v : Word) (q e k a : Nat), Reaches s ag R.PV_CTL → bits v.toNat 1 0 = 2 →
      (List.range (nClusters s.hw)).filter s.now.sporeSends = [q] →
      ((List.range 256).filter (fun x => s.now.nt.getD 0 x != 0) = [8 * q + e] ∧ e < 8 ∧ s.now.nt.getD 0 (8 * q + e) = 1 ∧
      k = 0) → (a = s.now.recordAddr q e 0 ∧ bit ((s.start.recordWords a).getD 0 0) 31 = true) → s.now.glTwin 0 = true →
      Answers (.pvResend ag v) s fun t =>
      (((t.now.glSt 0).tq.drop (s.now.glSt 0).tq.length).map (fun x => (x.prio, bits x.head 31 20, bits x.head 11 0, x.payload,
        x.poison)) = (List.range 7).map fun f => (3, 0x400 + q, f * 512 + e, payloadOf
        (((s.start.recordWords a).drop (7 * f)).take 7), (List.range 7).any fun i => 7 * f + i < 48 && s.start.granBad
        ((a + 4 * (7 * f + i)) / 32))) ∧
      Leaves (fun t b => { b with gl := t.gl, edges := t.edges }) sumRegs s t) ∧
    ((s.now.role ≠ 0 ∧ s.now.takingSince.any (fun u => u + 2048 ≤ s.tick) = true) → Answers (.takeoverEnginesIssue) s fun t =>
      (∀ e ∈ s.now.sporeEngines s.hw, (s.now.engSt e).run = none → (s.now.engSt e).sel = none → (s.now.engSt e).best ≠ none →
      (t.now.engSt e).sel.isSome = true) ∧ (∀ e ∈ List.range 256, ∀ k ∈ List.range 64, t.now.taskSt e k = s.now.taskSt e k) ∧
      Leaves (fun t b => { b with eng := t.eng }) (fun _ => False) s t)

/-- Clocks, doze and sleep: a PLL that locks shows it; loss of REFCLK resets the part with cause 1 and CKLOSS; a lane PLL that
unlocks sets ULK, raises its edge and takes its lanes down; LCLK's source is decided once, and a crystal that fails later is
replaced. An idle region dozes and an activation wakes it, awake 12 fc later. SLEEP resets all but the Lichen domain, or is
refused with SLPREF; a wake event ends it with cause 4. Rests on the model's choices of log entries 2, 101, 105 and 162. -/
def Obligations.ClockAndSleepEffects : Prop :=
  ∀ (s : State),
    (∀ (k : Fin 7), (k ≠ 0 ∨ s.now.always.sleeping = false ∧ s.now.always.rstLow = false ∧ s.now.always.low = []) →
      s.now.pllUsed s.hw k = true → Answers (.pllLock k) s fun t => t.now.on ⟨R.PW_PLL, k, k⟩ = true ∧
      (∀ j ∈ List.range 32, j ≠ k.val → bit (t.now.rd R.PW_PLL) j = bit (s.now.rd R.PW_PLL) j) ∧
      Leaves (fun _ b => b) (fun a => a = R.PW_PLL) s t) ∧
    (∀ (k : Fin 7), (k = 0 ∧
      (s.now.always.sleeping = true ∨ s.now.always.rstLow = true ∨ s.now.always.low ≠ []) ∨ s.now.pllUsed s.hw k = false) →
      Idle (.pllLock k) s) ∧
    (s.now.pllF = true → s.now.flCmd = none → Answers (.refclkLoss) s fun t => (t.tick = 0 ∧ t.now.get F.BOOT_RESET_CAUSE = 1 ∧
      t.now.get F.BOOT_RESET_PREV = s.now.get F.BOOT_STATUS_STATE) ∧ (t.now.get F.PW_LSTAT_CKLOSS = 1 ∧ t.now.pllF = false) ∧
      t.now.always = s.now.always ∧ ResetOf resetRegs s t) ∧
    (∀ (k : Fin 7), (k = 1 ∨ k = 2 ∨ k = 3) → s.now.on ⟨R.PW_PLL, k, k⟩ = true →
      (s.now.get (F.GL_STAT_LSTATE (2 * (k - 1))) = 4 ∧ s.now.get (F.GL_STAT_LSTATE (2 * (k - 1) + 1)) ≠ 4) →
      Answers (.lanePllUnlock k) s fun t => (t.now.on ⟨R.PW_PLL, k, k⟩ = false ∧ t.now.on F.PW_PLL_ULK = true) ∧
      (t.now.get (F.GL_STAT_LSTATE (2 * (k - 1))) = 2 ∧
      t.now.get (F.GL_ERR1_LOL (2 * (k - 1))) = min 255 (s.now.get (F.GL_ERR1_LOL (2 * (k - 1))) + 1)) ∧
      t.now.edges = (raiseEdge s.ctx (0x050 + 2 * (k - 1)) (raiseEdge s.ctx 0x093 s.now)).edges ∧
      Leaves (fun t b => { b with edges := t.edges }) (fun a => a = R.PW_PLL ∨ a = R.GL_STAT (2 * (k - 1)) ∨ a = R.GL_ERR1
        (2 * (k - 1))) s t) ∧
    (∀ (z : Bool), s.now.always.lclkDone = false → Answers (.lclkQualify z) s fun t => (t.now.on F.PW_LSTAT_LSRC = !z ∧
      t.now.always = { s.now.always with lclkDone := true }) ∧
      Leaves (fun t b => { b with always := t.always }) (fun a => a = R.PW_LSTAT) s t) ∧
    (s.now.on F.PW_LSTAT_LSRC = false → Answers (.crystalLoss) s fun t => (t.now.on F.PW_LSTAT_LSRC = true ∧
      t.now.on F.PW_LSTAT_XLOSS = true) ∧
      t.now.edges = (if s.now.always.sleeping then s.now else raiseEdge s.ctx 0x092 s.now).edges ∧
      Leaves (fun t b => { b with edges := t.edges }) (fun a => a = R.PW_LSTAT) s t) ∧
    (∀ (r : Fin 8) (u : Nat), (r.val < nRegions s.hw ∧ bit (s.start.get F.PW_DOZE_EN) r = true) →
      ((s.now.dozeSt r).asleep = false ∧ (s.now.dozeSt r).idleSince = some u) →
      u + (if s.start.get F.PW_DOZE_DLY = 0 then 16 else s.start.get F.PW_DOZE_DLY) ≤ s.tick → Answers (.dozeEntry r) s fun t =>
      t.now.dozeSt r = { s.now.dozeSt r with lapse := true } ∧
      (idleTick s.ctx t.now).dozeSt r = (if s.now.regionIdle s.hw r then { asleep := true } else {}) ∧
      Leaves (fun t b => { b with doze := t.doze }) (fun _ => False) s t) ∧
    (∀ (r : Fin 8), ((s.now.fc.taskAct.any fun a => regionOf (a.1 / 64) == r.val) = true ∨ bit (s.now.get F.PW_DOZE_EN) r =
        false) →
      ((s.now.dozeSt r).asleep = true ∧ (s.now.dozeSt r).wake = none) → Answers (.dozeWake r) s fun t =>
      t.now.dozeSt r = { s.now.dozeSt r with wake := some s.tick } ∧
      bit (t.now.rgstat s.hw) (8 + r) = decide (r.val < nRegions s.hw) ∧
      Leaves (fun t b => { b with doze := t.doze }) (fun _ => False) s t) ∧
    (∀ (r : Fin 8) (u : Nat), ((s.now.dozeSt r).wake = some u ∧ u + 12 ≤ s.tick) → Answers (.regionAwake r) s fun t =>
      t.now.dozeSt r = {} ∧ Leaves (fun t b => { b with doze := t.doze }) (fun _ => False) s t) ∧
    (∀ (ag : Agent) (v : Word), Reaches s ag R.PW_CTL → (bits v.toNat 31 16 = 0x534C ∧ bit v.toNat 0 = true) →
      (s.now.wakeAsserted s.now.always.wake = false ∧ s.now.timerDue = false ∧
      (s.now.on F.PV_CFG_PAIR && s.now.on F.PV_STAT_PERM) = false) → Answers (.sleepRequest ag v) s fun t =>
      t.now.resetDue = some 16 ∧ Leaves (fun t b => { b with resetDue := t.resetDue }) (fun a => a = R.PW_CTL) s t) ∧
    (∀ (ag : Agent) (v : Word), Reaches s ag R.PW_CTL → (bits v.toNat 31 16 = 0x534C ∧ bit v.toNat 0 = true ∧
      s.now.resetDue = none) →
      (s.now.wakeAsserted s.now.always.wake = true ∨ s.now.timerDue = true ∨ (s.now.on F.PV_CFG_PAIR && s.now.on F.PV_STAT_PERM)
        = true) →
      Answers (.sleepRequest ag v) s fun t => t.now.on F.PW_STAT_SLPREF = true ∧
      Leaves (fun _ b => b) (fun a => a = R.PW_STAT ∨ a = R.PW_CTL) s t) ∧
    ((s.pending = [] ∧ s.now.pllF = true) → (endFc s.ctx s.now).resetDue = some 16 → StepsTo s fun t => (t.tick = 0 ∧
      t.now.always = { (endFc s.ctx s.now).always with sleeping := true }) ∧
      (t.now.get F.BOOT_RESET_CAUSE = (endFc s.ctx s.now).get F.BOOT_RESET_CAUSE ∧
      t.now.get F.BOOT_RESET_PREV = (endFc s.ctx s.now).get F.BOOT_STATUS_STATE) ∧ (t.now.eng = [] ∧ t.now.outputs = false ∧
      t.now.get F.BOOT_STATUS_STATE = 0) ∧ (∀ a ∈ [R.PW_WAKE, R.PW_WKTL, R.PW_WKTH], t.now.rd a = (endFc s.ctx s.now).rd a)) ∧
    (∀ (k : Fin 5), s.now.wakeEvent k = true → Answers (.wakeEvent k) s fun t => (t.tick = 0 ∧ t.start = t.now ∧
      t.now.get F.BOOT_RESET_CAUSE = 4) ∧ (t.now.get F.PW_LSTAT_WKSRC = k.val + 1 ∧ t.now.on F.PW_LSTAT_WKPEND = true) ∧
      t.now = { s.now with regs := t.now.regs, always := { s.now.always with sleeping := false } } ∧
      (∀ a ∈ [R.PW_WAKE, R.PW_WKTL, R.PW_WKTH, R.BOOT_STATUS], t.now.rd a = s.now.rd a))

/-- The watchdog: a kick with 0x4B49 clears its count, any other value sets BADK; half its time raises an edge once, its whole
time a package reset with cause 3. A brown-out warning latches its rail; a conversion shows the temperature and raises its edge
as it reaches the threshold, with hysteresis. Boundary scan: each instruction takes force; SAMPLE captures the balls and PRELOAD
loads the cells; EXTEST, CLAMP and HIGHZ drive balls only while RST_N is low. IDCODE after a TAP reset is the family's (log
entry 33). Rests on the model's choice of log entry 33. -/
def Obligations.SupervisionAndScanEffects : Prop :=
  ∀ (s : State),
    (∀ (ag : Agent) (v : Word), Reaches s ag R.PW_WDT_KICK → v = 0x4B49 → Answers (.watchdogKick ag v) s fun t =>
      (t.now.rd R.PW_WDT_CNT = 0 ∧ t.now.wdHalf = false ∧ t.now.on F.PW_WDT_CTL_BADK = s.now.on F.PW_WDT_CTL_BADK) ∧
      Leaves (fun t b => { b with wdHalf := t.wdHalf }) (fun a => a = R.PW_WDT_CNT ∨ a = R.PW_WDT_KICK) s t) ∧
    (∀ (ag : Agent) (v : Word), Reaches s ag R.PW_WDT_KICK → v ≠ 0x4B49 → Answers (.watchdogKick ag v) s fun t =>
      t.now.on F.PW_WDT_CTL_BADK = true ∧ Leaves (fun _ b => b) (fun a => a = R.PW_WDT_CTL ∨ a = R.PW_WDT_KICK) s t) ∧
    ((s.now.inRun = true ∧ s.now.on F.PW_WDT_CTL_EN = true ∧ s.now.wdHalf = false) → s.now.wdtTo / 2 ≤ s.now.rd R.PW_WDT_CNT →
      Answers (.watchdogHalf) s fun t => (t.now.wdHalf = true ∧ t.now.edges = (raiseEdge s.ctx 0x090 s.now).edges) ∧
      Leaves (fun t b => { b with wdHalf := t.wdHalf, edges := t.edges }) (fun _ => False) s t) ∧
    ((s.now.inRun = true ∧ s.now.on F.PW_WDT_CTL_EN = true) → max 16 (s.now.get F.PW_WDT_TO_TO) ≤ s.now.rd R.PW_WDT_CNT →
      Answers (.watchdogExpiry) s fun t => (t.now.wdLapse = true ∧ (wdtEndFc t.now).resetDue = some 3) ∧
      (wdtEndFc { t.now with regs := (t.now.wr R.PW_WDT_CNT 0).regs }).resetDue = s.now.resetDue ∧
      Leaves (fun t b => { b with wdLapse := t.wdLapse }) (fun _ => False) s t) ∧
    (∀ (r : Fin 10), (s.now.always.sleeping = false ∨ r = 9) → Answers (.brownoutWarn r) s fun t =>
      bit (t.now.rd R.PW_BOR) r = true ∧ t.now.edges = (raiseEdge s.ctx 0x091 s.now).edges ∧
      Leaves (fun t b => { b with edges := t.edges }) (fun a => a = R.PW_BOR) s t) ∧
    (∀ (k : Fin 16) (v : BitVec 16), (tsPresent s.hw k = true ∧ s.tick % 65536 = 0) →
      toSigned 16 (s.now.get (F.PW_TS_THR_HI k)) ≤ v.toInt → Answers (.thermalConversion k v) s fun t =>
      (t.now.get (F.PW_TS_TEMP k) = v.toNat ∧ t.now.on (F.PW_TS_ABOVE k) = true) ∧
      t.now.edges = (if s.now.on (F.PW_TS_ABOVE k) then s.now else raiseEdge s.ctx (0x080 + k) s.now).edges ∧
      Leaves (fun t b => { b with edges := t.edges }) (fun a => a = R.PW_TS k) s t) ∧
    (∀ (k : Fin 16) (v : BitVec 16), (tsPresent s.hw k = true ∧ s.tick % 65536 = 0) →
      v.toInt < toSigned 16 (s.now.get (F.PW_TS_THR_HI k)) → Answers (.thermalConversion k v) s fun t =>
      t.now.get (F.PW_TS_TEMP k) = v.toNat ∧
      t.now.on (F.PW_TS_ABOVE k) = (s.now.on (F.PW_TS_ABOVE k) && decide
        (toSigned 16 (s.now.get (F.PW_TS_THR_HI k)) - s.now.get (F.PW_TS_THR_HYS k) ≤ v.toInt)) ∧
      Leaves (fun _ b => b) (fun a => a = R.PW_TS k) s t) ∧
    (Answers (.tapReset) s fun t => t.now.tap = { s.now.tap with inst := 1, tdo := 0 } ∧
      Leaves (fun t b => { b with tap := t.tap }) (fun _ => False) s t) ∧
    (Answers (.tapBypass) s fun t => t.now.tap = { s.now.tap with inst := 0, tdo := 0 } ∧
      Leaves (fun t b => { b with tap := t.tap }) (fun _ => False) s t) ∧
    (Answers (.tapIdcode) s fun t =>
      t.now.tap = { s.now.tap with inst := 1, tdo := s.hw.step % 16 * 2 ^ 28 + pick s.hw 0x2560 0x1280 0x0640 * 2 ^ 12 + 0x58F }
        ∧
      Leaves (fun t b => { b with tap := t.tap }) (fun _ => False) s t) ∧
    (∀ (l : List (Nat × Nat)), Answers (.tapSamplePreload l) s fun t => (t.now.tap.inst = 2 ∧ t.now.tap.captured = s.now.balls ∧
      t.now.tap.tdo = s.now.tap.tdo) ∧ (∀ x ∈ l.getLast?, t.now.tap.cells.getD 0 x.1 = x.2 % 3) ∧
      Leaves (fun t b => { b with tap := t.tap }) (fun _ => False) s t) ∧
    (s.now.always.rstLow = true → Answers (.tapExtest) s fun t => (t.now.balls = s.now.tap.cells ∧
      t.now.tap = { s.now.tap with inst := 3 }) ∧
      Leaves (fun t b => { b with tap := t.tap, balls := t.balls }) (fun _ => False) s t) ∧
    (s.now.always.rstLow = true → Answers (.tapClamp) s fun t => (t.now.balls = s.now.tap.cells ∧
      t.now.tap = { s.now.tap with inst := 4 }) ∧
      Leaves (fun t b => { b with tap := t.tap, balls := t.balls }) (fun _ => False) s t) ∧
    (s.now.always.rstLow = true → Answers (.tapHighz) s fun t => (t.now.balls = [] ∧ t.now.tap = { s.now.tap with inst := 5 }) ∧
      Leaves (fun t b => { b with tap := t.tap, balls := t.balls }) (fun _ => False) s t) ∧
    (s.now.always.rstLow = false → Answers (.tapExtest) s fun t => t.now.tap = { s.now.tap with inst := 0, tdo := 0 } ∧
      Leaves (fun t b => { b with tap := t.tap }) (fun _ => False) s t)

/-- A commit of the law task that reaches its lane while an output edge generator of the lane is held by a trip is discarded and
increments TSKIP, which saturates at 255 (R93); nothing else of the machine changes. -/
def Obligations.CommitUnderTripDiscarded : Prop :=
  ∀ (s : State) (n : Fin 96) (y : LaneCommit) (rest : List LaneCommit),
    ((s.now.llSt n).commits = y :: rest → (y.due ≤ s.tick ∧ y.eng = s.now.laneEng n) →
      (∃ p ∈ s.now.laneOuts n, s.now.egHeld p.2 = true) → Answers (.laneCommitArrival n) s fun t =>
      (t.now.llSt n).commits = rest ∧ (t.now.llSt n).duties = (s.now.llSt n).duties ∧
      (∀ m : Fin 96, t.now.egSt m = s.now.egSt m) ∧ t.now.get (F.LL_STAT_TSKIP n) = satAdd 8 (s.now.get (F.LL_STAT_TSKIP n)) 1 ∧
      Frame.lane n (fun a => a = R.LL_STAT n) s t)

/-- A capture pair that lands sets NEW; where NEW was already 1 it sets OVR too, and the pair before it is lost: the registers
hold the pair that landed (R138). -/
def Obligations.LandingPairSetsNew : Prop :=
  ∀ (s : State) (n : Fin 128) (x : BallEdge),
    (cpTakes s.ctx n false x = true → s.start.on (F.CP_STAT_OPEN n) = true → s.now.fc.reads.contains (R.CP_RISE n) = false →
      Answers (.cpPairReady n x) s fun t => t.now.on (F.CP_STAT_NEW n) = true ∧
      t.now.on (F.CP_STAT_OVR n) = (s.now.on (F.CP_STAT_OVR n) || s.now.on (F.CP_STAT_NEW n)) ∧
      ((t.now.cpSt n).rise = (s.start.cpSt n).openRise ∧ (t.now.cpSt n).fall = edgeStamp x ∧
      (t.now.cpSt n).width = min (edgeStamp x - (s.start.cpSt n).openRise) 0xFFFFFFFF) ∧
      Frame.cp n (blockOr (R.baseCP n) 0x20) s t) ∧
    (cpTakes s.ctx n false x = true → s.start.on (F.CP_STAT_OPEN n) = true → s.now.fc.reads.contains (R.CP_RISE n) = true →
      Answers (.cpPairReady n x) s fun t => (cpPutOffLands t.now n).on (F.CP_STAT_NEW n) = true ∧
      (cpPutOffLands t.now n).on (F.CP_STAT_OVR n) = (t.now.on (F.CP_STAT_OVR n) || t.now.on (F.CP_STAT_NEW n)) ∧
      (((cpPutOffLands t.now n).cpSt n).rise = (s.start.cpSt n).openRise ∧
      ((cpPutOffLands t.now n).cpSt n).fall = edgeStamp x) ∧ Frame.cp n (blockOr (R.baseCP n) 0x20) s t)

/-- WRL with LOUT3, in both its forms, issues, takes its fc and moves the PC on, and writes nothing (R96). -/
def Obligations.Lout3WriteIgnored : Prop :=
  ∀ (s : State) (e : Fin 256) (k : Nat),
    (∀ (ra : Reg), Issues s e k { len := 4, uses := [ra] } = true → plainTag ((s.now.taskSt e k).opd ra).t = true →
      Answers (.wrl e 3 ra) s fun t => Passed s t e k 4 1 0 ∧
      Frame.instr (fun _ s => s) (fun _ s => s) (fun _ => False) e k s t) ∧
    (∀ (ra : Reg), Issues s e k { len := 2, uses := [ra] } = true → plainTag ((s.now.taskSt e k).opd ra).t = true →
      Answers (.wrlS e 3 ra) s fun t => Passed s t e k 2 1 0 ∧
      Frame.instr (fun _ s => s) (fun _ s => s) (fun _ => False) e k s t)
end

