-- ==== Sys2Proof/Laws/Assoc.lean ====
section
/-! SUPPORT. Sparse maps: what a look-up gives after an update, and that an update keeps the one canonical form. -/

namespace Sys2Proof.Machine

variable {β : Type}

@[simp] theorem Assoc.find?_insert_same (m : Assoc β) (k : Nat) (v : β) : (m.insert k v).find? k = some v := by
  induction m with
  | nil => simp [Assoc.insert, Assoc.find?]
  | cons x t ih =>
    obtain ⟨a, w⟩ := x
    simp only [Assoc.insert]
    split
    · simp [Assoc.find?]
    · split
      · simp [Assoc.find?]
      · rename_i h1 h2
        simp only [Assoc.find?, ih]
        rw [if_neg (fun h => h2 h.symm)]

theorem Assoc.find?_insert_other (m : Assoc β) {k j : Nat} (v : β) (h : j ≠ k) : (m.insert k v).find? j = m.find? j := by
  induction m with
  | nil => simp [Assoc.insert, Assoc.find?, Ne.symm h]
  | cons x t ih =>
    obtain ⟨a, w⟩ := x
    simp only [Assoc.insert]
    split
    · simp [Assoc.find?, Ne.symm h]
    · split
      · rename_i h2
        subst h2
        simp [Assoc.find?, Ne.symm h]
      · simp only [Assoc.find?, ih]

@[simp] theorem Assoc.find?_erase_same (m : Assoc β) (k : Nat) : (m.erase k).find? k = none := by
  induction m with
  | nil => simp [Assoc.erase, Assoc.find?]
  | cons x t ih =>
    obtain ⟨a, w⟩ := x
    simp only [Assoc.erase]
    split
    · exact ih
    · rename_i h
      simp only [Assoc.find?, ih]
      rw [if_neg (fun e => h e.symm)]

theorem Assoc.find?_erase_other (m : Assoc β) {k j : Nat} (h : j ≠ k) : (m.erase k).find? j = m.find? j := by
  induction m with
  | nil => simp [Assoc.erase, Assoc.find?]
  | cons x t ih =>
    obtain ⟨a, w⟩ := x
    simp only [Assoc.erase]
    split
    · rename_i e
      subst e
      simp [Assoc.find?, Ne.symm h, ih]
    · simp only [Assoc.find?, ih]

variable [DecidableEq β]

@[simp] theorem Assoc.getD_setD_same (m : Assoc β) (d : β) (k : Nat) (v : β) : (m.setD d k v).getD d k = v := by
  unfold Assoc.setD
  by_cases h : v = d
  · rw [if_pos h, Assoc.getD, Assoc.find?_erase_same, h]
  · rw [if_neg h, Assoc.getD, Assoc.find?_insert_same]

/-- An update at another key, whatever default it is made with. -/
theorem Assoc.find?_setD_other (m : Assoc β) (d : β) {k j : Nat} (v : β) (h : j ≠ k) :
    (m.setD d k v).find? j = m.find? j := by
  unfold Assoc.setD
  split
  · exact Assoc.find?_erase_other m h
  · exact Assoc.find?_insert_other m v h

theorem Assoc.getD_setD_other (m : Assoc β) (d e : β) {k j : Nat} (v : β) (h : j ≠ k) :
    (m.setD d k v).getD e j = m.getD e j := by
  simp [Assoc.getD, Assoc.find?_setD_other m d v h]

/-! ### The canonical form -/

/-- Every key of the map lies above `k`. -/
def Assoc.Above {γ : Type} (k : Nat) (m : Assoc γ) : Prop := ∀ p ∈ m, k < p.1

theorem Assoc.sorted_cons {γ : Type} {a : Nat} {w : γ} {t : Assoc γ} :
    Assoc.Sorted ((a, w) :: t) = true ↔ Assoc.Above a t ∧ Assoc.Sorted t = true := by
  induction t generalizing a w with
  | nil => simp [Assoc.Sorted, Assoc.Above]
  | cons x t ih =>
    obtain ⟨b, z⟩ := x
    constructor
    · intro h
      simp only [Assoc.Sorted, Bool.and_eq_true, decide_eq_true_eq] at h
      refine ⟨?_, h.2⟩
      intro p hp
      rcases List.mem_cons.mp hp with rfl | hp
      · exact h.1
      · exact Nat.lt_trans h.1 ((ih.mp h.2).1 p hp)
    · rintro ⟨h1, h2⟩
      simp only [Assoc.Sorted, Bool.and_eq_true, decide_eq_true_eq]
      exact ⟨h1 (b, z) (List.mem_cons_self ..), h2⟩

theorem Assoc.above_insert {γ : Type} {a k : Nat} {v : γ} {m : Assoc γ} (h : Assoc.Above a m) (hk : a < k) :
    Assoc.Above a (m.insert k v) := by
  induction m with
  | nil => intro p hp; simp [Assoc.insert] at hp; subst hp; exact hk
  | cons x t ih =>
    obtain ⟨b, w⟩ := x
    have ht : Assoc.Above a t := fun p hp => h p (List.mem_cons_of_mem _ hp)
    have hb : a < b := h (b, w) (List.mem_cons_self ..)
    simp only [Assoc.insert]
    split
    · intro p hp
      rcases List.mem_cons.mp hp with rfl | hp
      · exact hk
      · exact h p hp
    · split
      · intro p hp
        rcases List.mem_cons.mp hp with rfl | hp
        · exact hk
        · exact ht p hp
      · intro p hp
        rcases List.mem_cons.mp hp with rfl | hp
        · exact hb
        · exact ih ht p hp

theorem Assoc.sorted_insert {γ : Type} (m : Assoc γ) (k : Nat) (v : γ) (h : Assoc.Sorted m = true) :
    Assoc.Sorted (m.insert k v) = true := by
  induction m with
  | nil => simp [Assoc.insert, Assoc.Sorted]
  | cons x t ih =>
    obtain ⟨a, w⟩ := x
    obtain ⟨ha, ht⟩ := Assoc.sorted_cons.mp h
    simp only [Assoc.insert]
    split
    · rename_i hk
      refine Assoc.sorted_cons.mpr ⟨?_, h⟩
      intro p hp
      rcases List.mem_cons.mp hp with rfl | hp
      · exact hk
      · exact Nat.lt_trans hk (ha p hp)
    · split
      · rename_i hk
        subst hk
        exact Assoc.sorted_cons.mpr ⟨ha, ht⟩
      · rename_i h1 h2
        exact Assoc.sorted_cons.mpr ⟨Assoc.above_insert ha (by omega), ih ht⟩

theorem Assoc.erase_sub {γ : Type} (m : Assoc γ) (k : Nat) : ∀ p ∈ m.erase k, p ∈ m := by
  induction m with
  | nil => simp [Assoc.erase]
  | cons x t ih =>
    obtain ⟨a, w⟩ := x
    simp only [Assoc.erase]
    split
    · exact fun p hp => List.mem_cons_of_mem _ (ih p hp)
    · intro p hp
      rcases List.mem_cons.mp hp with rfl | hp
      · exact List.mem_cons_self ..
      · exact List.mem_cons_of_mem _ (ih p hp)

theorem Assoc.sorted_erase {γ : Type} (m : Assoc γ) (k : Nat) (h : Assoc.Sorted m = true) :
    Assoc.Sorted (m.erase k) = true := by
  induction m with
  | nil => simp [Assoc.erase, Assoc.Sorted]
  | cons x t ih =>
    obtain ⟨a, w⟩ := x
    obtain ⟨ha, ht⟩ := Assoc.sorted_cons.mp h
    simp only [Assoc.erase]
    split
    · exact ih ht
    · exact Assoc.sorted_cons.mpr ⟨fun p hp => ha p (Assoc.erase_sub t k p hp), ih ht⟩

/-- No listed pair holds its key's default. -/
theorem Assoc.noDefault_iff (d : Nat → β) (m : Assoc β) : Assoc.NoDefault d m = true ↔ ∀ p ∈ m, p.2 ≠ d p.1 := by
  induction m with
  | nil => simp [Assoc.NoDefault]
  | cons x t ih => obtain ⟨a, w⟩ := x; simp [Assoc.NoDefault, ih]

theorem Assoc.mem_insert {γ : Type} (m : Assoc γ) (k : Nat) (v : γ) : ∀ p ∈ m.insert k v, p = (k, v) ∨ p ∈ m := by
  induction m with
  | nil => simp [Assoc.insert]
  | cons x t ih =>
    obtain ⟨a, w⟩ := x
    intro p hp
    simp only [Assoc.insert] at hp
    split at hp
    · rcases List.mem_cons.mp hp with rfl | hp
      · exact .inl rfl
      · exact .inr hp
    · split at hp
      · rcases List.mem_cons.mp hp with rfl | hp
        · exact .inl rfl
        · exact .inr (List.mem_cons_of_mem _ hp)
      · rcases List.mem_cons.mp hp with rfl | hp
        · exact .inr (List.mem_cons_self ..)
        · rcases ih p hp with h | h
          · exact .inl h
          · exact .inr (List.mem_cons_of_mem _ h)

/-- An update with the key's own default keeps the canonical form. -/
theorem Assoc.canon_setD (d : Nat → β) (m : Assoc β) (k : Nat) (v : β) (h : Assoc.Canon d m = true) :
    Assoc.Canon d (m.setD (d k) k v) = true := by
  simp only [Assoc.Canon, Bool.and_eq_true] at h ⊢
  obtain ⟨hs, hn⟩ := h
  rw [Assoc.noDefault_iff] at hn
  unfold Assoc.setD
  split
  · exact ⟨Assoc.sorted_erase m k hs, (Assoc.noDefault_iff ..).mpr fun p hp => hn p (Assoc.erase_sub m k p hp)⟩
  · rename_i hv
    refine ⟨Assoc.sorted_insert m k v hs, (Assoc.noDefault_iff ..).mpr fun p hp => ?_⟩
    rcases Assoc.mem_insert m k v p hp with rfl | hp
    · exact hv
    · exact hn p hp

/-- Dropping entries keeps the canonical form. -/
theorem Assoc.canon_filter (d : Nat → β) (q : Nat × β → Bool) (m : Assoc β) (h : Assoc.Canon d m = true) :
    Assoc.Canon d (m.filter q) = true := by
  simp only [Assoc.Canon, Bool.and_eq_true] at h ⊢
  obtain ⟨hs, hn⟩ := h
  rw [Assoc.noDefault_iff] at hn
  refine ⟨?_, (Assoc.noDefault_iff ..).mpr fun p hp => hn p ((List.mem_filter.mp hp).1)⟩
  clear hn
  induction m with
  | nil => rfl
  | cons x t ih =>
    obtain ⟨a, w⟩ := x
    obtain ⟨ha, ht⟩ := Assoc.sorted_cons.mp hs
    rw [List.filter_cons]
    split
    · exact Assoc.sorted_cons.mpr ⟨fun p hp => ha p ((List.mem_filter.mp hp).1), ih ht⟩
    · exact ih ht

end Sys2Proof.Machine
end

