-- ==== Sys2Proof/Laws/Locate.lean ====
section
/-! SUPPORT. Where the registers of each unit are found: the search of the address map, run of blocks by run. -/

namespace Sys2Proof.Machine

/-- A run that does not hold the address is passed over. -/
theorem locateIn_skip (hw : Hw) (a : Nat) (u : UnitRun) (t : List UnitRun) (h : a < u.base ∨ u.base + u.stride * u.count ≤ a) :
    locateIn hw a (u :: t) = locateIn hw a t := by
  rw [locateIn, if_neg (by omega)]

/-- Offset o of block i of the run at hand. -/
theorem locateIn_hit (hw : Hw) (u : UnitRun) (t : List UnitRun) (i o : Nat) (hi : i < u.count) (ho : o < u.stride) :
    locateIn hw (u.base + i * u.stride + o) (u :: t) = if unitPresent hw u.unit (u.first + i) then
      (rowAt o (u.rowsOn hw)).map (fun r => ⟨u.unit, u.first + i, o, r.fields⟩) else none := by
  have h1 : u.base + i * u.stride + o - u.base = o + u.stride * i := by rw [Nat.mul_comm]; omega
  have h2 : (o + u.stride * i) / u.stride = i := by
    rw [Nat.add_mul_div_left _ _ (by omega), Nat.div_eq_of_lt ho, Nat.zero_add]
  have h3 : (o + u.stride * i) % u.stride = o := by rw [Nat.add_mul_mod_self_left, Nat.mod_eq_of_lt ho]
  have h4 : i * u.stride + o < u.stride * u.count := by
    have : (i + 1) * u.stride ≤ u.count * u.stride := Nat.mul_le_mul_right _ hi
    rw [Nat.add_mul, Nat.one_mul, Nat.mul_comm u.count] at this
    omega
  rw [locateIn, if_pos (by omega)]
  simp only [h1, h2, h3]

theorem locate_boot (hw : Hw) (o : Nat) (hp : unitPresent hw .boot (0) = true) (ho : o < 0x10000) :
    locate hw (0x40010000 + o) = (rowAt o RegMap.bootRows).map fun r => ⟨.boot, 0, o, r.fields⟩ := by
  rw [locate, if_neg (by omega), if_neg (by omega), if_neg (by omega), unitRuns]
  repeat rw [locateIn_skip _ _ _ _ (by simp only; omega)]
  have h := fun t => locateIn_hit hw ⟨.boot, 0, 0x40010000, 0x10000, 1, RegMap.bootRows⟩ t 0 o (by decide) ho
  simp only [Nat.zero_mul, Nat.add_zero, hp, if_true, UnitRun.rowsOn] at h
  exact h _

theorem locate_tb (hw : Hw) (o : Nat) (hp : unitPresent hw .tb (0) = true) (ho : o < 0x10000) :
    locate hw (0x40100000 + o) = (rowAt o RegMap.tbRows).map fun r => ⟨.tb, 0, o, r.fields⟩ := by
  rw [locate, if_neg (by omega), if_neg (by omega), if_neg (by omega), unitRuns]
  repeat rw [locateIn_skip _ _ _ _ (by simp only; omega)]
  have h := fun t => locateIn_hit hw ⟨.tb, 0, 0x40100000, 0x10000, 1, RegMap.tbRows⟩ t 0 o (by decide) ho
  simp only [Nat.zero_mul, Nat.add_zero, hp, if_true, UnitRun.rowsOn] at h
  exact h _

theorem locate_cc (hw : Hw) (i o : Nat) (hi : i < 1024) (hp : unitPresent hw .cc (i) = true) (ho : o < 0x20) :
    locate hw (0x40110000 + i * 0x20 + o) = (rowAt o RegMap.ccRows).map fun r => ⟨.cc, i, o, r.fields⟩ := by
  rw [locate, if_neg (by omega), if_neg (by omega), if_neg (by omega), unitRuns]
  repeat rw [locateIn_skip _ _ _ _ (by simp only; omega)]
  have h := fun t => locateIn_hit hw ⟨.cc, 0, 0x40110000, 0x20, 1024, RegMap.ccRows⟩ t i o hi ho
  simp only [Nat.zero_add, hp, if_true, UnitRun.rowsOn] at h
  exact h _

theorem locate_cp (hw : Hw) (i o : Nat) (hi : i < 128) (hp : unitPresent hw .cp (i) = true) (ho : o < 0x20) :
    locate hw (0x40120000 + i * 0x20 + o) = (rowAt o RegMap.cpRows).map fun r => ⟨.cp, i, o, r.fields⟩ := by
  rw [locate, if_neg (by omega), if_neg (by omega), if_neg (by omega), unitRuns]
  repeat rw [locateIn_skip _ _ _ _ (by simp only; omega)]
  have h := fun t => locateIn_hit hw ⟨.cp, 0, 0x40120000, 0x20, 128, RegMap.cpRows⟩ t i o hi ho
  simp only [Nat.zero_add, hp, if_true, UnitRun.rowsOn] at h
  exact h _

theorem locate_eg (hw : Hw) (i o : Nat) (hi : i < 96) (hp : unitPresent hw .eg (i) = true) (ho : o < 0x80) :
    locate hw (0x40200000 + i * 0x80 + o) = (rowAt o RegMap.egRows).map fun r => ⟨.eg, i, o, r.fields⟩ := by
  rw [locate, if_neg (by omega), if_neg (by omega), if_neg (by omega), unitRuns]
  repeat rw [locateIn_skip _ _ _ _ (by simp only; omega)]
  have h := fun t => locateIn_hit hw ⟨.eg, 0, 0x40200000, 0x80, 96, RegMap.egRows⟩ t i o hi ho
  simp only [Nat.zero_add, hp, if_true, UnitRun.rowsOn] at h
  exact h _

theorem locate_tg (hw : Hw) (i o : Nat) (hi : i < 32) (hp : unitPresent hw .tg (i) = true) (ho : o < 0x40) :
    locate hw (0x40208000 + i * 0x40 + o) = (rowAt o RegMap.tgRows).map fun r => ⟨.tg, i, o, r.fields⟩ := by
  rw [locate, if_neg (by omega), if_neg (by omega), if_neg (by omega), unitRuns]
  repeat rw [locateIn_skip _ _ _ _ (by simp only; omega)]
  have h := fun t => locateIn_hit hw ⟨.tg, 0, 0x40208000, 0x40, 32, RegMap.tgRows⟩ t i o hi ho
  simp only [Nat.zero_add, hp, if_true, UnitRun.rowsOn] at h
  exact h _

theorem locate_ad (hw : Hw) (i o : Nat) (hi : i < 32) (hp : unitPresent hw .ad (i) = true) (ho : o < 0x100) :
    locate hw (0x40300000 + i * 0x100 + o) = (rowAt o RegMap.adRows).map fun r => ⟨.ad, i, o, r.fields⟩ := by
  rw [locate, if_neg (by omega), if_neg (by omega), if_neg (by omega), unitRuns]
  repeat rw [locateIn_skip _ _ _ _ (by simp only; omega)]
  have h := fun t => locateIn_hit hw ⟨.ad, 0, 0x40300000, 0x100, 32, RegMap.adRows⟩ t i o hi ho
  simp only [Nat.zero_add, hp, if_true, UnitRun.rowsOn] at h
  exact h _

theorem locate_ac (hw : Hw) (i o : Nat) (hi : i < 64) (hp : unitPresent hw .ac (i) = true) (ho : o < 0x40) :
    locate hw (0x40320000 + i * 0x40 + o) = (rowAt o RegMap.acRows).map fun r => ⟨.ac, i, o, r.fields⟩ := by
  rw [locate, if_neg (by omega), if_neg (by omega), if_neg (by omega), unitRuns]
  repeat rw [locateIn_skip _ _ _ _ (by simp only; omega)]
  have h := fun t => locateIn_hit hw ⟨.ac, 0, 0x40320000, 0x40, 64, RegMap.acRows⟩ t i o hi ho
  simp only [Nat.zero_add, hp, if_true, UnitRun.rowsOn] at h
  exact h _

theorem locate_sd (hw : Hw) (i o : Nat) (hi : i < 32) (hp : unitPresent hw .sd (i) = true) (ho : o < 0x40) :
    locate hw (0x40340000 + i * 0x40 + o) = (rowAt o RegMap.sdRows).map fun r => ⟨.sd, i, o, r.fields⟩ := by
  rw [locate, if_neg (by omega), if_neg (by omega), if_neg (by omega), unitRuns]
  repeat rw [locateIn_skip _ _ _ _ (by simp only; omega)]
  have h := fun t => locateIn_hit hw ⟨.sd, 0, 0x40340000, 0x40, 32, RegMap.sdRows⟩ t i o hi ho
  simp only [Nat.zero_add, hp, if_true, UnitRun.rowsOn] at h
  exact h _

theorem locate_ll (hw : Hw) (i o : Nat) (hi : i < 96) (hp : unitPresent hw .ll (i) = true) (ho : o < 0x40) :
    locate hw (0x40400000 + i * 0x40 + o) = (rowAt o RegMap.llRows).map fun r => ⟨.ll, i, o, r.fields⟩ := by
  rw [locate, if_neg (by omega), if_neg (by omega), if_neg (by omega), unitRuns]
  repeat rw [locateIn_skip _ _ _ _ (by simp only; omega)]
  have h := fun t => locateIn_hit hw ⟨.ll, 0, 0x40400000, 0x40, 96, RegMap.llRows⟩ t i o hi ho
  simp only [Nat.zero_add, hp, if_true, UnitRun.rowsOn] at h
  exact h _

theorem locate_lu (hw : Hw) (i o : Nat) (hi : i < 32) (hp : unitPresent hw .lu (i) = true) (ho : o < 0x100) :
    locate hw (0x40408000 + i * 0x100 + o) = (rowAt o RegMap.luRows).map fun r => ⟨.lu, i, o, r.fields⟩ := by
  rw [locate, if_neg (by omega), if_neg (by omega), if_neg (by omega), unitRuns]
  repeat rw [locateIn_skip _ _ _ _ (by simp only; omega)]
  have h := fun t => locateIn_hit hw ⟨.lu, 0, 0x40408000, 0x100, 32, RegMap.luRows⟩ t i o hi ho
  simp only [Nat.zero_add, hp, if_true, UnitRun.rowsOn] at h
  exact h _

theorem locate_hl (hw : Hw) (i o : Nat) (hi : i < 16) (hp : unitPresent hw .hl (i) = true) (ho : o < 0x100) :
    locate hw (0x40500000 + i * 0x100 + o) = (rowAt o RegMap.hlRows).map fun r => ⟨.hl, i, o, r.fields⟩ := by
  rw [locate, if_neg (by omega), if_neg (by omega), if_neg (by omega), unitRuns]
  repeat rw [locateIn_skip _ _ _ _ (by simp only; omega)]
  have h := fun t => locateIn_hit hw ⟨.hl, 0, 0x40500000, 0x100, 16, RegMap.hlRows⟩ t i o hi ho
  simp only [Nat.zero_add, hp, if_true, UnitRun.rowsOn] at h
  exact h _

theorem locate_hlpt (hw : Hw) (i o : Nat) (hi : i < 16) (hp : unitPresent hw .hlpt (i) = true) (ho : o < 0x2000) :
    locate hw (0x40580000 + i * 0x2000 + o) = (rowAt o RegMap.hlptRows).map fun r => ⟨.hlpt, i, o, r.fields⟩ := by
  rw [locate, if_neg (by omega), if_neg (by omega), if_neg (by omega), unitRuns]
  repeat rw [locateIn_skip _ _ _ _ (by simp only; omega)]
  have h := fun t => locateIn_hit hw ⟨.hlpt, 0, 0x40580000, 0x2000, 16, RegMap.hlptRows⟩ t i o hi ho
  simp only [Nat.zero_add, hp, if_true, UnitRun.rowsOn] at h
  exact h _

theorem locate_fb (hw : Hw) (i o : Nat) (hi : i < 24) (hp : unitPresent hw .fb (i) = true) (ho : o < 0x200) :
    locate hw (0x40600000 + i * 0x200 + o) = (rowAt o RegMap.fbRows).map fun r => ⟨.fb, i, o, r.fields⟩ := by
  rw [locate, if_neg (by omega), if_neg (by omega), if_neg (by omega), unitRuns]
  repeat rw [locateIn_skip _ _ _ _ (by simp only; omega)]
  have h := fun t => locateIn_hit hw ⟨.fb, 0, 0x40600000, 0x200, 24, RegMap.fbRows⟩ t i o hi ho
  simp only [Nat.zero_add, hp, if_true, UnitRun.rowsOn] at h
  exact h _

theorem locate_emu (hw : Hw) (i o : Nat) (hi : i < 8) (hp : unitPresent hw .emu (i) = true) (ho : o < 0x40) :
    locate hw (0x40680000 + i * 0x40 + o) = (rowAt o RegMap.emuRows).map fun r => ⟨.emu, i, o, r.fields⟩ := by
  rw [locate, if_neg (by omega), if_neg (by omega), if_neg (by omega), unitRuns]
  repeat rw [locateIn_skip _ _ _ _ (by simp only; omega)]
  have h := fun t => locateIn_hit hw ⟨.emu, 0, 0x40680000, 0x40, 8, RegMap.emuRows⟩ t i o hi ho
  simp only [Nat.zero_add, hp, if_true, UnitRun.rowsOn] at h
  exact h _

theorem locate_fg (hw : Hw) (i o : Nat) (hi : i < 16) (hp : unitPresent hw .fg (i) = true) (ho : o < 0x80) :
    locate hw (0x40700000 + i * 0x80 + o) = (rowAt o RegMap.fgRows).map fun r => ⟨.fg, i, o, r.fields⟩ := by
  rw [locate, if_neg (by omega), if_neg (by omega), if_neg (by omega), unitRuns]
  repeat rw [locateIn_skip _ _ _ _ (by simp only; omega)]
  have h := fun t => locateIn_hit hw ⟨.fg, 0, 0x40700000, 0x80, 16, RegMap.fgRows⟩ t i o hi ho
  simp only [Nat.zero_add, hp, if_true, UnitRun.rowsOn] at h
  exact h _

theorem locate_hc (hw : Hw) (i o : Nat) (hi : i < 64) (hp : unitPresent hw .hc (i) = true) (ho : o < 0x40) :
    locate hw (0x40710000 + i * 0x40 + o) = (rowAt o RegMap.hcRows).map fun r => ⟨.hc, i, o, r.fields⟩ := by
  rw [locate, if_neg (by omega), if_neg (by omega), if_neg (by omega), unitRuns]
  repeat rw [locateIn_skip _ _ _ _ (by simp only; omega)]
  have h := fun t => locateIn_hit hw ⟨.hc, 0, 0x40710000, 0x40, 64, RegMap.hcRows⟩ t i o hi ho
  simp only [Nat.zero_add, hp, if_true, UnitRun.rowsOn] at h
  exact h _

theorem locate_lq (hw : Hw) (i o : Nat) (hi : i < 6) (hp : unitPresent hw .lq (2 + i) = true) (ho : o < 0x10) :
    locate hw (0x40708020 + i * 0x10 + o) = (rowAt o RegMap.lqRows).map fun r => ⟨.lq, 2 + i, o, r.fields⟩ := by
  rw [locate, if_neg (by omega), if_neg (by omega), if_neg (by omega), unitRuns]
  repeat rw [locateIn_skip _ _ _ _ (by simp only; omega)]
  have h := fun t => locateIn_hit hw ⟨.lq, 2, 0x40708020, 0x10, 6, RegMap.lqRows⟩ t i o hi ho
  simp only [hp, if_true, UnitRun.rowsOn] at h
  exact h _

theorem locate_fa (hw : Hw) (o : Nat) (hp : unitPresent hw .fa (0) = true) (ho : o < 0x10) :
    locate hw (0x40708100 + o) = (rowAt o RegMap.faRows).map fun r => ⟨.fa, 0, o, r.fields⟩ := by
  rw [locate, if_neg (by omega), if_neg (by omega), if_neg (by omega), unitRuns]
  repeat rw [locateIn_skip _ _ _ _ (by simp only; omega)]
  have h := fun t => locateIn_hit hw ⟨.fa, 0, 0x40708100, 0x10, 1, RegMap.faRows⟩ t 0 o (by decide) ho
  simp only [Nat.zero_mul, Nat.add_zero, hp, if_true, UnitRun.rowsOn] at h
  exact h _

theorem locate_ev (hw : Hw) (i o : Nat) (hi : i < 1024) (hp : unitPresent hw .ev (i) = true) (ho : o < 0x40) :
    locate hw (0x50000000 + i * 0x40 + o) = (rowAt o RegMap.evRows).map fun r => ⟨.ev, i, o, r.fields⟩ := by
  rw [locate, if_neg (by omega), if_neg (by omega), if_neg (by omega), unitRuns]
  repeat rw [locateIn_skip _ _ _ _ (by simp only; omega)]
  have h := fun t => locateIn_hit hw ⟨.ev, 0, 0x50000000, 0x40, 1024, RegMap.evRows⟩ t i o hi ho
  simp only [Nat.zero_add, hp, if_true, UnitRun.rowsOn] at h
  exact h _

theorem locate_ev_from1024 (hw : Hw) (i o : Nat) (hi : i < 1024) (hp : unitPresent hw .ev (1024 + i) = true) (ho : o < 0x40) :
    locate hw (0x51000000 + i * 0x40 + o) = (rowAt o RegMap.evRows).map fun r => ⟨.ev, 1024 + i, o, r.fields⟩ := by
  rw [locate, if_neg (by omega), if_neg (by omega), if_neg (by omega), unitRuns]
  repeat rw [locateIn_skip _ _ _ _ (by simp only; omega)]
  have h := fun t => locateIn_hit hw ⟨.ev, 1024, 0x51000000, 0x40, 1024, RegMap.evRows⟩ t i o hi ho
  simp only [hp, if_true, UnitRun.rowsOn] at h
  exact h _

theorem locate_ic (hw : Hw) (o : Nat) (hp : unitPresent hw .ic (0) = true) (ho : o < 0x10000) :
    locate hw (0x50100000 + o) = (rowAt o RegMap.icRows).map fun r => ⟨.ic, 0, o, r.fields⟩ := by
  rw [locate, if_neg (by omega), if_neg (by omega), if_neg (by omega), unitRuns]
  repeat rw [locateIn_skip _ _ _ _ (by simp only; omega)]
  have h := fun t => locateIn_hit hw ⟨.ic, 0, 0x50100000, 0x10000, 1, RegMap.icRows⟩ t 0 o (by decide) ho
  simp only [Nat.zero_mul, Nat.add_zero, hp, if_true, UnitRun.rowsOn] at h
  exact h _

theorem locate_ic_from1 (hw : Hw) (o : Nat) (hp : unitPresent hw .ic (1) = true) (ho : o < 0x10000) :
    locate hw (0x51100000 + o) = (rowAt o RegMap.icRows).map fun r => ⟨.ic, 1, o, r.fields⟩ := by
  rw [locate, if_neg (by omega), if_neg (by omega), if_neg (by omega), unitRuns]
  repeat rw [locateIn_skip _ _ _ _ (by simp only; omega)]
  have h := fun t => locateIn_hit hw ⟨.ic, 1, 0x51100000, 0x10000, 1, RegMap.icRows⟩ t 0 o (by decide) ho
  simp only [Nat.zero_mul, Nat.add_zero, hp, if_true, UnitRun.rowsOn] at h
  exact h _

theorem locate_dm (hw : Hw) (i o : Nat) (hi : i < 32) (hp : unitPresent hw .dm (i) = true) (ho : o < 0x40) :
    locate hw (0x50200000 + i * 0x40 + o) = (rowAt o RegMap.dmRows).map fun r => ⟨.dm, i, o, r.fields⟩ := by
  rw [locate, if_neg (by omega), if_neg (by omega), if_neg (by omega), unitRuns]
  repeat rw [locateIn_skip _ _ _ _ (by simp only; omega)]
  have h := fun t => locateIn_hit hw ⟨.dm, 0, 0x50200000, 0x40, 32, RegMap.dmRows⟩ t i o hi ho
  simp only [Nat.zero_add, hp, if_true, UnitRun.rowsOn] at h
  exact h _

theorem locate_dm_from32 (hw : Hw) (i o : Nat) (hi : i < 32) (hp : unitPresent hw .dm (32 + i) = true) (ho : o < 0x40) :
    locate hw (0x51200000 + i * 0x40 + o) = (rowAt o RegMap.dmRows).map fun r => ⟨.dm, 32 + i, o, r.fields⟩ := by
  rw [locate, if_neg (by omega), if_neg (by omega), if_neg (by omega), unitRuns]
  repeat rw [locateIn_skip _ _ _ _ (by simp only; omega)]
  have h := fun t => locateIn_hit hw ⟨.dm, 32, 0x51200000, 0x40, 32, RegMap.dmRows⟩ t i o hi ho
  simp only [hp, if_true, UnitRun.rowsOn] at h
  exact h _

theorem locate_cv (hw : Hw) (i o : Nat) (hi : i < 8) (hp : unitPresent hw .cv (i) = true) (ho : o < 0x40) :
    locate hw (0x50300000 + i * 0x40 + o) = (rowAt o RegMap.cvRows).map fun r => ⟨.cv, i, o, r.fields⟩ := by
  rw [locate, if_neg (by omega), if_neg (by omega), if_neg (by omega), unitRuns]
  repeat rw [locateIn_skip _ _ _ _ (by simp only; omega)]
  have h := fun t => locateIn_hit hw ⟨.cv, 0, 0x50300000, 0x40, 8, RegMap.cvRows⟩ t i o hi ho
  simp only [Nat.zero_add, hp, if_true, UnitRun.rowsOn] at h
  exact h _

theorem locate_cv_from8 (hw : Hw) (i o : Nat) (hi : i < 8) (hp : unitPresent hw .cv (8 + i) = true) (ho : o < 0x40) :
    locate hw (0x51300000 + i * 0x40 + o) = (rowAt o RegMap.cvRows).map fun r => ⟨.cv, 8 + i, o, r.fields⟩ := by
  rw [locate, if_neg (by omega), if_neg (by omega), if_neg (by omega), unitRuns]
  repeat rw [locateIn_skip _ _ _ _ (by simp only; omega)]
  have h := fun t => locateIn_hit hw ⟨.cv, 8, 0x51300000, 0x40, 8, RegMap.cvRows⟩ t i o hi ho
  simp only [hp, if_true, UnitRun.rowsOn] at h
  exact h _

theorem locate_cv_from16 (hw : Hw) (i o : Nat) (hi : i < 16) (hp : unitPresent hw .cv (16 + i) = true) (ho : o < 0x40) :
    locate hw (0x40800000 + i * 0x40 + o) = (rowAt o RegMap.cvRows).map fun r => ⟨.cv, 16 + i, o, r.fields⟩ := by
  rw [locate, if_neg (by omega), if_neg (by omega), if_neg (by omega), unitRuns]
  repeat rw [locateIn_skip _ _ _ _ (by simp only; omega)]
  have h := fun t => locateIn_hit hw ⟨.cv, 16, 0x40800000, 0x40, 16, RegMap.cvRows⟩ t i o hi ho
  simp only [hp, if_true, UnitRun.rowsOn] at h
  exact h _

theorem locate_cl (hw : Hw) (i o : Nat) (hi : i < 16) (hp : unitPresent hw .cl (i) = true) (ho : o < 0x1000) :
    locate hw (0x50400000 + i * 0x1000 + o) = (rowAt o RegMap.clRows).map fun r => ⟨.cl, i, o, r.fields⟩ := by
  rw [locate, if_neg (by omega), if_neg (by omega), if_neg (by omega), unitRuns]
  repeat rw [locateIn_skip _ _ _ _ (by simp only; omega)]
  have h := fun t => locateIn_hit hw ⟨.cl, 0, 0x50400000, 0x1000, 16, RegMap.clRows⟩ t i o hi ho
  simp only [Nat.zero_add, hp, if_true, UnitRun.rowsOn] at h
  exact h _

theorem locate_cl_from16 (hw : Hw) (i o : Nat) (hi : i < 16) (hp : unitPresent hw .cl (16 + i) = true) (ho : o < 0x1000) :
    locate hw (0x51400000 + i * 0x1000 + o) = (rowAt o RegMap.clRows).map fun r => ⟨.cl, 16 + i, o, r.fields⟩ := by
  rw [locate, if_neg (by omega), if_neg (by omega), if_neg (by omega), unitRuns]
  repeat rw [locateIn_skip _ _ _ _ (by simp only; omega)]
  have h := fun t => locateIn_hit hw ⟨.cl, 16, 0x51400000, 0x1000, 16, RegMap.clRows⟩ t i o hi ho
  simp only [hp, if_true, UnitRun.rowsOn] at h
  exact h _

theorem locate_uc (hw : Hw) (i o : Nat) (hi : i < 128) (hp : unitPresent hw .uc (i) = true) (ho : o < 0x1000) :
    locate hw (0x50480000 + i * 0x1000 + o) = (rowAt o (UnitRun.rowsOn hw ⟨.uc, 0, 0x50480000, 0x1000, 128, RegMap.ucRows⟩)).map fun r => ⟨.uc, i, o, r.fields⟩ := by
  rw [locate, if_neg (by omega), if_neg (by omega), if_neg (by omega), unitRuns]
  repeat rw [locateIn_skip _ _ _ _ (by simp only; omega)]
  have h := fun t => locateIn_hit hw ⟨.uc, 0, 0x50480000, 0x1000, 128, RegMap.ucRows⟩ t i o hi ho
  simp only [Nat.zero_add, hp, if_true] at h
  exact h _

theorem locate_uc_from128 (hw : Hw) (i o : Nat) (hi : i < 128) (hp : unitPresent hw .uc (128 + i) = true) (ho : o < 0x1000) :
    locate hw (0x51480000 + i * 0x1000 + o) = (rowAt o (UnitRun.rowsOn hw ⟨.uc, 128, 0x51480000, 0x1000, 128, RegMap.ucRows⟩)).map fun r => ⟨.uc, 128 + i, o, r.fields⟩ := by
  rw [locate, if_neg (by omega), if_neg (by omega), if_neg (by omega), unitRuns]
  repeat rw [locateIn_skip _ _ _ _ (by simp only; omega)]
  have h := fun t => locateIn_hit hw ⟨.uc, 128, 0x51480000, 0x1000, 128, RegMap.ucRows⟩ t i o hi ho
  simp only [hp, if_true] at h
  exact h _

theorem locate_sum (hw : Hw) (o : Nat) (hp : unitPresent hw .sum (0) = true) (ho : o < 0x10000) :
    locate hw (0x50600000 + o) = (rowAt o RegMap.sumRows).map fun r => ⟨.sum, 0, o, r.fields⟩ := by
  rw [locate, if_neg (by omega), if_neg (by omega), if_neg (by omega), unitRuns]
  repeat rw [locateIn_skip _ _ _ _ (by simp only; omega)]
  have h := fun t => locateIn_hit hw ⟨.sum, 0, 0x50600000, 0x10000, 1, RegMap.sumRows⟩ t 0 o (by decide) ho
  simp only [Nat.zero_mul, Nat.add_zero, hp, if_true, UnitRun.rowsOn] at h
  exact h _

theorem locate_sum_from1 (hw : Hw) (o : Nat) (hp : unitPresent hw .sum (1) = true) (ho : o < 0x10000) :
    locate hw (0x51600000 + o) = (rowAt o RegMap.sumRows).map fun r => ⟨.sum, 1, o, r.fields⟩ := by
  rw [locate, if_neg (by omega), if_neg (by omega), if_neg (by omega), unitRuns]
  repeat rw [locateIn_skip _ _ _ _ (by simp only; omega)]
  have h := fun t => locateIn_hit hw ⟨.sum, 1, 0x51600000, 0x10000, 1, RegMap.sumRows⟩ t 0 o (by decide) ho
  simp only [Nat.zero_mul, Nat.add_zero, hp, if_true, UnitRun.rowsOn] at h
  exact h _

theorem locate_fl (hw : Hw) (o : Nat) (hp : unitPresent hw .fl (0) = true) (ho : o < 0x10000) :
    locate hw (0x60000000 + o) = (rowAt o RegMap.flRows).map fun r => ⟨.fl, 0, o, r.fields⟩ := by
  rw [locate, if_neg (by omega), if_neg (by omega), if_neg (by omega), unitRuns]
  repeat rw [locateIn_skip _ _ _ _ (by simp only; omega)]
  have h := fun t => locateIn_hit hw ⟨.fl, 0, 0x60000000, 0x10000, 1, RegMap.flRows⟩ t 0 o (by decide) ho
  simp only [Nat.zero_mul, Nat.add_zero, hp, if_true, UnitRun.rowsOn] at h
  exact h _

theorem locate_gl (hw : Hw) (i o : Nat) (hi : i < 8) (hp : unitPresent hw .gl (i) = true) (ho : o < 0x100) :
    locate hw (0x40900000 + i * 0x100 + o) = (rowAt o RegMap.glRows).map fun r => ⟨.gl, i, o, r.fields⟩ := by
  rw [locate, if_neg (by omega), if_neg (by omega), if_neg (by omega), unitRuns]
  repeat rw [locateIn_skip _ _ _ _ (by simp only; omega)]
  have h := fun t => locateIn_hit hw ⟨.gl, 0, 0x40900000, 0x100, 8, RegMap.glRows⟩ t i o hi ho
  simp only [Nat.zero_add, hp, if_true, UnitRun.rowsOn] at h
  exact h _

theorem locate_hp (hw : Hw) (o : Nat) (hp : unitPresent hw .hp (0) = true) (ho : o < 0x10000) :
    locate hw (0x40A00000 + o) = (rowAt o RegMap.hpRows).map fun r => ⟨.hp, 0, o, r.fields⟩ := by
  rw [locate, if_neg (by omega), if_neg (by omega), if_neg (by omega), unitRuns]
  repeat rw [locateIn_skip _ _ _ _ (by simp only; omega)]
  have h := fun t => locateIn_hit hw ⟨.hp, 0, 0x40A00000, 0x10000, 1, RegMap.hpRows⟩ t 0 o (by decide) ho
  simp only [Nat.zero_mul, Nat.add_zero, hp, if_true, UnitRun.rowsOn] at h
  exact h _

theorem locate_sp (hw : Hw) (o : Nat) (hp : unitPresent hw .sp (0) = true) (ho : o < 0x40) :
    locate hw (0x40B00000 + o) = (rowAt o RegMap.spRows).map fun r => ⟨.sp, 0, o, r.fields⟩ := by
  rw [locate, if_neg (by omega), if_neg (by omega), if_neg (by omega), unitRuns]
  repeat rw [locateIn_skip _ _ _ _ (by simp only; omega)]
  have h := fun t => locateIn_hit hw ⟨.sp, 0, 0x40B00000, 0x40, 1, RegMap.spRows⟩ t 0 o (by decide) ho
  simp only [Nat.zero_mul, Nat.add_zero, hp, if_true, UnitRun.rowsOn] at h
  exact h _

theorem locate_pe (hw : Hw) (i o : Nat) (hi : i < 2) (hp : unitPresent hw .pe (i) = true) (ho : o < 0x20) :
    locate hw (0x40B00040 + i * 0x20 + o) = (rowAt o RegMap.peRows).map fun r => ⟨.pe, i, o, r.fields⟩ := by
  rw [locate, if_neg (by omega), if_neg (by omega), if_neg (by omega), unitRuns]
  repeat rw [locateIn_skip _ _ _ _ (by simp only; omega)]
  have h := fun t => locateIn_hit hw ⟨.pe, 0, 0x40B00040, 0x20, 2, RegMap.peRows⟩ t i o hi ho
  simp only [Nat.zero_add, hp, if_true, UnitRun.rowsOn] at h
  exact h _

theorem locate_job (hw : Hw) (i o : Nat) (hi : i < 256) (hp : unitPresent hw .job (i) = true) (ho : o < 0x100) :
    locate hw (0x40B10000 + i * 0x100 + o) = (rowAt o RegMap.jobRows).map fun r => ⟨.job, i, o, r.fields⟩ := by
  rw [locate, if_neg (by omega), if_neg (by omega), if_neg (by omega), unitRuns]
  repeat rw [locateIn_skip _ _ _ _ (by simp only; omega)]
  have h := fun t => locateIn_hit hw ⟨.job, 0, 0x40B10000, 0x100, 256, RegMap.jobRows⟩ t i o hi ho
  simp only [Nat.zero_add, hp, if_true, UnitRun.rowsOn] at h
  exact h _

theorem locate_pv (hw : Hw) (o : Nat) (hp : unitPresent hw .pv (0) = true) (ho : o < 0x10000) :
    locate hw (0x40C00000 + o) = (rowAt o RegMap.pvRows).map fun r => ⟨.pv, 0, o, r.fields⟩ := by
  rw [locate, if_neg (by omega), if_neg (by omega), if_neg (by omega), unitRuns]
  repeat rw [locateIn_skip _ _ _ _ (by simp only; omega)]
  have h := fun t => locateIn_hit hw ⟨.pv, 0, 0x40C00000, 0x10000, 1, RegMap.pvRows⟩ t 0 o (by decide) ho
  simp only [Nat.zero_mul, Nat.add_zero, hp, if_true, UnitRun.rowsOn] at h
  exact h _

theorem locate_pw (hw : Hw) (o : Nat) (hp : unitPresent hw .pw (0) = true) (ho : o < 0x10000) :
    locate hw (0x40D00000 + o) = (rowAt o RegMap.pwRows).map fun r => ⟨.pw, 0, o, r.fields⟩ := by
  rw [locate, if_neg (by omega), if_neg (by omega), if_neg (by omega), unitRuns]
  repeat rw [locateIn_skip _ _ _ _ (by simp only; omega)]
  have h := fun t => locateIn_hit hw ⟨.pw, 0, 0x40D00000, 0x10000, 1, RegMap.pwRows⟩ t 0 o (by decide) ho
  simp only [Nat.zero_mul, Nat.add_zero, hp, if_true, UnitRun.rowsOn] at h
  exact h _

end Sys2Proof.Machine
end

