-- ==== Sys2Proof/Laws/State.lean ====
section
/-! SUPPORT. What each update of the state leaves: one lemma per field per update. -/

namespace Sys2Proof.Machine

/-! ### Block.wr -/

@[simp] theorem Block.wr_resp (b : Block) (a v : Nat) : (b.wr a v).resp = b.resp := rfl
@[simp] theorem Block.wr_respTag (b : Block) (a v : Nat) : (b.wr a v).respTag = b.respTag := rfl
@[simp] theorem Block.wr_freeCount (b : Block) (a v : Nat) : (b.wr a v).freeCount = b.freeCount := rfl
@[simp] theorem Block.wr_fc (b : Block) (a v : Nat) : (b.wr a v).fc = b.fc := rfl
@[simp] theorem Block.wr_flights (b : Block) (a v : Nat) : (b.wr a v).flights = b.flights := rfl
@[simp] theorem Block.wr_marks (b : Block) (a v : Nat) : (b.wr a v).marks = b.marks := rfl
@[simp] theorem Block.wr_own (b : Block) (a v : Nat) : (b.wr a v).own = b.own := rfl
@[simp] theorem Block.wr_moved (b : Block) (a v : Nat) : (b.wr a v).moved = b.moved := rfl
@[simp] theorem Block.wr_enforced (b : Block) (a v : Nat) : (b.wr a v).enforced = b.enforced := rfl
@[simp] theorem Block.wr_balls (b : Block) (a v : Nat) : (b.wr a v).balls = b.balls := rfl
@[simp] theorem Block.wr_outputs (b : Block) (a v : Nat) : (b.wr a v).outputs = b.outputs := rfl
@[simp] theorem Block.wr_tb (b : Block) (a v : Nat) : (b.wr a v).tb = b.tb := rfl
@[simp] theorem Block.wr_cc (b : Block) (a v : Nat) : (b.wr a v).cc = b.cc := rfl
@[simp] theorem Block.wr_cp (b : Block) (a v : Nat) : (b.wr a v).cp = b.cp := rfl
@[simp] theorem Block.wr_eg (b : Block) (a v : Nat) : (b.wr a v).eg = b.eg := rfl
@[simp] theorem Block.wr_tg (b : Block) (a v : Nat) : (b.wr a v).tg = b.tg := rfl
@[simp] theorem Block.wr_asyncSrc (b : Block) (a v : Nat) : (b.wr a v).asyncSrc = b.asyncSrc := rfl
@[simp] theorem Block.wr_ll (b : Block) (a v : Nat) : (b.wr a v).ll = b.ll := rfl
@[simp] theorem Block.wr_lu (b : Block) (a v : Nat) : (b.wr a v).lu = b.lu := rfl
@[simp] theorem Block.wr_nt (b : Block) (a v : Nat) : (b.wr a v).nt = b.nt := rfl
@[simp] theorem Block.wr_lockedUp (b : Block) (a v : Nat) : (b.wr a v).lockedUp = b.lockedUp := rfl
@[simp] theorem Block.wr_heldKeys (b : Block) (a v : Nat) : (b.wr a v).heldKeys = b.heldKeys := rfl
@[simp] theorem Block.wr_ad (b : Block) (a v : Nat) : (b.wr a v).ad = b.ad := rfl
@[simp] theorem Block.wr_ac (b : Block) (a v : Nat) : (b.wr a v).ac = b.ac := rfl
@[simp] theorem Block.wr_sd (b : Block) (a v : Nat) : (b.wr a v).sd = b.sd := rfl
@[simp] theorem Block.wr_hl (b : Block) (a v : Nat) : (b.wr a v).hl = b.hl := rfl
@[simp] theorem Block.wr_fires (b : Block) (a v : Nat) : (b.wr a v).fires = b.fires := rfl
@[simp] theorem Block.wr_fb (b : Block) (a v : Nat) : (b.wr a v).fb = b.fb := rfl
@[simp] theorem Block.wr_emu (b : Block) (a v : Nat) : (b.wr a v).emu = b.emu := rfl
@[simp] theorem Block.wr_mem (b : Block) (a v : Nat) : (b.wr a v).mem = b.mem := rfl
@[simp] theorem Block.wr_syn (b : Block) (a v : Nat) : (b.wr a v).syn = b.syn := rfl
@[simp] theorem Block.wr_flashChk (b : Block) (a v : Nat) : (b.wr a v).flashChk = b.flashChk := rfl
@[simp] theorem Block.wr_flashInc (b : Block) (a v : Nat) : (b.wr a v).flashInc = b.flashInc := rfl
@[simp] theorem Block.wr_oddWant (b : Block) (a v : Nat) : (b.wr a v).oddWant = b.oddWant := rfl
@[simp] theorem Block.wr_oddLast (b : Block) (a v : Nat) : (b.wr a v).oddLast = b.oddLast := rfl
@[simp] theorem Block.wr_scrub (b : Block) (a v : Nat) : (b.wr a v).scrub = b.scrub := rfl
@[simp] theorem Block.wr_fg (b : Block) (a v : Nat) : (b.wr a v).fg = b.fg := rfl
@[simp] theorem Block.wr_hc (b : Block) (a v : Nat) : (b.wr a v).hc = b.hc := rfl
@[simp] theorem Block.wr_faFires (b : Block) (a v : Nat) : (b.wr a v).faFires = b.faFires := rfl
@[simp] theorem Block.wr_lq (b : Block) (a v : Nat) : (b.wr a v).lq = b.lq := rfl
@[simp] theorem Block.wr_eng (b : Block) (a v : Nat) : (b.wr a v).eng = b.eng := rfl
@[simp] theorem Block.wr_pendActs (b : Block) (a v : Nat) : (b.wr a v).pendActs = b.pendActs := rfl
@[simp] theorem Block.wr_edges (b : Block) (a v : Nat) : (b.wr a v).edges = b.edges := rfl
@[simp] theorem Block.wr_doze (b : Block) (a v : Nat) : (b.wr a v).doze = b.doze := rfl
@[simp] theorem Block.wr_takingSince (b : Block) (a v : Nat) : (b.wr a v).takingSince = b.takingSince := rfl
@[simp] theorem Block.wr_taken (b : Block) (a v : Nat) : (b.wr a v).taken = b.taken := rfl
@[simp] theorem Block.wr_icSrc (b : Block) (a v : Nat) : (b.wr a v).icSrc = b.icSrc := rfl
@[simp] theorem Block.wr_icLast (b : Block) (a v : Nat) : (b.wr a v).icLast = b.icLast := rfl
@[simp] theorem Block.wr_cv (b : Block) (a v : Nat) : (b.wr a v).cv = b.cv := rfl
@[simp] theorem Block.wr_cvq (b : Block) (a v : Nat) : (b.wr a v).cvq = b.cvq := rfl
@[simp] theorem Block.wr_gl (b : Block) (a v : Nat) : (b.wr a v).gl = b.gl := rfl
@[simp] theorem Block.wr_su (b : Block) (a v : Nat) : (b.wr a v).su = b.su := rfl
@[simp] theorem Block.wr_pv (b : Block) (a v : Nat) : (b.wr a v).pv = b.pv := rfl
@[simp] theorem Block.wr_fcS (b : Block) (a v : Nat) : (b.wr a v).fcS = b.fcS := rfl
@[simp] theorem Block.wr_dm (b : Block) (a v : Nat) : (b.wr a v).dm = b.dm := rfl
@[simp] theorem Block.wr_sp (b : Block) (a v : Nat) : (b.wr a v).sp = b.sp := rfl
@[simp] theorem Block.wr_jobLen (b : Block) (a v : Nat) : (b.wr a v).jobLen = b.jobLen := rfl
@[simp] theorem Block.wr_flCmd (b : Block) (a v : Nat) : (b.wr a v).flCmd = b.flCmd := rfl
@[simp] theorem Block.wr_flashPint (b : Block) (a v : Nat) : (b.wr a v).flashPint = b.flashPint := rfl
@[simp] theorem Block.wr_flashPinta (b : Block) (a v : Nat) : (b.wr a v).flashPinta = b.flashPinta := rfl
@[simp] theorem Block.wr_hp (b : Block) (a v : Nat) : (b.wr a v).hp = b.hp := rfl
@[simp] theorem Block.wr_hostOut (b : Block) (a v : Nat) : (b.wr a v).hostOut = b.hostOut := rfl
@[simp] theorem Block.wr_pinMap (b : Block) (a v : Nat) : (b.wr a v).pinMap = b.pinMap := rfl
@[simp] theorem Block.wr_always (b : Block) (a v : Nat) : (b.wr a v).always = b.always := rfl
@[simp] theorem Block.wr_tap (b : Block) (a v : Nat) : (b.wr a v).tap = b.tap := rfl
@[simp] theorem Block.wr_wdHalf (b : Block) (a v : Nat) : (b.wr a v).wdHalf = b.wdHalf := rfl
@[simp] theorem Block.wr_resetDue (b : Block) (a v : Nat) : (b.wr a v).resetDue = b.resetDue := rfl
@[simp] theorem Block.wr_tripLv (b : Block) (a v : Nat) : (b.wr a v).tripLv = b.tripLv := rfl
@[simp] theorem Block.wr_lockWait (b : Block) (a v : Nat) : (b.wr a v).lockWait = b.lockWait := rfl
@[simp] theorem Block.wr_pvWait (b : Block) (a v : Nat) : (b.wr a v).pvWait = b.pvWait := rfl
@[simp] theorem Block.wr_flashQ (b : Block) (a v : Nat) : (b.wr a v).flashQ = b.flashQ := rfl
@[simp] theorem Block.wr_wdLapse (b : Block) (a v : Nat) : (b.wr a v).wdLapse = b.wdLapse := rfl
@[simp] theorem Block.wr_retry (b : Block) (a v : Nat) : (b.wr a v).retry = b.retry := rfl

/-! ### Block.put -/

@[simp] theorem Block.put_resp (b : Block) (f : Fld) (v : Nat) : (b.put f v).resp = b.resp := rfl
@[simp] theorem Block.put_respTag (b : Block) (f : Fld) (v : Nat) : (b.put f v).respTag = b.respTag := rfl
@[simp] theorem Block.put_freeCount (b : Block) (f : Fld) (v : Nat) : (b.put f v).freeCount = b.freeCount := rfl
@[simp] theorem Block.put_fc (b : Block) (f : Fld) (v : Nat) : (b.put f v).fc = b.fc := rfl
@[simp] theorem Block.put_flights (b : Block) (f : Fld) (v : Nat) : (b.put f v).flights = b.flights := rfl
@[simp] theorem Block.put_marks (b : Block) (f : Fld) (v : Nat) : (b.put f v).marks = b.marks := rfl
@[simp] theorem Block.put_own (b : Block) (f : Fld) (v : Nat) : (b.put f v).own = b.own := rfl
@[simp] theorem Block.put_moved (b : Block) (f : Fld) (v : Nat) : (b.put f v).moved = b.moved := rfl
@[simp] theorem Block.put_enforced (b : Block) (f : Fld) (v : Nat) : (b.put f v).enforced = b.enforced := rfl
@[simp] theorem Block.put_balls (b : Block) (f : Fld) (v : Nat) : (b.put f v).balls = b.balls := rfl
@[simp] theorem Block.put_outputs (b : Block) (f : Fld) (v : Nat) : (b.put f v).outputs = b.outputs := rfl
@[simp] theorem Block.put_tb (b : Block) (f : Fld) (v : Nat) : (b.put f v).tb = b.tb := rfl
@[simp] theorem Block.put_cc (b : Block) (f : Fld) (v : Nat) : (b.put f v).cc = b.cc := rfl
@[simp] theorem Block.put_cp (b : Block) (f : Fld) (v : Nat) : (b.put f v).cp = b.cp := rfl
@[simp] theorem Block.put_eg (b : Block) (f : Fld) (v : Nat) : (b.put f v).eg = b.eg := rfl
@[simp] theorem Block.put_tg (b : Block) (f : Fld) (v : Nat) : (b.put f v).tg = b.tg := rfl
@[simp] theorem Block.put_asyncSrc (b : Block) (f : Fld) (v : Nat) : (b.put f v).asyncSrc = b.asyncSrc := rfl
@[simp] theorem Block.put_ll (b : Block) (f : Fld) (v : Nat) : (b.put f v).ll = b.ll := rfl
@[simp] theorem Block.put_lu (b : Block) (f : Fld) (v : Nat) : (b.put f v).lu = b.lu := rfl
@[simp] theorem Block.put_nt (b : Block) (f : Fld) (v : Nat) : (b.put f v).nt = b.nt := rfl
@[simp] theorem Block.put_lockedUp (b : Block) (f : Fld) (v : Nat) : (b.put f v).lockedUp = b.lockedUp := rfl
@[simp] theorem Block.put_heldKeys (b : Block) (f : Fld) (v : Nat) : (b.put f v).heldKeys = b.heldKeys := rfl
@[simp] theorem Block.put_ad (b : Block) (f : Fld) (v : Nat) : (b.put f v).ad = b.ad := rfl
@[simp] theorem Block.put_ac (b : Block) (f : Fld) (v : Nat) : (b.put f v).ac = b.ac := rfl
@[simp] theorem Block.put_sd (b : Block) (f : Fld) (v : Nat) : (b.put f v).sd = b.sd := rfl
@[simp] theorem Block.put_hl (b : Block) (f : Fld) (v : Nat) : (b.put f v).hl = b.hl := rfl
@[simp] theorem Block.put_fires (b : Block) (f : Fld) (v : Nat) : (b.put f v).fires = b.fires := rfl
@[simp] theorem Block.put_fb (b : Block) (f : Fld) (v : Nat) : (b.put f v).fb = b.fb := rfl
@[simp] theorem Block.put_emu (b : Block) (f : Fld) (v : Nat) : (b.put f v).emu = b.emu := rfl
@[simp] theorem Block.put_mem (b : Block) (f : Fld) (v : Nat) : (b.put f v).mem = b.mem := rfl
@[simp] theorem Block.put_syn (b : Block) (f : Fld) (v : Nat) : (b.put f v).syn = b.syn := rfl
@[simp] theorem Block.put_flashChk (b : Block) (f : Fld) (v : Nat) : (b.put f v).flashChk = b.flashChk := rfl
@[simp] theorem Block.put_flashInc (b : Block) (f : Fld) (v : Nat) : (b.put f v).flashInc = b.flashInc := rfl
@[simp] theorem Block.put_oddWant (b : Block) (f : Fld) (v : Nat) : (b.put f v).oddWant = b.oddWant := rfl
@[simp] theorem Block.put_oddLast (b : Block) (f : Fld) (v : Nat) : (b.put f v).oddLast = b.oddLast := rfl
@[simp] theorem Block.put_scrub (b : Block) (f : Fld) (v : Nat) : (b.put f v).scrub = b.scrub := rfl
@[simp] theorem Block.put_fg (b : Block) (f : Fld) (v : Nat) : (b.put f v).fg = b.fg := rfl
@[simp] theorem Block.put_hc (b : Block) (f : Fld) (v : Nat) : (b.put f v).hc = b.hc := rfl
@[simp] theorem Block.put_faFires (b : Block) (f : Fld) (v : Nat) : (b.put f v).faFires = b.faFires := rfl
@[simp] theorem Block.put_lq (b : Block) (f : Fld) (v : Nat) : (b.put f v).lq = b.lq := rfl
@[simp] theorem Block.put_eng (b : Block) (f : Fld) (v : Nat) : (b.put f v).eng = b.eng := rfl
@[simp] theorem Block.put_pendActs (b : Block) (f : Fld) (v : Nat) : (b.put f v).pendActs = b.pendActs := rfl
@[simp] theorem Block.put_edges (b : Block) (f : Fld) (v : Nat) : (b.put f v).edges = b.edges := rfl
@[simp] theorem Block.put_doze (b : Block) (f : Fld) (v : Nat) : (b.put f v).doze = b.doze := rfl
@[simp] theorem Block.put_takingSince (b : Block) (f : Fld) (v : Nat) : (b.put f v).takingSince = b.takingSince := rfl
@[simp] theorem Block.put_taken (b : Block) (f : Fld) (v : Nat) : (b.put f v).taken = b.taken := rfl
@[simp] theorem Block.put_icSrc (b : Block) (f : Fld) (v : Nat) : (b.put f v).icSrc = b.icSrc := rfl
@[simp] theorem Block.put_icLast (b : Block) (f : Fld) (v : Nat) : (b.put f v).icLast = b.icLast := rfl
@[simp] theorem Block.put_cv (b : Block) (f : Fld) (v : Nat) : (b.put f v).cv = b.cv := rfl
@[simp] theorem Block.put_cvq (b : Block) (f : Fld) (v : Nat) : (b.put f v).cvq = b.cvq := rfl
@[simp] theorem Block.put_gl (b : Block) (f : Fld) (v : Nat) : (b.put f v).gl = b.gl := rfl
@[simp] theorem Block.put_su (b : Block) (f : Fld) (v : Nat) : (b.put f v).su = b.su := rfl
@[simp] theorem Block.put_pv (b : Block) (f : Fld) (v : Nat) : (b.put f v).pv = b.pv := rfl
@[simp] theorem Block.put_fcS (b : Block) (f : Fld) (v : Nat) : (b.put f v).fcS = b.fcS := rfl
@[simp] theorem Block.put_dm (b : Block) (f : Fld) (v : Nat) : (b.put f v).dm = b.dm := rfl
@[simp] theorem Block.put_sp (b : Block) (f : Fld) (v : Nat) : (b.put f v).sp = b.sp := rfl
@[simp] theorem Block.put_jobLen (b : Block) (f : Fld) (v : Nat) : (b.put f v).jobLen = b.jobLen := rfl
@[simp] theorem Block.put_flCmd (b : Block) (f : Fld) (v : Nat) : (b.put f v).flCmd = b.flCmd := rfl
@[simp] theorem Block.put_flashPint (b : Block) (f : Fld) (v : Nat) : (b.put f v).flashPint = b.flashPint := rfl
@[simp] theorem Block.put_flashPinta (b : Block) (f : Fld) (v : Nat) : (b.put f v).flashPinta = b.flashPinta := rfl
@[simp] theorem Block.put_hp (b : Block) (f : Fld) (v : Nat) : (b.put f v).hp = b.hp := rfl
@[simp] theorem Block.put_hostOut (b : Block) (f : Fld) (v : Nat) : (b.put f v).hostOut = b.hostOut := rfl
@[simp] theorem Block.put_pinMap (b : Block) (f : Fld) (v : Nat) : (b.put f v).pinMap = b.pinMap := rfl
@[simp] theorem Block.put_always (b : Block) (f : Fld) (v : Nat) : (b.put f v).always = b.always := rfl
@[simp] theorem Block.put_tap (b : Block) (f : Fld) (v : Nat) : (b.put f v).tap = b.tap := rfl
@[simp] theorem Block.put_wdHalf (b : Block) (f : Fld) (v : Nat) : (b.put f v).wdHalf = b.wdHalf := rfl
@[simp] theorem Block.put_resetDue (b : Block) (f : Fld) (v : Nat) : (b.put f v).resetDue = b.resetDue := rfl
@[simp] theorem Block.put_tripLv (b : Block) (f : Fld) (v : Nat) : (b.put f v).tripLv = b.tripLv := rfl
@[simp] theorem Block.put_lockWait (b : Block) (f : Fld) (v : Nat) : (b.put f v).lockWait = b.lockWait := rfl
@[simp] theorem Block.put_pvWait (b : Block) (f : Fld) (v : Nat) : (b.put f v).pvWait = b.pvWait := rfl
@[simp] theorem Block.put_flashQ (b : Block) (f : Fld) (v : Nat) : (b.put f v).flashQ = b.flashQ := rfl
@[simp] theorem Block.put_wdLapse (b : Block) (f : Fld) (v : Nat) : (b.put f v).wdLapse = b.wdLapse := rfl
@[simp] theorem Block.put_retry (b : Block) (f : Fld) (v : Nat) : (b.put f v).retry = b.retry := rfl

/-! ### Block.flag -/

@[simp] theorem Block.flag_resp (b : Block) (f : Fld) : (b.flag f).resp = b.resp := rfl
@[simp] theorem Block.flag_respTag (b : Block) (f : Fld) : (b.flag f).respTag = b.respTag := rfl
@[simp] theorem Block.flag_freeCount (b : Block) (f : Fld) : (b.flag f).freeCount = b.freeCount := rfl
@[simp] theorem Block.flag_flights (b : Block) (f : Fld) : (b.flag f).flights = b.flights := rfl
@[simp] theorem Block.flag_marks (b : Block) (f : Fld) : (b.flag f).marks = b.marks := rfl
@[simp] theorem Block.flag_own (b : Block) (f : Fld) : (b.flag f).own = b.own := rfl
@[simp] theorem Block.flag_moved (b : Block) (f : Fld) : (b.flag f).moved = b.moved := rfl
@[simp] theorem Block.flag_enforced (b : Block) (f : Fld) : (b.flag f).enforced = b.enforced := rfl
@[simp] theorem Block.flag_balls (b : Block) (f : Fld) : (b.flag f).balls = b.balls := rfl
@[simp] theorem Block.flag_outputs (b : Block) (f : Fld) : (b.flag f).outputs = b.outputs := rfl
@[simp] theorem Block.flag_tb (b : Block) (f : Fld) : (b.flag f).tb = b.tb := rfl
@[simp] theorem Block.flag_cc (b : Block) (f : Fld) : (b.flag f).cc = b.cc := rfl
@[simp] theorem Block.flag_cp (b : Block) (f : Fld) : (b.flag f).cp = b.cp := rfl
@[simp] theorem Block.flag_eg (b : Block) (f : Fld) : (b.flag f).eg = b.eg := rfl
@[simp] theorem Block.flag_tg (b : Block) (f : Fld) : (b.flag f).tg = b.tg := rfl
@[simp] theorem Block.flag_asyncSrc (b : Block) (f : Fld) : (b.flag f).asyncSrc = b.asyncSrc := rfl
@[simp] theorem Block.flag_ll (b : Block) (f : Fld) : (b.flag f).ll = b.ll := rfl
@[simp] theorem Block.flag_lu (b : Block) (f : Fld) : (b.flag f).lu = b.lu := rfl
@[simp] theorem Block.flag_nt (b : Block) (f : Fld) : (b.flag f).nt = b.nt := rfl
@[simp] theorem Block.flag_lockedUp (b : Block) (f : Fld) : (b.flag f).lockedUp = b.lockedUp := rfl
@[simp] theorem Block.flag_heldKeys (b : Block) (f : Fld) : (b.flag f).heldKeys = b.heldKeys := rfl
@[simp] theorem Block.flag_ad (b : Block) (f : Fld) : (b.flag f).ad = b.ad := rfl
@[simp] theorem Block.flag_ac (b : Block) (f : Fld) : (b.flag f).ac = b.ac := rfl
@[simp] theorem Block.flag_sd (b : Block) (f : Fld) : (b.flag f).sd = b.sd := rfl
@[simp] theorem Block.flag_hl (b : Block) (f : Fld) : (b.flag f).hl = b.hl := rfl
@[simp] theorem Block.flag_fires (b : Block) (f : Fld) : (b.flag f).fires = b.fires := rfl
@[simp] theorem Block.flag_fb (b : Block) (f : Fld) : (b.flag f).fb = b.fb := rfl
@[simp] theorem Block.flag_emu (b : Block) (f : Fld) : (b.flag f).emu = b.emu := rfl
@[simp] theorem Block.flag_mem (b : Block) (f : Fld) : (b.flag f).mem = b.mem := rfl
@[simp] theorem Block.flag_syn (b : Block) (f : Fld) : (b.flag f).syn = b.syn := rfl
@[simp] theorem Block.flag_flashChk (b : Block) (f : Fld) : (b.flag f).flashChk = b.flashChk := rfl
@[simp] theorem Block.flag_flashInc (b : Block) (f : Fld) : (b.flag f).flashInc = b.flashInc := rfl
@[simp] theorem Block.flag_oddWant (b : Block) (f : Fld) : (b.flag f).oddWant = b.oddWant := rfl
@[simp] theorem Block.flag_oddLast (b : Block) (f : Fld) : (b.flag f).oddLast = b.oddLast := rfl
@[simp] theorem Block.flag_scrub (b : Block) (f : Fld) : (b.flag f).scrub = b.scrub := rfl
@[simp] theorem Block.flag_fg (b : Block) (f : Fld) : (b.flag f).fg = b.fg := rfl
@[simp] theorem Block.flag_hc (b : Block) (f : Fld) : (b.flag f).hc = b.hc := rfl
@[simp] theorem Block.flag_faFires (b : Block) (f : Fld) : (b.flag f).faFires = b.faFires := rfl
@[simp] theorem Block.flag_lq (b : Block) (f : Fld) : (b.flag f).lq = b.lq := rfl
@[simp] theorem Block.flag_eng (b : Block) (f : Fld) : (b.flag f).eng = b.eng := rfl
@[simp] theorem Block.flag_pendActs (b : Block) (f : Fld) : (b.flag f).pendActs = b.pendActs := rfl
@[simp] theorem Block.flag_edges (b : Block) (f : Fld) : (b.flag f).edges = b.edges := rfl
@[simp] theorem Block.flag_doze (b : Block) (f : Fld) : (b.flag f).doze = b.doze := rfl
@[simp] theorem Block.flag_takingSince (b : Block) (f : Fld) : (b.flag f).takingSince = b.takingSince := rfl
@[simp] theorem Block.flag_taken (b : Block) (f : Fld) : (b.flag f).taken = b.taken := rfl
@[simp] theorem Block.flag_icSrc (b : Block) (f : Fld) : (b.flag f).icSrc = b.icSrc := rfl
@[simp] theorem Block.flag_icLast (b : Block) (f : Fld) : (b.flag f).icLast = b.icLast := rfl
@[simp] theorem Block.flag_cv (b : Block) (f : Fld) : (b.flag f).cv = b.cv := rfl
@[simp] theorem Block.flag_cvq (b : Block) (f : Fld) : (b.flag f).cvq = b.cvq := rfl
@[simp] theorem Block.flag_gl (b : Block) (f : Fld) : (b.flag f).gl = b.gl := rfl
@[simp] theorem Block.flag_su (b : Block) (f : Fld) : (b.flag f).su = b.su := rfl
@[simp] theorem Block.flag_pv (b : Block) (f : Fld) : (b.flag f).pv = b.pv := rfl
@[simp] theorem Block.flag_fcS (b : Block) (f : Fld) : (b.flag f).fcS = b.fcS := rfl
@[simp] theorem Block.flag_dm (b : Block) (f : Fld) : (b.flag f).dm = b.dm := rfl
@[simp] theorem Block.flag_sp (b : Block) (f : Fld) : (b.flag f).sp = b.sp := rfl
@[simp] theorem Block.flag_jobLen (b : Block) (f : Fld) : (b.flag f).jobLen = b.jobLen := rfl
@[simp] theorem Block.flag_flCmd (b : Block) (f : Fld) : (b.flag f).flCmd = b.flCmd := rfl
@[simp] theorem Block.flag_flashPint (b : Block) (f : Fld) : (b.flag f).flashPint = b.flashPint := rfl
@[simp] theorem Block.flag_flashPinta (b : Block) (f : Fld) : (b.flag f).flashPinta = b.flashPinta := rfl
@[simp] theorem Block.flag_hp (b : Block) (f : Fld) : (b.flag f).hp = b.hp := rfl
@[simp] theorem Block.flag_hostOut (b : Block) (f : Fld) : (b.flag f).hostOut = b.hostOut := rfl
@[simp] theorem Block.flag_pinMap (b : Block) (f : Fld) : (b.flag f).pinMap = b.pinMap := rfl
@[simp] theorem Block.flag_always (b : Block) (f : Fld) : (b.flag f).always = b.always := rfl
@[simp] theorem Block.flag_tap (b : Block) (f : Fld) : (b.flag f).tap = b.tap := rfl
@[simp] theorem Block.flag_wdHalf (b : Block) (f : Fld) : (b.flag f).wdHalf = b.wdHalf := rfl
@[simp] theorem Block.flag_resetDue (b : Block) (f : Fld) : (b.flag f).resetDue = b.resetDue := rfl
@[simp] theorem Block.flag_tripLv (b : Block) (f : Fld) : (b.flag f).tripLv = b.tripLv := rfl
@[simp] theorem Block.flag_lockWait (b : Block) (f : Fld) : (b.flag f).lockWait = b.lockWait := rfl
@[simp] theorem Block.flag_pvWait (b : Block) (f : Fld) : (b.flag f).pvWait = b.pvWait := rfl
@[simp] theorem Block.flag_flashQ (b : Block) (f : Fld) : (b.flag f).flashQ = b.flashQ := rfl
@[simp] theorem Block.flag_wdLapse (b : Block) (f : Fld) : (b.flag f).wdLapse = b.wdLapse := rfl
@[simp] theorem Block.flag_retry (b : Block) (f : Fld) : (b.flag f).retry = b.retry := rfl

/-! ### Block.bump -/

@[simp] theorem Block.bump_resp (b : Block) (f : Fld) (k : Nat) : (b.bump f k).resp = b.resp := rfl
@[simp] theorem Block.bump_respTag (b : Block) (f : Fld) (k : Nat) : (b.bump f k).respTag = b.respTag := rfl
@[simp] theorem Block.bump_freeCount (b : Block) (f : Fld) (k : Nat) : (b.bump f k).freeCount = b.freeCount := rfl
@[simp] theorem Block.bump_flights (b : Block) (f : Fld) (k : Nat) : (b.bump f k).flights = b.flights := rfl
@[simp] theorem Block.bump_marks (b : Block) (f : Fld) (k : Nat) : (b.bump f k).marks = b.marks := rfl
@[simp] theorem Block.bump_own (b : Block) (f : Fld) (k : Nat) : (b.bump f k).own = b.own := rfl
@[simp] theorem Block.bump_moved (b : Block) (f : Fld) (k : Nat) : (b.bump f k).moved = b.moved := rfl
@[simp] theorem Block.bump_enforced (b : Block) (f : Fld) (k : Nat) : (b.bump f k).enforced = b.enforced := rfl
@[simp] theorem Block.bump_balls (b : Block) (f : Fld) (k : Nat) : (b.bump f k).balls = b.balls := rfl
@[simp] theorem Block.bump_outputs (b : Block) (f : Fld) (k : Nat) : (b.bump f k).outputs = b.outputs := rfl
@[simp] theorem Block.bump_tb (b : Block) (f : Fld) (k : Nat) : (b.bump f k).tb = b.tb := rfl
@[simp] theorem Block.bump_cc (b : Block) (f : Fld) (k : Nat) : (b.bump f k).cc = b.cc := rfl
@[simp] theorem Block.bump_cp (b : Block) (f : Fld) (k : Nat) : (b.bump f k).cp = b.cp := rfl
@[simp] theorem Block.bump_eg (b : Block) (f : Fld) (k : Nat) : (b.bump f k).eg = b.eg := rfl
@[simp] theorem Block.bump_tg (b : Block) (f : Fld) (k : Nat) : (b.bump f k).tg = b.tg := rfl
@[simp] theorem Block.bump_asyncSrc (b : Block) (f : Fld) (k : Nat) : (b.bump f k).asyncSrc = b.asyncSrc := rfl
@[simp] theorem Block.bump_ll (b : Block) (f : Fld) (k : Nat) : (b.bump f k).ll = b.ll := rfl
@[simp] theorem Block.bump_lu (b : Block) (f : Fld) (k : Nat) : (b.bump f k).lu = b.lu := rfl
@[simp] theorem Block.bump_nt (b : Block) (f : Fld) (k : Nat) : (b.bump f k).nt = b.nt := rfl
@[simp] theorem Block.bump_lockedUp (b : Block) (f : Fld) (k : Nat) : (b.bump f k).lockedUp = b.lockedUp := rfl
@[simp] theorem Block.bump_heldKeys (b : Block) (f : Fld) (k : Nat) : (b.bump f k).heldKeys = b.heldKeys := rfl
@[simp] theorem Block.bump_ad (b : Block) (f : Fld) (k : Nat) : (b.bump f k).ad = b.ad := rfl
@[simp] theorem Block.bump_ac (b : Block) (f : Fld) (k : Nat) : (b.bump f k).ac = b.ac := rfl
@[simp] theorem Block.bump_sd (b : Block) (f : Fld) (k : Nat) : (b.bump f k).sd = b.sd := rfl
@[simp] theorem Block.bump_hl (b : Block) (f : Fld) (k : Nat) : (b.bump f k).hl = b.hl := rfl
@[simp] theorem Block.bump_fires (b : Block) (f : Fld) (k : Nat) : (b.bump f k).fires = b.fires := rfl
@[simp] theorem Block.bump_fb (b : Block) (f : Fld) (k : Nat) : (b.bump f k).fb = b.fb := rfl
@[simp] theorem Block.bump_emu (b : Block) (f : Fld) (k : Nat) : (b.bump f k).emu = b.emu := rfl
@[simp] theorem Block.bump_mem (b : Block) (f : Fld) (k : Nat) : (b.bump f k).mem = b.mem := rfl
@[simp] theorem Block.bump_syn (b : Block) (f : Fld) (k : Nat) : (b.bump f k).syn = b.syn := rfl
@[simp] theorem Block.bump_flashChk (b : Block) (f : Fld) (k : Nat) : (b.bump f k).flashChk = b.flashChk := rfl
@[simp] theorem Block.bump_flashInc (b : Block) (f : Fld) (k : Nat) : (b.bump f k).flashInc = b.flashInc := rfl
@[simp] theorem Block.bump_oddWant (b : Block) (f : Fld) (k : Nat) : (b.bump f k).oddWant = b.oddWant := rfl
@[simp] theorem Block.bump_oddLast (b : Block) (f : Fld) (k : Nat) : (b.bump f k).oddLast = b.oddLast := rfl
@[simp] theorem Block.bump_scrub (b : Block) (f : Fld) (k : Nat) : (b.bump f k).scrub = b.scrub := rfl
@[simp] theorem Block.bump_fg (b : Block) (f : Fld) (k : Nat) : (b.bump f k).fg = b.fg := rfl
@[simp] theorem Block.bump_hc (b : Block) (f : Fld) (k : Nat) : (b.bump f k).hc = b.hc := rfl
@[simp] theorem Block.bump_faFires (b : Block) (f : Fld) (k : Nat) : (b.bump f k).faFires = b.faFires := rfl
@[simp] theorem Block.bump_lq (b : Block) (f : Fld) (k : Nat) : (b.bump f k).lq = b.lq := rfl
@[simp] theorem Block.bump_eng (b : Block) (f : Fld) (k : Nat) : (b.bump f k).eng = b.eng := rfl
@[simp] theorem Block.bump_pendActs (b : Block) (f : Fld) (k : Nat) : (b.bump f k).pendActs = b.pendActs := rfl
@[simp] theorem Block.bump_edges (b : Block) (f : Fld) (k : Nat) : (b.bump f k).edges = b.edges := rfl
@[simp] theorem Block.bump_doze (b : Block) (f : Fld) (k : Nat) : (b.bump f k).doze = b.doze := rfl
@[simp] theorem Block.bump_takingSince (b : Block) (f : Fld) (k : Nat) : (b.bump f k).takingSince = b.takingSince := rfl
@[simp] theorem Block.bump_taken (b : Block) (f : Fld) (k : Nat) : (b.bump f k).taken = b.taken := rfl
@[simp] theorem Block.bump_icSrc (b : Block) (f : Fld) (k : Nat) : (b.bump f k).icSrc = b.icSrc := rfl
@[simp] theorem Block.bump_icLast (b : Block) (f : Fld) (k : Nat) : (b.bump f k).icLast = b.icLast := rfl
@[simp] theorem Block.bump_cv (b : Block) (f : Fld) (k : Nat) : (b.bump f k).cv = b.cv := rfl
@[simp] theorem Block.bump_cvq (b : Block) (f : Fld) (k : Nat) : (b.bump f k).cvq = b.cvq := rfl
@[simp] theorem Block.bump_gl (b : Block) (f : Fld) (k : Nat) : (b.bump f k).gl = b.gl := rfl
@[simp] theorem Block.bump_su (b : Block) (f : Fld) (k : Nat) : (b.bump f k).su = b.su := rfl
@[simp] theorem Block.bump_pv (b : Block) (f : Fld) (k : Nat) : (b.bump f k).pv = b.pv := rfl
@[simp] theorem Block.bump_fcS (b : Block) (f : Fld) (k : Nat) : (b.bump f k).fcS = b.fcS := rfl
@[simp] theorem Block.bump_dm (b : Block) (f : Fld) (k : Nat) : (b.bump f k).dm = b.dm := rfl
@[simp] theorem Block.bump_sp (b : Block) (f : Fld) (k : Nat) : (b.bump f k).sp = b.sp := rfl
@[simp] theorem Block.bump_jobLen (b : Block) (f : Fld) (k : Nat) : (b.bump f k).jobLen = b.jobLen := rfl
@[simp] theorem Block.bump_flCmd (b : Block) (f : Fld) (k : Nat) : (b.bump f k).flCmd = b.flCmd := rfl
@[simp] theorem Block.bump_flashPint (b : Block) (f : Fld) (k : Nat) : (b.bump f k).flashPint = b.flashPint := rfl
@[simp] theorem Block.bump_flashPinta (b : Block) (f : Fld) (k : Nat) : (b.bump f k).flashPinta = b.flashPinta := rfl
@[simp] theorem Block.bump_hp (b : Block) (f : Fld) (k : Nat) : (b.bump f k).hp = b.hp := rfl
@[simp] theorem Block.bump_hostOut (b : Block) (f : Fld) (k : Nat) : (b.bump f k).hostOut = b.hostOut := rfl
@[simp] theorem Block.bump_pinMap (b : Block) (f : Fld) (k : Nat) : (b.bump f k).pinMap = b.pinMap := rfl
@[simp] theorem Block.bump_always (b : Block) (f : Fld) (k : Nat) : (b.bump f k).always = b.always := rfl
@[simp] theorem Block.bump_tap (b : Block) (f : Fld) (k : Nat) : (b.bump f k).tap = b.tap := rfl
@[simp] theorem Block.bump_wdHalf (b : Block) (f : Fld) (k : Nat) : (b.bump f k).wdHalf = b.wdHalf := rfl
@[simp] theorem Block.bump_resetDue (b : Block) (f : Fld) (k : Nat) : (b.bump f k).resetDue = b.resetDue := rfl
@[simp] theorem Block.bump_tripLv (b : Block) (f : Fld) (k : Nat) : (b.bump f k).tripLv = b.tripLv := rfl
@[simp] theorem Block.bump_lockWait (b : Block) (f : Fld) (k : Nat) : (b.bump f k).lockWait = b.lockWait := rfl
@[simp] theorem Block.bump_pvWait (b : Block) (f : Fld) (k : Nat) : (b.bump f k).pvWait = b.pvWait := rfl
@[simp] theorem Block.bump_flashQ (b : Block) (f : Fld) (k : Nat) : (b.bump f k).flashQ = b.flashQ := rfl
@[simp] theorem Block.bump_wdLapse (b : Block) (f : Fld) (k : Nat) : (b.bump f k).wdLapse = b.wdLapse := rfl
@[simp] theorem Block.bump_retry (b : Block) (f : Fld) (k : Nat) : (b.bump f k).retry = b.retry := rfl

/-! ### Block.wrapAdd -/

@[simp] theorem Block.wrapAdd_resp (b : Block) (f : Fld) (k : Nat) : (b.wrapAdd f k).resp = b.resp := rfl
@[simp] theorem Block.wrapAdd_respTag (b : Block) (f : Fld) (k : Nat) : (b.wrapAdd f k).respTag = b.respTag := rfl
@[simp] theorem Block.wrapAdd_freeCount (b : Block) (f : Fld) (k : Nat) : (b.wrapAdd f k).freeCount = b.freeCount := rfl
@[simp] theorem Block.wrapAdd_fc (b : Block) (f : Fld) (k : Nat) : (b.wrapAdd f k).fc = b.fc := rfl
@[simp] theorem Block.wrapAdd_flights (b : Block) (f : Fld) (k : Nat) : (b.wrapAdd f k).flights = b.flights := rfl
@[simp] theorem Block.wrapAdd_marks (b : Block) (f : Fld) (k : Nat) : (b.wrapAdd f k).marks = b.marks := rfl
@[simp] theorem Block.wrapAdd_own (b : Block) (f : Fld) (k : Nat) : (b.wrapAdd f k).own = b.own := rfl
@[simp] theorem Block.wrapAdd_moved (b : Block) (f : Fld) (k : Nat) : (b.wrapAdd f k).moved = b.moved := rfl
@[simp] theorem Block.wrapAdd_enforced (b : Block) (f : Fld) (k : Nat) : (b.wrapAdd f k).enforced = b.enforced := rfl
@[simp] theorem Block.wrapAdd_balls (b : Block) (f : Fld) (k : Nat) : (b.wrapAdd f k).balls = b.balls := rfl
@[simp] theorem Block.wrapAdd_outputs (b : Block) (f : Fld) (k : Nat) : (b.wrapAdd f k).outputs = b.outputs := rfl
@[simp] theorem Block.wrapAdd_tb (b : Block) (f : Fld) (k : Nat) : (b.wrapAdd f k).tb = b.tb := rfl
@[simp] theorem Block.wrapAdd_cc (b : Block) (f : Fld) (k : Nat) : (b.wrapAdd f k).cc = b.cc := rfl
@[simp] theorem Block.wrapAdd_cp (b : Block) (f : Fld) (k : Nat) : (b.wrapAdd f k).cp = b.cp := rfl
@[simp] theorem Block.wrapAdd_eg (b : Block) (f : Fld) (k : Nat) : (b.wrapAdd f k).eg = b.eg := rfl
@[simp] theorem Block.wrapAdd_tg (b : Block) (f : Fld) (k : Nat) : (b.wrapAdd f k).tg = b.tg := rfl
@[simp] theorem Block.wrapAdd_asyncSrc (b : Block) (f : Fld) (k : Nat) : (b.wrapAdd f k).asyncSrc = b.asyncSrc := rfl
@[simp] theorem Block.wrapAdd_ll (b : Block) (f : Fld) (k : Nat) : (b.wrapAdd f k).ll = b.ll := rfl
@[simp] theorem Block.wrapAdd_lu (b : Block) (f : Fld) (k : Nat) : (b.wrapAdd f k).lu = b.lu := rfl
@[simp] theorem Block.wrapAdd_nt (b : Block) (f : Fld) (k : Nat) : (b.wrapAdd f k).nt = b.nt := rfl
@[simp] theorem Block.wrapAdd_lockedUp (b : Block) (f : Fld) (k : Nat) : (b.wrapAdd f k).lockedUp = b.lockedUp := rfl
@[simp] theorem Block.wrapAdd_heldKeys (b : Block) (f : Fld) (k : Nat) : (b.wrapAdd f k).heldKeys = b.heldKeys := rfl
@[simp] theorem Block.wrapAdd_ad (b : Block) (f : Fld) (k : Nat) : (b.wrapAdd f k).ad = b.ad := rfl
@[simp] theorem Block.wrapAdd_ac (b : Block) (f : Fld) (k : Nat) : (b.wrapAdd f k).ac = b.ac := rfl
@[simp] theorem Block.wrapAdd_sd (b : Block) (f : Fld) (k : Nat) : (b.wrapAdd f k).sd = b.sd := rfl
@[simp] theorem Block.wrapAdd_hl (b : Block) (f : Fld) (k : Nat) : (b.wrapAdd f k).hl = b.hl := rfl
@[simp] theorem Block.wrapAdd_fires (b : Block) (f : Fld) (k : Nat) : (b.wrapAdd f k).fires = b.fires := rfl
@[simp] theorem Block.wrapAdd_fb (b : Block) (f : Fld) (k : Nat) : (b.wrapAdd f k).fb = b.fb := rfl
@[simp] theorem Block.wrapAdd_emu (b : Block) (f : Fld) (k : Nat) : (b.wrapAdd f k).emu = b.emu := rfl
@[simp] theorem Block.wrapAdd_mem (b : Block) (f : Fld) (k : Nat) : (b.wrapAdd f k).mem = b.mem := rfl
@[simp] theorem Block.wrapAdd_syn (b : Block) (f : Fld) (k : Nat) : (b.wrapAdd f k).syn = b.syn := rfl
@[simp] theorem Block.wrapAdd_flashChk (b : Block) (f : Fld) (k : Nat) : (b.wrapAdd f k).flashChk = b.flashChk := rfl
@[simp] theorem Block.wrapAdd_flashInc (b : Block) (f : Fld) (k : Nat) : (b.wrapAdd f k).flashInc = b.flashInc := rfl
@[simp] theorem Block.wrapAdd_oddWant (b : Block) (f : Fld) (k : Nat) : (b.wrapAdd f k).oddWant = b.oddWant := rfl
@[simp] theorem Block.wrapAdd_oddLast (b : Block) (f : Fld) (k : Nat) : (b.wrapAdd f k).oddLast = b.oddLast := rfl
@[simp] theorem Block.wrapAdd_scrub (b : Block) (f : Fld) (k : Nat) : (b.wrapAdd f k).scrub = b.scrub := rfl
@[simp] theorem Block.wrapAdd_fg (b : Block) (f : Fld) (k : Nat) : (b.wrapAdd f k).fg = b.fg := rfl
@[simp] theorem Block.wrapAdd_hc (b : Block) (f : Fld) (k : Nat) : (b.wrapAdd f k).hc = b.hc := rfl
@[simp] theorem Block.wrapAdd_faFires (b : Block) (f : Fld) (k : Nat) : (b.wrapAdd f k).faFires = b.faFires := rfl
@[simp] theorem Block.wrapAdd_lq (b : Block) (f : Fld) (k : Nat) : (b.wrapAdd f k).lq = b.lq := rfl
@[simp] theorem Block.wrapAdd_eng (b : Block) (f : Fld) (k : Nat) : (b.wrapAdd f k).eng = b.eng := rfl
@[simp] theorem Block.wrapAdd_pendActs (b : Block) (f : Fld) (k : Nat) : (b.wrapAdd f k).pendActs = b.pendActs := rfl
@[simp] theorem Block.wrapAdd_edges (b : Block) (f : Fld) (k : Nat) : (b.wrapAdd f k).edges = b.edges := rfl
@[simp] theorem Block.wrapAdd_doze (b : Block) (f : Fld) (k : Nat) : (b.wrapAdd f k).doze = b.doze := rfl
@[simp] theorem Block.wrapAdd_takingSince (b : Block) (f : Fld) (k : Nat) : (b.wrapAdd f k).takingSince = b.takingSince := rfl
@[simp] theorem Block.wrapAdd_taken (b : Block) (f : Fld) (k : Nat) : (b.wrapAdd f k).taken = b.taken := rfl
@[simp] theorem Block.wrapAdd_icSrc (b : Block) (f : Fld) (k : Nat) : (b.wrapAdd f k).icSrc = b.icSrc := rfl
@[simp] theorem Block.wrapAdd_icLast (b : Block) (f : Fld) (k : Nat) : (b.wrapAdd f k).icLast = b.icLast := rfl
@[simp] theorem Block.wrapAdd_cv (b : Block) (f : Fld) (k : Nat) : (b.wrapAdd f k).cv = b.cv := rfl
@[simp] theorem Block.wrapAdd_cvq (b : Block) (f : Fld) (k : Nat) : (b.wrapAdd f k).cvq = b.cvq := rfl
@[simp] theorem Block.wrapAdd_gl (b : Block) (f : Fld) (k : Nat) : (b.wrapAdd f k).gl = b.gl := rfl
@[simp] theorem Block.wrapAdd_su (b : Block) (f : Fld) (k : Nat) : (b.wrapAdd f k).su = b.su := rfl
@[simp] theorem Block.wrapAdd_pv (b : Block) (f : Fld) (k : Nat) : (b.wrapAdd f k).pv = b.pv := rfl
@[simp] theorem Block.wrapAdd_fcS (b : Block) (f : Fld) (k : Nat) : (b.wrapAdd f k).fcS = b.fcS := rfl
@[simp] theorem Block.wrapAdd_dm (b : Block) (f : Fld) (k : Nat) : (b.wrapAdd f k).dm = b.dm := rfl
@[simp] theorem Block.wrapAdd_sp (b : Block) (f : Fld) (k : Nat) : (b.wrapAdd f k).sp = b.sp := rfl
@[simp] theorem Block.wrapAdd_jobLen (b : Block) (f : Fld) (k : Nat) : (b.wrapAdd f k).jobLen = b.jobLen := rfl
@[simp] theorem Block.wrapAdd_flCmd (b : Block) (f : Fld) (k : Nat) : (b.wrapAdd f k).flCmd = b.flCmd := rfl
@[simp] theorem Block.wrapAdd_flashPint (b : Block) (f : Fld) (k : Nat) : (b.wrapAdd f k).flashPint = b.flashPint := rfl
@[simp] theorem Block.wrapAdd_flashPinta (b : Block) (f : Fld) (k : Nat) : (b.wrapAdd f k).flashPinta = b.flashPinta := rfl
@[simp] theorem Block.wrapAdd_hp (b : Block) (f : Fld) (k : Nat) : (b.wrapAdd f k).hp = b.hp := rfl
@[simp] theorem Block.wrapAdd_hostOut (b : Block) (f : Fld) (k : Nat) : (b.wrapAdd f k).hostOut = b.hostOut := rfl
@[simp] theorem Block.wrapAdd_pinMap (b : Block) (f : Fld) (k : Nat) : (b.wrapAdd f k).pinMap = b.pinMap := rfl
@[simp] theorem Block.wrapAdd_always (b : Block) (f : Fld) (k : Nat) : (b.wrapAdd f k).always = b.always := rfl
@[simp] theorem Block.wrapAdd_tap (b : Block) (f : Fld) (k : Nat) : (b.wrapAdd f k).tap = b.tap := rfl
@[simp] theorem Block.wrapAdd_wdHalf (b : Block) (f : Fld) (k : Nat) : (b.wrapAdd f k).wdHalf = b.wdHalf := rfl
@[simp] theorem Block.wrapAdd_resetDue (b : Block) (f : Fld) (k : Nat) : (b.wrapAdd f k).resetDue = b.resetDue := rfl
@[simp] theorem Block.wrapAdd_tripLv (b : Block) (f : Fld) (k : Nat) : (b.wrapAdd f k).tripLv = b.tripLv := rfl
@[simp] theorem Block.wrapAdd_lockWait (b : Block) (f : Fld) (k : Nat) : (b.wrapAdd f k).lockWait = b.lockWait := rfl
@[simp] theorem Block.wrapAdd_pvWait (b : Block) (f : Fld) (k : Nat) : (b.wrapAdd f k).pvWait = b.pvWait := rfl
@[simp] theorem Block.wrapAdd_flashQ (b : Block) (f : Fld) (k : Nat) : (b.wrapAdd f k).flashQ = b.flashQ := rfl
@[simp] theorem Block.wrapAdd_wdLapse (b : Block) (f : Fld) (k : Nat) : (b.wrapAdd f k).wdLapse = b.wdLapse := rfl
@[simp] theorem Block.wrapAdd_retry (b : Block) (f : Fld) (k : Nat) : (b.wrapAdd f k).retry = b.retry := rfl

/-! ### Block.violate -/

@[simp] theorem Block.violate_resp (b : Block) (w : Option Nat) (v : Violation) (k : Nat) : (b.violate w v k).resp = b.resp := rfl
@[simp] theorem Block.violate_respTag (b : Block) (w : Option Nat) (v : Violation) (k : Nat) : (b.violate w v k).respTag = b.respTag := rfl
@[simp] theorem Block.violate_freeCount (b : Block) (w : Option Nat) (v : Violation) (k : Nat) : (b.violate w v k).freeCount = b.freeCount := rfl
@[simp] theorem Block.violate_flights (b : Block) (w : Option Nat) (v : Violation) (k : Nat) : (b.violate w v k).flights = b.flights := rfl
@[simp] theorem Block.violate_marks (b : Block) (w : Option Nat) (v : Violation) (k : Nat) : (b.violate w v k).marks = b.marks := rfl
@[simp] theorem Block.violate_own (b : Block) (w : Option Nat) (v : Violation) (k : Nat) : (b.violate w v k).own = b.own := rfl
@[simp] theorem Block.violate_moved (b : Block) (w : Option Nat) (v : Violation) (k : Nat) : (b.violate w v k).moved = b.moved := rfl
@[simp] theorem Block.violate_enforced (b : Block) (w : Option Nat) (v : Violation) (k : Nat) : (b.violate w v k).enforced = b.enforced := rfl
@[simp] theorem Block.violate_balls (b : Block) (w : Option Nat) (v : Violation) (k : Nat) : (b.violate w v k).balls = b.balls := rfl
@[simp] theorem Block.violate_outputs (b : Block) (w : Option Nat) (v : Violation) (k : Nat) : (b.violate w v k).outputs = b.outputs := rfl
@[simp] theorem Block.violate_tb (b : Block) (w : Option Nat) (v : Violation) (k : Nat) : (b.violate w v k).tb = b.tb := rfl
@[simp] theorem Block.violate_cc (b : Block) (w : Option Nat) (v : Violation) (k : Nat) : (b.violate w v k).cc = b.cc := rfl
@[simp] theorem Block.violate_cp (b : Block) (w : Option Nat) (v : Violation) (k : Nat) : (b.violate w v k).cp = b.cp := rfl
@[simp] theorem Block.violate_eg (b : Block) (w : Option Nat) (v : Violation) (k : Nat) : (b.violate w v k).eg = b.eg := rfl
@[simp] theorem Block.violate_tg (b : Block) (w : Option Nat) (v : Violation) (k : Nat) : (b.violate w v k).tg = b.tg := rfl
@[simp] theorem Block.violate_asyncSrc (b : Block) (w : Option Nat) (v : Violation) (k : Nat) : (b.violate w v k).asyncSrc = b.asyncSrc := rfl
@[simp] theorem Block.violate_ll (b : Block) (w : Option Nat) (v : Violation) (k : Nat) : (b.violate w v k).ll = b.ll := rfl
@[simp] theorem Block.violate_lu (b : Block) (w : Option Nat) (v : Violation) (k : Nat) : (b.violate w v k).lu = b.lu := rfl
@[simp] theorem Block.violate_nt (b : Block) (w : Option Nat) (v : Violation) (k : Nat) : (b.violate w v k).nt = b.nt := rfl
@[simp] theorem Block.violate_lockedUp (b : Block) (w : Option Nat) (v : Violation) (k : Nat) : (b.violate w v k).lockedUp = b.lockedUp := rfl
@[simp] theorem Block.violate_heldKeys (b : Block) (w : Option Nat) (v : Violation) (k : Nat) : (b.violate w v k).heldKeys = b.heldKeys := rfl
@[simp] theorem Block.violate_ad (b : Block) (w : Option Nat) (v : Violation) (k : Nat) : (b.violate w v k).ad = b.ad := rfl
@[simp] theorem Block.violate_ac (b : Block) (w : Option Nat) (v : Violation) (k : Nat) : (b.violate w v k).ac = b.ac := rfl
@[simp] theorem Block.violate_sd (b : Block) (w : Option Nat) (v : Violation) (k : Nat) : (b.violate w v k).sd = b.sd := rfl
@[simp] theorem Block.violate_hl (b : Block) (w : Option Nat) (v : Violation) (k : Nat) : (b.violate w v k).hl = b.hl := rfl
@[simp] theorem Block.violate_fires (b : Block) (w : Option Nat) (v : Violation) (k : Nat) : (b.violate w v k).fires = b.fires := rfl
@[simp] theorem Block.violate_fb (b : Block) (w : Option Nat) (v : Violation) (k : Nat) : (b.violate w v k).fb = b.fb := rfl
@[simp] theorem Block.violate_emu (b : Block) (w : Option Nat) (v : Violation) (k : Nat) : (b.violate w v k).emu = b.emu := rfl
@[simp] theorem Block.violate_mem (b : Block) (w : Option Nat) (v : Violation) (k : Nat) : (b.violate w v k).mem = b.mem := rfl
@[simp] theorem Block.violate_syn (b : Block) (w : Option Nat) (v : Violation) (k : Nat) : (b.violate w v k).syn = b.syn := rfl
@[simp] theorem Block.violate_flashChk (b : Block) (w : Option Nat) (v : Violation) (k : Nat) : (b.violate w v k).flashChk = b.flashChk := rfl
@[simp] theorem Block.violate_flashInc (b : Block) (w : Option Nat) (v : Violation) (k : Nat) : (b.violate w v k).flashInc = b.flashInc := rfl
@[simp] theorem Block.violate_oddWant (b : Block) (w : Option Nat) (v : Violation) (k : Nat) : (b.violate w v k).oddWant = b.oddWant := rfl
@[simp] theorem Block.violate_oddLast (b : Block) (w : Option Nat) (v : Violation) (k : Nat) : (b.violate w v k).oddLast = b.oddLast := rfl
@[simp] theorem Block.violate_scrub (b : Block) (w : Option Nat) (v : Violation) (k : Nat) : (b.violate w v k).scrub = b.scrub := rfl
@[simp] theorem Block.violate_fg (b : Block) (w : Option Nat) (v : Violation) (k : Nat) : (b.violate w v k).fg = b.fg := rfl
@[simp] theorem Block.violate_hc (b : Block) (w : Option Nat) (v : Violation) (k : Nat) : (b.violate w v k).hc = b.hc := rfl
@[simp] theorem Block.violate_faFires (b : Block) (w : Option Nat) (v : Violation) (k : Nat) : (b.violate w v k).faFires = b.faFires := rfl
@[simp] theorem Block.violate_lq (b : Block) (w : Option Nat) (v : Violation) (k : Nat) : (b.violate w v k).lq = b.lq := rfl
@[simp] theorem Block.violate_eng (b : Block) (w : Option Nat) (v : Violation) (k : Nat) : (b.violate w v k).eng = b.eng := rfl
@[simp] theorem Block.violate_pendActs (b : Block) (w : Option Nat) (v : Violation) (k : Nat) : (b.violate w v k).pendActs = b.pendActs := rfl
@[simp] theorem Block.violate_edges (b : Block) (w : Option Nat) (v : Violation) (k : Nat) : (b.violate w v k).edges = b.edges := rfl
@[simp] theorem Block.violate_doze (b : Block) (w : Option Nat) (v : Violation) (k : Nat) : (b.violate w v k).doze = b.doze := rfl
@[simp] theorem Block.violate_takingSince (b : Block) (w : Option Nat) (v : Violation) (k : Nat) : (b.violate w v k).takingSince = b.takingSince := rfl
@[simp] theorem Block.violate_taken (b : Block) (w : Option Nat) (v : Violation) (k : Nat) : (b.violate w v k).taken = b.taken := rfl
@[simp] theorem Block.violate_icSrc (b : Block) (w : Option Nat) (v : Violation) (k : Nat) : (b.violate w v k).icSrc = b.icSrc := rfl
@[simp] theorem Block.violate_icLast (b : Block) (w : Option Nat) (v : Violation) (k : Nat) : (b.violate w v k).icLast = b.icLast := rfl
@[simp] theorem Block.violate_cv (b : Block) (w : Option Nat) (v : Violation) (k : Nat) : (b.violate w v k).cv = b.cv := rfl
@[simp] theorem Block.violate_cvq (b : Block) (w : Option Nat) (v : Violation) (k : Nat) : (b.violate w v k).cvq = b.cvq := rfl
@[simp] theorem Block.violate_gl (b : Block) (w : Option Nat) (v : Violation) (k : Nat) : (b.violate w v k).gl = b.gl := rfl
@[simp] theorem Block.violate_su (b : Block) (w : Option Nat) (v : Violation) (k : Nat) : (b.violate w v k).su = b.su := rfl
@[simp] theorem Block.violate_pv (b : Block) (w : Option Nat) (v : Violation) (k : Nat) : (b.violate w v k).pv = b.pv := rfl
@[simp] theorem Block.violate_fcS (b : Block) (w : Option Nat) (v : Violation) (k : Nat) : (b.violate w v k).fcS = b.fcS := rfl
@[simp] theorem Block.violate_dm (b : Block) (w : Option Nat) (v : Violation) (k : Nat) : (b.violate w v k).dm = b.dm := rfl
@[simp] theorem Block.violate_sp (b : Block) (w : Option Nat) (v : Violation) (k : Nat) : (b.violate w v k).sp = b.sp := rfl
@[simp] theorem Block.violate_jobLen (b : Block) (w : Option Nat) (v : Violation) (k : Nat) : (b.violate w v k).jobLen = b.jobLen := rfl
@[simp] theorem Block.violate_flCmd (b : Block) (w : Option Nat) (v : Violation) (k : Nat) : (b.violate w v k).flCmd = b.flCmd := rfl
@[simp] theorem Block.violate_flashPint (b : Block) (w : Option Nat) (v : Violation) (k : Nat) : (b.violate w v k).flashPint = b.flashPint := rfl
@[simp] theorem Block.violate_flashPinta (b : Block) (w : Option Nat) (v : Violation) (k : Nat) : (b.violate w v k).flashPinta = b.flashPinta := rfl
@[simp] theorem Block.violate_hp (b : Block) (w : Option Nat) (v : Violation) (k : Nat) : (b.violate w v k).hp = b.hp := rfl
@[simp] theorem Block.violate_hostOut (b : Block) (w : Option Nat) (v : Violation) (k : Nat) : (b.violate w v k).hostOut = b.hostOut := rfl
@[simp] theorem Block.violate_pinMap (b : Block) (w : Option Nat) (v : Violation) (k : Nat) : (b.violate w v k).pinMap = b.pinMap := rfl
@[simp] theorem Block.violate_always (b : Block) (w : Option Nat) (v : Violation) (k : Nat) : (b.violate w v k).always = b.always := rfl
@[simp] theorem Block.violate_tap (b : Block) (w : Option Nat) (v : Violation) (k : Nat) : (b.violate w v k).tap = b.tap := rfl
@[simp] theorem Block.violate_wdHalf (b : Block) (w : Option Nat) (v : Violation) (k : Nat) : (b.violate w v k).wdHalf = b.wdHalf := rfl
@[simp] theorem Block.violate_resetDue (b : Block) (w : Option Nat) (v : Violation) (k : Nat) : (b.violate w v k).resetDue = b.resetDue := rfl
@[simp] theorem Block.violate_tripLv (b : Block) (w : Option Nat) (v : Violation) (k : Nat) : (b.violate w v k).tripLv = b.tripLv := rfl
@[simp] theorem Block.violate_lockWait (b : Block) (w : Option Nat) (v : Violation) (k : Nat) : (b.violate w v k).lockWait = b.lockWait := rfl
@[simp] theorem Block.violate_pvWait (b : Block) (w : Option Nat) (v : Violation) (k : Nat) : (b.violate w v k).pvWait = b.pvWait := rfl
@[simp] theorem Block.violate_flashQ (b : Block) (w : Option Nat) (v : Violation) (k : Nat) : (b.violate w v k).flashQ = b.flashQ := rfl
@[simp] theorem Block.violate_wdLapse (b : Block) (w : Option Nat) (v : Violation) (k : Nat) : (b.violate w v k).wdLapse = b.wdLapse := rfl
@[simp] theorem Block.violate_retry (b : Block) (w : Option Nat) (v : Violation) (k : Nat) : (b.violate w v k).retry = b.retry := rfl

/-! ### Block.answer -/

@[simp] theorem Block.answer_regs (b : Block) (v tag : Nat) : (b.answer v tag).regs = b.regs := rfl
@[simp] theorem Block.answer_freeCount (b : Block) (v tag : Nat) : (b.answer v tag).freeCount = b.freeCount := rfl
@[simp] theorem Block.answer_fc (b : Block) (v tag : Nat) : (b.answer v tag).fc = b.fc := rfl
@[simp] theorem Block.answer_flights (b : Block) (v tag : Nat) : (b.answer v tag).flights = b.flights := rfl
@[simp] theorem Block.answer_marks (b : Block) (v tag : Nat) : (b.answer v tag).marks = b.marks := rfl
@[simp] theorem Block.answer_own (b : Block) (v tag : Nat) : (b.answer v tag).own = b.own := rfl
@[simp] theorem Block.answer_moved (b : Block) (v tag : Nat) : (b.answer v tag).moved = b.moved := rfl
@[simp] theorem Block.answer_enforced (b : Block) (v tag : Nat) : (b.answer v tag).enforced = b.enforced := rfl
@[simp] theorem Block.answer_balls (b : Block) (v tag : Nat) : (b.answer v tag).balls = b.balls := rfl
@[simp] theorem Block.answer_outputs (b : Block) (v tag : Nat) : (b.answer v tag).outputs = b.outputs := rfl
@[simp] theorem Block.answer_tb (b : Block) (v tag : Nat) : (b.answer v tag).tb = b.tb := rfl
@[simp] theorem Block.answer_cc (b : Block) (v tag : Nat) : (b.answer v tag).cc = b.cc := rfl
@[simp] theorem Block.answer_cp (b : Block) (v tag : Nat) : (b.answer v tag).cp = b.cp := rfl
@[simp] theorem Block.answer_eg (b : Block) (v tag : Nat) : (b.answer v tag).eg = b.eg := rfl
@[simp] theorem Block.answer_tg (b : Block) (v tag : Nat) : (b.answer v tag).tg = b.tg := rfl
@[simp] theorem Block.answer_asyncSrc (b : Block) (v tag : Nat) : (b.answer v tag).asyncSrc = b.asyncSrc := rfl
@[simp] theorem Block.answer_ll (b : Block) (v tag : Nat) : (b.answer v tag).ll = b.ll := rfl
@[simp] theorem Block.answer_lu (b : Block) (v tag : Nat) : (b.answer v tag).lu = b.lu := rfl
@[simp] theorem Block.answer_nt (b : Block) (v tag : Nat) : (b.answer v tag).nt = b.nt := rfl
@[simp] theorem Block.answer_lockedUp (b : Block) (v tag : Nat) : (b.answer v tag).lockedUp = b.lockedUp := rfl
@[simp] theorem Block.answer_heldKeys (b : Block) (v tag : Nat) : (b.answer v tag).heldKeys = b.heldKeys := rfl
@[simp] theorem Block.answer_ad (b : Block) (v tag : Nat) : (b.answer v tag).ad = b.ad := rfl
@[simp] theorem Block.answer_ac (b : Block) (v tag : Nat) : (b.answer v tag).ac = b.ac := rfl
@[simp] theorem Block.answer_sd (b : Block) (v tag : Nat) : (b.answer v tag).sd = b.sd := rfl
@[simp] theorem Block.answer_hl (b : Block) (v tag : Nat) : (b.answer v tag).hl = b.hl := rfl
@[simp] theorem Block.answer_fires (b : Block) (v tag : Nat) : (b.answer v tag).fires = b.fires := rfl
@[simp] theorem Block.answer_fb (b : Block) (v tag : Nat) : (b.answer v tag).fb = b.fb := rfl
@[simp] theorem Block.answer_emu (b : Block) (v tag : Nat) : (b.answer v tag).emu = b.emu := rfl
@[simp] theorem Block.answer_mem (b : Block) (v tag : Nat) : (b.answer v tag).mem = b.mem := rfl
@[simp] theorem Block.answer_syn (b : Block) (v tag : Nat) : (b.answer v tag).syn = b.syn := rfl
@[simp] theorem Block.answer_flashChk (b : Block) (v tag : Nat) : (b.answer v tag).flashChk = b.flashChk := rfl
@[simp] theorem Block.answer_flashInc (b : Block) (v tag : Nat) : (b.answer v tag).flashInc = b.flashInc := rfl
@[simp] theorem Block.answer_oddWant (b : Block) (v tag : Nat) : (b.answer v tag).oddWant = b.oddWant := rfl
@[simp] theorem Block.answer_oddLast (b : Block) (v tag : Nat) : (b.answer v tag).oddLast = b.oddLast := rfl
@[simp] theorem Block.answer_scrub (b : Block) (v tag : Nat) : (b.answer v tag).scrub = b.scrub := rfl
@[simp] theorem Block.answer_fg (b : Block) (v tag : Nat) : (b.answer v tag).fg = b.fg := rfl
@[simp] theorem Block.answer_hc (b : Block) (v tag : Nat) : (b.answer v tag).hc = b.hc := rfl
@[simp] theorem Block.answer_faFires (b : Block) (v tag : Nat) : (b.answer v tag).faFires = b.faFires := rfl
@[simp] theorem Block.answer_lq (b : Block) (v tag : Nat) : (b.answer v tag).lq = b.lq := rfl
@[simp] theorem Block.answer_eng (b : Block) (v tag : Nat) : (b.answer v tag).eng = b.eng := rfl
@[simp] theorem Block.answer_pendActs (b : Block) (v tag : Nat) : (b.answer v tag).pendActs = b.pendActs := rfl
@[simp] theorem Block.answer_edges (b : Block) (v tag : Nat) : (b.answer v tag).edges = b.edges := rfl
@[simp] theorem Block.answer_doze (b : Block) (v tag : Nat) : (b.answer v tag).doze = b.doze := rfl
@[simp] theorem Block.answer_takingSince (b : Block) (v tag : Nat) : (b.answer v tag).takingSince = b.takingSince := rfl
@[simp] theorem Block.answer_taken (b : Block) (v tag : Nat) : (b.answer v tag).taken = b.taken := rfl
@[simp] theorem Block.answer_icSrc (b : Block) (v tag : Nat) : (b.answer v tag).icSrc = b.icSrc := rfl
@[simp] theorem Block.answer_icLast (b : Block) (v tag : Nat) : (b.answer v tag).icLast = b.icLast := rfl
@[simp] theorem Block.answer_cv (b : Block) (v tag : Nat) : (b.answer v tag).cv = b.cv := rfl
@[simp] theorem Block.answer_cvq (b : Block) (v tag : Nat) : (b.answer v tag).cvq = b.cvq := rfl
@[simp] theorem Block.answer_gl (b : Block) (v tag : Nat) : (b.answer v tag).gl = b.gl := rfl
@[simp] theorem Block.answer_su (b : Block) (v tag : Nat) : (b.answer v tag).su = b.su := rfl
@[simp] theorem Block.answer_pv (b : Block) (v tag : Nat) : (b.answer v tag).pv = b.pv := rfl
@[simp] theorem Block.answer_fcS (b : Block) (v tag : Nat) : (b.answer v tag).fcS = b.fcS := rfl
@[simp] theorem Block.answer_dm (b : Block) (v tag : Nat) : (b.answer v tag).dm = b.dm := rfl
@[simp] theorem Block.answer_sp (b : Block) (v tag : Nat) : (b.answer v tag).sp = b.sp := rfl
@[simp] theorem Block.answer_jobLen (b : Block) (v tag : Nat) : (b.answer v tag).jobLen = b.jobLen := rfl
@[simp] theorem Block.answer_flCmd (b : Block) (v tag : Nat) : (b.answer v tag).flCmd = b.flCmd := rfl
@[simp] theorem Block.answer_flashPint (b : Block) (v tag : Nat) : (b.answer v tag).flashPint = b.flashPint := rfl
@[simp] theorem Block.answer_flashPinta (b : Block) (v tag : Nat) : (b.answer v tag).flashPinta = b.flashPinta := rfl
@[simp] theorem Block.answer_hp (b : Block) (v tag : Nat) : (b.answer v tag).hp = b.hp := rfl
@[simp] theorem Block.answer_hostOut (b : Block) (v tag : Nat) : (b.answer v tag).hostOut = b.hostOut := rfl
@[simp] theorem Block.answer_pinMap (b : Block) (v tag : Nat) : (b.answer v tag).pinMap = b.pinMap := rfl
@[simp] theorem Block.answer_always (b : Block) (v tag : Nat) : (b.answer v tag).always = b.always := rfl
@[simp] theorem Block.answer_tap (b : Block) (v tag : Nat) : (b.answer v tag).tap = b.tap := rfl
@[simp] theorem Block.answer_wdHalf (b : Block) (v tag : Nat) : (b.answer v tag).wdHalf = b.wdHalf := rfl
@[simp] theorem Block.answer_resetDue (b : Block) (v tag : Nat) : (b.answer v tag).resetDue = b.resetDue := rfl
@[simp] theorem Block.answer_tripLv (b : Block) (v tag : Nat) : (b.answer v tag).tripLv = b.tripLv := rfl
@[simp] theorem Block.answer_lockWait (b : Block) (v tag : Nat) : (b.answer v tag).lockWait = b.lockWait := rfl
@[simp] theorem Block.answer_pvWait (b : Block) (v tag : Nat) : (b.answer v tag).pvWait = b.pvWait := rfl
@[simp] theorem Block.answer_flashQ (b : Block) (v tag : Nat) : (b.answer v tag).flashQ = b.flashQ := rfl
@[simp] theorem Block.answer_wdLapse (b : Block) (v tag : Nat) : (b.answer v tag).wdLapse = b.wdLapse := rfl
@[simp] theorem Block.answer_retry (b : Block) (v tag : Nat) : (b.answer v tag).retry = b.retry := rfl

/-! ### Block.setEng -/

@[simp] theorem Block.setEng_regs (b : Block) (e : Nat) (v : EngSt) : (b.setEng e v).regs = b.regs := rfl
@[simp] theorem Block.setEng_resp (b : Block) (e : Nat) (v : EngSt) : (b.setEng e v).resp = b.resp := rfl
@[simp] theorem Block.setEng_respTag (b : Block) (e : Nat) (v : EngSt) : (b.setEng e v).respTag = b.respTag := rfl
@[simp] theorem Block.setEng_freeCount (b : Block) (e : Nat) (v : EngSt) : (b.setEng e v).freeCount = b.freeCount := rfl
@[simp] theorem Block.setEng_fc (b : Block) (e : Nat) (v : EngSt) : (b.setEng e v).fc = b.fc := rfl
@[simp] theorem Block.setEng_flights (b : Block) (e : Nat) (v : EngSt) : (b.setEng e v).flights = b.flights := rfl
@[simp] theorem Block.setEng_marks (b : Block) (e : Nat) (v : EngSt) : (b.setEng e v).marks = b.marks := rfl
@[simp] theorem Block.setEng_own (b : Block) (e : Nat) (v : EngSt) : (b.setEng e v).own = b.own := rfl
@[simp] theorem Block.setEng_moved (b : Block) (e : Nat) (v : EngSt) : (b.setEng e v).moved = b.moved := rfl
@[simp] theorem Block.setEng_enforced (b : Block) (e : Nat) (v : EngSt) : (b.setEng e v).enforced = b.enforced := rfl
@[simp] theorem Block.setEng_balls (b : Block) (e : Nat) (v : EngSt) : (b.setEng e v).balls = b.balls := rfl
@[simp] theorem Block.setEng_outputs (b : Block) (e : Nat) (v : EngSt) : (b.setEng e v).outputs = b.outputs := rfl
@[simp] theorem Block.setEng_tb (b : Block) (e : Nat) (v : EngSt) : (b.setEng e v).tb = b.tb := rfl
@[simp] theorem Block.setEng_cc (b : Block) (e : Nat) (v : EngSt) : (b.setEng e v).cc = b.cc := rfl
@[simp] theorem Block.setEng_cp (b : Block) (e : Nat) (v : EngSt) : (b.setEng e v).cp = b.cp := rfl
@[simp] theorem Block.setEng_eg (b : Block) (e : Nat) (v : EngSt) : (b.setEng e v).eg = b.eg := rfl
@[simp] theorem Block.setEng_tg (b : Block) (e : Nat) (v : EngSt) : (b.setEng e v).tg = b.tg := rfl
@[simp] theorem Block.setEng_asyncSrc (b : Block) (e : Nat) (v : EngSt) : (b.setEng e v).asyncSrc = b.asyncSrc := rfl
@[simp] theorem Block.setEng_ll (b : Block) (e : Nat) (v : EngSt) : (b.setEng e v).ll = b.ll := rfl
@[simp] theorem Block.setEng_lu (b : Block) (e : Nat) (v : EngSt) : (b.setEng e v).lu = b.lu := rfl
@[simp] theorem Block.setEng_nt (b : Block) (e : Nat) (v : EngSt) : (b.setEng e v).nt = b.nt := rfl
@[simp] theorem Block.setEng_lockedUp (b : Block) (e : Nat) (v : EngSt) : (b.setEng e v).lockedUp = b.lockedUp := rfl
@[simp] theorem Block.setEng_heldKeys (b : Block) (e : Nat) (v : EngSt) : (b.setEng e v).heldKeys = b.heldKeys := rfl
@[simp] theorem Block.setEng_ad (b : Block) (e : Nat) (v : EngSt) : (b.setEng e v).ad = b.ad := rfl
@[simp] theorem Block.setEng_ac (b : Block) (e : Nat) (v : EngSt) : (b.setEng e v).ac = b.ac := rfl
@[simp] theorem Block.setEng_sd (b : Block) (e : Nat) (v : EngSt) : (b.setEng e v).sd = b.sd := rfl
@[simp] theorem Block.setEng_hl (b : Block) (e : Nat) (v : EngSt) : (b.setEng e v).hl = b.hl := rfl
@[simp] theorem Block.setEng_fires (b : Block) (e : Nat) (v : EngSt) : (b.setEng e v).fires = b.fires := rfl
@[simp] theorem Block.setEng_fb (b : Block) (e : Nat) (v : EngSt) : (b.setEng e v).fb = b.fb := rfl
@[simp] theorem Block.setEng_emu (b : Block) (e : Nat) (v : EngSt) : (b.setEng e v).emu = b.emu := rfl
@[simp] theorem Block.setEng_mem (b : Block) (e : Nat) (v : EngSt) : (b.setEng e v).mem = b.mem := rfl
@[simp] theorem Block.setEng_syn (b : Block) (e : Nat) (v : EngSt) : (b.setEng e v).syn = b.syn := rfl
@[simp] theorem Block.setEng_flashChk (b : Block) (e : Nat) (v : EngSt) : (b.setEng e v).flashChk = b.flashChk := rfl
@[simp] theorem Block.setEng_flashInc (b : Block) (e : Nat) (v : EngSt) : (b.setEng e v).flashInc = b.flashInc := rfl
@[simp] theorem Block.setEng_oddWant (b : Block) (e : Nat) (v : EngSt) : (b.setEng e v).oddWant = b.oddWant := rfl
@[simp] theorem Block.setEng_oddLast (b : Block) (e : Nat) (v : EngSt) : (b.setEng e v).oddLast = b.oddLast := rfl
@[simp] theorem Block.setEng_scrub (b : Block) (e : Nat) (v : EngSt) : (b.setEng e v).scrub = b.scrub := rfl
@[simp] theorem Block.setEng_fg (b : Block) (e : Nat) (v : EngSt) : (b.setEng e v).fg = b.fg := rfl
@[simp] theorem Block.setEng_hc (b : Block) (e : Nat) (v : EngSt) : (b.setEng e v).hc = b.hc := rfl
@[simp] theorem Block.setEng_faFires (b : Block) (e : Nat) (v : EngSt) : (b.setEng e v).faFires = b.faFires := rfl
@[simp] theorem Block.setEng_lq (b : Block) (e : Nat) (v : EngSt) : (b.setEng e v).lq = b.lq := rfl
@[simp] theorem Block.setEng_pendActs (b : Block) (e : Nat) (v : EngSt) : (b.setEng e v).pendActs = b.pendActs := rfl
@[simp] theorem Block.setEng_edges (b : Block) (e : Nat) (v : EngSt) : (b.setEng e v).edges = b.edges := rfl
@[simp] theorem Block.setEng_doze (b : Block) (e : Nat) (v : EngSt) : (b.setEng e v).doze = b.doze := rfl
@[simp] theorem Block.setEng_takingSince (b : Block) (e : Nat) (v : EngSt) : (b.setEng e v).takingSince = b.takingSince := rfl
@[simp] theorem Block.setEng_taken (b : Block) (e : Nat) (v : EngSt) : (b.setEng e v).taken = b.taken := rfl
@[simp] theorem Block.setEng_icSrc (b : Block) (e : Nat) (v : EngSt) : (b.setEng e v).icSrc = b.icSrc := rfl
@[simp] theorem Block.setEng_icLast (b : Block) (e : Nat) (v : EngSt) : (b.setEng e v).icLast = b.icLast := rfl
@[simp] theorem Block.setEng_cv (b : Block) (e : Nat) (v : EngSt) : (b.setEng e v).cv = b.cv := rfl
@[simp] theorem Block.setEng_cvq (b : Block) (e : Nat) (v : EngSt) : (b.setEng e v).cvq = b.cvq := rfl
@[simp] theorem Block.setEng_gl (b : Block) (e : Nat) (v : EngSt) : (b.setEng e v).gl = b.gl := rfl
@[simp] theorem Block.setEng_su (b : Block) (e : Nat) (v : EngSt) : (b.setEng e v).su = b.su := rfl
@[simp] theorem Block.setEng_pv (b : Block) (e : Nat) (v : EngSt) : (b.setEng e v).pv = b.pv := rfl
@[simp] theorem Block.setEng_fcS (b : Block) (e : Nat) (v : EngSt) : (b.setEng e v).fcS = b.fcS := rfl
@[simp] theorem Block.setEng_dm (b : Block) (e : Nat) (v : EngSt) : (b.setEng e v).dm = b.dm := rfl
@[simp] theorem Block.setEng_sp (b : Block) (e : Nat) (v : EngSt) : (b.setEng e v).sp = b.sp := rfl
@[simp] theorem Block.setEng_jobLen (b : Block) (e : Nat) (v : EngSt) : (b.setEng e v).jobLen = b.jobLen := rfl
@[simp] theorem Block.setEng_flCmd (b : Block) (e : Nat) (v : EngSt) : (b.setEng e v).flCmd = b.flCmd := rfl
@[simp] theorem Block.setEng_flashPint (b : Block) (e : Nat) (v : EngSt) : (b.setEng e v).flashPint = b.flashPint := rfl
@[simp] theorem Block.setEng_flashPinta (b : Block) (e : Nat) (v : EngSt) : (b.setEng e v).flashPinta = b.flashPinta := rfl
@[simp] theorem Block.setEng_hp (b : Block) (e : Nat) (v : EngSt) : (b.setEng e v).hp = b.hp := rfl
@[simp] theorem Block.setEng_hostOut (b : Block) (e : Nat) (v : EngSt) : (b.setEng e v).hostOut = b.hostOut := rfl
@[simp] theorem Block.setEng_pinMap (b : Block) (e : Nat) (v : EngSt) : (b.setEng e v).pinMap = b.pinMap := rfl
@[simp] theorem Block.setEng_always (b : Block) (e : Nat) (v : EngSt) : (b.setEng e v).always = b.always := rfl
@[simp] theorem Block.setEng_tap (b : Block) (e : Nat) (v : EngSt) : (b.setEng e v).tap = b.tap := rfl
@[simp] theorem Block.setEng_wdHalf (b : Block) (e : Nat) (v : EngSt) : (b.setEng e v).wdHalf = b.wdHalf := rfl
@[simp] theorem Block.setEng_resetDue (b : Block) (e : Nat) (v : EngSt) : (b.setEng e v).resetDue = b.resetDue := rfl
@[simp] theorem Block.setEng_tripLv (b : Block) (e : Nat) (v : EngSt) : (b.setEng e v).tripLv = b.tripLv := rfl
@[simp] theorem Block.setEng_lockWait (b : Block) (e : Nat) (v : EngSt) : (b.setEng e v).lockWait = b.lockWait := rfl
@[simp] theorem Block.setEng_pvWait (b : Block) (e : Nat) (v : EngSt) : (b.setEng e v).pvWait = b.pvWait := rfl
@[simp] theorem Block.setEng_flashQ (b : Block) (e : Nat) (v : EngSt) : (b.setEng e v).flashQ = b.flashQ := rfl
@[simp] theorem Block.setEng_wdLapse (b : Block) (e : Nat) (v : EngSt) : (b.setEng e v).wdLapse = b.wdLapse := rfl
@[simp] theorem Block.setEng_retry (b : Block) (e : Nat) (v : EngSt) : (b.setEng e v).retry = b.retry := rfl

/-! ### Block.setTask -/

@[simp] theorem Block.setTask_regs (b : Block) (e k : Nat) (v : TaskSt) : (b.setTask e k v).regs = b.regs := rfl
@[simp] theorem Block.setTask_resp (b : Block) (e k : Nat) (v : TaskSt) : (b.setTask e k v).resp = b.resp := rfl
@[simp] theorem Block.setTask_respTag (b : Block) (e k : Nat) (v : TaskSt) : (b.setTask e k v).respTag = b.respTag := rfl
@[simp] theorem Block.setTask_freeCount (b : Block) (e k : Nat) (v : TaskSt) : (b.setTask e k v).freeCount = b.freeCount := rfl
@[simp] theorem Block.setTask_fc (b : Block) (e k : Nat) (v : TaskSt) : (b.setTask e k v).fc = b.fc := rfl
@[simp] theorem Block.setTask_flights (b : Block) (e k : Nat) (v : TaskSt) : (b.setTask e k v).flights = b.flights := rfl
@[simp] theorem Block.setTask_marks (b : Block) (e k : Nat) (v : TaskSt) : (b.setTask e k v).marks = b.marks := rfl
@[simp] theorem Block.setTask_own (b : Block) (e k : Nat) (v : TaskSt) : (b.setTask e k v).own = b.own := rfl
@[simp] theorem Block.setTask_moved (b : Block) (e k : Nat) (v : TaskSt) : (b.setTask e k v).moved = b.moved := rfl
@[simp] theorem Block.setTask_enforced (b : Block) (e k : Nat) (v : TaskSt) : (b.setTask e k v).enforced = b.enforced := rfl
@[simp] theorem Block.setTask_balls (b : Block) (e k : Nat) (v : TaskSt) : (b.setTask e k v).balls = b.balls := rfl
@[simp] theorem Block.setTask_outputs (b : Block) (e k : Nat) (v : TaskSt) : (b.setTask e k v).outputs = b.outputs := rfl
@[simp] theorem Block.setTask_tb (b : Block) (e k : Nat) (v : TaskSt) : (b.setTask e k v).tb = b.tb := rfl
@[simp] theorem Block.setTask_cc (b : Block) (e k : Nat) (v : TaskSt) : (b.setTask e k v).cc = b.cc := rfl
@[simp] theorem Block.setTask_cp (b : Block) (e k : Nat) (v : TaskSt) : (b.setTask e k v).cp = b.cp := rfl
@[simp] theorem Block.setTask_eg (b : Block) (e k : Nat) (v : TaskSt) : (b.setTask e k v).eg = b.eg := rfl
@[simp] theorem Block.setTask_tg (b : Block) (e k : Nat) (v : TaskSt) : (b.setTask e k v).tg = b.tg := rfl
@[simp] theorem Block.setTask_asyncSrc (b : Block) (e k : Nat) (v : TaskSt) : (b.setTask e k v).asyncSrc = b.asyncSrc := rfl
@[simp] theorem Block.setTask_ll (b : Block) (e k : Nat) (v : TaskSt) : (b.setTask e k v).ll = b.ll := rfl
@[simp] theorem Block.setTask_lu (b : Block) (e k : Nat) (v : TaskSt) : (b.setTask e k v).lu = b.lu := rfl
@[simp] theorem Block.setTask_nt (b : Block) (e k : Nat) (v : TaskSt) : (b.setTask e k v).nt = b.nt := rfl
@[simp] theorem Block.setTask_lockedUp (b : Block) (e k : Nat) (v : TaskSt) : (b.setTask e k v).lockedUp = b.lockedUp := rfl
@[simp] theorem Block.setTask_heldKeys (b : Block) (e k : Nat) (v : TaskSt) : (b.setTask e k v).heldKeys = b.heldKeys := rfl
@[simp] theorem Block.setTask_ad (b : Block) (e k : Nat) (v : TaskSt) : (b.setTask e k v).ad = b.ad := rfl
@[simp] theorem Block.setTask_ac (b : Block) (e k : Nat) (v : TaskSt) : (b.setTask e k v).ac = b.ac := rfl
@[simp] theorem Block.setTask_sd (b : Block) (e k : Nat) (v : TaskSt) : (b.setTask e k v).sd = b.sd := rfl
@[simp] theorem Block.setTask_hl (b : Block) (e k : Nat) (v : TaskSt) : (b.setTask e k v).hl = b.hl := rfl
@[simp] theorem Block.setTask_fires (b : Block) (e k : Nat) (v : TaskSt) : (b.setTask e k v).fires = b.fires := rfl
@[simp] theorem Block.setTask_fb (b : Block) (e k : Nat) (v : TaskSt) : (b.setTask e k v).fb = b.fb := rfl
@[simp] theorem Block.setTask_emu (b : Block) (e k : Nat) (v : TaskSt) : (b.setTask e k v).emu = b.emu := rfl
@[simp] theorem Block.setTask_mem (b : Block) (e k : Nat) (v : TaskSt) : (b.setTask e k v).mem = b.mem := rfl
@[simp] theorem Block.setTask_syn (b : Block) (e k : Nat) (v : TaskSt) : (b.setTask e k v).syn = b.syn := rfl
@[simp] theorem Block.setTask_flashChk (b : Block) (e k : Nat) (v : TaskSt) : (b.setTask e k v).flashChk = b.flashChk := rfl
@[simp] theorem Block.setTask_flashInc (b : Block) (e k : Nat) (v : TaskSt) : (b.setTask e k v).flashInc = b.flashInc := rfl
@[simp] theorem Block.setTask_oddWant (b : Block) (e k : Nat) (v : TaskSt) : (b.setTask e k v).oddWant = b.oddWant := rfl
@[simp] theorem Block.setTask_oddLast (b : Block) (e k : Nat) (v : TaskSt) : (b.setTask e k v).oddLast = b.oddLast := rfl
@[simp] theorem Block.setTask_scrub (b : Block) (e k : Nat) (v : TaskSt) : (b.setTask e k v).scrub = b.scrub := rfl
@[simp] theorem Block.setTask_fg (b : Block) (e k : Nat) (v : TaskSt) : (b.setTask e k v).fg = b.fg := rfl
@[simp] theorem Block.setTask_hc (b : Block) (e k : Nat) (v : TaskSt) : (b.setTask e k v).hc = b.hc := rfl
@[simp] theorem Block.setTask_faFires (b : Block) (e k : Nat) (v : TaskSt) : (b.setTask e k v).faFires = b.faFires := rfl
@[simp] theorem Block.setTask_lq (b : Block) (e k : Nat) (v : TaskSt) : (b.setTask e k v).lq = b.lq := rfl
@[simp] theorem Block.setTask_pendActs (b : Block) (e k : Nat) (v : TaskSt) : (b.setTask e k v).pendActs = b.pendActs := rfl
@[simp] theorem Block.setTask_edges (b : Block) (e k : Nat) (v : TaskSt) : (b.setTask e k v).edges = b.edges := rfl
@[simp] theorem Block.setTask_doze (b : Block) (e k : Nat) (v : TaskSt) : (b.setTask e k v).doze = b.doze := rfl
@[simp] theorem Block.setTask_takingSince (b : Block) (e k : Nat) (v : TaskSt) : (b.setTask e k v).takingSince = b.takingSince := rfl
@[simp] theorem Block.setTask_taken (b : Block) (e k : Nat) (v : TaskSt) : (b.setTask e k v).taken = b.taken := rfl
@[simp] theorem Block.setTask_icSrc (b : Block) (e k : Nat) (v : TaskSt) : (b.setTask e k v).icSrc = b.icSrc := rfl
@[simp] theorem Block.setTask_icLast (b : Block) (e k : Nat) (v : TaskSt) : (b.setTask e k v).icLast = b.icLast := rfl
@[simp] theorem Block.setTask_cv (b : Block) (e k : Nat) (v : TaskSt) : (b.setTask e k v).cv = b.cv := rfl
@[simp] theorem Block.setTask_cvq (b : Block) (e k : Nat) (v : TaskSt) : (b.setTask e k v).cvq = b.cvq := rfl
@[simp] theorem Block.setTask_gl (b : Block) (e k : Nat) (v : TaskSt) : (b.setTask e k v).gl = b.gl := rfl
@[simp] theorem Block.setTask_su (b : Block) (e k : Nat) (v : TaskSt) : (b.setTask e k v).su = b.su := rfl
@[simp] theorem Block.setTask_pv (b : Block) (e k : Nat) (v : TaskSt) : (b.setTask e k v).pv = b.pv := rfl
@[simp] theorem Block.setTask_fcS (b : Block) (e k : Nat) (v : TaskSt) : (b.setTask e k v).fcS = b.fcS := rfl
@[simp] theorem Block.setTask_dm (b : Block) (e k : Nat) (v : TaskSt) : (b.setTask e k v).dm = b.dm := rfl
@[simp] theorem Block.setTask_sp (b : Block) (e k : Nat) (v : TaskSt) : (b.setTask e k v).sp = b.sp := rfl
@[simp] theorem Block.setTask_jobLen (b : Block) (e k : Nat) (v : TaskSt) : (b.setTask e k v).jobLen = b.jobLen := rfl
@[simp] theorem Block.setTask_flCmd (b : Block) (e k : Nat) (v : TaskSt) : (b.setTask e k v).flCmd = b.flCmd := rfl
@[simp] theorem Block.setTask_flashPint (b : Block) (e k : Nat) (v : TaskSt) : (b.setTask e k v).flashPint = b.flashPint := rfl
@[simp] theorem Block.setTask_flashPinta (b : Block) (e k : Nat) (v : TaskSt) : (b.setTask e k v).flashPinta = b.flashPinta := rfl
@[simp] theorem Block.setTask_hp (b : Block) (e k : Nat) (v : TaskSt) : (b.setTask e k v).hp = b.hp := rfl
@[simp] theorem Block.setTask_hostOut (b : Block) (e k : Nat) (v : TaskSt) : (b.setTask e k v).hostOut = b.hostOut := rfl
@[simp] theorem Block.setTask_pinMap (b : Block) (e k : Nat) (v : TaskSt) : (b.setTask e k v).pinMap = b.pinMap := rfl
@[simp] theorem Block.setTask_always (b : Block) (e k : Nat) (v : TaskSt) : (b.setTask e k v).always = b.always := rfl
@[simp] theorem Block.setTask_tap (b : Block) (e k : Nat) (v : TaskSt) : (b.setTask e k v).tap = b.tap := rfl
@[simp] theorem Block.setTask_wdHalf (b : Block) (e k : Nat) (v : TaskSt) : (b.setTask e k v).wdHalf = b.wdHalf := rfl
@[simp] theorem Block.setTask_resetDue (b : Block) (e k : Nat) (v : TaskSt) : (b.setTask e k v).resetDue = b.resetDue := rfl
@[simp] theorem Block.setTask_tripLv (b : Block) (e k : Nat) (v : TaskSt) : (b.setTask e k v).tripLv = b.tripLv := rfl
@[simp] theorem Block.setTask_lockWait (b : Block) (e k : Nat) (v : TaskSt) : (b.setTask e k v).lockWait = b.lockWait := rfl
@[simp] theorem Block.setTask_pvWait (b : Block) (e k : Nat) (v : TaskSt) : (b.setTask e k v).pvWait = b.pvWait := rfl
@[simp] theorem Block.setTask_flashQ (b : Block) (e k : Nat) (v : TaskSt) : (b.setTask e k v).flashQ = b.flashQ := rfl
@[simp] theorem Block.setTask_wdLapse (b : Block) (e k : Nat) (v : TaskSt) : (b.setTask e k v).wdLapse = b.wdLapse := rfl
@[simp] theorem Block.setTask_retry (b : Block) (e k : Nat) (v : TaskSt) : (b.setTask e k v).retry = b.retry := rfl

/-! ### Block.setCc -/

@[simp] theorem Block.setCc_regs (b : Block) (n : Nat) (v : CmpSt) : (b.setCc n v).regs = b.regs := rfl
@[simp] theorem Block.setCc_resp (b : Block) (n : Nat) (v : CmpSt) : (b.setCc n v).resp = b.resp := rfl
@[simp] theorem Block.setCc_fc (b : Block) (n : Nat) (v : CmpSt) : (b.setCc n v).fc = b.fc := rfl
@[simp] theorem Block.setCc_flights (b : Block) (n : Nat) (v : CmpSt) : (b.setCc n v).flights = b.flights := rfl
@[simp] theorem Block.setCc_own (b : Block) (n : Nat) (v : CmpSt) : (b.setCc n v).own = b.own := rfl
@[simp] theorem Block.setCc_balls (b : Block) (n : Nat) (v : CmpSt) : (b.setCc n v).balls = b.balls := rfl
@[simp] theorem Block.setCc_mem (b : Block) (n : Nat) (v : CmpSt) : (b.setCc n v).mem = b.mem := rfl
@[simp] theorem Block.setCc_syn (b : Block) (n : Nat) (v : CmpSt) : (b.setCc n v).syn = b.syn := rfl
@[simp] theorem Block.setCc_eng (b : Block) (n : Nat) (v : CmpSt) : (b.setCc n v).eng = b.eng := rfl
@[simp] theorem Block.setCc_icSrc (b : Block) (n : Nat) (v : CmpSt) : (b.setCc n v).icSrc = b.icSrc := rfl
@[simp] theorem Block.setCc_always (b : Block) (n : Nat) (v : CmpSt) : (b.setCc n v).always = b.always := rfl

/-! ### Block.setCp -/

@[simp] theorem Block.setCp_regs (b : Block) (n : Nat) (v : CpSt) : (b.setCp n v).regs = b.regs := rfl
@[simp] theorem Block.setCp_resp (b : Block) (n : Nat) (v : CpSt) : (b.setCp n v).resp = b.resp := rfl
@[simp] theorem Block.setCp_fc (b : Block) (n : Nat) (v : CpSt) : (b.setCp n v).fc = b.fc := rfl
@[simp] theorem Block.setCp_flights (b : Block) (n : Nat) (v : CpSt) : (b.setCp n v).flights = b.flights := rfl
@[simp] theorem Block.setCp_own (b : Block) (n : Nat) (v : CpSt) : (b.setCp n v).own = b.own := rfl
@[simp] theorem Block.setCp_balls (b : Block) (n : Nat) (v : CpSt) : (b.setCp n v).balls = b.balls := rfl
@[simp] theorem Block.setCp_mem (b : Block) (n : Nat) (v : CpSt) : (b.setCp n v).mem = b.mem := rfl
@[simp] theorem Block.setCp_syn (b : Block) (n : Nat) (v : CpSt) : (b.setCp n v).syn = b.syn := rfl
@[simp] theorem Block.setCp_eng (b : Block) (n : Nat) (v : CpSt) : (b.setCp n v).eng = b.eng := rfl
@[simp] theorem Block.setCp_icSrc (b : Block) (n : Nat) (v : CpSt) : (b.setCp n v).icSrc = b.icSrc := rfl
@[simp] theorem Block.setCp_always (b : Block) (n : Nat) (v : CpSt) : (b.setCp n v).always = b.always := rfl

/-! ### Block.setEg -/

@[simp] theorem Block.setEg_regs (b : Block) (n : Nat) (v : EgSt) : (b.setEg n v).regs = b.regs := rfl
@[simp] theorem Block.setEg_resp (b : Block) (n : Nat) (v : EgSt) : (b.setEg n v).resp = b.resp := rfl
@[simp] theorem Block.setEg_fc (b : Block) (n : Nat) (v : EgSt) : (b.setEg n v).fc = b.fc := rfl
@[simp] theorem Block.setEg_flights (b : Block) (n : Nat) (v : EgSt) : (b.setEg n v).flights = b.flights := rfl
@[simp] theorem Block.setEg_own (b : Block) (n : Nat) (v : EgSt) : (b.setEg n v).own = b.own := rfl
@[simp] theorem Block.setEg_balls (b : Block) (n : Nat) (v : EgSt) : (b.setEg n v).balls = b.balls := rfl
@[simp] theorem Block.setEg_mem (b : Block) (n : Nat) (v : EgSt) : (b.setEg n v).mem = b.mem := rfl
@[simp] theorem Block.setEg_syn (b : Block) (n : Nat) (v : EgSt) : (b.setEg n v).syn = b.syn := rfl
@[simp] theorem Block.setEg_eng (b : Block) (n : Nat) (v : EgSt) : (b.setEg n v).eng = b.eng := rfl
@[simp] theorem Block.setEg_icSrc (b : Block) (n : Nat) (v : EgSt) : (b.setEg n v).icSrc = b.icSrc := rfl
@[simp] theorem Block.setEg_always (b : Block) (n : Nat) (v : EgSt) : (b.setEg n v).always = b.always := rfl

/-! ### Block.setTg -/

@[simp] theorem Block.setTg_regs (b : Block) (n : Nat) (v : TgSt) : (b.setTg n v).regs = b.regs := rfl
@[simp] theorem Block.setTg_resp (b : Block) (n : Nat) (v : TgSt) : (b.setTg n v).resp = b.resp := rfl
@[simp] theorem Block.setTg_fc (b : Block) (n : Nat) (v : TgSt) : (b.setTg n v).fc = b.fc := rfl
@[simp] theorem Block.setTg_flights (b : Block) (n : Nat) (v : TgSt) : (b.setTg n v).flights = b.flights := rfl
@[simp] theorem Block.setTg_own (b : Block) (n : Nat) (v : TgSt) : (b.setTg n v).own = b.own := rfl
@[simp] theorem Block.setTg_balls (b : Block) (n : Nat) (v : TgSt) : (b.setTg n v).balls = b.balls := rfl
@[simp] theorem Block.setTg_mem (b : Block) (n : Nat) (v : TgSt) : (b.setTg n v).mem = b.mem := rfl
@[simp] theorem Block.setTg_syn (b : Block) (n : Nat) (v : TgSt) : (b.setTg n v).syn = b.syn := rfl
@[simp] theorem Block.setTg_eng (b : Block) (n : Nat) (v : TgSt) : (b.setTg n v).eng = b.eng := rfl
@[simp] theorem Block.setTg_icSrc (b : Block) (n : Nat) (v : TgSt) : (b.setTg n v).icSrc = b.icSrc := rfl
@[simp] theorem Block.setTg_always (b : Block) (n : Nat) (v : TgSt) : (b.setTg n v).always = b.always := rfl

/-! ### Block.setLl -/

@[simp] theorem Block.setLl_regs (b : Block) (n : Nat) (v : LlSt) : (b.setLl n v).regs = b.regs := rfl
@[simp] theorem Block.setLl_resp (b : Block) (n : Nat) (v : LlSt) : (b.setLl n v).resp = b.resp := rfl
@[simp] theorem Block.setLl_fc (b : Block) (n : Nat) (v : LlSt) : (b.setLl n v).fc = b.fc := rfl
@[simp] theorem Block.setLl_flights (b : Block) (n : Nat) (v : LlSt) : (b.setLl n v).flights = b.flights := rfl
@[simp] theorem Block.setLl_own (b : Block) (n : Nat) (v : LlSt) : (b.setLl n v).own = b.own := rfl
@[simp] theorem Block.setLl_balls (b : Block) (n : Nat) (v : LlSt) : (b.setLl n v).balls = b.balls := rfl
@[simp] theorem Block.setLl_mem (b : Block) (n : Nat) (v : LlSt) : (b.setLl n v).mem = b.mem := rfl
@[simp] theorem Block.setLl_syn (b : Block) (n : Nat) (v : LlSt) : (b.setLl n v).syn = b.syn := rfl
@[simp] theorem Block.setLl_eng (b : Block) (n : Nat) (v : LlSt) : (b.setLl n v).eng = b.eng := rfl
@[simp] theorem Block.setLl_icSrc (b : Block) (n : Nat) (v : LlSt) : (b.setLl n v).icSrc = b.icSrc := rfl
@[simp] theorem Block.setLl_always (b : Block) (n : Nat) (v : LlSt) : (b.setLl n v).always = b.always := rfl

/-! ### Block.setLu -/

@[simp] theorem Block.setLu_regs (b : Block) (n : Nat) (v : LuSt) : (b.setLu n v).regs = b.regs := rfl
@[simp] theorem Block.setLu_resp (b : Block) (n : Nat) (v : LuSt) : (b.setLu n v).resp = b.resp := rfl
@[simp] theorem Block.setLu_fc (b : Block) (n : Nat) (v : LuSt) : (b.setLu n v).fc = b.fc := rfl
@[simp] theorem Block.setLu_flights (b : Block) (n : Nat) (v : LuSt) : (b.setLu n v).flights = b.flights := rfl
@[simp] theorem Block.setLu_own (b : Block) (n : Nat) (v : LuSt) : (b.setLu n v).own = b.own := rfl
@[simp] theorem Block.setLu_balls (b : Block) (n : Nat) (v : LuSt) : (b.setLu n v).balls = b.balls := rfl
@[simp] theorem Block.setLu_mem (b : Block) (n : Nat) (v : LuSt) : (b.setLu n v).mem = b.mem := rfl
@[simp] theorem Block.setLu_syn (b : Block) (n : Nat) (v : LuSt) : (b.setLu n v).syn = b.syn := rfl
@[simp] theorem Block.setLu_eng (b : Block) (n : Nat) (v : LuSt) : (b.setLu n v).eng = b.eng := rfl
@[simp] theorem Block.setLu_icSrc (b : Block) (n : Nat) (v : LuSt) : (b.setLu n v).icSrc = b.icSrc := rfl
@[simp] theorem Block.setLu_always (b : Block) (n : Nat) (v : LuSt) : (b.setLu n v).always = b.always := rfl

/-! ### Block.setAd -/

@[simp] theorem Block.setAd_regs (b : Block) (n : Nat) (v : AdSt) : (b.setAd n v).regs = b.regs := rfl
@[simp] theorem Block.setAd_resp (b : Block) (n : Nat) (v : AdSt) : (b.setAd n v).resp = b.resp := rfl
@[simp] theorem Block.setAd_fc (b : Block) (n : Nat) (v : AdSt) : (b.setAd n v).fc = b.fc := rfl
@[simp] theorem Block.setAd_flights (b : Block) (n : Nat) (v : AdSt) : (b.setAd n v).flights = b.flights := rfl
@[simp] theorem Block.setAd_own (b : Block) (n : Nat) (v : AdSt) : (b.setAd n v).own = b.own := rfl
@[simp] theorem Block.setAd_balls (b : Block) (n : Nat) (v : AdSt) : (b.setAd n v).balls = b.balls := rfl
@[simp] theorem Block.setAd_mem (b : Block) (n : Nat) (v : AdSt) : (b.setAd n v).mem = b.mem := rfl
@[simp] theorem Block.setAd_syn (b : Block) (n : Nat) (v : AdSt) : (b.setAd n v).syn = b.syn := rfl
@[simp] theorem Block.setAd_eng (b : Block) (n : Nat) (v : AdSt) : (b.setAd n v).eng = b.eng := rfl
@[simp] theorem Block.setAd_icSrc (b : Block) (n : Nat) (v : AdSt) : (b.setAd n v).icSrc = b.icSrc := rfl
@[simp] theorem Block.setAd_always (b : Block) (n : Nat) (v : AdSt) : (b.setAd n v).always = b.always := rfl

/-! ### Block.setAc -/

@[simp] theorem Block.setAc_regs (b : Block) (n : Nat) (v : AcSt) : (b.setAc n v).regs = b.regs := rfl
@[simp] theorem Block.setAc_resp (b : Block) (n : Nat) (v : AcSt) : (b.setAc n v).resp = b.resp := rfl
@[simp] theorem Block.setAc_fc (b : Block) (n : Nat) (v : AcSt) : (b.setAc n v).fc = b.fc := rfl
@[simp] theorem Block.setAc_flights (b : Block) (n : Nat) (v : AcSt) : (b.setAc n v).flights = b.flights := rfl
@[simp] theorem Block.setAc_own (b : Block) (n : Nat) (v : AcSt) : (b.setAc n v).own = b.own := rfl
@[simp] theorem Block.setAc_balls (b : Block) (n : Nat) (v : AcSt) : (b.setAc n v).balls = b.balls := rfl
@[simp] theorem Block.setAc_mem (b : Block) (n : Nat) (v : AcSt) : (b.setAc n v).mem = b.mem := rfl
@[simp] theorem Block.setAc_syn (b : Block) (n : Nat) (v : AcSt) : (b.setAc n v).syn = b.syn := rfl
@[simp] theorem Block.setAc_eng (b : Block) (n : Nat) (v : AcSt) : (b.setAc n v).eng = b.eng := rfl
@[simp] theorem Block.setAc_icSrc (b : Block) (n : Nat) (v : AcSt) : (b.setAc n v).icSrc = b.icSrc := rfl
@[simp] theorem Block.setAc_always (b : Block) (n : Nat) (v : AcSt) : (b.setAc n v).always = b.always := rfl

/-! ### Block.setSd -/

@[simp] theorem Block.setSd_regs (b : Block) (n : Nat) (v : SdSt) : (b.setSd n v).regs = b.regs := rfl
@[simp] theorem Block.setSd_resp (b : Block) (n : Nat) (v : SdSt) : (b.setSd n v).resp = b.resp := rfl
@[simp] theorem Block.setSd_fc (b : Block) (n : Nat) (v : SdSt) : (b.setSd n v).fc = b.fc := rfl
@[simp] theorem Block.setSd_flights (b : Block) (n : Nat) (v : SdSt) : (b.setSd n v).flights = b.flights := rfl
@[simp] theorem Block.setSd_own (b : Block) (n : Nat) (v : SdSt) : (b.setSd n v).own = b.own := rfl
@[simp] theorem Block.setSd_balls (b : Block) (n : Nat) (v : SdSt) : (b.setSd n v).balls = b.balls := rfl
@[simp] theorem Block.setSd_mem (b : Block) (n : Nat) (v : SdSt) : (b.setSd n v).mem = b.mem := rfl
@[simp] theorem Block.setSd_syn (b : Block) (n : Nat) (v : SdSt) : (b.setSd n v).syn = b.syn := rfl
@[simp] theorem Block.setSd_eng (b : Block) (n : Nat) (v : SdSt) : (b.setSd n v).eng = b.eng := rfl
@[simp] theorem Block.setSd_icSrc (b : Block) (n : Nat) (v : SdSt) : (b.setSd n v).icSrc = b.icSrc := rfl
@[simp] theorem Block.setSd_always (b : Block) (n : Nat) (v : SdSt) : (b.setSd n v).always = b.always := rfl

/-! ### Block.setHl -/

@[simp] theorem Block.setHl_regs (b : Block) (n : Nat) (v : HlSt) : (b.setHl n v).regs = b.regs := rfl
@[simp] theorem Block.setHl_resp (b : Block) (n : Nat) (v : HlSt) : (b.setHl n v).resp = b.resp := rfl
@[simp] theorem Block.setHl_fc (b : Block) (n : Nat) (v : HlSt) : (b.setHl n v).fc = b.fc := rfl
@[simp] theorem Block.setHl_flights (b : Block) (n : Nat) (v : HlSt) : (b.setHl n v).flights = b.flights := rfl
@[simp] theorem Block.setHl_own (b : Block) (n : Nat) (v : HlSt) : (b.setHl n v).own = b.own := rfl
@[simp] theorem Block.setHl_balls (b : Block) (n : Nat) (v : HlSt) : (b.setHl n v).balls = b.balls := rfl
@[simp] theorem Block.setHl_mem (b : Block) (n : Nat) (v : HlSt) : (b.setHl n v).mem = b.mem := rfl
@[simp] theorem Block.setHl_syn (b : Block) (n : Nat) (v : HlSt) : (b.setHl n v).syn = b.syn := rfl
@[simp] theorem Block.setHl_eng (b : Block) (n : Nat) (v : HlSt) : (b.setHl n v).eng = b.eng := rfl
@[simp] theorem Block.setHl_icSrc (b : Block) (n : Nat) (v : HlSt) : (b.setHl n v).icSrc = b.icSrc := rfl
@[simp] theorem Block.setHl_always (b : Block) (n : Nat) (v : HlSt) : (b.setHl n v).always = b.always := rfl

/-! ### Block.setFb -/

@[simp] theorem Block.setFb_regs (b : Block) (n : Nat) (v : FbSt) : (b.setFb n v).regs = b.regs := rfl
@[simp] theorem Block.setFb_resp (b : Block) (n : Nat) (v : FbSt) : (b.setFb n v).resp = b.resp := rfl
@[simp] theorem Block.setFb_fc (b : Block) (n : Nat) (v : FbSt) : (b.setFb n v).fc = b.fc := rfl
@[simp] theorem Block.setFb_flights (b : Block) (n : Nat) (v : FbSt) : (b.setFb n v).flights = b.flights := rfl
@[simp] theorem Block.setFb_own (b : Block) (n : Nat) (v : FbSt) : (b.setFb n v).own = b.own := rfl
@[simp] theorem Block.setFb_balls (b : Block) (n : Nat) (v : FbSt) : (b.setFb n v).balls = b.balls := rfl
@[simp] theorem Block.setFb_mem (b : Block) (n : Nat) (v : FbSt) : (b.setFb n v).mem = b.mem := rfl
@[simp] theorem Block.setFb_syn (b : Block) (n : Nat) (v : FbSt) : (b.setFb n v).syn = b.syn := rfl
@[simp] theorem Block.setFb_eng (b : Block) (n : Nat) (v : FbSt) : (b.setFb n v).eng = b.eng := rfl
@[simp] theorem Block.setFb_icSrc (b : Block) (n : Nat) (v : FbSt) : (b.setFb n v).icSrc = b.icSrc := rfl
@[simp] theorem Block.setFb_always (b : Block) (n : Nat) (v : FbSt) : (b.setFb n v).always = b.always := rfl

/-! ### Block.setEmu -/

@[simp] theorem Block.setEmu_regs (b : Block) (n : Nat) (v : EmuSt) : (b.setEmu n v).regs = b.regs := rfl
@[simp] theorem Block.setEmu_resp (b : Block) (n : Nat) (v : EmuSt) : (b.setEmu n v).resp = b.resp := rfl
@[simp] theorem Block.setEmu_fc (b : Block) (n : Nat) (v : EmuSt) : (b.setEmu n v).fc = b.fc := rfl
@[simp] theorem Block.setEmu_flights (b : Block) (n : Nat) (v : EmuSt) : (b.setEmu n v).flights = b.flights := rfl
@[simp] theorem Block.setEmu_own (b : Block) (n : Nat) (v : EmuSt) : (b.setEmu n v).own = b.own := rfl
@[simp] theorem Block.setEmu_balls (b : Block) (n : Nat) (v : EmuSt) : (b.setEmu n v).balls = b.balls := rfl
@[simp] theorem Block.setEmu_mem (b : Block) (n : Nat) (v : EmuSt) : (b.setEmu n v).mem = b.mem := rfl
@[simp] theorem Block.setEmu_syn (b : Block) (n : Nat) (v : EmuSt) : (b.setEmu n v).syn = b.syn := rfl
@[simp] theorem Block.setEmu_eng (b : Block) (n : Nat) (v : EmuSt) : (b.setEmu n v).eng = b.eng := rfl
@[simp] theorem Block.setEmu_icSrc (b : Block) (n : Nat) (v : EmuSt) : (b.setEmu n v).icSrc = b.icSrc := rfl
@[simp] theorem Block.setEmu_always (b : Block) (n : Nat) (v : EmuSt) : (b.setEmu n v).always = b.always := rfl

/-! ### Block.setFg -/

@[simp] theorem Block.setFg_regs (b : Block) (n : Nat) (v : FgSt) : (b.setFg n v).regs = b.regs := rfl
@[simp] theorem Block.setFg_resp (b : Block) (n : Nat) (v : FgSt) : (b.setFg n v).resp = b.resp := rfl
@[simp] theorem Block.setFg_fc (b : Block) (n : Nat) (v : FgSt) : (b.setFg n v).fc = b.fc := rfl
@[simp] theorem Block.setFg_flights (b : Block) (n : Nat) (v : FgSt) : (b.setFg n v).flights = b.flights := rfl
@[simp] theorem Block.setFg_own (b : Block) (n : Nat) (v : FgSt) : (b.setFg n v).own = b.own := rfl
@[simp] theorem Block.setFg_balls (b : Block) (n : Nat) (v : FgSt) : (b.setFg n v).balls = b.balls := rfl
@[simp] theorem Block.setFg_mem (b : Block) (n : Nat) (v : FgSt) : (b.setFg n v).mem = b.mem := rfl
@[simp] theorem Block.setFg_syn (b : Block) (n : Nat) (v : FgSt) : (b.setFg n v).syn = b.syn := rfl
@[simp] theorem Block.setFg_eng (b : Block) (n : Nat) (v : FgSt) : (b.setFg n v).eng = b.eng := rfl
@[simp] theorem Block.setFg_icSrc (b : Block) (n : Nat) (v : FgSt) : (b.setFg n v).icSrc = b.icSrc := rfl
@[simp] theorem Block.setFg_always (b : Block) (n : Nat) (v : FgSt) : (b.setFg n v).always = b.always := rfl

/-! ### Block.setHc -/

@[simp] theorem Block.setHc_regs (b : Block) (n : Nat) (v : HcSt) : (b.setHc n v).regs = b.regs := rfl
@[simp] theorem Block.setHc_resp (b : Block) (n : Nat) (v : HcSt) : (b.setHc n v).resp = b.resp := rfl
@[simp] theorem Block.setHc_fc (b : Block) (n : Nat) (v : HcSt) : (b.setHc n v).fc = b.fc := rfl
@[simp] theorem Block.setHc_flights (b : Block) (n : Nat) (v : HcSt) : (b.setHc n v).flights = b.flights := rfl
@[simp] theorem Block.setHc_own (b : Block) (n : Nat) (v : HcSt) : (b.setHc n v).own = b.own := rfl
@[simp] theorem Block.setHc_balls (b : Block) (n : Nat) (v : HcSt) : (b.setHc n v).balls = b.balls := rfl
@[simp] theorem Block.setHc_mem (b : Block) (n : Nat) (v : HcSt) : (b.setHc n v).mem = b.mem := rfl
@[simp] theorem Block.setHc_syn (b : Block) (n : Nat) (v : HcSt) : (b.setHc n v).syn = b.syn := rfl
@[simp] theorem Block.setHc_eng (b : Block) (n : Nat) (v : HcSt) : (b.setHc n v).eng = b.eng := rfl
@[simp] theorem Block.setHc_icSrc (b : Block) (n : Nat) (v : HcSt) : (b.setHc n v).icSrc = b.icSrc := rfl
@[simp] theorem Block.setHc_always (b : Block) (n : Nat) (v : HcSt) : (b.setHc n v).always = b.always := rfl

/-! ### The whole state -/

/-- An effect on the part leaves the queue, the time base, the silicon and the part at the start of the fc. -/
@[simp] theorem State.run_eq (s : State) (f : Ctx → Block → Block) :
    s.run f = .next { s with now := f s.ctx s.now } := rfl
@[simp] theorem State.ctx_hw (s : State) : s.ctx.hw = s.hw := rfl
@[simp] theorem State.ctx_tick (s : State) : s.ctx.tick = s.tick := rfl
@[simp] theorem State.ctx_start (s : State) : s.ctx.start = s.start := rfl
@[simp] theorem State.runAll_true (s : State) (f : State → State) : s.runAll true f = .next (f s) := rfl
@[simp] theorem State.runAll_false (s : State) (f : State → State) : s.runAll false f = .next s := rfl
@[simp] theorem State.resetTo_hw (s : State) (b : Block) : (s.resetTo b).hw = s.hw := rfl
@[simp] theorem State.resetTo_tick (s : State) (b : Block) : (s.resetTo b).tick = 0 := rfl
@[simp] theorem State.resetTo_now (s : State) (b : Block) : (s.resetTo b).now = b := rfl
@[simp] theorem State.resetTo_start (s : State) (b : Block) : (s.resetTo b).start = b := rfl
@[simp] theorem State.resetTo_pending (s : State) (b : Block) : (s.resetTo b).pending = s.pending := rfl

@[simp] theorem when_true (f : Block → Block) (b : Block) : when true f b = f b := rfl
@[simp] theorem when_false (f : Block → Block) (b : Block) : when false f b = b := rfl

end Sys2Proof.Machine
end

