-- ==== Sys2Proof/Laws/Bus.lean ====
section
/-! SUPPORT. An access that reaches a peripheral register is its unit's own write or read. -/

namespace Sys2Proof.Machine

theorem memSpace_peripheral (hw : Hw) {a : Nat} (h : 0x40000000 ≤ a) (g : a < 0x80000000) : memSpace hw a = none := by
  unfold memSpace
  rw [if_neg (by omega), if_neg (by omega), if_neg (by omega), if_neg (by omega)]

theorem busAddr_peripheral (ag : Agent) {a : Nat} (h : 0x40000000 ≤ a) : busAddr ag a = a := by
  cases ag <;> simp only [busAddr]
  unfold unalias
  rw [if_neg (by omega)]

/-- A word write that reaches a register of the part (R11, R26, R40). -/
theorem regStore_unit (c : Ctx) (ag : Agent) (a v : Nat) (b : Block) (l : Loc) (hm : ag = .mnt → b.mntReady = true)
    (hd : b.deadWriter c.hw ag a = none) (hl : locate c.hw a = some l) (ho : b.mayWrite ag l = true)
    (h : 0x40000000 ≤ a) (g : a < 0x80000000) (h4 : a % 4 = 0) (hv : v < 2 ^ 32) :
    regStore c ag a v b = unitWrite c ag l a v b := by
  have hb := busAddr_peripheral ag h
  have hw := memSpace_peripheral c.hw h g
  have ha : a / 4 * 4 = a := by omega
  have hg : (ag != .mnt || b.mntReady) = true := by
    cases ag <;> simp_all
  unfold regStore
  rw [hg, when_true]
  unfold busWrite
  simp only [hb, hd, hw, ha, h4, Nat.zero_add, Nat.lt_irrefl, if_false, hl, ho, ne_eq, not_true_eq_false, or_self, Bool.or_self,
    Bool.not_true, Bool.false_eq_true]
  congr 1
  omega

/-- A word read that reaches a register of the part (R11, R40). -/
theorem regLoad_unit (c : Ctx) (ag : Agent) (a : Nat) (b : Block) (l : Loc) (hl : locate c.hw a = some l)
    (h : 0x40000000 ≤ a) (g : a < 0x80000000) (h4 : a % 4 = 0) :
    regLoad c ag a b = ((unitRead c l a b).2).answer ((unitRead c l a b).1 % 2 ^ 32) 0 := by
  have hb := busAddr_peripheral ag h
  have hw := memSpace_peripheral c.hw h g
  have hk : firstPart a 4 = 4 := by unfold firstPart; omega
  have ha : a / 4 * 4 = a := by omega
  have hf : inFlash a = false := by unfold inFlash; simp; omega
  unfold regLoad
  rw [Block.flashHeld, hf, Bool.and_false, Bool.false_and, Bool.or_false, if_neg (by decide)]
  unfold readNow busLoad busRead
  simp only [hk, if_true, hb, hw, Option.isSome_none, Bool.false_eq_true, if_false, ha, regWordRead, hl, h4, Nat.zero_add]
  simp [bits]

end Sys2Proof.Machine
end

