-- ==== Sys2Proof/Machine/Encoding.lean ====
section
/-! DEFINITION. The words of the engines' instructions (R463–R465, R467, R469): their fields, the tables of the two forms, the word of each
instruction, and which instruction stands at a task's PC. -/

namespace Sys2Proof.Machine

/-! ### Fields (R464) -/

/-- The fields of a long-form word as form R names them. Forms I and U have RB, FN and RA, RB, FN for their immediate; form B has RA in
RD's place, RB in RA's, and its offset in RB, FN and T; form J its offset in RA, RB, FN and T. -/
structure LongWord where
  op : Fin 64
  rd : Fin 32 := 0
  t : Fin 16 := 0
  ra : Fin 32 := 0
  rb : Fin 32 := 0
  fn : Fin 64 := 0
  deriving DecidableEq, Repr

/-- The fields of the word I = first halfword + 65,536 × second halfword. -/
def LongWord.of (w : Nat) : LongWord where
  op := Fin.ofNat 64 (w / 2 ^ 9)
  rd := Fin.ofNat 32 (w / 2 ^ 4)
  t := Fin.ofNat 16 w
  ra := Fin.ofNat 32 (w / 2 ^ 27)
  rb := Fin.ofNat 32 (w / 2 ^ 22)
  fn := Fin.ofNat 64 (w / 2 ^ 16)

/-- The word I of some fields. -/
def LongWord.code (x : LongWord) : Nat :=
  x.ra * 2 ^ 27 + x.rb * 2 ^ 22 + x.fn * 2 ^ 16 + 2 ^ 15 + x.op * 2 ^ 9 + x.rd * 2 ^ 4 + x.t

/-- The fields of a short-form halfword: SOP, S[10:8], S[7:5], S[4:2], S[1:0]. -/
structure ShortWord where
  sop : Fin 16
  a : Fin 8 := 0
  b : Fin 8 := 0
  c : Fin 8 := 0
  d : Fin 4 := 0
  deriving DecidableEq, Repr

/-- The fields of a halfword. -/
def ShortWord.of (w : Nat) : ShortWord where
  sop := Fin.ofNat 16 (w / 2 ^ 11)
  a := Fin.ofNat 8 (w / 2 ^ 8)
  b := Fin.ofNat 8 (w / 2 ^ 5)
  c := Fin.ofNat 8 (w / 2 ^ 2)
  d := Fin.ofNat 4 w

/-- The halfword of some fields. -/
def ShortWord.code (x : ShortWord) : Nat := x.sop * 2 ^ 11 + x.a * 2 ^ 8 + x.b * 2 ^ 5 + x.c * 2 ^ 2 + x.d

/-! ### The tables (R465, R469) -/

/-- A row of the long-form table: its mnemonic, OP, FN where the form has one, and what the other fields may hold: 0 where the row marks
them so or has no use for them. -/
structure LongRow where
  name : String
  op : Nat
  fn : Option Nat
  ok : LongWord → Bool := fun _ => true

/-- Rows of form R with three registers, with two, with T beside them, with RA and RB alone, with an accumulator in RD, with RA alone,
without a field. -/
def rowR3 (name : String) (op fn : Nat) : LongRow := ⟨name, op, some fn, fun x => x.t == 0⟩
def rowR2 (name : String) (op fn : Nat) : LongRow := ⟨name, op, some fn, fun x => x.t == 0 && x.rb == 0⟩
def rowR2T (name : String) (op fn : Nat) : LongRow := ⟨name, op, some fn, fun x => x.rb == 0⟩
def rowAB (name : String) (op fn : Nat) : LongRow := ⟨name, op, some fn, fun x => x.t == 0 && x.rd == 0⟩
def rowAcc (name : String) (op fn : Nat) : LongRow := ⟨name, op, some fn, fun x => x.t == 0 && x.rd < 2⟩
def rowA (name : String) (op fn : Nat) : LongRow := ⟨name, op, some fn, fun x => x.t == 0 && x.rd == 0 && x.rb == 0⟩
def row0 (name : String) (op fn : Nat) : LongRow :=
  ⟨name, op, some fn, fun x => x.t == 0 && x.rd == 0 && x.ra == 0 && x.rb == 0⟩

/-- Rows without FN: with T = 0, with T free. -/
def rowI (name : String) (op : Nat) : LongRow := ⟨name, op, none, fun x => x.t == 0⟩
def rowT (name : String) (op : Nat) : LongRow := { name := name, op := op, fn := none }

/-- Branches, jumps, immediates, CSR accesses, loads and stores. -/
def longPlain : List LongRow :=
  [rowT "CBEQ" 0x10, rowT "CBNE" 0x11, rowT "CBLT" 0x12, rowT "CBGE" 0x13, rowT "CBLTU" 0x14, rowT "CBGEU" 0x15, rowT "JAL" 0x18,
    rowI "ADDI" 0x21, rowI "ANDI" 0x22, rowI "ORI" 0x23, rowI "XORI" 0x24, ⟨"SHI", 0x25, none, fun x => x.t == 0 && x.rb < 2⟩,
    ⟨"LIL", 0x26, none, fun x => x.t < 12⟩, rowI "LIH" 0x27,
    ⟨"CSRR", 0x2E, none, fun x => x.t == 0 && x.ra == 0⟩, ⟨"CSRW", 0x2E, none, fun x => x.t == 1 && x.rd == 0⟩,
    ⟨"CSRS", 0x2E, none, fun x => x.t == 2⟩, ⟨"CSRC", 0x2E, none, fun x => x.t == 3⟩,
    rowT "LB" 0x30, rowT "LBU" 0x31, rowT "LH" 0x32, rowT "LHU" 0x33, rowT "LW" 0x34, rowI "SB" 0x38, rowI "SH" 0x39, rowI "SW" 0x3A]

/-- The ALU functions. -/
def longAlu : List LongRow :=
  [rowR3 "ADD" 0x20 0x00, rowR3 "SUB" 0x20 0x01, rowR3 "MIN" 0x20 0x02, rowR3 "MAX" 0x20 0x03, rowR2 "NEG" 0x20 0x04,
    rowR2 "ABS" 0x20 0x05, rowR3 "AND" 0x20 0x08, rowR3 "OR" 0x20 0x09, rowR3 "XOR" 0x20 0x0A, rowR3 "ANDN" 0x20 0x0B,
    rowR2 "NOT" 0x20 0x0C, rowR3 "SLL" 0x20 0x10, rowR3 "SRL" 0x20 0x11, rowR3 "SRA" 0x20 0x12, rowR3 "ROR" 0x20 0x13,
    rowR2 "CLZ" 0x20 0x14, rowR2 "SEXTB" 0x20 0x18, rowR2 "SEXTH" 0x20 0x19, rowR2 "ZEXTB" 0x20 0x1A, rowR2 "ZEXTH" 0x20 0x1B,
    rowR3 "CMPEQ" 0x20 0x20, rowR3 "CMPLT" 0x20 0x21, rowR3 "CMPLTU" 0x20 0x22, rowR2 "MOV" 0x20 0x28, rowR2 "GETT" 0x20 0x29,
    ⟨"SETT", 0x20, some 0x2A, fun x => x.rb == 0 && x.t < 12⟩, ⟨"CHKT", 0x20, some 0x2B, fun x => x.rd == 0 && x.rb == 0⟩,
    rowR2T "CVT" 0x20 0x30]

/-- Multiplication, division, binary32, accumulators. -/
def longMul : List LongRow :=
  [rowR3 "MUL" 0x28 0x00, rowR3 "MULH" 0x28 0x01, rowR3 "DIV" 0x28 0x02, rowR3 "REM" 0x28 0x03, rowR2 "SQRT" 0x28 0x04,
    rowR3 "FADD" 0x29 0x00, rowR3 "FSUB" 0x29 0x01, rowR3 "FMUL" 0x29 0x02, rowR3 "FMIN" 0x29 0x03, rowR3 "FMAX" 0x29 0x04,
    rowR2 "FNEG" 0x29 0x05, rowR2 "FABS" 0x29 0x06, rowAcc "MAC" 0x2A 0x00, rowAcc "MSU" 0x2A 0x01, rowAcc "MACZ" 0x2A 0x02,
    ⟨"RDA", 0x2A, some 0x03, fun x => x.ra < 2 && x.rb == 0⟩,
    ⟨"CLRA", 0x2A, some 0x04, fun x => x.t == 0 && x.rd < 2 && x.ra == 0 && x.rb == 0⟩]

/-- Microcode, lane registers, jumps by register, system instructions. -/
def longSystem : List LongRow :=
  [rowR3 "CLARKE" 0x2B 0x00, rowR3 "PARK" 0x2B 0x01, rowR3 "IPARK" 0x2B 0x02, rowR2 "SINCOS" 0x2B 0x03, rowR3 "ATAN2" 0x2B 0x04,
    rowR3 "MTX3" 0x2B 0x05, rowAB "LDM" 0x2C 0x00, rowAB "STM" 0x2C 0x01, rowAB "SAVEG" 0x2C 0x02, rowAB "LOADG" 0x2C 0x03,
    rowR3 "BCOPY" 0x2C 0x04, ⟨"VMAC", 0x2C, some 0x05, fun x => x.t < 2⟩, ⟨"FIRQ", 0x2C, some 0x06, fun x => x.t < 2⟩,
    ⟨"RDL", 0x2D, some 0x00, fun x => x.t == 0 && x.ra == 0 && x.rb < 8⟩,
    ⟨"WRL", 0x2D, some 0x01, fun x => x.t == 0 && x.rd == 0 && x.rb < 8⟩, rowR2 "JALR" 0x19 0x00,
    row0 "NOP" 0x2F 0x00, row0 "WAIT" 0x2F 0x01, row0 "DRAIN" 0x2F 0x02, row0 "ERET" 0x2F 0x03, row0 "BRK" 0x2F 0x04,
    ⟨"SYS", 0x2F, some 0x05, fun x => x.rd == 0 && x.ra == 0⟩, rowA "DINV" 0x2F 0x08, row0 "DINVA" 0x2F 0x09, rowA "IINV" 0x2F 0x0A,
    row0 "IINVA" 0x2F 0x0B, rowA "EVR" 0x2F 0x10]

def longRows : List LongRow := longPlain ++ longAlu ++ longMul ++ longSystem

/-- Is the row the word's? -/
def LongRow.fits (r : LongRow) (x : LongWord) : Bool := r.op == x.op.val && r.fn.all (· == x.fn.val) && r.ok x

/-- The mnemonic of a long word's row; none for an undefined word (R465). -/
def LongWord.name (x : LongWord) : Option String := (longRows.find? (·.fits x)).map (·.name)

/-- Is a long word undefined (R465)? -/
def LongWord.undefined (x : LongWord) : Bool := !longRows.any (·.fits x)

/-- Is a short word undefined: SOP 0xF, or a bit set where the table has a 0 or nothing (R465)? -/
def ShortWord.undefined (x : ShortWord) : Bool :=
  match x.sop.val with
  | 0x0 => 4 ≤ x.a.val
  | 0x8 => x.b.val % 2 != 0
  | 0xA => x.a.val % 2 != 0 || x.d != 0
  | 0xC => x.a != 0 || x.b != 0
  | 0xD => 5 ≤ x.a.val || x.b != 0 || x.c != 0 || x.d != 0
  | 0xE => x.b.val % 4 != 0
  | 0xF => true
  | _ => false

/-! ### The word of each instruction -/

/-- Words of form R, I with IMM11, B. -/
def codeR (op fn : Fin 64) (rd ra rb : Reg) (t : TagNo := 0) : Option LongWord := some ⟨op, rd, t, ra, rb, fn⟩
def codeI (op : Fin 64) (rd ra : Reg) (t : TagNo) (imm : BitVec 11) : Option LongWord :=
  some ⟨op, rd, t, ra, Fin.ofNat 32 (imm.toNat / 64), Fin.ofNat 64 imm.toNat⟩
def codeU (op : Fin 64) (rd : Reg) (t : TagNo) (imm : BitVec 16) : Option LongWord :=
  some ⟨op, rd, t, Fin.ofNat 32 (imm.toNat / 2048), Fin.ofNat 32 (imm.toNat / 64), Fin.ofNat 64 imm.toNat⟩
def codeB (op : Fin 64) (ra rb : Reg) (ofs : BitVec 15) : Option LongWord :=
  some ⟨op, ra, Fin.ofNat 16 ofs.toNat, rb, Fin.ofNat 32 (ofs.toNat / 1024), Fin.ofNat 64 (ofs.toNat / 16)⟩

/-- A number below 2 or 8 in a register's field. -/
def fieldOf {n : Nat} (k : Fin n) : Fin 32 := Fin.ofNat 32 k.val

/-- The long-form word of an instruction (R464, R469). -/
def longWord : Instr → Option LongWord
  | .cbeq _ ra rb ofs => codeB 0x10 ra rb ofs
  | .cbne _ ra rb ofs => codeB 0x11 ra rb ofs
  | .cblt _ ra rb ofs => codeB 0x12 ra rb ofs
  | .cbge _ ra rb ofs => codeB 0x13 ra rb ofs
  | .cbltu _ ra rb ofs => codeB 0x14 ra rb ofs
  | .cbgeu _ ra rb ofs => codeB 0x15 ra rb ofs
  | .jal _ rd ofs =>
    let v := ofs.toNat
    some ⟨0x18, rd, Fin.ofNat 16 v, Fin.ofNat 32 (v / 32768), Fin.ofNat 32 (v / 1024), Fin.ofNat 64 (v / 16)⟩
  | .jalr _ rd ra => codeR 0x19 0x00 rd ra 0
  | .add _ rd ra rb => codeR 0x20 0x00 rd ra rb
  | .sub _ rd ra rb => codeR 0x20 0x01 rd ra rb
  | .min _ rd ra rb => codeR 0x20 0x02 rd ra rb
  | .max _ rd ra rb => codeR 0x20 0x03 rd ra rb
  | .neg _ rd ra => codeR 0x20 0x04 rd ra 0
  | .abs _ rd ra => codeR 0x20 0x05 rd ra 0
  | .and _ rd ra rb => codeR 0x20 0x08 rd ra rb
  | .or _ rd ra rb => codeR 0x20 0x09 rd ra rb
  | .xor _ rd ra rb => codeR 0x20 0x0A rd ra rb
  | .andn _ rd ra rb => codeR 0x20 0x0B rd ra rb
  | .not _ rd ra => codeR 0x20 0x0C rd ra 0
  | .sll _ rd ra rb => codeR 0x20 0x10 rd ra rb
  | .srl _ rd ra rb => codeR 0x20 0x11 rd ra rb
  | .sra _ rd ra rb => codeR 0x20 0x12 rd ra rb
  | .ror _ rd ra rb => codeR 0x20 0x13 rd ra rb
  | .clz _ rd ra => codeR 0x20 0x14 rd ra 0
  | .sextb _ rd ra => codeR 0x20 0x18 rd ra 0
  | .sexth _ rd ra => codeR 0x20 0x19 rd ra 0
  | .zextb _ rd ra => codeR 0x20 0x1A rd ra 0
  | .zexth _ rd ra => codeR 0x20 0x1B rd ra 0
  | .cmpeq _ rd ra rb => codeR 0x20 0x20 rd ra rb
  | .cmplt _ rd ra rb => codeR 0x20 0x21 rd ra rb
  | .cmpltu _ rd ra rb => codeR 0x20 0x22 rd ra rb
  | .mov _ rd ra => codeR 0x20 0x28 rd ra 0
  | .gett _ rd ra => codeR 0x20 0x29 rd ra 0
  | .sett _ rd ra t => codeR 0x20 0x2A rd ra 0 t
  | .chkt _ ra t => codeR 0x20 0x2B 0 ra 0 t
  | .cvt _ rd ra t => codeR 0x20 0x30 rd ra 0 t
  | .addi _ rd ra imm => codeI 0x21 rd ra 0 imm
  | .andi _ rd ra imm => codeI 0x22 rd ra 0 imm
  | .ori _ rd ra imm => codeI 0x23 rd ra 0 imm
  | .xori _ rd ra imm => codeI 0x24 rd ra 0 imm
  | .shi _ rd ra imm => codeI 0x25 rd ra 0 imm
  | .lil _ rd t imm => codeU 0x26 rd t imm
  | .lih _ rd imm => codeU 0x27 rd 0 imm
  | .mac _ acc ra rb => codeR 0x2A 0x00 (fieldOf acc) ra rb
  | .msu _ acc ra rb => codeR 0x2A 0x01 (fieldOf acc) ra rb
  | .macz _ acc ra rb => codeR 0x2A 0x02 (fieldOf acc) ra rb
  | .rda _ rd acc t => codeR 0x2A 0x03 rd (fieldOf acc) 0 t
  | .clra _ acc => codeR 0x2A 0x04 (fieldOf acc) 0 0
  | .mul _ rd ra rb => codeR 0x28 0x00 rd ra rb
  | .mulh _ rd ra rb => codeR 0x28 0x01 rd ra rb
  | .div _ rd ra rb _ => codeR 0x28 0x02 rd ra rb
  | .rem _ rd ra rb _ => codeR 0x28 0x03 rd ra rb
  | .sqrt _ rd ra _ => codeR 0x28 0x04 rd ra 0
  | .fadd _ rd ra rb => codeR 0x29 0x00 rd ra rb
  | .fsub _ rd ra rb => codeR 0x29 0x01 rd ra rb
  | .fmul _ rd ra rb => codeR 0x29 0x02 rd ra rb
  | .fmin _ rd ra rb => codeR 0x29 0x03 rd ra rb
  | .fmax _ rd ra rb => codeR 0x29 0x04 rd ra rb
  | .fneg _ rd ra => codeR 0x29 0x05 rd ra 0
  | .fabs _ rd ra => codeR 0x29 0x06 rd ra 0
  | .clarke _ rd ra rb _ => codeR 0x2B 0x00 rd ra rb
  | .park _ rd ra rb _ => codeR 0x2B 0x01 rd ra rb
  | .ipark _ rd ra rb _ => codeR 0x2B 0x02 rd ra rb
  | .sincos _ rd ra _ => codeR 0x2B 0x03 rd ra 0
  | .atan2 _ rd ra rb _ => codeR 0x2B 0x04 rd ra rb
  | .mtx3 _ rd ra rb _ => codeR 0x2B 0x05 rd ra rb
  | .ldm _ ra rb _ => codeR 0x2C 0x00 0 ra rb
  | .stm _ ra rb _ => codeR 0x2C 0x01 0 ra rb
  | .saveg _ ra rb _ => codeR 0x2C 0x02 0 ra rb
  | .loadg _ ra rb _ => codeR 0x2C 0x03 0 ra rb
  | .bcopy _ rd ra rb _ => codeR 0x2C 0x04 rd ra rb
  | .vmac _ rd ra rb t _ => codeR 0x2C 0x05 rd ra rb t
  | .firq _ rd ra rb t _ => codeR 0x2C 0x06 rd ra rb t
  | .rdl _ rd k => codeR 0x2D 0x00 rd 0 (fieldOf k)
  | .wrl _ k ra => codeR 0x2D 0x01 0 ra (fieldOf k)
  | .csrr _ rd csr => codeI 0x2E rd 0 0 csr
  | .csrw _ csr ra => codeI 0x2E 0 ra 1 csr
  | .csrs _ rd ra csr => codeI 0x2E rd ra 2 csr
  | .csrc _ rd ra csr => codeI 0x2E rd ra 3 csr
  | .nop _ => codeR 0x2F 0x00 0 0 0
  | .wait _ => codeR 0x2F 0x01 0 0 0
  | .drain _ => codeR 0x2F 0x02 0 0 0
  | .eret _ => codeR 0x2F 0x03 0 0 0
  | .brk _ => codeR 0x2F 0x04 0 0 0
  | .sys _ code => codeR 0x2F 0x05 0 0 (Fin.ofNat 32 (code.toNat / 16)) (Fin.ofNat 16 code.toNat)
  | .dinv _ ra => codeR 0x2F 0x08 0 ra 0
  | .dinva _ => codeR 0x2F 0x09 0 0 0
  | .iinv _ ra => codeR 0x2F 0x0A 0 ra 0
  | .iinva _ => codeR 0x2F 0x0B 0 0 0
  | .evr _ ra => codeR 0x2F 0x10 0 ra 0
  | .lb _ rd ra t imm => codeI 0x30 rd ra t imm
  | .lbu _ rd ra t imm => codeI 0x31 rd ra t imm
  | .lh _ rd ra t imm => codeI 0x32 rd ra t imm
  | .lhu _ rd ra t imm => codeI 0x33 rd ra t imm
  | .lw _ rd ra t imm => codeI 0x34 rd ra t imm
  | .sb _ rs ra t imm => codeI 0x38 rs ra t imm
  | .sh _ rs ra t imm => codeI 0x39 rs ra t imm
  | .sw _ rs ra t imm => codeI 0x3A rs ra t imm
  | _ => none

/-- Halfwords with three short registers, with a short register and eight bits, with two and u5, with a full register in S[4:0]. -/
def half3 (sop : Fin 16) (a b c : ShortReg) (d : Fin 4) : Option ShortWord := some ⟨sop, a, b, c, d⟩
def half8 (sop : Fin 16) (a : ShortReg) (v : BitVec 8) : Option ShortWord :=
  some ⟨sop, a, Fin.ofNat 8 (v.toNat / 32), Fin.ofNat 8 (v.toNat / 4), Fin.ofNat 4 v.toNat⟩
def half5 (sop : Fin 16) (a b : ShortReg) (u : Fin 32) : Option ShortWord :=
  some ⟨sop, a, b, Fin.ofNat 8 (u.val / 4), Fin.ofNat 4 u.val⟩
def half0 (k : Fin 8) : Option ShortWord := some ⟨0xD, k, 0, 0, 0⟩

/-- The short-form halfword of an instruction (R469). -/
def shortWord : Instr → Option ShortWord
  | .movS _ rd ra => half5 0x0 (Fin.ofNat 8 (rd.val / 8)) (Fin.ofNat 8 rd.val) ra
  | .addS _ rd ra rb => half3 0x1 rd ra rb 0
  | .subS _ rd ra rb => half3 0x1 rd ra rb 1
  | .andS _ rd ra rb => half3 0x1 rd ra rb 2
  | .orS _ rd ra rb => half3 0x1 rd ra rb 3
  | .addiS _ rd imm => half8 0x2 rd imm
  | .lis _ rd imm => half8 0x3 rd imm
  | .lwS _ rd ra u => half5 0x4 rd ra u
  | .swS _ rs ra u => half5 0x5 rs ra u
  | .cbz _ ra ofs => half8 0x6 ra ofs
  | .cbnz _ ra ofs => half8 0x7 ra ofs
  | .shiS _ rd kind imm => half5 0x8 rd (Fin.ofNat 8 (2 * kind.val)) imm
  | .bS _ ofs => half8 0x9 (Fin.ofNat 8 (ofs.toNat / 256)) (ofs.setWidth 8)
  | .macS _ acc ra rb => half3 0xA (Fin.ofNat 8 (4 * acc.val)) ra rb 0
  | .msuS _ acc ra rb => half3 0xA (Fin.ofNat 8 (4 * acc.val + 2)) ra rb 0
  | .mulS _ rd ra rb => half3 0xB rd ra rb 0
  | .xorS _ rd ra rb => half3 0xB rd ra rb 1
  | .minS _ rd ra rb => half3 0xB rd ra rb 2
  | .maxS _ rd ra rb => half3 0xB rd ra rb 3
  | .jrS _ ra => half5 0xC 0 0 ra
  | .nopS _ => half0 0
  | .waitS _ => half0 1
  | .drainS _ => half0 2
  | .brkS _ => half0 3
  | .eretS _ => half0 4
  | .rdlS _ rd k => half5 0xE (Fin.ofNat 8 (k.val / 2)) (Fin.ofNat 8 (4 * k.val)) rd
  | .wrlS _ k ra => half5 0xE (Fin.ofNat 8 (4 + k.val / 2)) (Fin.ofNat 8 (4 * k.val)) ra
  | _ => none

/-- The length of an instruction in bytes, by bit 15 of its first halfword (R463). -/
def codeLen (w : Nat) : Nat := if bit w 15 then 4 else 2

/-- Does the word w, its first halfword in the lower half, read as the instruction (R463–R465)? Undefined words read as the row of
undefined words. -/
def spells (w : Nat) (i : Instr) : Bool :=
  match i with
  | .sopReserved _ long =>
    if codeLen w = 4 then long && (LongWord.of w).undefined else !long && (ShortWord.of w).undefined
  | i => if codeLen w = 4 then longWord i == some (LongWord.of w) else shortWord i == some (ShortWord.of w)

/-! ### The instruction at a task's PC (R422, R463) -/

/-- The halfword an engine finds at an address: of a line it holds in the I-cache or the line buffer, else of memory as the fc began. -/
def Block.codeHalf (b : Block) (c : Ctx) (e a : Nat) : Nat :=
  let held := if (b.engSt e).modeP && !inItcm e a then (b.engSt e).iData (a / 64) else none
  match held with
  | some d => d / 256 ^ (a % 64) % 65536
  | none => numFrom c.start.goodByte (unalias e a) 2

/-- The word at the PC of task k of engine e. -/
def Block.codeWord (b : Block) (c : Ctx) (e k : Nat) : Nat :=
  let pc := (b.taskSt e k).pc
  b.codeHalf c e pc + 65536 * b.codeHalf c e ((pc + 2) % 2 ^ 32)

/-- Does the instruction stand at the PC of task k of engine e? The sender sends the row of the one that does (log entry 179). -/
def Block.holdsCode (b : Block) (c : Ctx) (e k : Nat) (i : Instr) : Bool := spells (b.codeWord c e k) i

end Sys2Proof.Machine
end

