-- ==== Sys2Proof/Laws/Encoding.lean ====
section
/-! SUPPORT. The words of the engines' instructions: fields and word say the same, rows of the long form do not overlap, and the word of an
instruction spells it. -/

namespace Sys2Proof.Machine

/-! ### Fields and word -/

theorem LongWord.code_lt (x : LongWord) : x.code < 2 ^ 32 := by
  simp only [LongWord.code]; omega

theorem LongWord.bit15 (x : LongWord) : bit x.code 15 = true := by
  have h : x.code / 2 ^ 15 % 2 = 1 := by simp only [LongWord.code]; omega
  unfold bit; rw [h]; rfl

theorem ShortWord.bit15 (x : ShortWord) (y : Nat) : bit (x.code + 65536 * y) 15 = false := by
  have h : (x.code + 65536 * y) / 2 ^ 15 % 2 = 0 := by simp only [ShortWord.code]; omega
  unfold bit; rw [h]; rfl

/-- The fields of a word made of fields are those fields: no bit of an encoding is dropped (R464). -/
theorem LongWord.of_code (x : LongWord) : LongWord.of x.code = x := by
  obtain ⟨op, rd, t, ra, rb, fn⟩ := x
  simp only [LongWord.of, LongWord.code, LongWord.mk.injEq]
  refine ⟨?_, ?_, ?_, ?_, ?_, ?_⟩ <;> (apply Fin.ext; simp only [Fin.ofNat]; omega)

theorem ShortWord.of_code (x : ShortWord) (y : Nat) : ShortWord.of (x.code + 65536 * y) = x := by
  obtain ⟨sop, a, b, c, d⟩ := x
  simp only [ShortWord.of, ShortWord.code, ShortWord.mk.injEq]
  refine ⟨?_, ?_, ?_, ?_, ?_⟩ <;> (apply Fin.ext; simp only [Fin.ofNat]; omega)

/-! ### An instruction's own word spells it -/

theorem spells_long (i : Instr) (x : LongWord) (h : longWord i = some x) : spells x.code i = true := by
  unfold spells
  split
  · cases h
  · simp [codeLen, LongWord.bit15, LongWord.of_code, h]

theorem spells_short (i : Instr) (x : ShortWord) (y : Nat) (h : shortWord i = some x) : spells (x.code + 65536 * y) i = true := by
  unfold spells
  split
  · cases h
  · simp [codeLen, ShortWord.bit15, ShortWord.of_code, h]

/-! ### The long-form rows do not overlap -/

/-- The keys of a row: OP, and FN or, in the CSR rows, T. -/
theorem longRows_keys : (longRows.filter (·.op != 0x2E)).Pairwise fun r q => r.op ≠ q.op ∨ (r.fn.isSome ∧ q.fn.isSome ∧ r.fn ≠ q.fn) := by
  decide

end Sys2Proof.Machine
end

