-- ==== Sys2Proof/Laws/Regs.lean ====
section
/-! SUPPORT. Bit fields and registers: what a field or a register holds after an update, and what an update leaves. -/

namespace Sys2Proof.Machine

/-! ### Bit fields -/

theorem testBit_bits (w hi lo i : Nat) : (bits w hi lo).testBit i = (decide (i < hi + 1 - lo) && w.testBit (lo + i)) := by
  simp [bits, Nat.testBit_mod_two_pow, Nat.testBit_div_two_pow, Nat.add_comm i]

theorem bits_lt (w hi lo : Nat) : bits w hi lo < 2 ^ (hi + 1 - lo) := Nat.mod_lt _ (Nat.two_pow_pos _)

theorem setBits_eq (w hi lo v : Nat) :
    setBits w hi lo v = 2 ^ lo * (2 ^ (hi + 1 - lo) * (w / 2 ^ lo / 2 ^ (hi + 1 - lo)) + v % 2 ^ (hi + 1 - lo)) + w % 2 ^ lo := by
  unfold setBits bits
  have h1 := Nat.div_add_mod w (2 ^ lo)
  have h2 := Nat.div_add_mod (w / 2 ^ lo) (2 ^ (hi + 1 - lo))
  generalize w / 2 ^ lo % 2 ^ (hi + 1 - lo) = m at *
  generalize w / 2 ^ lo / 2 ^ (hi + 1 - lo) = q at *
  generalize v % 2 ^ (hi + 1 - lo) = x at *
  generalize w % 2 ^ lo = r at *
  generalize 2 ^ (hi + 1 - lo) = n at *
  rw [← h2] at h1
  rw [← h1, Nat.mul_add, Nat.mul_add, Nat.mul_comm m, Nat.mul_comm x]
  omega

theorem testBit_setBits (w hi lo v i : Nat) :
    (setBits w hi lo v).testBit i = if lo ≤ i ∧ i < lo + (hi + 1 - lo) then v.testBit (i - lo) else w.testBit i := by
  rw [setBits_eq, Nat.testBit_two_pow_mul_add _ (Nat.mod_lt _ (Nat.two_pow_pos _)),
    Nat.testBit_two_pow_mul_add _ (Nat.mod_lt _ (Nat.two_pow_pos _))]
  by_cases h1 : i < lo
  · rw [if_pos h1, if_neg (by omega), Nat.testBit_mod_two_pow]
    simp [h1]
  · rw [if_neg h1]
    by_cases h2 : i - lo < hi + 1 - lo
    · rw [if_pos h2, if_pos (by omega), Nat.testBit_mod_two_pow]
      simp [h2]
    · rw [if_neg h2, if_neg (by omega), Nat.testBit_div_two_pow, Nat.testBit_div_two_pow]
      congr 1
      omega

/-- The field just written, in a 32-bit word. -/
theorem bits_setBits_same (w hi lo v : Nat) (h : hi < 32) :
    bits (setBits w hi lo v % 2 ^ 32) hi lo = v % 2 ^ (hi + 1 - lo) := by
  apply Nat.eq_of_testBit_eq
  intro i
  rw [testBit_bits, Nat.testBit_mod_two_pow, testBit_setBits, Nat.testBit_mod_two_pow]
  by_cases hi' : i < hi + 1 - lo
  · rw [if_pos (by omega)]
    have : lo + i < 32 := by omega
    simp [hi', this, Nat.add_sub_cancel_left]
  · simp [hi']

/-- A field apart from the one written. -/
theorem bits_setBits_other (w hi lo v hi' lo' : Nat) (h : hi' < 32) (hd : hi' < lo ∨ hi < lo') :
    bits (setBits w hi lo v % 2 ^ 32) hi' lo' = bits w hi' lo' := by
  apply Nat.eq_of_testBit_eq
  intro i
  rw [testBit_bits, Nat.testBit_mod_two_pow, testBit_setBits, testBit_bits]
  by_cases hi'' : i < hi' + 1 - lo'
  · rw [if_neg (by omega)]
    have : lo' + i < 32 := by omega
    simp [hi'', this]
  · simp [hi'']

/-! ### Registers -/

@[simp] theorem Block.rd_wr_same (b : Block) (a v : Nat) : (b.wr a v).rd a = v % 2 ^ 32 := by
  have h : Assoc.getD (b.regs.setD (regReset a) a (BitVec.ofNat 32 v)) (regReset a) a = BitVec.ofNat 32 v :=
    Assoc.getD_setD_same ..
  unfold Block.rd Block.wr
  unfold Assoc.getD at h
  simp only
  revert h
  split <;> intro h <;> simp_all

theorem Block.rd_wr_other (b : Block) {a c : Nat} (v : Nat) (h : c ≠ a) : (b.wr a v).rd c = b.rd c := by
  unfold Block.rd Block.wr
  simp only
  rw [Assoc.find?_setD_other _ _ _ h]

theorem Block.rd_lt (b : Block) (a : Nat) : b.rd a < 2 ^ 32 := by
  unfold Block.rd
  split
  · exact BitVec.isLt _
  · exact BitVec.isLt _

theorem Block.rd_put_other (b : Block) (f : Fld) (v : Nat) {c : Nat} (h : c ≠ f.addr) : (b.put f v).rd c = b.rd c :=
  Block.rd_wr_other b _ h

/-- A field just written. -/
theorem Block.get_put_same (b : Block) (f : Fld) (v : Nat) (h : f.hi < 32) :
    (b.put f v).get f = v % 2 ^ (f.hi + 1 - f.lo) := by
  unfold Block.get Block.put
  rw [Block.rd_wr_same, bits_setBits_same _ _ _ _ h]

/-- A field of another register, or apart from the one written. -/
theorem Block.get_put_other (b : Block) (f g : Fld) (v : Nat) (h : g.hi < 32)
    (hd : g.addr ≠ f.addr ∨ g.hi < f.lo ∨ f.hi < g.lo) : (b.put f v).get g = b.get g := by
  unfold Block.get
  by_cases ha : g.addr = f.addr
  · rcases hd with hd | hd
    · exact absurd ha hd
    · rw [ha]
      unfold Block.put
      rw [Block.rd_wr_same, bits_setBits_other _ _ _ _ _ _ h hd]
  · rw [Block.rd_put_other b f v ha]

theorem Block.get_wr_other (b : Block) (g : Fld) {a : Nat} (v : Nat) (h : g.addr ≠ a) : (b.wr a v).get g = b.get g := by
  unfold Block.get
  rw [Block.rd_wr_other b v h]

/-- A sticky bit or a counter: the flag and the addition are a write of the field, as far as registers go. -/
@[simp] theorem Block.rd_flag (b : Block) (f : Fld) (c : Nat) : (b.flag f).rd c = (b.put f 1).rd c := rfl
@[simp] theorem Block.rd_bump (b : Block) (f : Fld) (k c : Nat) :
    (b.bump f k).rd c = (b.put f (satAdd (f.hi + 1 - f.lo) (b.get f) k)).rd c := rfl
@[simp] theorem Block.get_flag (b : Block) (f g : Fld) : (b.flag f).get g = (b.put f 1).get g := rfl
@[simp] theorem Block.get_bump (b : Block) (f g : Fld) (k : Nat) :
    (b.bump f k).get g = (b.put f (satAdd (f.hi + 1 - f.lo) (b.get f) k)).get g := rfl

theorem Block.regsWf_wr (b : Block) (a v : Nat) (h : b.regsWf = true) : (b.wr a v).regsWf = true :=
  Assoc.canon_setD regReset b.regs a _ h

theorem Block.regsWf_put (b : Block) (f : Fld) (v : Nat) (h : b.regsWf = true) : (b.put f v).regsWf = true :=
  Block.regsWf_wr b _ _ h

theorem Block.regsWf_flag (b : Block) (f : Fld) (h : b.regsWf = true) : (b.flag f).regsWf = true :=
  Block.regsWf_put b f 1 h

theorem Block.regsWf_bump (b : Block) (f : Fld) (k : Nat) (h : b.regsWf = true) : (b.bump f k).regsWf = true :=
  Block.regsWf_put b f _ h

end Sys2Proof.Machine
end

