-- ==== Sys2Proof/Laws/Events.lean ====
section
/-! SUPPORT. What an emission can do: it changes the channels' own registers, violation counters, flights and marks, nothing else. -/

namespace Sys2Proof.Machine

/-- `d` is `b` but for what an emission may change. -/
structure EvFrame (b d : Block) : Prop where
  only : ∃ r fc fl m, d = { b with regs := r, fc := fc, flights := fl, marks := m }
  latched : d.fc.latched = b.fc.latched
  writes : d.fc.writes = b.fc.writes
  syncTrip : d.fc.syncTrip = b.fc.syncTrip
  emitted : ∀ k, b.fc.emitted.contains k → d.fc.emitted.contains k
  rd : ∀ a, ¬ evRegion a → d.rd a = b.rd a

theorem EvFrame.refl (b : Block) : EvFrame b b := ⟨⟨_, _, _, _, rfl⟩, rfl, rfl, rfl, fun _ h => h, fun _ _ => rfl⟩

theorem EvFrame.trans {a b d : Block} (h : EvFrame a b) (g : EvFrame b d) : EvFrame a d := by
  obtain ⟨r, fc, fl, m, e⟩ := h.only
  obtain ⟨r', fc', fl', m', e'⟩ := g.only
  exact ⟨⟨r', fc', fl', m', by rw [e', e]⟩, g.latched.trans h.latched, g.writes.trans h.writes, g.syncTrip.trans h.syncTrip,
    fun k x => g.emitted k (h.emitted k x), fun x hx => (g.rd x hx).trans (h.rd x hx)⟩

theorem EvFrame.foldl {α : Type} (f : Block → α → Block) (hf : ∀ b x, EvFrame b (f b x)) (l : List α) :
    ∀ b, EvFrame b (l.foldl f b) := by
  induction l with
  | nil => exact fun b => .refl b
  | cons x t ih => exact fun b => (hf b x).trans (ih _)

theorem EvFrame.put (b : Block) (f : Fld) (v : Nat) (h : evRegion f.addr) : EvFrame b (b.put f v) :=
  ⟨⟨_, _, _, _, rfl⟩, rfl, rfl, rfl, fun _ h => h, fun _ ha => Block.rd_put_other b f v (fun e => ha (e ▸ h))⟩

theorem EvFrame.bump (b : Block) (f : Fld) (k : Nat) (h : evRegion f.addr) : EvFrame b (b.bump f k) :=
  ⟨⟨_, _, _, _, rfl⟩, rfl, rfl, rfl, fun _ h => h, fun _ ha => Block.rd_put_other b f _ (fun e => ha (e ▸ h))⟩

theorem evRegion_vc (set : Option Nat) (v : Violation) : evRegion (vcFld set v).addr := by
  have hv : v.offset < 0x20 := by cases v <;> decide
  unfold evRegion vcFld vcBase
  cases set with
  | none => simp only; omega
  | some r => simp only; split <;> omega

theorem EvFrame.violate (b : Block) (set : Option Nat) (v : Violation) (k : Nat) : EvFrame b (b.violate set v k) :=
  EvFrame.bump b _ k (evRegion_vc set v)

theorem evRegion_baseEV (n o : Nat) (h : o < 0x40) : evRegion (R.baseEV n + o) := by
  unfold evRegion R.baseEV
  split <;> omega

theorem EvFrame.setFlights (b : Block) (fl : List Flight) : EvFrame b { b with flights := fl } :=
  ⟨⟨_, _, _, _, rfl⟩, rfl, rfl, rfl, fun _ h => h, fun _ _ => rfl⟩

theorem EvFrame.setCarried (b : Block) (fl : List Flight) (l : List (Nat × Bool)) :
    EvFrame b { b with flights := fl, fc := { b.fc with carried := l } } :=
  ⟨⟨_, _, _, _, rfl⟩, rfl, rfl, rfl, fun _ h => h, fun _ _ => rfl⟩

theorem carry_frame (c : Ctx) (n hop : Nat) (fine : Option Nat) (own : Bool) (b : Block) : EvFrame b (carry c n hop fine own b) := by
  have hs : evRegion (F.EV_STAT_HOP n).addr := evRegion_baseEV n 0xC (by decide)
  have hc : evRegion (F.EV_CNT_CNT n).addr := evRegion_baseEV n 0x10 (by decide)
  unfold carry
  simp only
  split
  · refine EvFrame.trans ?_ (EvFrame.put _ _ _ hs)
    exact EvFrame.setCarried b _ _
  · exact .refl b
  · refine EvFrame.trans (EvFrame.trans ?_ (EvFrame.put _ _ _ hs)) (EvFrame.bump _ _ _ hc)
    exact EvFrame.setCarried b _ _

theorem noteEmit_frame (key : Nat) (b : Block) : EvFrame b (b.noteEmit key) :=
  ⟨⟨_, _, _, _, rfl⟩, rfl, rfl, rfl, fun k h => by simp only [Block.noteEmit, List.contains_cons, h, Bool.or_true], fun _ _ => rfl⟩

theorem emitOn_frame (c : Ctx) (u : EvUnit) (inst hop : Nat) (fine : Option Nat) (b : Block) (n : Nat) :
    EvFrame b (emitOn c u inst hop fine b n) := by
  unfold emitOn
  split
  · exact EvFrame.violate ..
  · exact carry_frame ..

theorem emit_after_note (c : Ctx) (u : EvUnit) (inst e : Nat) (fine : Option Nat) (b : Block) :
    EvFrame (b.noteEmit (evKey u inst e)) (emit c u inst e fine b) :=
  EvFrame.foldl _ (emitOn_frame c u inst _ fine) _ _

/-- Everything an emission can do. -/
theorem emit_frame (c : Ctx) (u : EvUnit) (inst e : Nat) (fine : Option Nat) (b : Block) : EvFrame b (emit c u inst e fine b) :=
  (noteEmit_frame _ b).trans (emit_after_note c u inst e fine b)

/-- The event counts as emitted in this fc. -/
theorem emittedNow_emit (c : Ctx) (u : EvUnit) (inst e : Nat) (fine : Option Nat) (b : Block) :
    (emit c u inst e fine b).emittedNow u inst e = true :=
  (emit_after_note c u inst e fine b).emitted _ (by simp [Block.noteEmit])

section
variable (c : Ctx) (u : EvUnit) (inst e : Nat) (fine : Option Nat) (b : Block)

@[simp] theorem emit_latched : (emit c u inst e fine b).fc.latched = b.fc.latched := (emit_frame ..).latched
@[simp] theorem emit_writes : (emit c u inst e fine b).fc.writes = b.fc.writes := (emit_frame ..).writes
theorem emit_rd {a : Nat} (h : ¬ evRegion a) : (emit c u inst e fine b).rd a = b.rd a := (emit_frame ..).rd a h
theorem emit_get {f : Fld} (h : ¬ evRegion f.addr) : (emit c u inst e fine b).get f = b.get f := by
  unfold Block.get
  rw [emit_rd _ _ _ _ _ _ h]

@[simp] theorem emit_own : (emit c u inst e fine b).own = b.own := by
  obtain ⟨_, _, _, _, h⟩ := (emit_frame c u inst e fine b).only
  rw [h]
@[simp] theorem emit_balls : (emit c u inst e fine b).balls = b.balls := by
  obtain ⟨_, _, _, _, h⟩ := (emit_frame c u inst e fine b).only
  rw [h]
@[simp] theorem emit_cc : (emit c u inst e fine b).cc = b.cc := by
  obtain ⟨_, _, _, _, h⟩ := (emit_frame c u inst e fine b).only
  rw [h]
@[simp] theorem emit_cp : (emit c u inst e fine b).cp = b.cp := by
  obtain ⟨_, _, _, _, h⟩ := (emit_frame c u inst e fine b).only
  rw [h]
@[simp] theorem emit_eg : (emit c u inst e fine b).eg = b.eg := by
  obtain ⟨_, _, _, _, h⟩ := (emit_frame c u inst e fine b).only
  rw [h]
@[simp] theorem emit_tg : (emit c u inst e fine b).tg = b.tg := by
  obtain ⟨_, _, _, _, h⟩ := (emit_frame c u inst e fine b).only
  rw [h]
@[simp] theorem emit_ll : (emit c u inst e fine b).ll = b.ll := by
  obtain ⟨_, _, _, _, h⟩ := (emit_frame c u inst e fine b).only
  rw [h]
@[simp] theorem emit_lu : (emit c u inst e fine b).lu = b.lu := by
  obtain ⟨_, _, _, _, h⟩ := (emit_frame c u inst e fine b).only
  rw [h]
@[simp] theorem emit_ad : (emit c u inst e fine b).ad = b.ad := by
  obtain ⟨_, _, _, _, h⟩ := (emit_frame c u inst e fine b).only
  rw [h]
@[simp] theorem emit_ac : (emit c u inst e fine b).ac = b.ac := by
  obtain ⟨_, _, _, _, h⟩ := (emit_frame c u inst e fine b).only
  rw [h]
@[simp] theorem emit_sd : (emit c u inst e fine b).sd = b.sd := by
  obtain ⟨_, _, _, _, h⟩ := (emit_frame c u inst e fine b).only
  rw [h]
@[simp] theorem emit_hl : (emit c u inst e fine b).hl = b.hl := by
  obtain ⟨_, _, _, _, h⟩ := (emit_frame c u inst e fine b).only
  rw [h]
@[simp] theorem emit_fires : (emit c u inst e fine b).fires = b.fires := by
  obtain ⟨_, _, _, _, h⟩ := (emit_frame c u inst e fine b).only
  rw [h]
@[simp] theorem emit_fb : (emit c u inst e fine b).fb = b.fb := by
  obtain ⟨_, _, _, _, h⟩ := (emit_frame c u inst e fine b).only
  rw [h]
@[simp] theorem emit_emu : (emit c u inst e fine b).emu = b.emu := by
  obtain ⟨_, _, _, _, h⟩ := (emit_frame c u inst e fine b).only
  rw [h]
@[simp] theorem emit_mem : (emit c u inst e fine b).mem = b.mem := by
  obtain ⟨_, _, _, _, h⟩ := (emit_frame c u inst e fine b).only
  rw [h]
@[simp] theorem emit_syn : (emit c u inst e fine b).syn = b.syn := by
  obtain ⟨_, _, _, _, h⟩ := (emit_frame c u inst e fine b).only
  rw [h]
@[simp] theorem emit_fg : (emit c u inst e fine b).fg = b.fg := by
  obtain ⟨_, _, _, _, h⟩ := (emit_frame c u inst e fine b).only
  rw [h]
@[simp] theorem emit_hc : (emit c u inst e fine b).hc = b.hc := by
  obtain ⟨_, _, _, _, h⟩ := (emit_frame c u inst e fine b).only
  rw [h]
@[simp] theorem emit_eng : (emit c u inst e fine b).eng = b.eng := by
  obtain ⟨_, _, _, _, h⟩ := (emit_frame c u inst e fine b).only
  rw [h]
@[simp] theorem emit_edges : (emit c u inst e fine b).edges = b.edges := by
  obtain ⟨_, _, _, _, h⟩ := (emit_frame c u inst e fine b).only
  rw [h]
@[simp] theorem emit_pendActs : (emit c u inst e fine b).pendActs = b.pendActs := by
  obtain ⟨_, _, _, _, h⟩ := (emit_frame c u inst e fine b).only
  rw [h]
@[simp] theorem emit_icSrc : (emit c u inst e fine b).icSrc = b.icSrc := by
  obtain ⟨_, _, _, _, h⟩ := (emit_frame c u inst e fine b).only
  rw [h]
@[simp] theorem emit_always : (emit c u inst e fine b).always = b.always := by
  obtain ⟨_, _, _, _, h⟩ := (emit_frame c u inst e fine b).only
  rw [h]
@[simp] theorem emit_asyncSrc : (emit c u inst e fine b).asyncSrc = b.asyncSrc := by
  obtain ⟨_, _, _, _, h⟩ := (emit_frame c u inst e fine b).only
  rw [h]
@[simp] theorem emit_outputs : (emit c u inst e fine b).outputs = b.outputs := by
  obtain ⟨_, _, _, _, h⟩ := (emit_frame c u inst e fine b).only
  rw [h]
@[simp] theorem emit_nt : (emit c u inst e fine b).nt = b.nt := by
  obtain ⟨_, _, _, _, h⟩ := (emit_frame c u inst e fine b).only
  rw [h]
@[simp] theorem emit_lockedUp : (emit c u inst e fine b).lockedUp = b.lockedUp := by
  obtain ⟨_, _, _, _, h⟩ := (emit_frame c u inst e fine b).only
  rw [h]
end

end Sys2Proof.Machine
end

