-- ==== Sys2Proof/Laws/Units.lean ====
section
/-! SUPPORT. A unit's state after it is written: the one written reads as written, every other as before. -/

namespace Sys2Proof.Machine

/-! ### Units -/

@[simp] theorem Block.ccSt_setCc_same (b : Block) (n : Nat) (v : CmpSt) : (b.setCc n v).ccSt n = v :=
  Assoc.getD_setD_same ..
theorem Block.ccSt_setCc_other (b : Block) {n m : Nat} (v : CmpSt) (h : m ≠ n) : (b.setCc n v).ccSt m = b.ccSt m :=
  Assoc.getD_setD_other _ _ _ _ h
@[simp] theorem Block.cpSt_setCp_same (b : Block) (n : Nat) (v : CpSt) : (b.setCp n v).cpSt n = v :=
  Assoc.getD_setD_same ..
theorem Block.cpSt_setCp_other (b : Block) {n m : Nat} (v : CpSt) (h : m ≠ n) : (b.setCp n v).cpSt m = b.cpSt m :=
  Assoc.getD_setD_other _ _ _ _ h
@[simp] theorem Block.egSt_setEg_same (b : Block) (n : Nat) (v : EgSt) : (b.setEg n v).egSt n = v :=
  Assoc.getD_setD_same ..
theorem Block.egSt_setEg_other (b : Block) {n m : Nat} (v : EgSt) (h : m ≠ n) : (b.setEg n v).egSt m = b.egSt m :=
  Assoc.getD_setD_other _ _ _ _ h
@[simp] theorem Block.tgSt_setTg_same (b : Block) (n : Nat) (v : TgSt) : (b.setTg n v).tgSt n = v :=
  Assoc.getD_setD_same ..
theorem Block.tgSt_setTg_other (b : Block) {n m : Nat} (v : TgSt) (h : m ≠ n) : (b.setTg n v).tgSt m = b.tgSt m :=
  Assoc.getD_setD_other _ _ _ _ h
@[simp] theorem Block.llSt_setLl_same (b : Block) (n : Nat) (v : LlSt) : (b.setLl n v).llSt n = v :=
  Assoc.getD_setD_same ..
theorem Block.llSt_setLl_other (b : Block) {n m : Nat} (v : LlSt) (h : m ≠ n) : (b.setLl n v).llSt m = b.llSt m :=
  Assoc.getD_setD_other _ _ _ _ h
@[simp] theorem Block.luSt_setLu_same (b : Block) (n : Nat) (v : LuSt) : (b.setLu n v).luSt n = v :=
  Assoc.getD_setD_same ..
theorem Block.luSt_setLu_other (b : Block) {n m : Nat} (v : LuSt) (h : m ≠ n) : (b.setLu n v).luSt m = b.luSt m :=
  Assoc.getD_setD_other _ _ _ _ h
@[simp] theorem Block.adSt_setAd_same (b : Block) (n : Nat) (v : AdSt) : (b.setAd n v).adSt n = v :=
  Assoc.getD_setD_same ..
theorem Block.adSt_setAd_other (b : Block) {n m : Nat} (v : AdSt) (h : m ≠ n) : (b.setAd n v).adSt m = b.adSt m :=
  Assoc.getD_setD_other _ _ _ _ h
@[simp] theorem Block.acSt_setAc_same (b : Block) (n : Nat) (v : AcSt) : (b.setAc n v).acSt n = v :=
  Assoc.getD_setD_same ..
theorem Block.acSt_setAc_other (b : Block) {n m : Nat} (v : AcSt) (h : m ≠ n) : (b.setAc n v).acSt m = b.acSt m :=
  Assoc.getD_setD_other _ _ _ _ h
@[simp] theorem Block.sdSt_setSd_same (b : Block) (n : Nat) (v : SdSt) : (b.setSd n v).sdSt n = v :=
  Assoc.getD_setD_same ..
theorem Block.sdSt_setSd_other (b : Block) {n m : Nat} (v : SdSt) (h : m ≠ n) : (b.setSd n v).sdSt m = b.sdSt m :=
  Assoc.getD_setD_other _ _ _ _ h
@[simp] theorem Block.hlSt_setHl_same (b : Block) (n : Nat) (v : HlSt) : (b.setHl n v).hlSt n = v :=
  Assoc.getD_setD_same ..
theorem Block.hlSt_setHl_other (b : Block) {n m : Nat} (v : HlSt) (h : m ≠ n) : (b.setHl n v).hlSt m = b.hlSt m :=
  Assoc.getD_setD_other _ _ _ _ h
@[simp] theorem Block.fbSt_setFb_same (b : Block) (n : Nat) (v : FbSt) : (b.setFb n v).fbSt n = v :=
  Assoc.getD_setD_same ..
theorem Block.fbSt_setFb_other (b : Block) {n m : Nat} (v : FbSt) (h : m ≠ n) : (b.setFb n v).fbSt m = b.fbSt m :=
  Assoc.getD_setD_other _ _ _ _ h
@[simp] theorem Block.emuSt_setEmu_same (b : Block) (n : Nat) (v : EmuSt) : (b.setEmu n v).emuSt n = v :=
  Assoc.getD_setD_same ..
theorem Block.emuSt_setEmu_other (b : Block) {n m : Nat} (v : EmuSt) (h : m ≠ n) : (b.setEmu n v).emuSt m = b.emuSt m :=
  Assoc.getD_setD_other _ _ _ _ h
@[simp] theorem Block.fgSt_setFg_same (b : Block) (n : Nat) (v : FgSt) : (b.setFg n v).fgSt n = v :=
  Assoc.getD_setD_same ..
theorem Block.fgSt_setFg_other (b : Block) {n m : Nat} (v : FgSt) (h : m ≠ n) : (b.setFg n v).fgSt m = b.fgSt m :=
  Assoc.getD_setD_other _ _ _ _ h
@[simp] theorem Block.hcSt_setHc_same (b : Block) (n : Nat) (v : HcSt) : (b.setHc n v).hcSt n = v :=
  Assoc.getD_setD_same ..
theorem Block.hcSt_setHc_other (b : Block) {n m : Nat} (v : HcSt) (h : m ≠ n) : (b.setHc n v).hcSt m = b.hcSt m :=
  Assoc.getD_setD_other _ _ _ _ h
@[simp] theorem Block.cvSt_setCv_same (b : Block) (n : Nat) (v : CvSt) : (b.setCv n v).cvSt n = v :=
  Assoc.getD_setD_same ..
theorem Block.cvSt_setCv_other (b : Block) {n m : Nat} (v : CvSt) (h : m ≠ n) : (b.setCv n v).cvSt m = b.cvSt m :=
  Assoc.getD_setD_other _ _ _ _ h
@[simp] theorem Block.glSt_setGl_same (b : Block) (n : Nat) (v : GlSt) : (b.setGl n v).glSt n = v :=
  Assoc.getD_setD_same ..
theorem Block.glSt_setGl_other (b : Block) {n m : Nat} (v : GlSt) (h : m ≠ n) : (b.setGl n v).glSt m = b.glSt m :=
  Assoc.getD_setD_other _ _ _ _ h
@[simp] theorem Block.dozeSt_setDoze_same (b : Block) (n : Nat) (v : DozeSt) : (b.setDoze n v).dozeSt n = v :=
  Assoc.getD_setD_same ..
theorem Block.dozeSt_setDoze_other (b : Block) {n m : Nat} (v : DozeSt) (h : m ≠ n) : (b.setDoze n v).dozeSt m = b.dozeSt m :=
  Assoc.getD_setD_other _ _ _ _ h
@[simp] theorem Block.scrubSt_setScrub_same (b : Block) (n : Nat) (v : ScrubSt) : (b.setScrub n v).scrubSt n = v :=
  Assoc.getD_setD_same ..
theorem Block.scrubSt_setScrub_other (b : Block) {n m : Nat} (v : ScrubSt) (h : m ≠ n) : (b.setScrub n v).scrubSt m = b.scrubSt m :=
  Assoc.getD_setD_other _ _ _ _ h
@[simp] theorem Block.suSt_setSu_same (b : Block) (n : Nat) (v : SuSt) : (b.setSu n v).suSt n = v :=
  Assoc.getD_setD_same ..
theorem Block.suSt_setSu_other (b : Block) {n m : Nat} (v : SuSt) (h : m ≠ n) : (b.setSu n v).suSt m = b.suSt m :=
  Assoc.getD_setD_other _ _ _ _ h
@[simp] theorem Block.dmSt_setDm_same (b : Block) (n : Nat) (v : DmSt) : (b.setDm n v).dmSt n = v :=
  Assoc.getD_setD_same ..
theorem Block.dmSt_setDm_other (b : Block) {n m : Nat} (v : DmSt) (h : m ≠ n) : (b.setDm n v).dmSt m = b.dmSt m :=
  Assoc.getD_setD_other _ _ _ _ h
@[simp] theorem Block.engSt_setEng_same (b : Block) (n : Nat) (v : EngSt) : (b.setEng n v).engSt n = v :=
  Assoc.getD_setD_same ..
theorem Block.engSt_setEng_other (b : Block) {n m : Nat} (v : EngSt) (h : m ≠ n) : (b.setEng n v).engSt m = b.engSt m :=
  Assoc.getD_setD_other _ _ _ _ h

/-! ### Tasks -/

@[simp] theorem Block.taskSt_setTask_same (b : Block) (e k : Nat) (v : TaskSt) : (b.setTask e k v).taskSt e k = v := by
  simp [Block.taskSt, Block.setTask]

theorem Block.taskSt_setTask_other (b : Block) (e : Nat) {k j : Nat} (v : TaskSt) (h : j ≠ k) :
    (b.setTask e k v).taskSt e j = b.taskSt e j := by
  simp [Block.taskSt, Block.setTask, Assoc.getD_setD_other _ _ _ _ h]

theorem Block.engSt_setTask_other (b : Block) {e d : Nat} (k : Nat) (v : TaskSt) (h : d ≠ e) :
    (b.setTask e k v).engSt d = b.engSt d := by
  simp [Block.setTask, Block.engSt_setEng_other _ _ h]

/-! ### Registers of a task -/

@[simp] theorem TaskSt.reg_zero (t : TaskSt) : t.reg 0 = ⟨0, 1⟩ := rfl

@[simp] theorem TaskSt.setReg_zero (t : TaskSt) (v : TWord) : t.setReg 0 v = t := rfl

theorem TaskSt.reg_setReg_same (t : TaskSt) {r : Nat} (v : TWord) (h : r ≠ 0) : (t.setReg r v).reg r = v := by
  simp [TaskSt.reg, TaskSt.setReg, TaskSt.dirty, h]

theorem TaskSt.reg_setReg_other (t : TaskSt) {r q : Nat} (v : TWord) (h : q ≠ r) : (t.setReg r v).reg q = t.reg q := by
  unfold TaskSt.reg TaskSt.setReg
  by_cases hr : r = 0 <;> by_cases hq : q = 0 <;> simp [hr, hq, TaskSt.dirty, Assoc.getD_setD_other _ _ _ _ h]

@[simp] theorem TaskSt.acc_setAcc_same (t : TaskSt) (n : Nat) (v : AccV) : (t.setAcc n v).acc n = v := by
  unfold TaskSt.acc TaskSt.setAcc TaskSt.dirty
  by_cases h : n = 0 <;> simp [h]

end Sys2Proof.Machine
end

