-- ==== Sys2Proof/Laws/Issue.lean ====
section
/-! SUPPORT. What issuing an instruction and acting on a waiting action come to, said once. -/

namespace Sys2Proof.Machine

/-! ### Issue -/

/-- An instruction that issues has been fetched. -/
theorem fetched_of_issues {s : State} {e k : Nat} {m : Meta} (h : Issues s e k m = true) : ∃ b, fetched s e k m = .done b := by
  simp only [Issues, Fetches, Bool.and_eq_true] at h
  obtain ⟨⟨⟨⟨⟨_, h⟩, _⟩, _⟩, _⟩, _⟩ := h
  split at h
  · exact ⟨_, ‹_›⟩
  · cases h

/-- Where an instruction issues, `issue` is its own effect on what the booking and the fetch leave, the PC past it. -/
theorem issue_eq {s : State} {e k : Nat} {m : Meta} (body : Nat → Nat → Block → Eff) {b : Block} (h : Issues s e k m = true)
    (hb : fetched s e k m = .done b) :
    issue s.ctx e m body s.now =
      match body k (s.now.taskSt e k).pc (jump e k ((s.now.taskSt e k).pc + m.len) b) with
      | .done b => b.setEng e ((b.engSt e).holdTo s.tick k (b.engSt e).holdEnd)
      | .trap x b => raiseAt s.ctx e k (s.now.taskSt e k).pc m.len x (b.setEng e { b.engSt e with holdEnd := s.tick })
      | .late n x b =>
        let b := jump e k (s.now.taskSt e k).pc b
        b.setEng e ({ b.engSt e with
          issueAt := s.tick + n + 1
          trap := some ⟨s.tick + n, k, (s.now.taskSt e k).pc, x.code, x.eaddr, x.einfo⟩ }.holdTo s.tick k (s.tick + n))
      | .hold n => if n = 0 then s.now else setCost s.ctx e n s.now := by
  simp only [Issues, Fetches, Bool.and_eq_true, beq_iff_eq, Bool.not_eq_true', Option.isNone_iff_eq_none] at h
  obtain ⟨⟨⟨⟨⟨⟨hr, hi⟩, _⟩, hv⟩, hbad⟩, hp⟩, hx⟩ := h
  simp only [fetched] at hb
  simp only [issue, hr, when, hi, hb, if_true, Eff.andThen, issueChecks, hbad, hv, hp, hx, Bool.false_eq_true, if_false]
  all_goals (cases body k (s.now.taskSt e k).pc (jump e k ((s.now.taskSt e k).pc + m.len) b) <;> rfl)

/-- A task that does not run an instruction's engine, or an instruction that may not issue, changes nothing (log entry 2). -/
theorem issue_idle (c : Ctx) (e : Nat) (m : Meta) (body : Nat → Nat → Block → Eff) (b : Block)
    (h : ∀ k, (b.engSt e).run = some k → b.mayIssue c e k m = false) : issue c e m body b = b := by
  unfold issue
  split
  · rfl
  · simp [when, h _ ‹_›]

/-! ### Actions -/

/-- With no action waiting at the input nothing happens (log entry 2). -/
theorem onAct_idle {s : State} {i : Input} (f : Act → Block → Block) (h : Waits s i = false) : onAct i f s.now = s.now := by
  have : s.now.fc.latched.find? (fun a => a.input == i && !a.done) = none := by
    simpa [Waits, List.find?_eq_none, List.any_eq_false] using h
  simp [onAct, Block.takeAct, this]

/-- With an action waiting at the input the unit acts on it, and it is done. -/
theorem onAct_waits {s : State} {i : Input} (f : Act → Block → Block) (h : Waits s i = true) :
    ∃ a, a ∈ s.now.fc.latched ∧ a.input = i ∧ a.done = false ∧
      onAct i f s.now = f a { s.now with fc := { s.now.fc with
        latched := s.now.fc.latched.map fun x => if x.input = i then { x with done := true } else x } } := by
  cases hf : s.now.fc.latched.find? (fun a => a.input == i && !a.done) with
  | none =>
    rw [List.find?_eq_none] at hf
    simp only [Waits, List.any_eq_true] at h
    obtain ⟨a, ha, hp⟩ := h
    exact absurd hp (hf a ha)
  | some a =>
    have hm := List.mem_of_find?_eq_some hf
    have hp := List.find?_some hf
    simp only [Bool.and_eq_true, beq_iff_eq, Bool.not_eq_true'] at hp
    exact ⟨a, hm, hp.1, hp.2, by simp [onAct, Block.takeAct, hf]⟩

end Sys2Proof.Machine
end

