-- ==== Sys2Proof/Laws/Memory.lean ====
section
/-! SUPPORT. Memory: a byte read after a store, the bytes an operation leaves, and that every operation over memory keeps the one
canonical form. -/

namespace Sys2Proof.Machine

/-! ### Bytes -/

@[simp] theorem Block.memByte_set_same (b : Block) (a v : Nat) : (b.setMemByte a v).memByte a = v % 256 := by
  have h : Assoc.getD (Assoc.setD b.mem (memDefault a) a (BitVec.ofNat 8 v)) (memDefault a) a = BitVec.ofNat 8 v :=
    Assoc.getD_setD_same ..
  unfold Block.memByte Block.setMemByte
  unfold Assoc.getD at h
  simp only
  revert h
  split <;> intro h <;> simp_all

theorem Block.memByte_set_other (b : Block) {a c : Nat} (v : Nat) (h : c ≠ a) : (b.setMemByte a v).memByte c = b.memByte c := by
  unfold Block.memByte Block.setMemByte
  simp only
  rw [Assoc.find?_setD_other _ _ _ h]

/-- Bytes apart from the stored ones. -/
theorem memByte_putBytes_other (n : Nat) : ∀ (a v : Nat) (b : Block) (c : Nat), (c < a ∨ a + n ≤ c) →
    (putBytes a v n b).memByte c = b.memByte c := by
  induction n with
  | zero => intros; rfl
  | succ n ih =>
    intro a v b c h
    rw [putBytes, ih (a + 1) (v / 256) _ c (by omega), Block.memByte_set_other b _ (by omega)]

/-- The stored bytes, least significant first (R46). -/
theorem numFrom_putBytes (n : Nat) : ∀ (a v : Nat) (b : Block),
    numFrom (putBytes a v n b).memByte a n = v % 256 ^ n := by
  induction n with
  | zero => intro a v b; simp [numFrom, Nat.mod_one]
  | succ n ih =>
    intro a v b
    rw [numFrom, putBytes, memByte_putBytes_other n (a + 1) _ _ a (by omega), ih (a + 1)]
    rw [Block.memByte_set_same, Nat.mod_mod, Nat.pow_succ, Nat.mul_comm (256 ^ n) 256, Nat.mod_mul]

/-! ### What does not touch memory -/

@[simp] theorem touchGran_mem (g : Nat) (b : Block) : (touchGran g b).mem = b.mem := by
  have h : ∀ (l : List Nat) (b : Block), (l.foldl (fun b d =>
      let s := b.scrubSt d
      match s.pend with
      | some (p, _, _) => if p = g then b.setScrub d { s with cancel := true } else b
      | none => b) b).mem = b.mem := by
    intro l
    induction l with
    | nil => intro b; rfl
    | cons x t ih =>
      intro b
      rw [List.foldl_cons, ih]
      simp only
      split
      · split <;> rfl
      · rfl
  exact h _ { b with fc := { b.fc with touched := g :: b.fc.touched } }

@[simp] theorem raiseEdge_mem (c : Ctx) (n : Nat) (b : Block) : (raiseEdge c n b).mem = b.mem := rfl

@[simp] theorem eccCount_mem (c : Ctx) (g : Nat) (st : GranState) (b : Block) : (eccCount c g st b).mem = b.mem := by
  unfold eccCount
  split
  · unfold when
    split <;> simp
  · simp
  · rfl

/-! ### Canonical form -/

theorem wf_setMemByte (b : Block) (a v : Nat) (h : Memory.wf b.mem = true) : Memory.wf (b.setMemByte a v).mem = true :=
  Assoc.canon_setD memDefault b.mem a _ h

theorem wf_putBytes (n : Nat) : ∀ (a v : Nat) (b : Block), Memory.wf b.mem = true → Memory.wf (putBytes a v n b).mem = true := by
  induction n with
  | zero => intro _ _ _ h; exact h
  | succ n ih => intro a v b h; exact ih _ _ _ (wf_setMemByte b a _ h)

theorem setGran_mem (g d syn : Nat) (b : Block) : (setGran g d syn b).mem = (putBytes (g * 32) d 32 b).mem := by
  unfold setGran
  rfl

theorem wf_setGran (g d syn : Nat) (b : Block) (h : Memory.wf b.mem = true) : Memory.wf (setGran g d syn b).mem = true := by
  rw [setGran_mem]
  exact wf_putBytes 32 _ _ b h

theorem wf_granWrite (g d : Nat) (poison : Bool) (b : Block) (h : Memory.wf b.mem = true) :
    Memory.wf (granWrite g d poison b).mem = true :=
  wf_setGran g d _ _ (by rw [touchGran_mem]; exact h)

theorem wf_openGran (c : Ctx) (g : Nat) (b : Block) (h : Memory.wf b.mem = true) : Memory.wf (openGran c g b).mem = true := by
  have hb : Memory.wf (eccCount c g (decodeSyn (b.granSyn g)) (touchGran g b)).mem = true := by simpa using h
  unfold openGran
  simp only
  split
  · exact hb
  · exact wf_setGran _ _ _ _ hb
  · exact hb

theorem wf_foldl {α : Type} (f : Block → α → Block) (hf : ∀ b x, Memory.wf b.mem = true → Memory.wf (f b x).mem = true)
    (l : List α) : ∀ b, Memory.wf b.mem = true → Memory.wf (l.foldl f b).mem = true := by
  induction l with
  | nil => intro _ h; exact h
  | cons x t ih => intro b h; exact ih _ (hf b x h)

theorem wf_memWrite (c : Ctx) (a v n : Nat) (b : Block) (h : Memory.wf b.mem = true) :
    Memory.wf (memWrite c a v n b).mem = true :=
  wf_putBytes n a v _ (wf_foldl _ (fun b g h => wf_openGran c g b h) _ b h)

theorem wf_tagWrite (c : Ctx) (a t : Nat) (b : Block) (h : Memory.wf b.mem = true) : Memory.wf (tagWrite c a t b).mem = true :=
  wf_memWrite c _ _ 1 b h

theorem wf_tagWords (c : Ctx) (a n t : Nat) (b : Block) (h : Memory.wf b.mem = true) : Memory.wf (tagWords c a n t b).mem = true := by
  unfold tagWords
  split
  · simp only
    split
    · exact wf_tagWrite c _ t b h
    · exact wf_tagWrite c _ t _ (wf_tagWrite c _ t b h)
  · exact h

theorem wf_memStore (c : Ctx) (a v n t : Nat) (b : Block) (h : Memory.wf b.mem = true) :
    Memory.wf (memStore c a v n t b).mem = true :=
  wf_tagWords c a n t _ (wf_memWrite c a v n b h)

theorem wf_orderedStore (c : Ctx) (rank a v n t : Nat) (b : Block) (h : Memory.wf b.mem = true) :
    Memory.wf (orderedStore c rank a v n t b).mem = true := by
  unfold orderedStore
  simp only
  split
  · exact wf_memStore c a v n t b h
  · refine wf_foldl _ (fun b x h => ?_) _ _ (wf_memWrite c a _ n b h)
    split
    · exact h
    · exact wf_tagWords c x 1 t b h

theorem wf_flipBit (g : Nat) (b : Block) (m : Nat) (h : Memory.wf b.mem = true) : Memory.wf (flipBit g b m).mem = true := by
  unfold flipBit
  simp only
  split
  · split
    · exact h
    · exact wf_setMemByte b _ _ h
  · split
    · exact h
    · exact wf_setMemByte _ _ _ h

@[simp] theorem setScrub_mem (b : Block) (d : Nat) (v : ScrubSt) : (b.setScrub d v).mem = b.mem := rfl

/-- A write of a whole granule in the order of R556. -/
theorem wf_orderedGran (rank g d : Nat) (poison : Bool) (b : Block) (h : Memory.wf b.mem = true) :
    Memory.wf (orderedGran rank g d poison b).mem = true := by
  unfold orderedGran
  simp only
  generalize numFrom _ _ 32 = x
  have hx := wf_granWrite g x poison b h
  revert hx
  generalize granWrite g x poison b = b'
  exact id

@[simp] theorem oddGrant_mem (tick who : Nat) (keys : List Nat) (b : Block) : (oddGrant tick who keys b).2.mem = b.mem := by
  unfold oddGrant
  simp only
  split <;> rfl

/-- An access that waits for odd slots leaves memory alone. -/
theorem wf_withOdd (tick who : Nat) (keys : List Nat) (f : Block → Block) (b : Block)
    (hf : ∀ b, Memory.wf b.mem = true → Memory.wf (f b).mem = true) (h : Memory.wf b.mem = true) :
    Memory.wf (withOdd tick who keys f b).mem = true := by
  unfold withOdd
  simp only
  split
  · exact hf _ (by rw [oddGrant_mem]; exact h)
  · rw [oddGrant_mem]
    exact h

theorem wf_scrubWriteback (c : Ctx) (d : Nat) (b : Block) (h : Memory.wf b.mem = true) :
    Memory.wf (scrubWriteback c d b).mem = true := by
  unfold scrubWriteback
  simp only
  split
  · exact h
  · split
    · rw [Block.flag_mem]
      exact h
    · refine wf_withOdd _ _ _ _ b (fun b h => ?_) h
      refine wf_setGran _ _ _ _ ?_
      rw [setScrub_mem]
      exact h

theorem wf_flashPut (g d : Nat) (b : Block) (h : Memory.wf b.mem = true) : Memory.wf (flashPut g d b).mem = true := by
  have e : (flashPut g d b).mem = (putBytes (g * 32) d 32 b).mem := by unfold flashPut; rfl
  rw [e]
  exact wf_putBytes 32 _ _ b h

theorem wf_flashWipe (s : Nat) (b : Block) (h : Memory.wf b.mem = true) : Memory.wf (flashWipe s b).mem = true :=
  Assoc.canon_filter memDefault _ _ h

theorem wf_storeBytes (l : List Nat) : ∀ (a : Nat) (b : Block), Memory.wf b.mem = true → Memory.wf (storeBytes a l b).mem = true := by
  induction l with
  | nil => intro _ _ h; exact h
  | cons v t ih => intro a b h; exact ih _ _ (wf_setMemByte b a v h)

theorem wf_storeTagNibble (a t : Nat) (b : Block) (h : Memory.wf b.mem = true) : Memory.wf (storeTagNibble a t b).mem = true :=
  wf_setMemByte b _ _ h

/-- At reset nothing is listed. -/
theorem wf_reset : Memory.wf State.reset.now.mem = true := rfl

end Sys2Proof.Machine
end

