-- ==== Sys2Proof/Machine/Package.lean ====
section
/-! DEFINITION. The package (spec/24): supply rails and their detectors, the ball map, the balls present, signal levels.  What spec/24
asks of the board, of the channel and of the cooling binds them and not the part (log entry 180). -/

namespace Sys2Proof.Machine

/-! ### Supply rails (R800, R801, R803, R806) -/

/-- The rails, in the order of PW_BOR's bits. -/
inductive Rail where
  | vddC
  | vddM
  | vddA
  | vddS
  | vddhS
  | vddIo18
  | vddIo33
  | vddAn
  | vddF
  | vddL
  deriving DecidableEq, Repr

/-- A rail's bit in PW_BOR, and its number in the rows of spec/23. -/
def Rail.num : Rail → Nat
  | .vddC => 0
  | .vddM => 1
  | .vddA => 2
  | .vddS => 3
  | .vddhS => 4
  | .vddIo18 => 5
  | .vddIo33 => 6
  | .vddAn => 7
  | .vddF => 8
  | .vddL => 9

/-- The operating range, in microvolts: lowest and highest (R800). -/
def Rail.range : Rail → Nat × Nat
  | .vddC => (727500, 772500)
  | .vddM => (776000, 824000)
  | .vddA => (824500, 875500)
  | .vddS => (727500, 772500)
  | .vddhS => (1164000, 1236000)
  | .vddIo18 => (1710000, 1890000)
  | .vddIo33 => (3135000, 3465000)
  | .vddAn => (1746000, 1854000)
  | .vddF => (1710000, 1890000)
  | .vddL => (1620000, 1980000)

/-- The thresholds of the detector for a falling supply, in microvolts: WARN and POR (R801). -/
def Rail.thresholds : Rail → Nat × Nat
  | .vddC => (715000, 690000)
  | .vddM => (760000, 730000)
  | .vddA => (805000, 770000)
  | .vddS => (715000, 690000)
  | .vddhS => (1140000, 1090000)
  | .vddIo18 => (1680000, 1550000)
  | .vddIo33 => (3060000, 2800000)
  | .vddAn => (1715000, 1600000)
  | .vddF => (1680000, 1550000)
  | .vddL => (1590000, 1450000)

/-- The hysteresis of a threshold on a rising supply, in microvolts. -/
def railHysteresis : Nat := 20000

/-- Is a rail good at a supply of `uv` microvolts, `was` telling whether it was good before (R801)?  The tolerance of a threshold, ±1 %, is
left out (log entry 97). -/
def Rail.good (r : Rail) (was : Bool) (uv : Nat) : Bool :=
  if was then r.thresholds.2 ≤ uv else r.thresholds.2 + railHysteresis < uv

/-- Has a fall of the supply from `old` to `new` crossed WARN, or POR: what BROWNOUT_WARN and POWER_ON_RESET report (R790)? -/
def Rail.warns (r : Rail) (old new : Nat) : Bool := decide (r.thresholds.1 ≤ old ∧ new < r.thresholds.1)
def Rail.falls (r : Rail) (old new : Nat) : Bool := decide (r.thresholds.2 ≤ old ∧ new < r.thresholds.2)

/-- The group in which the board raises a rail, 1 to 3; VDD_L is independent (R803). -/
def Rail.group : Rail → Option Nat
  | .vddC => some 1
  | .vddM => some 1
  | .vddA => some 1
  | .vddS => some 1
  | .vddhS => some 2
  | .vddAn => some 2
  | .vddF => some 2
  | .vddIo18 => some 3
  | .vddIo33 => some 3
  | .vddL => none

/-- The highest voltage without damage, in microvolts; the lowest is −0.3 V on every ball (R806). -/
def Rail.absMax : Rail → Nat
  | .vddC => 900000
  | .vddM => 950000
  | .vddA => 1000000
  | .vddS => 900000
  | .vddhS => 1400000
  | .vddIo18 => 2100000
  | .vddIo33 => 3800000
  | .vddAn => 2100000
  | .vddF => 2100000
  | .vddL => 2100000

/-! ### Signals (R796, R798, R799) -/

/-- The signal balls by group; a second number is a ball's place in its instance, in the order of the band table. -/
inductive Signal where
  | edg (k : Nat)
  | trip (k : Nat)
  | fb (n line : Nat)
  | emu (m line : Nat)
  | ain (k : Nat)
  | vref (k : Nat)
  | sdc (n : Nat)
  | sdd (n : Nat)
  | hlg (n gate : Nat)
  | hlis (n : Nat)
  | hlvs (n : Nat)
  | rstN
  | ceLockN
  | permitOut
  | permitIn
  | wake (k : Nat)
  | mnt (k : Nat)
  | uart (k : Nat)
  | bootsel (k : Nat)
  | refclk (k : Nat)
  | lclk (k : Nat)
  | ospi (k : Nat)
  | tap (k : Nat)
  | rsvd (k : Nat)
  | pe (n k : Nat)
  | sl (n k : Nat)
  deriving DecidableEq, Repr

/-- The balls of n instances, `k` of each. -/
def instances (n k : Nat) (f : Nat → Nat → Signal) : List Signal := (List.range n).flatMap fun i => (List.range k).map (f i)

/-- The sequence of the upper band. -/
def upperBand : List Signal :=
  (List.range 192).map .edg ++ (List.range 16).map .trip ++ instances 24 6 .fb ++ instances 8 3 .emu

/-- The sequence of the lower band. -/
def lowerBand : List Signal :=
  (List.range 96).map .ain ++ (List.range 2).map .vref ++ instances 32 2 (fun n k => if k = 0 then .sdc n else .sdd n) ++
  instances 16 6 (fun n k => if k < 4 then .hlg n k else if k = 4 then .hlis n else .hlvs n) ++
  [.rstN, .ceLockN, .permitOut, .permitIn] ++ (List.range 4).map .wake ++ (List.range 4).map .mnt ++ (List.range 2).map .uart ++
  (List.range 2).map .bootsel ++ (List.range 2).map .refclk ++ (List.range 2).map .lclk ++ (List.range 11).map .ospi ++
  (List.range 6).map .tap ++ (List.range 11).map .rsvd ++ instances 2 19 .pe ++ instances 8 4 .sl

/-- Is a signal ball connected inside the package on the variant (R798, R799)? -/
def Signal.present (hw : Hw) : Signal → Bool
  | .edg k => k < 2 * nEG hw
  | .ain k => k < pick hw 96 48 24
  | .sdc n => n < nAD hw
  | .sdd n => n < nAD hw
  | .hlg n _ => n < nHL hw
  | .hlis n => n < nHL hw
  | .hlvs n => n < nHL hw
  | .fb n _ => n < nFB hw
  | .emu m _ => m < nEMU hw
  | .sl n _ => bit (slMask hw) n
  | .pe n _ => bit (peMask hw) n
  | .rsvd _ => false
  | .trip _ => true
  | .vref _ => true
  | .rstN => true
  | .ceLockN => true
  | .permitOut => true
  | .permitIn => true
  | .wake _ => true
  | .mnt _ => true
  | .uart _ => true
  | .bootsel _ => true
  | .refclk _ => true
  | .lclk _ => true
  | .ospi _ => true
  | .tap _ => true

/-- The code under which the part's balls (`Block.balls`) hold the level it drives on a signal ball. -/
def Signal.code : Signal → Option Nat
  | .edg k => some (ballEdg k)
  | .hlg n g => some (ballHlg n g)
  | .fb n k => some (ballFb n k)
  | .emu m k => some (ballEmu m k)
  | .sdc n => some (ballSdc n)
  | .ceLockN => some ballLock
  | .permitOut => some ballPermitOut
  | .trip _ => none
  | .ain _ => none
  | .vref _ => none
  | .sdd _ => none
  | .hlis _ => none
  | .hlvs _ => none
  | .rstN => none
  | .permitIn => none
  | .wake _ => none
  | .mnt _ => none
  | .uart _ => none
  | .bootsel _ => none
  | .refclk _ => none
  | .lclk _ => none
  | .ospi _ => none
  | .tap _ => none
  | .rsvd _ => none
  | .pe _ _ => none
  | .sl _ _ => none

/-! ### The ball map (R794, R795, R797) -/

/-- What a ball of the array is. -/
inductive BallUse where
  | signal (x : Signal)
  | supply (r : Rail)
  | vss
  | vssa
  deriving DecidableEq, Repr

/-- The nineteen letters that name rows (R794). -/
def rowLetters : List Char := "ABCDEFGHJKLMNPTUVWY".toList

/-- The letters of row i, 1 to 47. -/
def rowName (i : Nat) : List Char :=
  let k := i - 1
  let c := rowLetters.getD (k % 19) '?'
  if k < 19 then [c] else if k < 38 then ['A', c] else ['B', c]

/-- Row and column of the signal at position p of a band (R795). -/
def upperSite (p : Nat) : Nat × Nat :=
  let k := p / 47
  let r := p % 47
  if r < 24 then (2 * k + 1, 2 * r + 1) else (2 * k + 2, 2 * (r - 24) + 2)

def lowerSite (p : Nat) : Nat × Nat :=
  let k := p / 47
  let r := p % 47
  if r < 23 then (32 + 2 * k, 2 * r + 2) else (33 + 2 * k, 2 * (r - 23) + 1)

/-- The position in its band of the signal at row i and column j. -/
def upperPos (i j : Nat) : Nat := if i % 2 = 1 then 47 * (i / 2) + j / 2 else 47 * (i / 2 - 1) + 24 + (j / 2 - 1)
def lowerPos (i j : Nat) : Nat := if i % 2 = 0 then 47 * ((i - 32) / 2) + (j / 2 - 1) else 47 * ((i - 33) / 2) + 23 + j / 2

/-- A core ball at row i and column j (R797). -/
def coreBall (i j : Nat) : BallUse :=
  if j ≤ 10 then .supply .vddC
  else if j ≤ 13 then .supply .vddM
  else if j ≤ 18 then .supply .vddA
  else if j ≤ 21 then .supply .vddS
  else if j ≤ 23 then .supply .vddhS
  else if j ≤ 26 then .supply .vddIo18
  else if j ≤ 28 then .supply .vddIo33
  else if j = 29 then .supply .vddAn
  else if j = 30 then .vssa
  else if j = 31 then .supply .vddF
  else if j = 32 then (if i ≤ 18 then .supply .vddL else .vss)
  else if j ≤ 35 then .vss
  else if j ≤ 38 then .supply .vddM
  else .supply .vddC

/-- The ball at row i and column j, both 1 to 47. -/
def ballAt (i j : Nat) : BallUse :=
  if 17 ≤ i ∧ i ≤ 31 then coreBall i j
  else if (i + j) % 2 = 1 then .vss
  else if i ≤ 16 then .signal (upperBand.getD (upperPos i j) .rstN)
  else .signal (lowerBand.getD (lowerPos i j) .rstN)

/-! ### Levels (R807, R809) -/

/-- The ball classes. -/
inductive BallClass where
  | c18
  | c33
  | l18
  | an
  | hs
  deriving DecidableEq, Repr

/-- A signal ball's class; a reserved ball has none. -/
def Signal.cls : Signal → Option BallClass
  | .fb _ _ => some .c33
  | .trip _ => some .c33
  | .rstN => some .c33
  | .ceLockN => some .c33
  | .permitOut => some .c33
  | .permitIn => some .c33
  | .wake _ => some .l18
  | .lclk _ => some .l18
  | .ain _ => some .an
  | .hlis _ => some .an
  | .hlvs _ => some .an
  | .vref _ => some .an
  | .sl _ _ => some .hs
  | .refclk _ => some .hs
  | .pe _ k => some (if k = 18 then .c33 else .hs)
  | .rsvd _ => none
  | .edg _ => some .c18
  | .hlg _ _ => some .c18
  | .sdc _ => some .c18
  | .sdd _ => some .c18
  | .emu _ _ => some .c18
  | .mnt _ => some .c18
  | .uart _ => some .c18
  | .bootsel _ => some .c18
  | .ospi _ => some .c18
  | .tap _ => some .c18

/-- The rails of a class. -/
def BallClass.rails : BallClass → List Rail
  | .c18 => [.vddIo18]
  | .c33 => [.vddIo33]
  | .l18 => [.vddL]
  | .an => [.vddAn]
  | .hs => [.vddS, .vddhS]

/-- The least input voltage that is high and the greatest that is low, in microvolts, at a supply of `uv`; for the digital classes. -/
def BallClass.inputLevels (c : BallClass) (uv : Nat) : Option (Nat × Nat) :=
  match c with
  | .c18 => some (uv * 65 / 100, uv * 35 / 100)
  | .l18 => some (uv * 65 / 100, uv * 35 / 100)
  | .c33 => some (2000000, 800000)
  | .an => none
  | .hs => none

/-- Is a ball a Schmitt input (R809)? -/
def Signal.schmitt : Signal → Bool
  | .trip _ => true
  | .fb _ _ => true
  | .permitIn => true
  | .rstN => true
  | .wake _ => true
  | .tap k => k == 4
  | _ => false

/-- The level that a Schmitt input sees at `v` microvolts, `was` being the level before: a rise counts at VIH, a fall at VIL (R809). -/
def BallClass.seen (c : BallClass) (uv : Nat) (was : Bool) (v : Nat) : Bool :=
  match c.inputLevels uv with
  | some (vih, vil) => if was then vil < v else vih ≤ v
  | none => was

/-- The level an open input shows by its internal pull (R809): BOOTSEL and PERMIT_IN low, RST_N high; none where it has no pull of its
own or another rule gives it one. -/
def Signal.pull : Signal → Option Bool
  | .rstN => some true
  | .bootsel _ => some false
  | .permitIn => some false
  | _ => none

end Sys2Proof.Machine
end

