-- ==== Sys2Proof/WellFormed.lean ====
section
/-! DEFINITION. Which commands a sender may send. Most operands are bounded by their types. -/

namespace Sys2Proof

/-- An agent that sends accesses of its own: an engine or a DMA channel of the largest variant, a port. The boot ROM's and the
supervisors' writes come about within other commands. -/
def Agent.ok : Agent → Bool
  | .engine n => n < 256
  | .dma ch => ch < 64
  | .mnt => true
  | .host => false
  | .boot => false
  | .supervisor _ => false

/-- The fields of a KSP header are within their widths. -/
def KspHead.ok (h : KspHead) : Bool :=
  h.ip < 2 ^ 32 && h.port < 2 ^ 16 && h.typ < 2 ^ 8 && h.flags < 2 ^ 16 && h.sess < 2 ^ 32 && h.seq < 2 ^ 32

/-- A byte string. -/
def bytesOk (l : List Nat) : Bool := l.all (· < 256)

/-- Is the command well formed? -/
def WellFormed : Instr → Bool
  | .registerWrite ag _ _ => ag.ok
  | .absentRead ag _ => ag.ok
  | .rcRead ag _ => ag.ok
  | .tbLoRead ag => ag.ok
  | .lclkEdge _ => true
  | .tbLctLoRead ag => ag.ok
  | .pwLtblRead ag => ag.ok
  | .luAloRead ag _ => ag.ok
  | .fgLstlRead ag _ => ag.ok
  | .bootSerlRead ag => ag.ok
  | .bootTstlRead ag => ag.ok
  | .spJobLenlRead ag _ => ag.ok
  | .glOfslRead ag _ => ag.ok
  | .ccMatch _ => true
  | .ccLateMatch _ => true
  | .ccStart _ => true
  | .ccStop _ => true
  | .ccStagedWrite ag _ _ _ => ag.ok
  | .ccCmphCommit ag _ _ => ag.ok
  | .ccCmplRead ag _ => ag.ok
  | .cpRiseQualified _ _ => true
  | .cpPairReady _ _ => true
  | .cpArm _ => true
  | .cpStop _ => true
  | .cpRiseRead ag _ => ag.ok
  | .egCarrierStart _ => true
  | .egCentre _ => true
  | .egPulseEdge _ => true
  | .egLateCarrier _ => true
  | .egCmphCommit ag _ _ => ag.ok
  | .egStart _ => true
  | .egFollowerStart _ => true
  | .egStop _ => true
  | .egEnClearWrite ag _ _ => ag.ok
  | .egLoad _ => true
  | .egClear _ => true
  | .egShadowWrite ag _ _ _ => ag.ok
  | .egHoldRelease ag _ _ => ag.ok
  | .egRunDone _ => true
  | .egSafeDeadTime _ _ => true
  | .egPostForceIdle _ => true
  | .tripSourceAssert _ => true
  | .tgTripSync _ => true
  | .tgSoftwareTrip ag _ _ => ag.ok
  | .tgTripAction _ => true
  | .tgRelease ag _ _ => ag.ok
  | .adStart _ => true
  | .adSoftwareStart ag _ _ => ag.ok
  | .adConversionEnd _ _ => true
  | .adStop _ => true
  | .adEnClearWrite ag _ _ => ag.ok
  | .adFlush _ => true
  | .adFlushWrite ag _ _ => ag.ok
  | .adFifoRead ag _ => ag.ok
  | .acOutputChange _ _ => true
  | .acAssert _ => true
  | .acDeassert _ => true
  | .acRamp _ => true
  | .acBlank _ => true
  | .acBlankEnd _ => true
  | .sdResult _ _ => true
  | .sdSync _ => true
  | .sdClockLoss _ => true
  | .sdClockLossEnd _ _ => true
  | .sdEnable ag _ _ => ag.ok
  | .sdResRead ag _ => ag.ok
  | .hlHedgerowStart _ => true
  | .hlFireStart _ => true
  | .hlSoftwareStart ag _ _ => ag.ok
  | .hlWaveformStart _ => true
  | .hlWaveformEnd _ => true
  | .hlAbort _ => true
  | .hlAbortWrite ag _ _ => ag.ok
  | .hlConverterResult _ _ _ => true
  | .hlUpdate _ => true
  | .hlPeriodStart _ => true
  | .hlEnable ag _ _ => ag.ok
  | .hlWaveformWrite ag _ _ _ => ag.ok
  | .fbQuadCount _ _ _ _ => true
  | .fbHallChange _ _ _ => true
  | .fbIndex _ _ => true
  | .fbArm _ => true
  | .fbArmWrite ag _ _ => ag.ok
  | .fbReq _ _ => true
  | .fbSwrq ag _ _ => ag.ok
  | .fbPeriodicRequest _ _ => true
  | .fbSsiFrameEnd _ _ => true
  | .fbFrameEnd _ => true
  | .fbResponseTimeout _ => true
  | .fbGapTimeout _ => true
  | .fbGoodFrame _ => true
  | .fbBadFrame _ => true
  | .fbSpeedDecay _ => true
  | .fbZeroSpeed _ => true
  | .fbWindowSpeed _ => true
  | .fbPosWrite ag _ _ => ag.ok
  | .fbPosRead ag _ => ag.ok
  | .fbLatch _ => true
  | .fbCmpCrossing _ _ => true
  | .fbCmpLate _ _ => true
  | .fbCmpValWrite ag _ _ _ => ag.ok
  | .fbEnable ag _ _ => ag.ok
  | .emuEnable ag _ _ => ag.ok
  | .emuResync _ => true
  | .emuResyncWrite ag _ _ => ag.ok
  | .emuEdge _ => true
  | .emuWposWrite ag _ _ => ag.ok
  | .fgArm _ => true
  | .fgArmWrite ag _ _ => ag.ok
  | .fgStop _ => true
  | .fgStopWrite ag _ _ => ag.ok
  | .fgEnable ag _ _ => ag.ok
  | .fgIssue _ => true
  | .fgShot _ => true
  | .fgPassEnd _ => true
  | .faQueueCells => true
  | .faCellDepart _ => true
  | .faAdv _ => true
  | .faWcolWrite ag _ _ => ag.ok
  | .evDelivery _ => true
  | .evSoftwareRaise ag _ _ => ag.ok
  | .evSrcWrite ag _ _ => ag.ok
  | .evDstWrite ag _ _ _ => ag.ok
  | .laneTrigger _ => true
  | .laneHeldRunStart _ => true
  | .lawOutputTransfer _ => true
  | .luKswap ag _ _ => ag.ok
  | .llClrs ag _ _ => ag.ok
  | .luStateWrite ag _ _ _ => ag.ok
  | .luDeferredWrite _ => true
  | .laneEngineDelivery _ => true
  | .laneCommitArrival _ => true
  | .laneEngineDutyTransfer _ => true
  | .cbeq _ _ _ _ => true
  | .cbne _ _ _ _ => true
  | .cblt _ _ _ _ => true
  | .cbge _ _ _ _ => true
  | .cbltu _ _ _ _ => true
  | .cbgeu _ _ _ _ => true
  | .jal _ _ _ => true
  | .jalr _ _ _ => true
  | .add _ _ _ _ => true
  | .sub _ _ _ _ => true
  | .min _ _ _ _ => true
  | .max _ _ _ _ => true
  | .neg _ _ _ => true
  | .abs _ _ _ => true
  | .and _ _ _ _ => true
  | .or _ _ _ _ => true
  | .xor _ _ _ _ => true
  | .andn _ _ _ _ => true
  | .not _ _ _ => true
  | .sll _ _ _ _ => true
  | .srl _ _ _ _ => true
  | .sra _ _ _ _ => true
  | .ror _ _ _ _ => true
  | .clz _ _ _ => true
  | .sextb _ _ _ => true
  | .sexth _ _ _ => true
  | .zextb _ _ _ => true
  | .zexth _ _ _ => true
  | .cmpeq _ _ _ _ => true
  | .cmplt _ _ _ _ => true
  | .cmpltu _ _ _ _ => true
  | .mov _ _ _ => true
  | .gett _ _ _ => true
  | .sett _ _ _ _ => true
  | .chkt _ _ _ => true
  | .cvt _ _ _ _ => true
  | .addi _ _ _ _ => true
  | .andi _ _ _ _ => true
  | .ori _ _ _ _ => true
  | .xori _ _ _ _ => true
  | .shi _ _ _ _ => true
  | .lil _ _ _ _ => true
  | .lih _ _ _ => true
  | .mul _ _ _ _ => true
  | .mulh _ _ _ _ => true
  | .div _ _ _ _ _ => true
  | .rem _ _ _ _ _ => true
  | .sqrt _ _ _ _ => true
  | .fadd _ _ _ _ => true
  | .fsub _ _ _ _ => true
  | .fmul _ _ _ _ => true
  | .fmin _ _ _ _ => true
  | .fmax _ _ _ _ => true
  | .fneg _ _ _ => true
  | .fabs _ _ _ => true
  | .mac _ _ _ _ => true
  | .msu _ _ _ _ => true
  | .macz _ _ _ _ => true
  | .rda _ _ _ _ => true
  | .clra _ _ => true
  | .clarke _ _ _ _ _ => true
  | .park _ _ _ _ _ => true
  | .ipark _ _ _ _ _ => true
  | .sincos _ _ _ _ => true
  | .atan2 _ _ _ _ _ => true
  | .mtx3 _ _ _ _ _ => true
  | .ldm _ _ _ _ => true
  | .stm _ _ _ _ => true
  | .saveg _ _ _ _ => true
  | .loadg _ _ _ _ => true
  | .bcopy _ _ _ _ _ => true
  | .vmac _ _ _ _ _ _ => true
  | .firq _ _ _ _ _ _ => true
  | .rdl _ _ _ => true
  | .wrl _ _ _ => true
  | .csrr _ _ _ => true
  | .csrw _ _ _ => true
  | .csrs _ _ _ _ => true
  | .csrc _ _ _ _ => true
  | .nop _ => true
  | .wait _ => true
  | .drain _ => true
  | .eret _ => true
  | .brk _ => true
  | .sys _ _ => true
  | .dinv _ _ => true
  | .dinva _ => true
  | .iinv _ _ => true
  | .iinva _ => true
  | .evr _ _ => true
  | .lb _ _ _ _ _ => true
  | .lbu _ _ _ _ _ => true
  | .lh _ _ _ _ _ => true
  | .lhu _ _ _ _ _ => true
  | .lw _ _ _ _ _ => true
  | .sb _ _ _ _ _ => true
  | .sh _ _ _ _ _ => true
  | .sw _ _ _ _ _ => true
  | .movS _ _ _ => true
  | .addS _ _ _ _ => true
  | .subS _ _ _ _ => true
  | .andS _ _ _ _ => true
  | .orS _ _ _ _ => true
  | .addiS _ _ _ => true
  | .lis _ _ _ => true
  | .lwS _ _ _ _ => true
  | .swS _ _ _ _ => true
  | .cbz _ _ _ => true
  | .cbnz _ _ _ => true
  | .shiS _ _ _ _ => true
  | .bS _ _ => true
  | .macS _ _ _ _ => true
  | .msuS _ _ _ _ => true
  | .mulS _ _ _ _ => true
  | .xorS _ _ _ _ => true
  | .minS _ _ _ _ => true
  | .maxS _ _ _ _ => true
  | .jrS _ _ => true
  | .nopS _ => true
  | .waitS _ => true
  | .drainS _ => true
  | .brkS _ => true
  | .eretS _ => true
  | .rdlS _ _ _ => true
  | .wrlS _ _ _ => true
  | .sopReserved _ _ => true
  | .fabricLoadResult _ _ _ => true
  | .fabricStoreWritten _ _ => true
  | .taskActivation _ _ => true
  | .taskFirstIssue _ => true
  | .tactWrite _ _ => true
  | .timelRead _ => true
  | .deadlineExpiry _ _ => true
  | .serrReturn _ _ _ _ => true
  | .exceptionEntry _ => true
  | .tcmdPark _ => true
  | .tcmdRestart _ => true
  | .matchParityFail _ _ => true
  | .scrubRead _ => true
  | .scrubWriteback _ => true
  | .icEdge _ _ => true
  | .icSoftwareEdge ag _ _ _ => ag.ok
  | .icBatchTimer _ _ => true
  | .icDelivery _ _ => true
  | .icClr ag _ _ _ => ag.ok
  | .icGdisWrite ag _ _ => ag.ok
  | .icTargetWrite ag _ _ _ _ => ag.ok
  | .dmaRun _ => true
  | .dmaRunWrite ag _ _ => ag.ok
  | .dmaHalt _ => true
  | .dmaHaltWrite ag _ _ => ag.ok
  | .dmaAbort ag _ _ => ag.ok
  | .dmaDescriptorFetch _ => true
  | .dmaElement _ => true
  | .dmaPaceResume _ => true
  | .dmaPaceTimeout _ => true
  | .dmaHandback _ => true
  | .cvStart ag _ _ => ag.ok
  | .cvData ag _ _ => ag.ok
  | .cvEnd ag _ _ => ag.ok
  | .cvRunWrite ag _ _ => ag.ok
  | .cvClientMessage _ => true
  | .powerOnReset _ => true
  | .rstNAssert _ => true
  | .twinReset => true
  | .bootSequence _ ospi ospi2 => (ospi.all bytesOk) && (ospi2.all bytesOk)
  | .mntStatus => true
  | .mntRead _ => true
  | .mntWrite _ _ => true
  | .mntRetry => true
  | .mntEnrol _ hash => bytesOk hash
  | .flProg ag => ag.ok
  | .flErase ag => ag.ok
  | .flBlank ag => ag.ok
  | .flSwapbb ag => ag.ok
  | .flSwapimg ag => ag.ok
  | .flSelinit ag => ag.ok
  | .flUndefinedOp ag _ => ag.ok
  | .flCommandEnd _ _ => true
  | .flBrownoutCut _ _ => true
  | .glEnable ag _ _ => ag.ok
  | .glResync ag _ _ => ag.ok
  | .glTrainDone _ => true
  | .glCodewordLock _ => true
  | .glCellLock _ => true
  | .glLossOfLock _ => true
  | .glCellAccept _ _ _ _ _ _ _ => true
  | .glCellSlot _ _ => true
  | .glSyncDue _ => true
  | .glSyncTimeout _ => true
  | .glTxCommit ag _ _ => ag.ok
  | .glRxsRead ag _ => ag.ok
  | .hpLinkChange _ _ => true
  | .hpArpRequest _ _ _ => true
  | .hpIcmpEcho _ _ data => bytesOk data
  | .hpFrameDiscard _ => true
  | .kspHello h => h.ok
  | .kspWrite h _ _ _ data => h.ok && (bytesOk data)
  | .kspWriteDone _ _ => true
  | .kspCommit h _ _ => h.ok
  | .kspCommitDone _ _ => true
  | .kspJobcmd h data => h.ok && (bytesOk data)
  | .kspReadstat h _ => h.ok
  | .kspCfgwriteErase h _ _ _ => h.ok
  | .kspCfgwriteProgram h _ _ _ data => h.ok && (bytesOk data)
  | .kspCfgswap h _ => h.ok
  | .kspAttest h nonce => h.ok && (bytesOk nonce)
  | .kspReset h _ => h.ok
  | .sessionTimeout _ => true
  | .mailboxReply ag _ => ag.ok
  | .mailboxTimeout => true
  | .spDriveLinkUp _ _ _ => true
  | .spDriveReady _ _ _ _ => true
  | .spReinit ag _ _ => ag.ok
  | .nvmeCompletion _ _ => true
  | .nvmeTimeout _ => true
  | .spHealthPoll _ _ _ _ => true
  | .spBlockArrival _ _ data => data < 2 ^ 524288
  | .spJobStateWrite ag _ _ => ag.ok
  | .heartbeatStore ag _ _ _ => ag.ok
  | .engineDeclaredDead _ _ => true
  | .spareTasksBegin _ => true
  | .isolationReset _ => true
  | .checkpointSnapshot _ _ => true
  | .checkpointRecordWrite _ => true
  | .sporelineLaneState _ => true
  | .pairHeartbeatDue => true
  | .epochCellDue => true
  | .partnerDead => true
  | .permitGained => true
  | .permitInRise => true
  | .takingWithdraw => true
  | .pvTrst ag _ => ag.ok
  | .pvResend ag _ => ag.ok
  | .pllLock _ => true
  | .refclkLoss => true
  | .lanePllUnlock _ => true
  | .lclkQualify _ => true
  | .crystalLoss => true
  | .dozeEntry _ => true
  | .dozeWake _ => true
  | .regionAwake _ => true
  | .sleepRequest ag _ => ag.ok
  | .wakeEvent _ => true
  | .watchdogKick ag _ => ag.ok
  | .watchdogHalf => true
  | .watchdogExpiry => true
  | .brownoutWarn _ => true
  | .thermalConversion _ _ => true
  | .tapReset => true
  | .tapBypass => true
  | .tapIdcode => true
  | .tapSamplePreload cells => cells.all fun x => x.2 < 3
  | .tapExtest => true
  | .tapClamp => true
  | .tapHighz => true
  | .pcieLinkDown _ => true
  | .takeoverEnginesIssue => true
  | .sdBitSample _ _ => true
  | .fbStartBit _ _ _ _ => true
  | .fbSsiPauseEnd _ => true
  | .tripSourceDeassert _ => true
  | .memoryBitError _ flips => flips.all (· < 272)

end Sys2Proof
end

