-- ==== Sys2Proof/Tests/Slice0.lean ====
section
/-! SUPPORT. Tests: for every statement with hypotheses a state that meets them, clause by clause; an ill-formed term for every
check; figures of the spec's worked examples. -/

namespace Wit
open Sys2Proof Sys2Proof.Machine

/-- A state in which the fc began with `f` of the reset part, and `g` has happened since. -/
def st (tick : Nat) (f g : Block → Block) : State := { tick, start := f Block.atReset, now := g (f Block.atReset) }

/-- A state at the start of an fc. -/
def at0 (f : Block → Block) : State := st 1000 f id

/-- An action waits at an input. -/
def act (i : Input) (b : Block) : Block := { b with fc := { b.fc with latched := b.fc.latched ++ [⟨i, 0, none, false⟩] } }

/-- The smaller variant. -/
def small : Hw := { variant := .kor0640 }


/-- Engine 7 of a part whose engines issue: task 5 runs at 0x100 in its I-TCM with the registers of `g`. -/
def run (g : Assoc TWord) (f : TaskSt → TaskSt := id) (u : EngSt → EngSt := id) (h : Block → Block := id) : State :=
  at0 fun b => h { b with
    nt := [(7, 10)]
    eng := [(7, u { tasks := [(5, f { g := g, st := .run, pc := 0x100 })], run := some 5, issueAt := 1000 })] }

/-- A host port in RUN, its lane up, with two sessions and the mailbox on. -/
def hostRun (f : Block → Block := id) : State :=
  at0 fun b => f { ((b.put F.BOOT_STATUS_STATE 1).put F.HP_STAT_LINK 1).put F.HP_MBCFG_EN 1 with
    hp := { b.hp with up6 := true, nextSess := 10, sess := [⟨0xA000001, 5000, 1, 500, [(6, some [])]⟩, ⟨0xA000002, 5000, 9, 500, []⟩] } }

/-- The same with job 3 open on drive 0. -/
def jobRun (f : Block → Block := id) : State :=
  hostRun fun b => f (((((((((b.put F.HP_WBSZ_SZ 4).wr R.HP_WBUF 0x10000000).put (F.JOB_CTL_STATE 3) 1).put (F.JOB_CTL_NX 3) 1).wr
    (R.JOB_XS 3 0) 16).wr (R.JOB_XL 3 0) 8).wr (R.PE_CAP 0) 0x100000).put (F.PE_STAT_STATE 0) 2))

/-- Engine 7 as `run` has it, with operands of one tag in G1, G2 and G8–G10. -/
def tagged (t : Nat) : State :=
  run [(1, ⟨5, t⟩), (2, ⟨3, t⟩), (3, ⟨9, t⟩), (8, ⟨5, t⟩), (9, ⟨3, t⟩), (10, ⟨7, t⟩), (11, ⟨6, t⟩), (12, ⟨3, t⟩)]

/-- Some operands of one tag let the instruction issue and are accepted. -/
def takes {α : Type} (m : Meta) (f : TaskSt → Except Trap α) : Bool :=
  (List.range 16).any fun t => Issues (tagged t) 7 5 m && (f ((tagged t).now.taskSt 7 5)).toOption.isSome

/-- The same of a microcoded instruction issued afresh. -/
def takesAll {α : Type} (m : Meta) (f : TaskSt → Except Trap α) : Bool :=
  takes { m with micro := true } f && !((tagged 0).now.taskSt 7 5).rsmV && (tagged 0).now.microPlain 7

/-- Some operands of one tag let the instruction issue and are refused. -/
def refuses {α : Type} (m : Meta) (f : TaskSt → Except Trap α) : Bool :=
  (List.range 16).any fun t => Issues (tagged t) 7 5 m &&
    match f ((tagged t).now.taskSt 7 5) with
    | .error x => !x.next
    | .ok _ => false

end Wit

open Sys2Proof Sys2Proof.Machine Wit

section
set_option maxRecDepth 100000
set_option Elab.async false

/-! ### The hypotheses of every statement can be met -/

theorem test_hyp_StepRunsFrontCommand : ∃ (s : State) (i : Instr) (rest : List Instr), s.pending = i :: rest :=
  ⟨{ at0 id with pending := [.ccMatch 0] }, .ccMatch 0, [], rfl⟩

theorem test_hyp_StepKeepsSiliconAndQueueOrder : ∃ (h : Hw) (s t : State), s.hw = h ∧ s.pending ≠ [] ∧ step s = .next t :=
  ⟨{}, { at0 id with pending := [.ccMatch 0] }, _, rfl, by simp, rfl⟩

theorem test_hyp_StepKeepsMemoryCanonical : ∃ s t : State, Memory.wf s.now.mem = true ∧ Memory.wf s.start.mem = true ∧
    step s = .next t :=
  ⟨{ at0 fun b => { b with mem := [(0x10000000, 3)] } with pending := [.ccMatch 0] }, _, by decide +kernel, by decide +kernel, rfl⟩

theorem test_hyp_EmptyQueuePassesOneFc :
    (∃ (s : State), s.pending = [] ∧ s.now.pllF = true ∧ (endFc s.ctx s.now).resetDue = none ∧
      (endFc s.ctx s.now).retry = false) ∧
    (∃ (s : State), s.pending = [] ∧ s.now.pllF = false) :=
  ⟨⟨at0 fun b => b.put F.PW_PLL_F 1, by decide +kernel⟩,
    ⟨State.reset, by decide +kernel⟩⟩

theorem test_hyp_RegisterAccessEffects :
    (∃ (s : State) (ag : Agent) (a : Word) (l : Loc), Reaches s ag a.toNat ∧ locate s.hw a.toNat = some l) ∧
    (∃ (s : State) (ag : Agent) (a : Word) (l : Loc), ag ≠ .mnt ∧ s.now.deadWriter s.hw ag a.toNat = none ∧
      locate s.hw a.toNat = some l ∧ s.now.mayWrite ag l = false) ∧
    (∃ (s : State) (ag : Agent) (a : Word), ag ≠ .mnt ∧ s.now.deadWriter s.hw ag (busAddr ag a.toNat) = none ∧
      absent s.hw (busAddr ag a.toNat) = true) ∧
    (∃ (s : State) (ag : Agent), ag = .mnt ∧ s.now.mntReady = false) ∧
    (∃ (s : State) (ag : Agent) (a : Word), a.toNat % 4 = 0 ∧ absent s.hw (busAddr ag a.toNat) = true) ∧
    (∃ (s : State) (a : Word) (r : Fin 8) (w : Violation), r.val < nRegions s.hw ∧ a.toNat = (vcFld (some r.val) w).addr) ∧
    (∃ (a : Word) (w : Violation), a.toNat = (vcFld none w).addr) :=
  ⟨⟨at0 id, .engine 0, 0x40700000, ⟨.fg, 0, 0, [⟨28, 24, .rw⟩, ⟨23, 23, .rw⟩]⟩, by decide +kernel⟩,
    ⟨at0 fun b => { b with enforced := true, own := [(0xA00, 5)] }, .engine 0, 0x40700000,
        ⟨.fg, 0, 0, [⟨28, 24, .rw⟩, ⟨23, 23, .rw⟩]⟩, by decide +kernel⟩,
    ⟨at0 id, .engine 0, 0x4FFFFFFC, by decide +kernel⟩,
    ⟨at0 id, .mnt, by decide +kernel⟩,
    ⟨at0 id, .engine 0, 0x4FFFFFFC, by decide +kernel⟩,
    ⟨at0 fun b => b.wr 0x51F00304 0xFFFF, 0x51F00304, 7, .owner, by decide +kernel⟩,
    ⟨0x40F0001C, .epoch, by decide +kernel⟩⟩

theorem test_hyp_SnapshotReadEffects :
    (∃ (s : State) (n : Fin 32), n.val < nLU s.hw) ∧
    (∃ (s : State) (n : Fin 16), n.val < nHL s.hw) ∧
    (∃ (s : State) (x : Nat), s.now.fcS = some x) ∧
    (∃ (s : State), peMask s.hw ≠ 0) ∧
    (∃ (s : State) (n : Fin 8), bit (slMask s.hw) n = true ∧ s.now.glCells n = true) ∧
    (∃ (s : State), s.now.always.sleeping = false) ∧
    (∃ (s : State), s.now.always.sleeping = true) :=
  ⟨⟨at0 fun b => b.setLu 31 { acc := 0xFFFF00000001 }, 31, by decide +kernel⟩,
    ⟨at0 fun b => b.setFg 15 { lst := 0xFFFF0000000001F }, 15, by decide +kernel⟩,
    ⟨at0 fun b => { b with fcS := some 0x100000002 }, 0x100000002, by decide +kernel⟩,
    ⟨at0 fun b => { b with jobLen := [(255, 0x300000001)] }, by decide +kernel⟩,
    ⟨at0 fun b => { b.put (F.GL_CFG_ROLE 2) 1 with gl := [(2, { ofs := 0x2000000FF, dly := 9 })] }, 2, by decide +kernel⟩,
    ⟨at0 fun b => { b with always := { b.always with ltb := 2 ^ 48 - 1 } }, by decide +kernel⟩,
    ⟨at0 fun b => { b with always := { b.always with sleeping := true } }, by decide +kernel⟩⟩

theorem test_hyp_CompareAndCaptureEffects :
    (∃ (s : State) (n : Fin 1024), ccDue s.ctx n = true ∧ s.now.emittedNow .cc n 0 = false) ∧
    (∃ (s : State) (n : Fin 1024), ccBehind s.ctx n = true ∧ s.now.fc.judged.contains (evKey .cc n 0) = false) ∧
    (∃ (s : State) (n : Fin 1024), Waits s (CC.startIn n) ∧ s.now.acted (CC.stopIn n) = false) ∧
    (∃ (s : State) (n : Fin 1024), Waits s (CC.stopIn n)) ∧
    (∃ (s : State) (n : Fin 1024) (ag : Agent), Reaches s ag (R.CC_CMPF n)) ∧
    (∃ (s : State) (n : Fin 1024) (ag : Agent), Reaches s ag (R.CC_CMPL n)) ∧
    (∃ (s : State) (n : Fin 1024) (ag : Agent), Reaches s ag (R.CC_CMPH n) ∧ s.now.ccStarted n = false) ∧
    (∃ (s : State) (n : Fin 1024), n.val < nCC s.hw) ∧
    (∃ (s : State) (n : Fin 128) (x : BallEdge), cpTakes s.ctx n true x = true ∧ s.start.on (F.CP_STAT_OPEN n) = false ∧
      s.now.cpEnds n = false) ∧
    (∃ (s : State) (n : Fin 128) (x : BallEdge), cpTakes s.ctx n false x = true ∧ s.start.on (F.CP_STAT_OPEN n) = true ∧
      s.now.fc.reads.contains (R.CP_RISE n) = false) ∧
    (∃ (s : State) (n : Fin 128) (x : BallEdge), cpTakes s.ctx n false x = true ∧ s.start.on (F.CP_STAT_OPEN n) = true ∧
      s.now.fc.reads.contains (R.CP_RISE n) = true) ∧
    (∃ (s : State) (n : Fin 128), Waits s (CP.armIn n) ∧ s.now.acted (CP.stopIn n) = false) ∧
    (∃ (s : State) (n : Fin 128), Waits s (CP.stopIn n)) ∧
    (∃ (s : State) (n : Fin 128), n.val < nCP s.hw ∧ (s.now.emittedNow .cp n 1 = false ∨ (s.now.cpSt n).putOff.isSome = true)) ∧
    (∃ (s : State) (n : Fin 128), n.val < nCP s.hw ∧ s.now.emittedNow .cp n 1 = true ∧ (s.now.cpSt n).putOff = none) :=
  ⟨⟨at0 fun b => ((b.put (F.CC_CTL_EN 1023) 1).put (F.CC_CTL_AA 1023) 1 |>.put (F.CC_IVL_IVL 1023) 0x40).setCc 1023
        { val := 64017 }, 1023, by decide +kernel⟩,
    ⟨at0 fun b => ((b.put (F.CC_CTL_EN 0) 1).put (F.CC_CTL_AA 0) 1 |>.put (F.CC_IVL_IVL 0) 0x40).setCc 0 { val := 63999 }, 0,
        by decide +kernel⟩,
    ⟨st 1000 (fun b => b.put (F.CC_IVL_IVL 0) 77) (act (CC.startIn 0)), 0, by decide +kernel⟩,
    ⟨st 1000 (fun b => b.put (F.CC_CTL_EN 5) 1) (act (CC.stopIn 5)), 5, by decide +kernel⟩,
    ⟨at0 id, 1023, .engine 0, by decide +kernel⟩,
    ⟨at0 id, 0, .boot, by decide +kernel⟩,
    ⟨at0 fun b => b.setCc 9 { stL := 0x80000000, stF := 63 }, 9, .engine 0, by decide +kernel⟩,
    ⟨at0 fun b => b.setCc 9 { val := 0x123456789ABCDEF }, 9, by decide +kernel⟩,
    ⟨st 1001 (fun b => { (b.put (F.CP_CTL_EN 127) 1).put (F.CP_CTL_FILT 127) 2 with pinMap := [(0, 9)] }) id, 127, ⟨63240, 3, 7⟩,
        by decide +kernel⟩,
    ⟨st 1001 (fun b => (((({ b with pinMap := [(0, 9)] }).put (F.CP_CTL_EN 0) 1).put (F.CP_STAT_OPEN 0) 1).put (F.CP_STAT_NEW 0) 1
        |>.put (F.CP_CTL_ONE 0) 1).setCp 0 { openRise := 5 }) id, 0, ⟨63850, 4, 0⟩, by decide +kernel⟩,
    ⟨st 1001 (fun b => ({ b with pinMap := [(0, 9)] }.put (F.CP_CTL_EN 0) 1).put (F.CP_STAT_OPEN 0) 1) fun b =>
        { b with fc := { b.fc with reads := [R.CP_RISE 0] } }, 0, ⟨63850, 4, 0⟩, by decide +kernel⟩,
    ⟨st 1000 id (act (CP.armIn 3)), 3, by decide +kernel⟩,
    ⟨st 1000 (fun b => (b.put (F.CP_CTL_EN 3) 1).put (F.CP_STAT_OPEN 3) 1) (act (CP.stopIn 3)), 3, by decide +kernel⟩,
    ⟨at0 fun b => (b.put (F.CP_STAT_NEW 3) 1).setCp 3 { rise := 64 * 0x500000001, fall := 9 }, 3, by decide +kernel⟩,
    ⟨st 1000 (fun b => b.setCp 3 { rise := 64 * 0x500000001, fall := 9 }) fun b =>
        { b.setCp 3 { rise := 640, fall := 999, width := 359 } with fc := { b.fc with emitted := [evKey .cp 3 1] } }, 3,
        by decide +kernel⟩⟩

theorem test_hyp_EdgeGeneratorCarrierEffects :
    (∃ (s : State) (n : Fin 96) (p : Nat), egDue s.ctx n = true ∧ s.now.egJudged n = false ∧ egEnding s.ctx n s.now = false ∧
      s.now.acted (EG.clearIn n) = false ∧ s.now.acted (EG.stopIn n) = false ∧ p = ((egTransfer s.ctx n s.now).egSt n).force.p ∧
      0x100 ≤ p) ∧
    (∃ (s : State) (n : Fin 96), egDue s.ctx n = true ∧ s.now.egJudged n = false ∧ egEnding s.ctx n s.now = false ∧
      s.now.egStarts n = false ∧ ((egTransfer s.ctx n s.now).egSt n).force.p < 0x100) ∧
    (∃ (s : State) (n : Fin 96) (p : Nat), egCentreDue s.ctx n s.now = some p) ∧
    (∃ (s : State) (n : Fin 96) (e : EgEdge), egDueEdge s.ctx n (egBoundary s.ctx n s.now) s.now = some e) ∧
    (∃ (s : State) (n : Fin 96) (p : Nat), s.start.on (F.EG_CTL_EN n) = true ∧ s.start.on (F.EG_CFG_CSRC n) = false ∧
      tickOf (s.start.egSt n).cmp.val < s.tick ∧ s.now.egJudged n = false ∧ egEnding s.ctx n s.now = false ∧
      s.now.acted (EG.clearIn n) = false ∧ s.now.acted (EG.stopIn n) = false ∧ s.now.on (F.EG_CFG_SKIP n) = false ∧
      p = ((egTransfer s.ctx n s.now).egSt n).force.p ∧ 0x100 ≤ p) ∧
    (∃ (s : State) (n : Fin 96) (p : Nat), s.start.on (F.EG_CTL_EN n) = true ∧ s.start.on (F.EG_CFG_CSRC n) = false ∧
      tickOf (s.start.egSt n).cmp.val < s.tick ∧ s.now.egJudged n = false ∧ egEnding s.ctx n s.now = false ∧
      s.now.on (F.EG_CFG_SKIP n) = true ∧ p = (s.now.egSt n).force.p ∧ 0x100 ≤ p) ∧
    (∃ (s : State) (n : Fin 96) (p : Nat), s.start.on (F.EG_CTL_EN n) = true ∧ s.start.on (F.EG_CFG_CSRC n) = false ∧
      tickOf (s.start.egSt n).cmp.val < s.tick ∧ s.now.egJudged n = false ∧ egEnding s.ctx n s.now = true ∧
      p = (s.now.egSt n).force.p ∧ 0x100 ≤ p) ∧
    (∃ (s : State) (n : Fin 96) (p : Nat) (x : Nat) (rest : List (Nat × Nat)), (s.now.egSt n).sched = (x, p) :: rest ∧
      tickOf x ≤ s.tick ∧ s.now.on (F.EG_CTL_EN n) = true ∧ (s.start.egSt n).stopPend = false ∧
      s.now.acted (EG.clearIn n) = false ∧ s.now.acted (EG.stopIn n) = false ∧ 0x100 ≤ p) ∧
    (∃ (s : State) (n : Fin 96), (s.now.egSt n).car.isSome = true ∧ s.now.emittedNow .eg n 0 = false ∧
      tickOf (egEndAt s.ctx n s.now) ≤ s.tick ∧ egEnding s.ctx n s.now = true ∧ s.now.egStarts n = false) ∧
    (∃ (s : State) (n : Fin 96), (s.now.egSt n).car.isSome = true ∧ s.now.emittedNow .eg n 0 = false ∧
      tickOf (egEndAt s.ctx n s.now) ≤ s.tick ∧ egEnding s.ctx n s.now = false ∧ s.now.egAlone n = true) :=
  ⟨⟨at0 fun b => ((b.put (F.EG_CTL_EN 95) 1).wr (R.EG_IVL 95) 0x100).setEg 95 { cmp := { val := 64063 } }, 95, 0x100,
        by decide +kernel⟩,
    ⟨at0 fun b => ((b.put (F.EG_CTL_EN 0) 1).wr (R.EG_IVL 0) 0xFF).setEg 0 { cmp := { val := 64000 } }, 0, by decide +kernel⟩,
    ⟨at0 fun b => b.setEg 7 { ctrVal := some 64001, car := some 60000 }, 7, 64001, by decide +kernel⟩,
    ⟨at0 fun b =>
        { (b.put (F.EG_CFG_DRV 7) 1).setEg 7 { car := some 63000, carEnd := 70000, cmp := { val := 70000 }, rawR := 64000, hOn := 64000, rawF := 65000, rawNone := false } with outputs := true }, 7, ⟨64000, 0, true⟩, by decide +kernel⟩,
    ⟨at0 fun b => ((b.put (F.EG_CTL_EN 1) 1).wr (R.EG_IVL 1) 0x100).setEg 1 { cmp := { val := 63001 } }, 1, 0x100,
        by decide +kernel⟩,
    ⟨at0 fun b => ((b.put (F.EG_CTL_EN 1) 1).put (F.EG_CFG_SKIP 1) 1).setEg 1 { cmp := { val := 63001 }, force := { p := 0x100 } },
        1, 0x100, by decide +kernel⟩,
    ⟨at0 fun b =>
        (b.put (F.EG_CTL_EN 1) 1).setEg 1 { cmp := { val := 63001 }, force := { p := 0x100 }, car := some 60000, last := true },
        1, 0x100, by decide +kernel⟩,
    ⟨at0 fun b => (b.put (F.EG_CTL_EN 3) 1).setEg 3 { sched := [(64005, 0x100)] }, 3, 0x100, 64005, [], by decide +kernel⟩,
    ⟨at0 fun b => (b.put (F.EG_CTL_EN 3) 1).setEg 3 { car := some 60000, cmp := { val := 64000 }, last := true }, 3,
        by decide +kernel⟩,
    ⟨at0 fun b => ((b.put (F.EG_CTL_EN 3) 1).put (F.EG_CFG_CSRC 3) 1).setEg 3 { car := some 60000, carEnd := 64000 }, 3,
        by decide +kernel⟩⟩

theorem test_hyp_EdgeGeneratorControlEffects :
    (∃ (s : State) (n : Fin 96) (ag : Agent), Reaches s ag (R.EG_CMPH n) ∧ s.now.on (F.EG_CFG_CSRC n) = false ∧
      s.now.egStarts n = false) ∧
    (∃ (s : State) (n : Fin 96) (x : Act), (s.now.fc.latched.find? (fun a => a.input == EG.startIn n && !a.done) = some x) ∧
      s.now.acted (EG.stopIn n) = false ∧ s.now.acted (EG.clearIn n) = false ∧ s.start.on (F.EG_CTL_EN n) = false ∧
      s.now.on (F.EG_CFG_CSRC n) = false ∧ s.now.egStartable s.hw n = true) ∧
    (∃ (s : State) (n : Fin 96), Waits s (EG.stopIn n) ∧ s.now.acted (EG.clearIn n) = false ∧ s.now.on (F.EG_CTL_EN n) = true ∧
      (s.now.egSt n).undo = none) ∧
    (∃ (s : State) (n : Fin 96) (u : EgUndo), Waits s (EG.stopIn n) ∧ s.now.acted (EG.clearIn n) = false ∧
      (s.now.egSt n).undo = some u ∧ bit u.ctl 0 = false) ∧
    (∃ (s : State) (n : Fin 96) (ag : Agent) (v : Word), Reaches s ag (R.EG_CTL n) ∧ s.start.on (F.EG_CTL_EN n) = true ∧
      s.now.on (F.EG_CTL_EN n) = true ∧ bit v.toNat 0 = false ∧ s.now.acted (EG.stopIn n) = false ∧
      s.now.acted (EG.clearIn n) = false ∧ (s.now.egSt n).undo = none) ∧
    (∃ (s : State) (n : Fin 96), Waits s (EG.loadIn n) ∧ s.now.acted (EG.clearIn n) = false ∧
      s.start.on (F.EG_CTL_HOLD n) = false ∧ s.now.on (F.EG_CTL_HOLD n) = false) ∧
    (∃ (s : State) (n : Fin 96), Waits s (EG.clearIn n)) ∧
    (∃ (s : State) (n : Fin 96) (ag : Agent) (k : Fin 7), Reaches s ag (shadowAddr n k) ∧ (k.val = 3 →
      s.start.dutyLocked s.hw n = false)) ∧
    (∃ (s : State) (n : Fin 96) (ag : Agent) (v : Word), Reaches s ag (R.EG_CTL n) ∧ s.start.on (F.EG_CTL_HOLD n) = true ∧
      s.now.on (F.EG_CFG_UPD n) = true ∧ bit v.toNat 1 = false ∧ bit v.toNat 0 = s.now.on (F.EG_CTL_EN n) ∧
      s.start.on (F.EG_CTL_EN n) = s.now.on (F.EG_CTL_EN n) ∧ s.now.acted (EG.stopIn n) = false ∧
      s.now.acted (EG.clearIn n) = false) ∧
    (∃ (s : State) (n : Fin 96) (d : Nat), (s.now.egSt n).safeDueH = some d ∧ d ≠ 0 ∧ tickOf d ≤ s.tick) ∧
    (∃ (s : State) (n : Fin 96) (d : Nat), (s.now.egSt n).safeDueL = some d ∧ d ≠ 0 ∧ tickOf d ≤ s.tick) ∧
    (∃ (s : State) (n : Fin 96) (d : Nat), (s.now.egSt n).idleDue = some d ∧ d ≤ s.tick) :=
  ⟨⟨at0 fun b => b.setEg 95 { cmp := { stL := 5, stF := 63 } }, 95, .engine 0, by decide +kernel⟩,
    ⟨st 1000 id (act (EG.startIn 0)), 0, ⟨EG.startIn 0, 0, none, false⟩, by decide +kernel⟩,
    ⟨st 1000 (fun b => b.put (F.EG_CTL_EN 2) 1) (act (EG.stopIn 2)), 2, by decide +kernel⟩,
    ⟨st 1000 id
        (fun
        b =>
        act
        (EG.stopIn
        2) ((b.put
        (F.EG_CTL_EN 2) 1).setEg 2 { cmp := { val := 64064 }, undo := some ⟨{ val := 5 }, false, false, false, 0, 0⟩ })), 2,
        ⟨{ val := 5 }, false, false, false, 0, 0⟩, by decide +kernel⟩,
    ⟨at0 fun b => (b.put (F.EG_CTL_EN 2) 1).setEg 2 { car := some 60000 }, 2, .boot, 0, by decide +kernel⟩,
    ⟨st 1000 (fun b => b.wr (R.EG_DUTY 9) 77) (act (EG.loadIn 9)), 9, by decide +kernel⟩,
    ⟨st 1000 (fun b => (b.put (F.EG_CTL_EN 9) 1).setEg 9 { car := some 60000, h := true }) (act (EG.clearIn 9)), 9,
        by decide +kernel⟩,
    ⟨at0 fun b => b.put (F.EG_CFG_UPD 4) 1, 4, .engine 0, 3, by decide +kernel⟩,
    ⟨at0 fun b => ((b.put (F.EG_CFG_UPD 4) 1).put (F.EG_CTL_HOLD 4) 1).wr (R.EG_RISE 4) 9, 4, .engine 0, 0, by decide +kernel⟩,
    ⟨at0 fun b => { (b.put (F.EG_CFG_DRV 4) 1).setEg 4 { forced := true, safeDueH := some 64063 } with outputs := true }, 4, 64063,
        by decide +kernel⟩,
    ⟨at0 fun b => { (b.put (F.EG_CFG_DRV 4) 1).setEg 4 { forced := true, safeDueL := some 64063 } with outputs := true }, 4, 64063,
        by decide +kernel⟩,
    ⟨at0 fun b => { (b.put (F.EG_CFG_DRV 4) 1).setEg 4 { idleDue := some 1000 } with outputs := true }, 4, 1000, by decide +kernel⟩⟩

theorem test_hyp_TripGroupEffects :
    (∃ (s : State) (g : Fin 32) (code : Fin 80) (high : Bool), s.start.on (F.TG_CTL_EN g) = true ∧ s.now.tgTakes g code = true ∧
      (code.val < 64 → s.now.asyncSrc.contains code.val = true) ∧ (64 ≤ code.val →
      high = bit (s.now.get (F.TG_BALL_TPOL g)) (code.val - 64)) ∧ s.start.on (F.TG_STAT_TRIPPED g) = false ∧
      s.now.on (F.TG_STAT_TRIPPED g) = false) ∧
    (∃ (s : State) (g : Fin 32), s.now.tgSyncTime g s.tick = true ∧ s.now.on (F.TG_STAT_TRIPPED g) = false) ∧
    (∃ (s : State) (g : Fin 32) (ag : Agent) (v : Word), Reaches s ag (R.TG_CTL g) ∧ s.start.on (F.TG_CTL_EN g) = true ∧
      s.start.on (F.TG_STAT_TRIPPED g) = false ∧ s.now.on (F.TG_STAT_TRIPPED g) = false ∧ bit v.toNat 2 = true ∧
      bit v.toNat 3 = false) ∧
    (∃ (s : State) (g : Fin 32), Waits s (TG.tripIn g) ∧ s.start.on (F.TG_CTL_EN g) = true ∧
      s.start.on (F.TG_STAT_TRIPPED g) = false ∧ s.now.on (F.TG_STAT_TRIPPED g) = false) ∧
    (∃ (s : State) (g : Fin 32), Waits s (TG.tripIn g) ∧ s.start.on (F.TG_CTL_EN g) = true ∧
      s.start.on (F.TG_STAT_TRIPPED g) = false ∧ s.now.on (F.TG_STAT_TRIPPED g) = true) ∧
    (∃ (s : State) (g : Fin 32) (ag : Agent) (v : Word), Reaches s ag (R.TG_CTL g) ∧ s.start.on (F.TG_STAT_TRIPPED g) = true ∧
      s.now.tgBusy s.ctx g = false ∧ bit v.toNat 2 = false ∧ bit v.toNat 3 = true) ∧
    (∃ (s : State) (g : Fin 32) (ag : Agent) (v : Word), Reaches s ag (R.TG_CTL g) ∧ s.start.on (F.TG_STAT_TRIPPED g) = true ∧
      s.now.on (F.TG_STAT_TRIPPED g) = true ∧ s.now.tgBusy s.ctx g = true ∧ bit v.toNat 2 = false ∧ bit v.toNat 3 = true) ∧
    (∃ (s : State) (g : Fin 32) (ag : Agent) (v : Word), Reaches s ag (R.TG_CTL g) ∧ s.start.on (F.TG_CTL_EN g) = true ∧
      s.start.on (F.TG_STAT_TRIPPED g) = true ∧ s.now.on (F.TG_STAT_TRIPPED g) = true ∧ bit v.toNat 2 = true ∧
      bit v.toNat 3 = true) ∧
    (∃ (code : Fin 80), 64 ≤ code.val) ∧
    (∃ (code : Fin 80), code.val < 64) :=
  ⟨⟨at0 fun b => ((b.put (F.TG_CTL_EN 31) 1).put (F.TG_BALL_TEN 31) 0x8000).put (F.TG_BALL_TPOL 31) 0x8000, 31, 79, true,
        by decide +kernel⟩,
    ⟨at0 fun b => b.setTg 0 { pend := some 994, qual := [9, 64] }, 0, by decide +kernel⟩,
    ⟨at0 fun b => b.put (F.TG_CTL_EN 31) 1, 31, .engine 0, 5, by decide +kernel⟩,
    ⟨st 1000 (fun b => b.put (F.TG_CTL_EN 1) 1) (act (TG.tripIn 1)), 1, by decide +kernel⟩,
    ⟨st 1000 (fun b => b.put (F.TG_CTL_EN 1) 1) (fun b => act (TG.tripIn 1)
        ((b.put (F.TG_STAT_TRIPPED 1) 1).put (F.TG_FIRST_CODE 1) 0x60)), 1, by decide +kernel⟩,
    ⟨at0 fun b => (b.put (F.TG_CTL_EN 1) 1).put (F.TG_STAT_TRIPPED 1) 1, 1, .engine 0, 9, by decide +kernel⟩,
    ⟨at0 fun b => { ((b.put (F.TG_CTL_EN 1) 1).put (F.TG_STAT_TRIPPED 1) 1).wr (R.TG_ACLO 1) 1 with asyncSrc := [0] }, 1, .engine 0,
        9, by decide +kernel⟩,
    ⟨at0 fun b => (b.put (F.TG_CTL_EN 1) 1).put (F.TG_STAT_TRIPPED 1) 1, 1, .engine 0, 13, by decide +kernel⟩,
    ⟨79, by decide +kernel⟩,
    ⟨3, by decide +kernel⟩⟩

theorem test_hyp_TripForcesMembers :
    (∃ (s : State) (g : Fin 32) (code : Fin 80) (high : Bool), s.start.on (F.TG_CTL_EN g) = true ∧ s.now.tgTakes g code = true ∧
      (code.val < 64 → s.now.asyncSrc.contains code.val = true) ∧ (64 ≤ code.val →
      high = bit (s.now.get (F.TG_BALL_TPOL g)) (code.val - 64)) ∧ s.start.on (F.TG_STAT_TRIPPED g) = false) ∧
    (∃ (s : State) (g : Fin 32), s.now.tgSyncTime g s.tick = true ∧ s.now.on (F.TG_STAT_TRIPPED g) = false) ∧
    (∃ (s : State) (g : Fin 32), s.now.on (F.TG_STAT_TRIPPED g) = true ∧ (s.now.tgSt g).wait = some (s.tick + 1)) :=
  ⟨⟨at0 fun b => (((b.put (F.TG_CTL_EN 31) 1).put (F.TG_BALL_TEN 31) 0x8000).wr (R.TG_MEG 31 2) 0x80000000).put (F.TG_MHL_HL 31)
        0x8000, 31, 79, false, by decide +kernel⟩,
    ⟨at0 fun b => ((b.setTg 0 { pend := some 990, qual := [9] }).wr (R.TG_MEG 0 0) 1).put (F.TG_MHL_HL 0) 1, 0, by decide +kernel⟩,
    ⟨at0 fun b => (b.setTg 0 { wait := some 1001 }).put (F.TG_STAT_TRIPPED 0) 1, 0, by decide +kernel⟩⟩

theorem test_hyp_LoopLaneTriggerEffects :
    (∃ (s : State) (n : Fin 96), (s.now.llSt n).trigDue s.tick = true ∧ s.start.on (F.LL_CTL_RUN n) = true ∧
      s.now.laneTripped n = true) ∧
    (∃ (s : State) (n : Fin 96), (s.now.llSt n).trigDue s.tick = true ∧ s.start.on (F.LL_CTL_RUN n) = false) ∧
    (∃ (s : State) (n : Fin 96), (s.now.llSt n).trigDue s.tick = true ∧ s.start.on (F.LL_CTL_RUN n) = true ∧
      s.now.laneTripped n = false ∧ s.now.laneInputNow s.tick n = false ∧ s.now.laneRunning s.tick n = true) ∧
    (∃ (s : State) (n : Fin 96), (s.now.llSt n).trigDue s.tick = true ∧ s.start.on (F.LL_CTL_RUN n) = true ∧
      s.now.laneTripped n = false ∧ s.now.laneInputNow s.tick n = true) ∧
    (∃ (s : State) (n : Fin 96) (u : Nat), (s.now.llSt n).trigDue s.tick = true ∧ s.start.on (F.LL_CTL_RUN n) = true ∧
      s.now.laneTripped n = false ∧ s.now.laneInputNow s.tick n = false ∧ s.now.laneRunning s.tick n = false ∧
      s.now.on (F.LL_CFG_LAW n) = false ∧ s.now.on (F.LL_CTL_KSWAP n) = false ∧ u = s.now.get (F.LL_CFG_LU n)) ∧
    (∃ (s : State) (n : Fin 96) (u : Nat), (s.now.llSt n).trigDue s.tick = true ∧ s.start.on (F.LL_CTL_RUN n) = true ∧
      s.now.laneTripped n = false ∧ s.now.laneInputNow s.tick n = false ∧ s.now.laneRunning s.tick n = false ∧
      s.now.on (F.LL_CFG_LAW n) = false ∧ s.now.on (F.LL_CTL_KSWAP n) = true ∧ u = s.now.get (F.LL_CFG_LU n)) ∧
    (∃ (s : State) (n : Fin 96), (s.now.llSt n).trigDue s.tick = true ∧ s.start.on (F.LL_CTL_RUN n) = true ∧
      s.now.laneTripped n = false ∧ s.now.laneInputNow s.tick n = false ∧ s.now.laneRunning s.tick n = false ∧
      s.now.on (F.LL_CFG_LAW n) = true) ∧
    (∃ (s : State) (n : Fin 96), (s.now.llSt n).held = true ∧ ((s.now.llSt n).runEnd.all (fun e => e < s.tick) = true) ∧
      s.start.on (F.LL_CTL_RUN n) = true ∧ s.now.laneTripped n = false) ∧
    (∃ (s : State) (n : Fin 96), (s.now.llSt n).held = true ∧ ((s.now.llSt n).runEnd.all (fun e => e < s.tick) = true) ∧
      s.start.on (F.LL_CTL_RUN n) = true ∧ s.now.laneTripped n = true) ∧
    (∃ (s : State) (n : Fin 96), (s.now.llSt n).held = true ∧ ((s.now.llSt n).runEnd.all (fun e => e < s.tick) = true) ∧
      s.start.on (F.LL_CTL_RUN n) = false) :=
  ⟨⟨at0 fun b => (((((b.put (F.LL_CTL_RUN 5) 1).put (F.LL_OUT_V0 5) 1).put (F.LL_OUT_EG0 5) 95).put (F.TG_STAT_TRIPPED 31) 1).wr
        (R.TG_MEG 31 2) 0x80000000).setLl 5 { trigs := [1000, 1001] }, 5, by decide +kernel⟩,
    ⟨at0 fun b => b.setLl 5 { trigs := [1000] }, 5, by decide +kernel⟩,
    ⟨at0 fun b => (b.put (F.LL_CTL_RUN 95) 1).setLl 95 { trigs := [1000], runEnd := some 1001, held := true }, 95,
        by decide +kernel⟩,
    ⟨at0 fun b => (b.put (F.LL_CTL_RUN 95) 1).setLl 95 { trigs := [1000], runEnd := some 1000 }, 95, by decide +kernel⟩,
    ⟨at0 fun b => (((b.put (F.LL_CTL_RUN 3) 1).put (F.LU_CFG_LEN 31) 1).put (F.LL_CFG_LU 3) 31).wr (R.LU_P 31 0) 0x28080000 |>.setLl
        3 { trigs := [999], src := [1, 2, 3, 4] }, 3, 31, by decide +kernel⟩,
    ⟨at0 fun b => (((b.put (F.LL_CTL_RUN 3) 1).put (F.LL_CTL_KSWAP 3) 1).wr (R.LU_K 0 15) 7).setLu 0 { kAct := [(0, 9)] } |>.setLl 3
        { trigs := [999] }, 3, 0, by decide +kernel⟩,
    ⟨at0 fun b => (((b.put (F.LL_CTL_RUN 3) 1).put (F.LL_CFG_LAW 3) 1).wr (R.LL_STAT 3) 0xFF00FFFF).setLl 3
        { trigs := [999], tripDrop := true }, 3, by decide +kernel⟩,
    ⟨at0 fun b => (b.put (F.LL_CTL_RUN 3) 1).setLl 3 { held := true, runEnd := some 999, src := [5, 6, 7, 8] }, 3,
        by decide +kernel⟩,
    ⟨at0 fun b => (((((b.put (F.LL_CTL_RUN 5) 1).put (F.LL_OUT_V0 5) 1).put (F.LL_OUT_EG0 5) 95).put (F.TG_STAT_TRIPPED 31) 1).wr
        (R.TG_MEG 31 2) 0x80000000).setLl 5 { held := true }, 5, by decide +kernel⟩,
    ⟨at0 fun b => b.setLl 5 { held := true }, 5, by decide +kernel⟩⟩

theorem test_hyp_LoopLaneOutputEffects :
    (∃ (s : State) (n : Fin 96), ((s.now.llSt n).yDue.any (fun d => d ≤ s.tick) = true)) ∧
    (∃ (s : State) (n : Fin 96) (ag : Agent) (v : Word), Reaches s ag (R.LL_CTL n) ∧ bit v.toNat 2 = true ∧
      (bit v.toNat 3 = false ∨ s.now.on (F.LL_CFG_LAW n) = true)) ∧
    (∃ (s : State) (n : Fin 96) (ag : Agent) (v : Word) (u : Nat), Reaches s ag (R.LL_CTL n) ∧ bit v.toNat 3 = true ∧
      s.now.on (F.LL_CFG_EN n) = true ∧ s.now.on (F.LL_CFG_LAW n) = false ∧ u = s.now.get (F.LL_CFG_LU n) ∧
      s.now.laneRunning s.tick n = false) ∧
    (∃ (s : State) (n : Fin 96) (ag : Agent) (v : Word), Reaches s ag (R.LL_CTL n) ∧ bit v.toNat 3 = true ∧
      s.now.on (F.LL_CFG_EN n) = true ∧ s.now.on (F.LL_CFG_LAW n) = false ∧ s.now.laneRunning s.tick n = true) ∧
    (∃ (s : State) (n : Fin 96) (ag : Agent), Reaches s ag (R.LL_CTL n) ∧
      (s.now.on (F.LL_CFG_EN n) = false ∨ s.now.on (F.LL_CFG_LAW n) = true)) ∧
    (∃ (s : State) (ag : Agent) (u : Fin 32) (k : Fin 8), Reaches s ag (R.LU_S u k) ∧ s.now.laneOfLu s.hw u = none) ∧
    (∃ (s : State) (n : Fin 96) (ag : Agent) (u : Fin 32) (k : Fin 8), Reaches s ag (R.LU_S u k) ∧
      s.now.laneOfLu s.hw u = some n.val ∧ s.now.laneRunning s.tick n = false) ∧
    (∃ (s : State) (n : Fin 96) (ag : Agent) (u : Fin 32) (k : Fin 8), Reaches s ag (R.LU_S u k) ∧
      s.now.laneOfLu s.hw u = some n.val ∧ s.now.laneRunning s.tick n = true) ∧
    (∃ (s : State) (n : Fin 96) (u : Nat), (s.now.llSt n).defer.isEmpty = false ∧
      ((s.now.llSt n).runEnd.all (fun e => e < s.tick) = true) ∧ u = s.now.get (F.LL_CFG_LU n)) ∧
    (∃ (s : State) (n : Fin 96) (v : Word) (u : Nat) (k : Fin 8), (s.now.llSt n).defer = [⟨false, k.val, v.toNat⟩] ∧
      ((s.now.llSt n).runEnd.all (fun e => e < s.tick) = true) ∧ u = s.now.get (F.LL_CFG_LU n)) ∧
    (∃ (s : State) (n : Fin 96) (e : Nat) (k : Nat) (y : LaneSnap) (rest : List LaneSnap), e = s.now.laneEng n ∧
      k = s.now.get (F.LL_CFG_TASK n) ∧ (s.now.llSt n).heldSnap = none ∧ (s.now.llSt n).toEngine = y :: rest ∧ y.due ≤ s.tick ∧
      s.now.lawOpen s.tick e k = true ∧ ((s.now.taskSt e k).linFree = true ∧ (s.now.taskSt e k).waited = true)) ∧
    (∃ (s : State) (n : Fin 96) (e : Nat) (k : Nat) (y : LaneSnap), e = s.now.laneEng n ∧ k = s.now.get (F.LL_CFG_TASK n) ∧
      (s.now.llSt n).heldSnap = some y ∧ s.now.lawOpen s.tick e k = true ∧ (s.now.taskSt e k).linFree = true ∧
      ((s.now.taskSt e k).waitAt.all (fun w => w < s.tick) = true)) ∧
    (∃ (s : State) (n : Fin 96) (e : Nat) (k : Nat) (y : LaneSnap) (rest : List LaneSnap), e = s.now.laneEng n ∧
      k = s.now.get (F.LL_CFG_TASK n) ∧ (s.now.llSt n).heldSnap = none ∧ (s.now.llSt n).toEngine = y :: rest ∧ y.due ≤ s.tick ∧
      (s.now.lawOpen s.tick e k && (s.now.taskSt e k).linFree && (s.now.taskSt e k).waited) = false) ∧
    (∃ (s : State) (n : Fin 96) (e : Nat) (k : Nat) (y : LaneSnap) (rest : List LaneSnap), e = s.now.laneEng n ∧
      k = s.now.get (F.LL_CFG_TASK n) ∧ (s.now.llSt n).heldSnap.isSome = true ∧ (s.now.llSt n).toEngine = y :: rest ∧
      y.due ≤ s.tick ∧
      ((s.now.lawOpen s.tick e k && (s.now.taskSt e k).linFree && (s.now.taskSt e k).waitAt.all fun w => w < s.tick) = false)) ∧
    (∃ (s : State) (n : Fin 96) (y : LaneCommit) (rest : List LaneCommit), (s.now.llSt n).commits = y :: rest ∧ y.due ≤ s.tick ∧
      y.eng = s.now.laneEng n) ∧
    (∃ (s : State) (n : Fin 96) (y : LaneCommit) (rest : List LaneCommit), (s.now.llSt n).commits = y :: rest ∧ y.due ≤ s.tick ∧
      y.eng ≠ s.now.laneEng n) ∧
    (∃ (s : State) (n : Fin 96) (y : LaneCommit) (rest : List LaneCommit), (s.now.llSt n).duties = y :: rest ∧ y.due ≤ s.tick) :=
  ⟨⟨at0 fun b => (((b.put (F.LL_OUT_V2 5) 1).put (F.LL_OUT_EG2 5) 95).put (F.LL_CFG_BIP 5) 1).setLu 0 { ys := [1, 2, 0x80000000] }
        |>.setLl 5 { yDue := [1000] }, 5, by decide +kernel⟩,
    ⟨at0 id, 95, .engine 0, 5, by decide +kernel⟩,
    ⟨at0 fun b => (((b.wr (R.LU_S 0 7) 7).put (F.LL_CFG_EN 5) 1).setLu 0 { acc := 9 }).setLl 5 { runEnd := some 999 }, 5, .engine 0,
        9, 0, by decide +kernel⟩,
    ⟨at0 fun b => (b.put (F.LL_CFG_EN 5) 1).setLl 5 { runEnd := some 1001 }, 5, .engine 0, 9, by decide +kernel⟩,
    ⟨at0 fun b => (b.wr (R.LU_S 0 7) 7).setLu 0 { acc := 9 }, 5, .engine 0, by decide +kernel⟩,
    ⟨at0 id, .engine 0, 31, 7, by decide +kernel⟩,
    ⟨at0 fun b => ((b.put (F.LL_CFG_EN 5) 1).put (F.LL_CFG_LU 5) 31).setLl 5 { runEnd := some 1000 }, 5, .engine 0, 31, 7,
        by decide +kernel⟩,
    ⟨at0 fun b => (((b.put (F.LL_CFG_EN 5) 1).put (F.LL_CFG_LU 5) 31).put (F.LU_CFG_LEN 31) 9).setLl 5 { runEnd := some 1003 }, 5,
        .engine 0, 31, 7, by decide +kernel⟩,
    ⟨at0 fun b => b.setLl 5 { defer := [⟨true, 0, 0⟩, ⟨false, 3, 77⟩], runEnd := some 999 }, 5, 0, by decide +kernel⟩,
    ⟨at0 fun b => b.setLl 5 { defer := [⟨false, 3, 77⟩], runEnd := some 999 }, 5, 77, 0, 3, by decide +kernel⟩,
    ⟨at0 fun b => ((b.put (F.LL_CFG_ENG 5) 255).put (F.LL_CFG_TASK 5) 63).setLl 5
        { toEngine := [⟨1000, [1, 2, 3, 4], 5, 6⟩], tripDrop := true }, 5, 255, 63, ⟨1000, [1, 2, 3, 4], 5, 6⟩, [],
        by decide +kernel⟩,
    ⟨at0 fun b => ((b.put (F.LL_CFG_ENG 5) 255).put (F.LL_CFG_TASK 5) 63).setLl 5 { heldSnap := some ⟨1000, [1, 2, 3, 4], 5, 6⟩ },
        5, 255, 63, ⟨1000, [1, 2, 3, 4], 5, 6⟩, by decide +kernel⟩,
    ⟨at0 fun b => b.setTask 0 0 { waited := false } |>.setLl 5 { toEngine := [⟨1000, [1, 2, 3, 4], 5, 6⟩] }, 5, 0, 0,
        ⟨1000, [1, 2, 3, 4], 5, 6⟩, [], by decide +kernel⟩,
    ⟨at0 fun b =>
        b.setTask
        0 0
        { linFree := false }
        |>.setLl 5 { toEngine := [⟨1000, [1, 2, 3, 4], 5, 6⟩], heldSnap := some ⟨900, [1, 2, 3, 4], 5, 5⟩ }, 5, 0, 0,
        ⟨1000, [1, 2, 3, 4], 5, 6⟩, [], by decide +kernel⟩,
    ⟨at0 fun b => b.setLl 5 { commits := [⟨0, 1000, [1, 2, 3], [4, 5, 6, 7]⟩] }, 5, ⟨0, 1000, [1, 2, 3], [4, 5, 6, 7]⟩, [],
        by decide +kernel⟩,
    ⟨at0 fun b => b.setLl 5 { commits := [⟨7, 1000, [1, 2, 3], [4, 5, 6, 7]⟩] }, 5, ⟨7, 1000, [1, 2, 3], [4, 5, 6, 7]⟩, [],
        by decide +kernel⟩,
    ⟨at0 fun b => ((b.put (F.LL_OUT_V2 5) 1).put (F.LL_OUT_EG2 5) 9).setLl 5 { duties := [⟨0, 1000, [1, 2, 3], [4, 5, 6, 7]⟩] }, 5,
        ⟨0, 1000, [1, 2, 3], [4, 5, 6, 7]⟩, [], by decide +kernel⟩⟩

theorem test_hyp_ConverterAndComparatorEffects :
    (∃ (s : State) (n : Fin 32), Waits s (AD.startIn n) ∧ s.now.acted (AD.stopIn n) = false ∧
      s.start.on (F.AD_CTL_EN n) = true ∧ s.now.on (F.AD_STAT_PEND n) = false ∧ (s.now.adSt n).conv = none ∧
      (s.now.adSt n).seqRun = false ∧ s.now.get (F.AD_CFG_MODE n) ≠ 3) ∧
    (∃ (s : State) (n : Fin 32), Waits s (AD.startIn n) ∧ s.now.acted (AD.stopIn n) = false ∧
      s.start.on (F.AD_CTL_EN n) = true ∧ s.now.on (F.AD_STAT_PEND n) = false ∧ (s.now.adSt n).conv.isSome = true ∧
      s.now.get (F.AD_CFG_MODE n) ≠ 2) ∧
    (∃ (s : State) (n : Fin 32) (ag : Agent) (v : Word), Reaches s ag (R.AD_CTL n) ∧ bit v.toNat 0 = true ∧
      bit v.toNat 1 = true ∧ bit v.toNat 2 = false ∧ (s.start.on (F.AD_CTL_EN n) = true → s.now.acted (AD.startIn n) = false) ∧
      s.now.acted (AD.stopIn n) = false ∧ s.now.on (F.AD_STAT_PEND n) = false ∧ (s.now.adSt n).conv = none ∧
      s.now.get (F.AD_CFG_MODE n) = 0) ∧
    (∃ (s : State) (n : Fin 32) (x : AdConv) (y : Volts) (code : Nat) (pin : Nat) (left : List Nat), (s.now.adSt n).conv = some
        x ∧
      x.endAt ≤ s.tick ∧ pin = bits x.word 6 0 ∧ pin < nAIN s.hw ∧
      (code = if y.v.toInt < 0 then 0 else if y.vref.toInt ≤ y.v.toInt then 0xFFFF else
        (y.v.toInt * 65536 / y.vref.toInt).toNat) ∧
      (left = if (s.now.adSt n).flush then [] else (s.now.adSt n).fifo.drop (s.now.fc.reads.count (R.AD_FIFO n)))) ∧
    (∃ (s : State) (n : Fin 32), Waits s (AD.stopIn n) ∧ s.now.get (F.AD_CFG_MODE n) ≠ 3 ∧ (s.now.adSt n).slostNow = false ∧
      s.now.adLatched s.ctx n = false) ∧
    (∃ (s : State) (n : Fin 32), Waits s (AD.stopIn n) ∧ s.now.get (F.AD_CFG_MODE n) ≠ 3 ∧ (s.now.adSt n).slostNow = false ∧
      s.now.adLatched s.ctx n = true) ∧
    (∃ (s : State) (n : Fin 32) (ag : Agent) (v : Word), Reaches s ag (R.AD_CTL n) ∧ bit v.toNat 0 = false ∧
      bit v.toNat 2 = false ∧ s.start.on (F.AD_CTL_EN n) = true ∧ s.now.acted (AD.stopIn n) = false ∧
      s.now.adLatched s.ctx n = false) ∧
    (∃ (s : State) (n : Fin 32), Waits s (AD.flushIn n)) ∧
    (∃ (s : State) (n : Fin 32) (ag : Agent) (v : Word), Reaches s ag (R.AD_CTL n) ∧
      bit v.toNat 0 = s.start.on (F.AD_CTL_EN n) ∧ bit v.toNat 1 = false ∧ bit v.toNat 2 = true ∧
      s.now.acted (AD.flushIn n) = false) ∧
    (∃ (s : State) (n : Fin 32) (k : Nat), n.val < nAD s.hw ∧ k = s.now.fc.reads.count (R.AD_FIFO n)) ∧
    (∃ (s : State) (n : Fin 64) (x : Volts) (on : Bool), on = (s.start.acLive s.hw n && acLevel (s.start.on (F.AC_CFG_POL n))
        (s.now.acSt n).raw x.v.toInt x.vref.toInt (s.start.acDacv n) (s.start.acHys n))) ∧
    (∃ (s : State) (n : Fin 64), n.val < nAC s.hw ∧ s.now.on (F.AC_STAT_OUT n) = false ∧ s.now.acFollows s.ctx n true = true) ∧
    (∃ (s : State) (n : Fin 64), n.val < nAC s.hw ∧ s.now.on (F.AC_STAT_OUT n) = true ∧ s.now.acFollows s.ctx n false = true) ∧
    (∃ (s : State) (n : Fin 64), Waits s (AC.rampIn n)) ∧
    (∃ (s : State) (n : Fin 64), Waits s (AC.blankIn n) ∧ s.start.get (F.AC_BLK_BLK n) ≠ 0) ∧
    (∃ (s : State) (n : Fin 64), (s.start.acSt n).blankEnd ≠ 0 ∧ (s.start.acSt n).blankEnd < s.tick ∧
      s.start.on (F.AC_STAT_OUT n) = true ∧ (s.start.acSt n).asserted = false ∧ s.now.emittedNow .ac n 0 = false) :=
  ⟨⟨st 1000 (fun b => (b.put (F.AD_CTL_EN 31) 1).put (F.AD_STAT_PTR 31) 7 |>.wr (R.AD_SEQ 31 7) 9) (act (AD.startIn 31)), 31,
        by decide +kernel⟩,
    ⟨st 1000 (fun b => (b.put (F.AD_CTL_EN 31) 1).setAd 31 { conv := some ⟨0, 0, 1010⟩ }) (act (AD.startIn 31)), 31,
        by decide +kernel⟩,
    ⟨at0 id, 0, .engine 0, 3, by decide +kernel⟩,
    ⟨at0 fun b => b.setAd 4 { conv := some ⟨0, 95, 1000⟩, fifo := [1, 2] }, 4, ⟨0, 95, 1000⟩, ⟨900000000, 1800000000⟩, 0x8000, 95,
        [1, 2], by decide +kernel⟩,
    ⟨st 1000 (fun b => (b.put (F.AD_STAT_PEND 31) 1).setAd 31 { conv := some ⟨0, 0, 1010⟩ }) (act (AD.stopIn 31)), 31,
        by decide +kernel⟩,
    ⟨st 1000 (fun b => b.setAd 31 { conv := some ⟨0, 0, 1080⟩ }) (act (AD.stopIn 31)), 31, by decide +kernel⟩,
    ⟨at0 fun b => (b.put (F.AD_CTL_EN 31) 1).put (F.AD_STAT_PEND 31) 1, 31, .engine 0, 0, by decide +kernel⟩,
    ⟨st 1000 (fun b => b.setAd 31 { fifo := [1, 2] }) (act (AD.flushIn 31)), 31, by decide +kernel⟩,
    ⟨at0 fun b => b.setAd 31 { fifo := [1, 2] }, 31, .boot, 4, by decide +kernel⟩,
    ⟨at0 fun b => b.setAd 31 { fifo := [0x80000001, 2] }, 31, 0, by decide +kernel⟩,
    ⟨at0 fun b => (b.put (F.AC_CFG_EN 63) 1).put (F.AC_REF_REF 63) 0x800, 63, ⟨900000001, 1800000000⟩, true, by decide +kernel⟩,
    ⟨at0 fun b => (b.put (F.AC_CNT_CNT 63) 0xFFFF).setAc 63 { past := [false, false, true] }, 63, by decide +kernel⟩,
    ⟨at0 fun b => (b.put (F.AC_STAT_OUT 0) 1).setAc 0 { asserted := true }, 0, by decide +kernel⟩,
    ⟨st 1000 (fun b => (b.put (F.AC_CTL_RMODE 9) 1).put (F.AC_REF_REF 9) 0xFFF) (act (AC.rampIn 9)), 9, by decide +kernel⟩,
    ⟨st 1000 (fun b => b.put (F.AC_BLK_BLK 9) 5) (act (AC.blankIn 9)), 9, by decide +kernel⟩,
    ⟨at0 fun b => (b.put (F.AC_STAT_OUT 9) 1).setAc 9 { blankEnd := 999 }, 9, by decide +kernel⟩⟩

theorem test_hyp_DemodulatorEffects :
    (∃ (s : State) (n : Fin 32) (up : Bool), sdRuns s.ctx n = true ∧ s.now.sdCompletes n = true ∧
      s.now.sdOrd n ≤ (s.now.sdSt n).got + 1 ∧ sdEdge s.ctx n up s.now = true) ∧
    (∃ (s : State) (n : Fin 32) (up : Bool), sdRuns s.ctx n = true ∧ s.now.sdCompletes n = false ∧
      sdEdge s.ctx n up s.now = true) ∧
    (∃ (s : State) (n : Fin 32), Waits s (SD.syncIn n) ∧ s.start.on (F.SD_CTL_EN n) = true) ∧
    (∃ (s : State) (n : Fin 32), sdRuns s.ctx n = true ∧ s.now.on (F.SD_CFG_CLKO n) = false ∧ (s.now.sdSt n).loss = false ∧
      (s.now.sdSt n).lastEdge + 1024 ≤ s.tick) ∧
    (∃ (s : State) (n : Fin 32) (up : Bool), sdRuns s.ctx n = true ∧ (s.now.sdSt n).loss = true ∧ s.now.sdCompletes n = false ∧
      sdEdge s.ctx n up s.now = true) ∧
    (∃ (s : State) (n : Fin 32) (ag : Agent) (v : Word), Reaches s ag (R.SD_CTL n) ∧ bit v.toNat 0 = true ∧
      s.now.on (F.SD_CTL_EN n) = false) ∧
    (∃ (s : State) (n : Fin 32), n.val < nAD s.hw ∧ s.now.emittedNow .sd n 0 = false) :=
  ⟨⟨at0 fun b => (((b.put (F.SD_CTL_EN 31) 1).put (F.SD_CFG_DEC 31) 16).put (F.SD_CFG_SCL 31) 12).setSd 31
        { integ := [5, -7, 900, 0], comb := [3, 4, 5, 6], cnt := 15, got := 9 }, 31, true, by decide +kernel⟩,
    ⟨at0 fun b => (b.put (F.SD_CTL_EN 31) 1).put (F.SD_CFG_DEC 31) 16, 31, true, by decide +kernel⟩,
    ⟨st 1000 (fun b => (b.put (F.SD_CTL_EN 31) 1).setSd 31 { cnt := 9 }) (act (SD.syncIn 31)), 31, by decide +kernel⟩,
    ⟨st 1024 (fun b => b.put (F.SD_CTL_EN 31) 1) id, 31, by decide +kernel⟩,
    ⟨at0 fun b => ((b.put (F.SD_CTL_EN 31) 1).put (F.SD_CFG_DEC 31) 16).setSd 31 { loss := true }, 31, true, by decide +kernel⟩,
    ⟨at0 fun b => b.put (F.SD_CFG_DEC 31) 16, 31, .engine 0, 1, by decide +kernel⟩,
    ⟨at0 fun b => (b.put (F.SD_STAT_NEW 31) 1).wr (R.SD_RES 31) 0x80000000, 31, by decide +kernel⟩⟩

theorem test_hyp_HeadLaneStartEffects :
    (∃ (s : State) (n : Fin 16) (x : Act) (stamp : Nat), (s.now.fc.latched.find? (fun a => a.input == HL.startIn n && !a.done) =
        some x) ∧
      stamp = (s.tick + 2) * 64 + x.fine.getD 0 ∧ s.now.firePending s.ctx n = false ∧ s.start.on (F.HL_CTL_EN n) = true ∧
      s.now.acted (HL.abortIn n) = false ∧ (s.now.hlSt n).forced = false ∧
      s.start.hlValid n (s.start.get (F.HL_CTL_WSEL n)) = true ∧ (s.now.hlSt n).queue.length < 4 ∧
      (s.now.hlSt n).lastEnd ≤ stamp) ∧
    (∃ (s : State) (n : Fin 16) (f : FireToLane), (s.now.fires.find? (fun f => f.lane == n.val && f.due ≤ s.tick) = some f) ∧
      s.start.on (F.HL_CTL_EN n) = true ∧ s.now.acted (HL.abortIn n) = false ∧ (s.now.hlSt n).forced = false ∧
      s.start.hlValid n f.wsel = true ∧ (s.tick + 2) * 64 ≤ f.stamp ∧ (s.now.hlSt n).queue.length < 4 ∧
      (s.now.hlSt n).lastEnd ≤ f.stamp) ∧
    (∃ (s : State) (n : Fin 16) (ag : Agent) (v : Word) (w : Nat), Reaches s ag (R.HL_CTL n) ∧ bit v.toNat 0 = true ∧
      bit v.toNat 1 = true ∧ bit v.toNat 2 = false ∧ w = bits v.toNat 6 4 ∧ s.now.on (F.HL_CTL_EN n) = true ∧
      s.now.acted (HL.startIn n) = false ∧ s.now.acted (HL.abortIn n) = false ∧ (s.now.hlSt n).forced = false ∧
      s.start.hlValid n w = true ∧ (s.now.hlSt n).queue.length < 4 ∧ (s.now.hlSt n).lastEnd ≤ (s.tick + 2) * 64) ∧
    (∃ (s : State) (n : Fin 16) (q : HlStart) (rest : List HlStart), (s.now.hlSt n).queue = q :: rest ∧ tickOf q.stamp ≤ s.tick) ∧
    (∃ (s : State) (n : Fin 16) (w : HlWave), ((s.now.hlSt n).waves.find? (fun w => !w.ended && tickOf w.e ≤ s.tick) = some w)) ∧
    (∃ (s : State) (n : Fin 16), Waits s (HL.abortIn n)) ∧
    (∃ (s : State) (n : Fin 16) (ag : Agent) (v : Word), Reaches s ag (R.HL_CTL n) ∧ bit v.toNat 0 = s.now.on (F.HL_CTL_EN n) ∧
      bit v.toNat 1 = false ∧ bit v.toNat 2 = true ∧ s.now.acted (HL.abortIn n) = false) ∧
    (∃ (s : State) (n : Fin 16) (ag : Agent) (k : Fin 1024), Reaches s ag (R.HLPT_DUR n k)) ∧
    (∃ (s : State) (n : Fin 16) (ag : Agent) (k : Fin 1024), Reaches s ag (R.HLPT_LVL n k)) ∧
    (∃ (s : State) (n : Fin 16) (ag : Agent) (k : Fin 8), Reaches s ag (R.HL_WF n k)) :=
  ⟨⟨st 1000 (fun b => ((b.put (F.HL_CTL_EN 15) 1).put (F.HL_WF_V 15 0) 1).put (F.HL_WF_CNT 15 0) 1024) (act (HL.startIn 15)), 15,
        ⟨HL.startIn 15, 0, none, false⟩, 64128, by decide +kernel⟩,
    ⟨at0 fun b =>
        { ((b.put (F.HL_CTL_EN 0) 1).put (F.HL_WF_V 0 7) 1).put (F.HL_WF_CNT 0 7) 1 with fires := [⟨1000, 0, 64128, 7, 3⟩] }, 0,
        ⟨1000, 0, 64128, 7, 3⟩, by decide +kernel⟩,
    ⟨at0 fun b => ((b.put (F.HL_CTL_EN 1) 1).put (F.HL_WF_V 1 7) 1).put (F.HL_WF_CNT 1 7) 1, 1, .engine 0, 0x73, 7,
        by decide +kernel⟩,
    ⟨at0 fun b => ((b.put (F.HL_WF_CNT 1 7) 1).wr (R.HLPT_DUR 1 0) 640).setHl 1 { queue := [⟨64001, 7⟩, ⟨64002, 7⟩] }, 1,
        ⟨64001, 7⟩, [⟨64002, 7⟩], by decide +kernel⟩,
    ⟨at0 fun b => b.setHl 1 { waves := [⟨63000, 64000, 0, [(1000, 7)], false⟩] }, 1, ⟨63000, 64000, 0, [(1000, 7)], false⟩,
        by decide +kernel⟩,
    ⟨st 1000 (fun b => b.setHl 1 { queue := [⟨70000, 0⟩], waves := [⟨63000, 66000, 0, [(3000, 7)], false⟩] }) (act (HL.abortIn 1)),
        1, by decide +kernel⟩,
    ⟨at0 fun b => b.setHl 1 { queue := [⟨70000, 0⟩] }, 1, .boot, 4, by decide +kernel⟩,
    ⟨at0 fun b => (b.put (F.HL_WF_CNT 15 0) 1024).setHl 15 { queue := [⟨70000, 0⟩] }, 15, .engine 0, 1023, by decide +kernel⟩,
    ⟨at0 id, 15, .engine 0, 0, by decide +kernel⟩,
    ⟨at0 id, 0, .engine 0, 7, by decide +kernel⟩⟩

theorem test_hyp_HeadLaneControlEffects :
    (∃ (s : State) (n : Fin 16) (i : Volts) (x : Volts) (ci : Nat) (cx : Nat), n.val < nHL s.hw ∧ 10 ≤ s.tick ∧
      (s.now.hlSt n).smp.contains (s.tick - 10) = true ∧ ci = hlCode i.v.toInt i.vref.toInt ∧
      cx = hlCode x.v.toInt x.vref.toInt) ∧
    (∃ (s : State) (n : Fin 16) (swp : Nat) (vm : Nat) (vt : Nat) (im : Int) (opn : Int) (law : HlLaw), n.val < nHL s.hw ∧
      s.start.on (F.HL_CTL_EN n) = true ∧ swp = s.start.get (F.HL_CFG_SWP n) ∧ swp ≠ 0 ∧
      (s.tick + 8) % swp = s.start.get (F.HL_TIMING_PH n) ∧ ((s.now.hlSt n).upd.all (fun u => u.p != s.tick + 8) = true) ∧
      ((s.now.hlSt n).currents (s.tick + 8) swp).length = swp / 10 ∧
      vm = (((s.now.hlSt n).sample (s.tick + 8 - 20)).map (·.2)).getD 0 ∧
      im = roundDiv (((s.now.hlSt n).currents (s.tick + 8) swp).foldl (· + ·) 0) (swp / 10) ∧
      vt = s.start.hlTarget n ((s.tick + 8 + swp) * 64) ∧
      opn = ((if s.start.get (F.HL_BUS_VBUSC n) = 0 then Config.freeValue s.now.freeCount else 0 : Nat) : Int) ∧
      law = trackLaw opn vt vm im (s.start.get (F.HL_LAW_KC n)) (s.start.get (F.HL_LAW_KI n)) (s.start.get (F.HL_CFG_VTH n))
        (s.start.get (F.HL_BUS_ILIM n)) (s.start.get (F.HL_BUS_VBUSC n)) (s.start.get (F.HL_DLIM_DMIN n))
        (s.start.get (F.HL_DLIM_DMAX n)) swp) ∧
    (∃ (s : State) (n : Fin 16) (u : HlUpd) (swp : Nat) (same : Bool), (s.now.hlSt n).upd = some u ∧ u.p = s.tick ∧
      s.start.on (F.HL_CTL_EN n) = true ∧ (s.now.hlSt n).forced = false ∧ swp = s.now.get (F.HL_CFG_SWP n) ∧
      (s.now.hlSt n).since + swp + 10 ≤ u.p ∧ same = ((s.now.hlSt n).switching && s.now.on (F.HL_STAT_REG n) == u.boost)) ∧
    (∃ (s : State) (n : Fin 16) (ag : Agent) (v : Word), Reaches s ag (R.HL_CTL n) ∧ bit v.toNat 0 = true ∧
      bit v.toNat 1 = false ∧ bit v.toNat 2 = false ∧ s.now.on (F.HL_CTL_EN n) = false) :=
  ⟨⟨at0 fun b => ((b.put (F.HL_PROT_CLE 15) 1).put (F.HL_PROT_CLG 15) 31 |>.put (F.TG_CTL_EN 31) 1).setHl 15 { smp := [990] }, 15,
        ⟨450000000, 1800000000⟩, ⟨1800000000, 1800000000⟩, 1024, 4095, by decide +kernel⟩,
    ⟨at0 fun b => ((((b.put (F.HL_CTL_EN 1) 1).put (F.HL_CFG_SWP 1) 80).put (F.HL_TIMING_PH 1) 48).put (F.HL_BUS_VBUSC 1)
        1000).setHl 1 { res := (List.range 8).map fun k => (988 - 10 * k, 2058, 100) }, 1, 80, 100, 0, 10, 0, trackLaw 0 0 100
        10 0 0 0 0 1000 0 0 80, by decide +kernel⟩,
    ⟨at0 fun b => ((b.put (F.HL_CTL_EN 1) 1).put (F.HL_CFG_SWP 1) 80).setHl 1 { upd := some ⟨1000, true, 900, 70⟩ }, 1,
        ⟨1000, true, 900, 70⟩, 80, false, by decide +kernel⟩,
    ⟨at0 fun b => (b.put (F.HL_CFG_SWP 1) 80).put (F.HL_BUS_VBUSC 1) 1, 1, .engine 0, 1, by decide +kernel⟩⟩

theorem test_hyp_FireGeneratorEffects :
    (∃ (s : State) (n : Fin 16), Waits s (FG.armIn n) ∧ s.now.acted (FG.stopIn n) = false ∧ s.start.on (F.FG_CTL_EN n) = true ∧
      s.start.rd (R.FG_PITCH n) ≠ 0 ∧ s.start.on (F.FG_STAT_PEND n) = false) ∧
    (∃ (s : State) (n : Fin 16) (ag : Agent) (v : Word), Reaches s ag (R.FG_CTL n) ∧ bit v.toNat 0 = true ∧
      bit v.toNat 1 = false ∧ bit v.toNat 2 = true ∧ s.now.acted (FG.armIn n) = false ∧ s.now.acted (FG.stopIn n) = false ∧
      s.start.on (F.FG_CTL_EN n) = true ∧ s.now.on (F.FG_CTL_EN n) = true ∧ s.start.rd (R.FG_PITCH n) ≠ 0 ∧
      s.start.on (F.FG_STAT_PEND n) = false) ∧
    (∃ (s : State) (n : Fin 16), Waits s (FG.stopIn n)) ∧
    (∃ (s : State) (n : Fin 16) (ag : Agent) (v : Word), Reaches s ag (R.FG_CTL n) ∧ bit v.toNat 0 = s.now.on (F.FG_CTL_EN n) ∧
      bit v.toNat 1 = true ∧ bit v.toNat 2 = false ∧ s.now.acted (FG.stopIn n) = false) ∧
    (∃ (s : State) (n : Fin 16) (ag : Agent) (v : Word), Reaches s ag (R.FG_CTL n) ∧ bit v.toNat 0 = true ∧
      bit v.toNat 1 = false ∧ bit v.toNat 2 = false ∧ s.now.on (F.FG_CTL_EN n) = false) ∧
    (∃ (s : State) (n : Fin 16) (q : FgPass) (j : Nat) (first : Nat), n.val < nHL s.hw ∧ s.start.on (F.FG_CTL_EN n) = true ∧
      (s.now.fgSt n).pass = some q ∧ (s.now.fgSt n).startAt ≤ s.tick ∧ (s.now.fgSt n).issueAt ≠ some s.tick ∧
      (s.now.fgSt n).lastEnd = none ∧ (s.now.fgSt n).haltAt = none ∧ j = (s.now.fgSt n).j ∧
      first = (s.tick + s.now.get (F.FG_LEAD_MINL n)) * 64 ∧ s.now.fgPred n = true ∧
      ((first : Nat) : Int) ≤ s.now.fgCross n (q.point j) q ∧
      s.now.fgCross n (q.point j) q ≤ (((s.tick + s.now.get (F.FG_LEAD_LKA n)) * 64 : Nat) : Int)) ∧
    (∃ (s : State) (n : Fin 16) (q : FgPass) (j : Nat) (first : Nat), n.val < nHL s.hw ∧ s.start.on (F.FG_CTL_EN n) = true ∧
      (s.now.fgSt n).pass = some q ∧ (s.now.fgSt n).startAt ≤ s.tick ∧ (s.now.fgSt n).issueAt ≠ some s.tick ∧
      (s.now.fgSt n).lastEnd = none ∧ (s.now.fgSt n).haltAt = none ∧ j = (s.now.fgSt n).j ∧
      first = (s.tick + s.now.get (F.FG_LEAD_MINL n)) * 64 ∧ s.now.fgPred n = true ∧
      s.now.fgCross n (q.point j) q < ((first : Nat) : Int) ∧ s.now.get (F.FG_LEAD_MINL n) ≤ s.now.get (F.FG_LEAD_LKA n)) ∧
    (∃ (s : State) (n : Fin 16) (x : Nat), ((s.now.fgSt n).shots.find? (fun x => tickOf x ≤ s.tick) = some x)) ∧
    (∃ (s : State) (n : Fin 16) (q : FgPass) (x : Nat), (s.now.fgSt n).pass = some q ∧ (s.now.fgSt n).lastEnd = some x ∧
      x ≤ s.tick ∧ (((s.now.fgSt n).shots.any fun y => tickOf y ≤ s.tick) = false)) :=
  ⟨⟨st 1000 (fun b => (b.put (F.FG_CTL_EN 15) 1).wr (R.FG_PITCH 15) 0x1000000) (act (FG.armIn 15)), 15, by decide +kernel⟩,
    ⟨at0 fun b => ((b.put (F.FG_CTL_EN 15) 1).wr (R.FG_PITCH 15) 0x1000000).put (F.FG_STAT_RUN 15) 1, 15, .engine 0, 5,
        by decide +kernel⟩,
    ⟨st 1000 (fun b => (b.put (F.FG_STAT_RUN 15) 1).setFg 15 { pass := some ⟨1, 2, 3, true, 4, 5⟩ }) (act (FG.stopIn 15)), 15,
        by decide +kernel⟩,
    ⟨at0 fun b => (b.put (F.FG_STAT_RUN 15) 1).put (F.FG_CTL_EN 15) 1, 15, .engine 0, 3, by decide +kernel⟩,
    ⟨at0 fun b => (b.put (F.FG_LEAD_MINL 1) 3).put (F.FG_LEAD_LKA 1) 3, 1, .engine 0, 1, by decide +kernel⟩,
    ⟨at0 fun b => (((((b.put (F.FG_CTL_EN 1) 1).put (F.FG_LEAD_MINL 1) 3).put (F.FG_LEAD_LKA 1) 100).put (F.FB_STAT_IVAL 0) 1).setFb
        0 { pos := 0, last := some 63000, delta := 3200, n := 1 }).setFg 1
        { pass := some ⟨0x1000000, 0x1800000, 0, false, 2, 0⟩ }, 1, ⟨0x1000000, 0x1800000, 0, false, 2, 0⟩, 0, 64192,
        by decide +kernel⟩,
    ⟨at0 fun b => ((((b.put (F.FG_CTL_EN 1) 1).put (F.FG_LEAD_MINL 1) 3).put (F.FG_LEAD_LKA 1) 3).put (F.FB_STAT_IVAL 0) 1).setFb 0
        { pos := 0, last := some 63000, delta := 64, n := 1 } |>.setFg 1
        { pass := some ⟨0x1000000, 0x1800000, 0, false, 2, 0⟩ }, 1, ⟨0x1000000, 0x1800000, 0, false, 2, 0⟩, 0, 64192,
        by decide +kernel⟩,
    ⟨at0 fun b => b.setFg 1 { shots := [64005, 70000] }, 1, 64005, by decide +kernel⟩,
    ⟨at0 fun b => b.setFg 1 { pass := some ⟨1, 2, 3, false, 0, 0⟩, pend := some ⟨1, 2, 3, true, 0, 0⟩, lastEnd := some 1000 }, 1,
        ⟨1, 2, 3, false, 0, 0⟩, 1000, by decide +kernel⟩⟩

theorem test_hyp_FireAssemblerEffects :
    (∃ (s : State) (f : FaFire) (x : FaHead) (lane : Nat), s.now.faFires = [f] ∧ f.at_ < s.tick ∧ f.heads = [x] ∧
      s.now.hcTakes f.fg x.h = true ∧ s.now.get (F.HC_CSH_CSH x.h) ≤ f.j ∧ (s.now.fgSt f.fg).haltAt = none ∧
      lane = s.now.get (F.HC_CFG_LANE x.h) ∧ (s.now.laneQueue lane).length < 1024) ∧
    (∃ (s : State) (n : Fin 8) (x : Cell) (rest : List Cell), s.now.on (F.GL_STAT_TXRDY n) = true ∧ s.now.glHead n = true ∧
      (s.now.glSt n).syncDue = false ∧ s.now.laneQueue n = x :: rest ∧ x.fire = none) ∧
    (∃ (s : State) (n : Fin 8) (x : Cell) (rest : List Cell) (g : Nat) (stamp : Nat), s.now.on (F.GL_STAT_TXRDY n) = true ∧
      s.now.glHead n = true ∧ (s.now.glSt n).syncDue = false ∧ s.now.laneQueue n = x :: rest ∧ x.fire = some (g, stamp) ∧
      stamp < (s.tick + s.now.get (F.LQ_MRG_MRG n)) * 64) ∧
    (∃ (s : State) (h : Fin 64), Waits s (FA.advIn h)) ∧
    (∃ (s : State) (h : Fin 64) (ag : Agent), Reaches s ag (R.HC_WCOL h)) :=
  ⟨⟨at0 fun b =>
        { ((b.put (F.HC_CFG_EN 63) 1).put (F.HC_CFG_FG 63) 5).put (F.HC_CFG_LANE 63) 7 with faFires := [⟨999, 5, 4, true, 1, 2, 0, [⟨63, 70000, false, none⟩]⟩] }, ⟨999, 5, 4, true, 1, 2, 0, [⟨63, 70000, false, none⟩]⟩, ⟨63, 70000, false, none⟩, 7, by decide +kernel⟩,
    ⟨at0 fun b => ((b.put (F.GL_STAT_TXRDY 7) 1).put (F.GL_CFG_ROLE 7) 2).setLaneQueue 7 [⟨0x10500000, 99, false, none⟩], 7,
        ⟨0x10500000, 99, false, none⟩, [], by decide +kernel⟩,
    ⟨at0 fun b => ((b.put (F.GL_STAT_TXRDY 7) 1).put (F.GL_CFG_ROLE 7) 2).setLaneQueue 7 [⟨0x20500000, 99, false, some (3, 63999)⟩],
        7, ⟨0x20500000, 99, false, some (3, 63999)⟩, [], 3, 63999, by decide +kernel⟩,
    ⟨st 1000 (fun b => (b.wr (R.HC_WCOL 63) 0xFFFFFFFF).put (F.HC_WINC_WINC 63) 1) (act (FA.advIn 63)), 63, by decide +kernel⟩,
    ⟨at0 id, 0, .engine 0, by decide +kernel⟩⟩

theorem test_hyp_PositionCountEffects :
    (∃ (s : State) (n : Fin 24) (onA : Bool) (w : BallEdge) (y : Option BallEdge) (xa : Option BallEdge) (xb : Option BallEdge)
        (da : Bool) (db : Bool) (up : Bool) (x : Nat) (m : Nat), (xa = (if onA then some w else y) ∧
      xb = (if onA then y else some w)) ∧ fbSampled s.ctx n = true ∧ s.now.fbJudged n 0 = false ∧ s.now.fbQuad n = true ∧
      s.start.on (F.FB_CTL_EN n) = true ∧ da = (fbEdge s.ctx n (s.now.fbSt n).refA xa).isSome ∧
      db = (fbEdge s.ctx n (s.now.fbSt n).refB xb).isSome ∧
      (quadIdx ((s.now.fbSt n).refA != da) ((s.now.fbSt n).refB != db) + 4 - quadIdx
        ((s.now.fbSt n).refA != wasStanding s.ctx (fbEdge s.ctx n (s.now.fbSt n).refA xa))
        ((s.now.fbSt n).refB != wasStanding s.ctx (fbEdge s.ctx n (s.now.fbSt n).refB xb))) % 4 = (if up then 1 else 3) ∧
      x = laterStamp (fbEdge s.ctx n (s.now.fbSt n).refA xa) (fbEdge s.ctx n (s.now.fbSt n).refB xb) ∧
      s.now.fbLater n x = true ∧ (m = if s.now.emittedNow .fb n 1 then s.now.rd (R.FB_IDXL n) else (s.now.fbSt n).pos / 2 ^ 16)) ∧
    (∃ (s : State) (n : Fin 24) (onA : Bool) (w : BallEdge) (y : Option BallEdge) (xa : Option BallEdge) (xb : Option BallEdge),
        (xa = (if onA then some w else y) ∧
      xb = (if onA then y else some w)) ∧ fbSampled s.ctx n = true ∧ s.now.fbJudged n 0 = false ∧ s.now.fbQuad n = true ∧
      s.start.on (F.FB_CTL_EN n) = true ∧ (fbEdge s.ctx n (s.now.fbSt n).refA xa).isSome = true ∧
      (fbEdge s.ctx n (s.now.fbSt n).refB xb).isSome = true ∧
      wasStanding s.ctx (fbEdge s.ctx n (s.now.fbSt n).refA xa) = false ∧
      wasStanding s.ctx (fbEdge s.ctx n (s.now.fbSt n).refB xb) = false ∧
      s.now.fbLater n (laterStamp (fbEdge s.ctx n (s.now.fbSt n).refA xa) (fbEdge s.ctx n (s.now.fbSt n).refB xb)) = true) ∧
    (∃ (s : State) (n : Fin 24) (onA : Bool) (w : BallEdge) (y : Option BallEdge) (xa : Option BallEdge) (xb : Option BallEdge)
        (da : Bool) (db : Bool), (xa = (if onA then some w else y) ∧
      xb = (if onA then y else some w)) ∧ fbSampled s.ctx n = true ∧ s.now.fbJudged n 0 = false ∧
      (s.now.fbQuad n = false ∨ s.now.fbLater n (laterStamp (fbEdge s.ctx n (s.now.fbSt n).refA xa)
        (fbEdge s.ctx n (s.now.fbSt n).refB xb)) = true) ∧
      da = (fbEdge s.ctx n (s.now.fbSt n).refA xa).isSome ∧ db = (fbEdge s.ctx n (s.now.fbSt n).refB xb).isSome ∧
      (da || db) = true ∧ wasStanding s.ctx (fbEdge s.ctx n (s.now.fbSt n).refA xa) = da ∧
      wasStanding s.ctx (fbEdge s.ctx n (s.now.fbSt n).refB xb) = db) ∧
    (∃ (s : State) (n : Fin 24) (xu : Option BallEdge) (xv : Option BallEdge) (xw : Option BallEdge) (eu : Option BallEdge)
        (ev : Option BallEdge) (ew : Option BallEdge) (h : Nat) (x : Nat) (m : Nat) (q : Nat) (r : Nat) (up : Bool), fbSampled
        s.ctx n = true ∧
      s.now.fbJudged n 3 = false ∧ s.now.get (F.FB_CFG_MODE n) = 1 ∧ s.start.on (F.FB_CTL_EN n) = true ∧
      eu = fbEdge s.ctx n (bit (s.now.get (F.FB_HALL_H n)) 0) xu ∧ ev = fbEdge s.ctx n (bit (s.now.get (F.FB_HALL_H n)) 1) xv ∧
      ew = fbEdge s.ctx n (bit (s.now.get (F.FB_HALL_H n)) 2) xw ∧ (eu.isSome || ev.isSome || ew.isSome) = true ∧
      x = max (laterStamp eu ev) (laterStamp ew none) ∧ s.now.fbLater n x = true ∧
      h = hallState (s.now.get (F.FB_HALL_H n)) eu.isSome ev.isSome ew.isSome ∧ hallSector h = some q ∧
      (s.now.fbSt n).sector = some r ∧ (q = (r + 1) % 6 ∨ r = (q + 1) % 6) ∧ q ≠ r ∧ up = (q == (r + 1) % 6) ∧
      m = (s.now.fbSt n).pos / 2 ^ 16) ∧
    (∃ (s : State) (n : Fin 24) (xu : Option BallEdge) (xv : Option BallEdge) (xw : Option BallEdge) (eu : Option BallEdge)
        (ev : Option BallEdge) (ew : Option BallEdge) (h : Nat), fbSampled s.ctx n = true ∧
      s.now.fbJudged n 3 = false ∧ s.now.fbHall n = true ∧ s.start.on (F.FB_CTL_EN n) = true ∧
      eu = fbEdge s.ctx n (bit (s.now.get (F.FB_HALL_H n)) 0) xu ∧ ev = fbEdge s.ctx n (bit (s.now.get (F.FB_HALL_H n)) 1) xv ∧
      ew = fbEdge s.ctx n (bit (s.now.get (F.FB_HALL_H n)) 2) xw ∧ (eu.isSome || ev.isSome || ew.isSome) = true ∧
      s.now.fbLater n (max (laterStamp eu ev) (laterStamp ew none)) = true ∧
      h = hallState (s.now.get (F.FB_HALL_H n)) eu.isSome ev.isSome ew.isSome ∧ hallSector h = none ∧
      (wasStanding s.ctx eu || wasStanding s.ctx ev || wasStanding s.ctx ew) = false) ∧
    (∃ (s : State) (n : Fin 24) (xu : Option BallEdge) (xv : Option BallEdge) (xw : Option BallEdge) (eu : Option BallEdge)
        (ev : Option BallEdge) (ew : Option BallEdge) (h : Nat), fbSampled s.ctx n = true ∧
      s.now.fbJudged n 3 = false ∧ s.now.fbHall n = true ∧ eu = fbEdge s.ctx n (bit (s.now.get (F.FB_HALL_H n)) 0) xu ∧
      ev = fbEdge s.ctx n (bit (s.now.get (F.FB_HALL_H n)) 1) xv ∧ ew = fbEdge s.ctx n (bit (s.now.get (F.FB_HALL_H n)) 2) xw ∧
      s.now.fbLater n (max (laterStamp eu ev) (laterStamp ew none)) = true ∧
      h = hallState (s.now.get (F.FB_HALL_H n)) eu.isSome ev.isSome ew.isSome ∧ hallSector h = none ∧
      (wasStanding s.ctx eu || wasStanding s.ctx ev || wasStanding s.ctx ew) = true) ∧
    (∃ (s : State) (n : Fin 24) (x : BallEdge), fbSampled s.ctx n = true ∧ s.now.fbJudged n 1 = false ∧
      (fbEdge s.ctx n (s.now.fbSt n).refZ (some x)).isSome = true ∧ standing s.ctx x = false ∧
      s.start.on (F.FB_CTL_EN n) = true ∧ ((!(s.now.fbSt n).refZ) != s.now.on (F.FB_CFG_ZPOL n)) = true ∧
      (!s.now.on (F.FB_CFG_ZQE n) || ((s.now.fbSt n).refA == s.now.on (F.FB_CFG_ZQA n) && (s.now.fbSt n).refB == s.now.on
        (F.FB_CFG_ZQB n))) = true ∧
      (s.now.get (F.FB_CFG_IDXM n) = 1 ∨ (s.now.get (F.FB_CFG_IDXM n) = 2 ∧ s.start.on (F.FB_STAT_ARMD n) = true))) ∧
    (∃ (s : State) (n : Fin 24) (x : BallEdge), fbSampled s.ctx n = true ∧ s.now.fbJudged n 1 = false ∧
      (fbEdge s.ctx n (s.now.fbSt n).refZ (some x)).isSome = true ∧ standing s.ctx x = true) ∧
    (∃ (s : State) (n : Fin 24), Waits s (FB.armIn n)) ∧
    (∃ (s : State) (n : Fin 24) (ag : Agent) (v : Word), Reaches s ag (R.FB_CTL n) ∧ bit v.toNat 0 = s.now.on (F.FB_CTL_EN n) ∧
      bit v.toNat 2 = false ∧ bit v.toNat 3 = true ∧ s.now.acted (FB.armIn n) = false) ∧
    (∃ (s : State) (n : Fin 24) (ag : Agent), Reaches s ag (R.FB_POS n)) ∧
    (∃ (s : State) (n : Fin 24), n.val < nFB s.hw) ∧
    (∃ (s : State) (n : Fin 24), Waits s (FB.latchIn n)) ∧
    (∃ (s : State) (n : Fin 24) (ag : Agent) (v : Word), Reaches s ag (R.FB_CTL n) ∧ bit v.toNat 0 = true ∧
      bit v.toNat 2 = false ∧ bit v.toNat 3 = false ∧ s.now.on (F.FB_CTL_EN n) = false) :=
  ⟨⟨st 1001 (fun b => (b.put (F.FB_CTL_EN 23) 1).setFb 23 { pos := 0, last := some 60000 }) id, 23, false, ⟨63813, 4, 1⟩, none,
        none, some ⟨63813, 4, 1⟩, false, true, false, 63815, 0, by decide +kernel⟩,
    ⟨st 1001 (fun b => ((b.put (F.FB_CTL_EN 23) 1).put (F.FB_ERR_QERR 23) 255).setFb 23 { refA := true }) id, 23, true,
        ⟨63813, 2, 0⟩, some ⟨63809, 2, 1⟩, some ⟨63813, 2, 0⟩, some ⟨63809, 2, 1⟩, by decide +kernel⟩,
    ⟨st 1001 (fun b => { (b.put (F.FB_CTL_EN 23) 1) with fcS := some 997 }) id, 23, true, ⟨5, 2, 1⟩, none, some ⟨5, 2, 1⟩, none,
        true, false, by decide +kernel⟩,
    ⟨st 1001 (fun b => (((b.put (F.FB_CTL_EN 0) 1).put (F.FB_CFG_MODE 0) 1).put (F.FB_HALL_H 0) 5).setFb 0 { sector := some 5 }) id,
        0, none, none, some ⟨63813, 2, 0⟩, none, none, some ⟨63813, 2, 0⟩, 1, 63813, 0, 0, 5, true, by decide +kernel⟩,
    ⟨st 1001 (fun b => ((b.put (F.FB_CTL_EN 0) 1).put (F.FB_CFG_MODE 0) 2).put (F.FB_HALL_H 0) 3) id, 0, none, none, some
        ⟨63813, 2, 1⟩, none, none, some ⟨63813, 2, 1⟩, 7, by decide +kernel⟩,
    ⟨st 1001 (fun b => { ((b.put (F.FB_CTL_EN 0) 1).put (F.FB_CFG_MODE 0) 2).put (F.FB_HALL_H 0) 3 with fcS := some 997 }) id, 0,
        none, none, some ⟨5, 2, 1⟩, none, none, some ⟨5, 2, 1⟩, 7, by decide +kernel⟩,
    ⟨st 1001 (fun b => (((b.put (F.FB_CTL_EN 0) 1).put (F.FB_CFG_IDXM 0) 2).put (F.FB_STAT_ARMD 0) 1).wr (R.FB_IDXV 0) 0xFFFFFFFF)
        id, 0, ⟨63813, 2, 1⟩, by decide +kernel⟩,
    ⟨st 1001 (fun b => { (b.put (F.FB_CTL_EN 0) 1).put (F.FB_CFG_IDXM 0) 1 with fcS := some 997 }) id, 0, ⟨5, 2, 1⟩,
        by decide +kernel⟩,
    ⟨st 1000 id (act (FB.armIn 3)), 3, by decide +kernel⟩,
    ⟨at0 id, 3, .engine 0, 8, by decide +kernel⟩,
    ⟨at0 id, 3, .engine 0, by decide +kernel⟩,
    ⟨at0 fun b => ((b.put (F.FB_CTL_EN 3) 1).put (F.FB_STAT_IVAL 3) 1).setFb 3
        { pos := 0x123456780000, last := some 63360, delta := 1280, n := 1 }, 3, by decide +kernel⟩,
    ⟨st 1000 (fun b => b.setFb 3 { pos := 0x123456789ABC }) (act (FB.latchIn 3)), 3, by decide +kernel⟩,
    ⟨at0 fun b => (b.put (F.FB_SPDC_SPW 3) 64).setFb 3 { stamps := [1, 2] }, 3, .engine 0, 1, by decide +kernel⟩⟩

theorem test_hyp_SpeedAndCompareEffects :
    (∃ (s : State) (n : Fin 24) (gap : Nat), gap = s.tick * 64 - (s.now.fbSt n).last.getD 0 ∧ n.val < nFB s.hw ∧
      s.start.on (F.FB_CTL_EN n) = true ∧ s.now.on (F.FB_SPDC_SMODE n) = false ∧ s.now.get (F.FB_SPDC_SPW n) ≠ 0 ∧
      s.tick % s.now.get (F.FB_SPDC_SPW n) = 0 ∧ (s.now.fbSt n).last.isSome = true ∧ (s.now.fbSt n).countAt ≠ some s.tick ∧
      (s.now.fbSt n).n ≠ 0 ∧ (s.now.fbSt n).delta < gap * (s.now.fbSt n).n ∧ (s.now.fbSt n).zeroed = false ∧
      (s.now.get (F.FB_ZTO_ZTO n) = 0 ∨ gap < s.now.get (F.FB_ZTO_ZTO n) * 64) ∧ s.now.emittedNow .fb n 6 = false) ∧
    (∃ (s : State) (n : Fin 24), n.val < nFB s.hw ∧ s.start.on (F.FB_CTL_EN n) = true ∧ (s.now.fbSt n).last.isSome = true ∧
      s.now.get (F.FB_ZTO_ZTO n) ≠ 0 ∧ s.now.get (F.FB_ZTO_ZTO n) * 64 ≤ s.tick * 64 - (s.now.fbSt n).last.getD 0 ∧
      (s.now.fbSt n).countAt ≠ some s.tick ∧ (s.now.fbSt n).zeroed = false) ∧
    (∃ (s : State) (n : Fin 24), n.val < nFB s.hw ∧ s.start.on (F.FB_CTL_EN n) = true ∧ s.now.on (F.FB_SPDC_SMODE n) = true ∧
      s.now.get (F.FB_SPDC_SPW n) ≠ 0 ∧ s.tick % s.now.get (F.FB_SPDC_SPW n) = 0 ∧ (s.now.fbSt n).zeroed = false ∧
      s.now.emittedNow .fb n 6 = false) ∧
    (∃ (s : State) (n : Fin 24) (k : Fin 8) (p : Int) (q : Int) (v : Nat) (up : Bool), (p, q) = s.now.fbMove s.ctx n ∧
      v = (s.start.fbCmp n k).val ∧ n.val < nFB s.hw ∧ s.start.on (F.FB_CMP_CTL_EN n k) = true ∧
      crosses p q (sPos v) up = true ∧ dirAdmits (s.start.get (F.FB_CMP_CTL_DIRF n k)) up = true ∧
      s.now.emittedNow .fb n (8 + k) = false ∧ fbBehind s.ctx n k s.now = false) ∧
    (∃ (s : State) (n : Fin 24) (k : Fin 8), n.val < nFB s.hw ∧ (s.now.fbCmp n k).late = none ∧ fbBehind s.ctx n k s.now = true) ∧
    (∃ (s : State) (n : Fin 24) (k : Fin 8) (x : Nat) (v : Nat), (s.now.fbCmp n k).late = some (x, v) ∧ x ≤ s.tick) ∧
    (∃ (s : State) (n : Fin 24) (k : Fin 8) (ag : Agent), Reaches s ag (R.FB_CMP_VAL n k)) :=
  ⟨⟨at0 fun b => ((b.put (F.FB_CTL_EN 3) 1).put (F.FB_SPDC_SPW 3) 100).setFb 3 { last := some 63000, delta := 640, n := 1 }, 3,
        1000, by decide +kernel⟩,
    ⟨at0 fun b => ((b.put (F.FB_CTL_EN 3) 1).put (F.FB_ZTO_ZTO 3) 10).setFb 3 { last := some 63360 }, 3, by decide +kernel⟩,
    ⟨at0 fun b => (((b.put (F.FB_CTL_EN 3) 1).put (F.FB_SPDC_SPW 3) 100).put (F.FB_SPDC_SMODE 3) 1).setFb 3
        { pos := 0xFFFFFFFB0000, winRef := 0x20000 }, 3, by decide +kernel⟩,
    ⟨at0 fun b =>
        (b.put
        (F.FB_CMP_CTL_EN 3 7) 1).setFb 3 { pos := 0x20000, move := some (1000, 0, 0x20000), cmps := [(7, { val := 0x10001 })] },
        3, 7, 0, 0x20000, 0x10001, true, by decide +kernel⟩,
    ⟨at0 fun b => (b.put (F.FB_CMP_CTL_EN 3 0) 1).setFb 3 { pos := 0x20000, cmps := [(0, { val := 0x10001, judge := some 1000 })] },
        3, 0, by decide +kernel⟩,
    ⟨at0 fun b => b.setFb 3 { cmps := [(0, { late := some (1000, 5) })] }, 3, 0, 1000, 5, by decide +kernel⟩,
    ⟨at0 fun b => b.setFb 23 { cmps := [(7, { stF := 0xFFFF })] }, 23, 7, .engine 0, by decide +kernel⟩⟩

theorem test_hyp_SerialSensorEffects :
    (∃ (s : State) (n : Fin 24) (lb : Bool), Waits s (FB.reqIn n) ∧ s.start.on (F.FB_CTL_EN n) = true ∧
      s.now.fbSerial n = true ∧ s.start.on (F.FB_STAT_BUSY n) = false ∧ (s.now.fbSsi n = true → lb = true)) ∧
    (∃ (s : State) (n : Fin 24), Waits s (FB.reqIn n) ∧ s.start.on (F.FB_CTL_EN n) = true ∧ s.now.fbSerial n = true ∧
      s.start.on (F.FB_STAT_BUSY n) = true ∧ ((s.start.ssiFree n).all (fun x => s.tick < x) = true)) ∧
    (∃ (s : State) (n : Fin 24) (lb : Bool) (ag : Agent) (v : Word), Reaches s ag (R.FB_CTL n) ∧ bit v.toNat 0 = true ∧
      bit v.toNat 2 = true ∧ bit v.toNat 3 = false ∧ s.start.on (F.FB_CTL_EN n) = true ∧ s.now.on (F.FB_CTL_EN n) = true ∧
      s.now.acted (FB.reqIn n) = false ∧ s.now.fbSerial n = true ∧ s.start.on (F.FB_STAT_BUSY n) = false ∧
      (s.now.fbSsi n = true → lb = true)) ∧
    (∃ (s : State) (n : Fin 24) (lb : Bool), n.val < nFB s.hw ∧ s.now.get (F.FB_REQP_REQP n) ≠ 0 ∧
      s.tick % s.now.get (F.FB_REQP_REQP n) = 0 ∧ s.start.on (F.FB_CTL_EN n) = true ∧ s.now.acted (FB.reqIn n) = false ∧
      s.now.fbSerial n = true ∧ s.start.on (F.FB_STAT_BUSY n) = false ∧ (s.now.fbSsi n = true → lb = true)) ∧
    (∃ (s : State) (n : Fin 24) (x : Nat) (v : Nat) (bs : BitVec 35), (s.now.fbSt n).reqAt = some x ∧ s.now.fbSsi n = true ∧
      s.now.ssiEnd n x ≤ s.tick ∧ v = ssiValue (s.now.get (F.FB_SSI_LEAD n)) (s.now.get (F.FB_CFG_NB n)) bs.toNat) ∧
    (∃ (s : State) (n : Fin 24) (x : Nat), (s.now.fbSt n).pauseEnd = some x ∧ x ≤ s.tick) ∧
    (∃ (s : State) (n : Fin 24), s.now.fbExpects n = true ∧ (s.now.fbSt n).chars = [] ∧ (s.now.fbSt n).zLow ≤ s.tick * 64 + 63 ∧
      s.tick ≤ tickOf (s.now.fbSt n).zLow + s.now.get (F.FB_TMO_TO n)) ∧
    (∃ (s : State) (n : Fin 24), s.now.fbFrm n = true ∧ (s.now.fbSt n).reqAt.isSome = true ∧
      (s.now.fbSt n).chars.length = s.now.get (F.FB_FRM_RSN n) + 1 ∧ tickOf (s.now.fbSt n).charCtr ≤ s.tick) ∧
    (∃ (s : State) (n : Fin 24), s.now.fbExpects n = true ∧ (s.now.fbSt n).chars = [] ∧
      tickOf (s.now.fbSt n).zLow + s.now.get (F.FB_TMO_TO n) ≤ s.tick) ∧
    (∃ (s : State) (n : Fin 24), s.now.fbExpects n = true ∧ (s.now.fbSt n).chars ≠ [] ∧ s.now.get (F.FB_TMO_GAP n) ≠ 0 ∧
      tickOf ((s.now.fbSt n).charEnd + s.now.get (F.FB_TMO_GAP n) * s.now.get (F.FB_BT_BT n)) ≤ s.tick) ∧
    (∃ (s : State) (n : Fin 24) (f : FbFrame) (v : Nat), (s.now.fbSt n).frame = some f ∧ f.due ≤ s.tick ∧ f.cause = 0 ∧
      f.wait = false ∧ v = (if s.now.on (F.FB_CFG_GRAY n) then gray32 f.v else f.v)) ∧
    (∃ (s : State) (n : Fin 24) (f : FbFrame), (s.now.fbSt n).frame = some f ∧ f.due ≤ s.tick ∧ f.cause ≠ 0 ∧ f.wait = false) :=
  ⟨⟨st 1000 (fun b => (b.put (F.FB_CTL_EN 3) 1).put (F.FB_CFG_MODE 3) 3) (act (FB.reqIn 3)), 3, true, by decide +kernel⟩,
    ⟨st 1000 (fun b => ((b.put (F.FB_CTL_EN 3) 1).put (F.FB_CFG_MODE 3) 4).put (F.FB_STAT_BUSY 3) 1) (act (FB.reqIn 3)), 3,
        by decide +kernel⟩,
    ⟨at0 fun b => (b.put (F.FB_CTL_EN 3) 1).put (F.FB_CFG_MODE 3) 4, 3, false, .engine 0, 5, by decide +kernel⟩,
    ⟨at0 fun b => ((b.put (F.FB_CTL_EN 3) 1).put (F.FB_CFG_MODE 3) 4).put (F.FB_REQP_REQP 3) 500, 3, false, by decide +kernel⟩,
    ⟨at0 fun b => ((((b.put (F.FB_CFG_MODE 3) 3).put (F.FB_CFG_NB 3) 2).put (F.FB_SSI_LEAD 3) 1).put (F.FB_SSI_DIV 3) 164).setFb 3
        { reqAt := some 500 }, 3, 500, 2, 3, by decide +kernel⟩,
    ⟨at0 fun b => (b.put (F.FB_STAT_BUSY 3) 1).setFb 3 { pauseEnd := some 1000 }, 3, 1000, by decide +kernel⟩,
    ⟨at0 fun b => (b.put (F.FB_CFG_MODE 3) 4).setFb 3 { reqAt := some 900, zLow := 64063, lapse := some 2 }, 3, by decide +kernel⟩,
    ⟨at0 fun b => ((b.put (F.FB_CFG_MODE 3) 4).put (F.FB_CFG_NB 3) 8).setFb 3
        { reqAt := some 900, chars := [0x5A], charCtr := 64063 }, 3, by decide +kernel⟩,
    ⟨at0 fun b => ((b.put (F.FB_CFG_MODE 3) 4).put (F.FB_TMO_TO 3) 50).setFb 3 { reqAt := some 900, zLow := 60800 }, 3,
        by decide +kernel⟩,
    ⟨at0 fun b => (((b.put (F.FB_CFG_MODE 3) 4).put (F.FB_FRM_RSN 3) 1).put (F.FB_TMO_GAP 3) 1).setFb 3
        { reqAt := some 900, chars := [1], charEnd := 63000 }, 3, by decide +kernel⟩,
    ⟨at0 fun b => ((b.put (F.FB_CFG_EXT 3) 1).put (F.FB_CFG_NB 3) 8).setFb 3
        { frame := some ⟨1000, 2, 0, false, []⟩, prevV := some 255, pos := 0x7FFFFFFFFFFF }, 3, ⟨1000, 2, 0, false, []⟩, 2,
        by decide +kernel⟩,
    ⟨at0 fun b => b.setFb 3 { frame := some ⟨1000, 2, 7, false, []⟩ }, 3, ⟨1000, 2, 7, false, []⟩, by decide +kernel⟩⟩

theorem test_hyp_EmulationOutputEffects :
    (∃ (s : State) (m : Fin 8) (ag : Agent) (v : Word), Reaches s ag (R.EMU_CTL m) ∧ bit v.toNat 0 = true ∧
      bit v.toNat 1 = false ∧ s.now.on (F.EMU_CTL_EN m) = false) ∧
    (∃ (s : State) (m : Fin 8), Waits s (EMU.resyncIn m) ∧ s.start.on (F.EMU_CTL_EN m) = true) ∧
    (∃ (s : State) (m : Fin 8) (ag : Agent) (v : Word), Reaches s ag (R.EMU_CTL m) ∧ bit v.toNat 0 = true ∧
      bit v.toNat 1 = true ∧ s.now.on (F.EMU_CTL_EN m) = true ∧ s.start.on (F.EMU_CTL_EN m) = true ∧
      s.now.acted (EMU.resyncIn m) = false) ∧
    (∃ (s : State) (m : Fin 8) (u : Nat) (e : Nat) (up : Bool), (s.now.emuSt m).due = some (u, up) ∧
      s.now.on (F.EMU_CTL_EN m) = true ∧ (s.now.emuSt m).held = false ∧
      e = (match (s.now.emuSt m).lastEdge with | some x => max ((u + 2) * 64) (x + s.now.get (F.EMU_MSP_MSP m)) | none => (u + 2) * 64) ∧
      tickOf e ≤ s.tick) ∧
    (∃ (s : State) (m : Fin 8) (ag : Agent), Reaches s ag (R.EMU_WPOS m)) :=
  ⟨⟨at0 fun b => (((b.put (F.EMU_RATIO_N 7) 1).put (F.EMU_RATIO_M 7) 1).put (F.EMU_MSP_MSP 7) 2098).wr (R.EMU_OFS 7) 0xFFFFFFFE, 7,
        .engine 0, 1, by decide +kernel⟩,
    ⟨st 1000 (fun b => (b.put (F.EMU_CTL_EN 7) 1).setFb 0 { pos := 0x50000 }) (act (EMU.resyncIn 7)), 7, by decide +kernel⟩,
    ⟨at0 fun b => b.put (F.EMU_CTL_EN 7) 1, 7, .engine 0, 3, by decide +kernel⟩,
    ⟨at0 fun b => ((b.put (F.EMU_CTL_EN 0) 1).put (F.EMU_MSP_MSP 0) 2098).setEmu 0
        { due := some (990, false), lastEdge := some 61965 }, 0, 990, 64063, false, by decide +kernel⟩,
    ⟨at0 fun b => b.put (F.EMU_WPOSF_FRAC 7) 0xFFFF, 7, .boot, by decide +kernel⟩⟩

theorem test_hyp_EventFabricEffects :
    (∃ (s : State) (n : Fin 2048) (f : Flight) (i : Input), f ∈ s.now.flights ∧ f.chan = n.val ∧ f.due ≤ s.tick ∧ i ∈ f.forks) ∧
    (∃ (s : State) (n : Fin 2048) (f : Flight) (i : Input), ((s.now.flights.filter fun g => g.chan == n.val && g.due ≤ s.tick) =
        [f]) ∧
      i ∈ f.forks ∧ i.unit ≠ .task ∧ s.now.acted i = false) ∧
    (∃ (s : State) (n : Fin 2048) (f : Flight) (i : Input), ((s.now.flights.filter fun g => g.chan == n.val && g.due ≤ s.tick) =
        [f]) ∧
      f.forks = [i] ∧ i.unit ≠ .task ∧ s.now.acted i = true) ∧
    (∃ (s : State) (n : Fin 2048) (ag : Agent) (v : Word), Reaches s ag (R.EV_SW n) ∧ bit v.toNat 0 = true ∧
      s.start.on (F.EV_CTL_EN n) = true ∧ ((s.now.fc.carried.find? fun p => p.1 == n.val) = none)) ∧
    (∃ (s : State) (n : Fin 2048) (ag : Agent) (v : Word), Reaches s ag (R.EV_SW n) ∧
      (bit v.toNat 0 = false ∨ s.start.on (F.EV_CTL_EN n) = false)) ∧
    (∃ (s : State) (n : Fin 2048) (ag : Agent) (v : Word), Reaches s ag (R.EV_SRC n) ∧
      (ag = .boot ∨ s.start.on (F.EV_CTL_LOCK n) = false) ∧ s.now.srcValid s.hw v.toNat = true) ∧
    (∃ (s : State) (n : Fin 2048) (ag : Agent) (v : Word), Reaches s ag (R.EV_SRC n) ∧ s.start.on (F.EV_CTL_LOCK n) = false ∧
      s.now.srcValid s.hw v.toNat = false) ∧
    (∃ (s : State) (n : Fin 2048) (ag : Agent) (k : Fin 8) (v : Word) (i : Input), Reaches s ag (R.EV_DST n k) ∧
      s.start.on (F.EV_CTL_LOCK n) = false ∧ s.now.dstValid s.hw v.toNat = true ∧ forkOf v.toNat = some i ∧
      (ag = .boot ∨ s.now.inputOwner i = s.now.owner (ownEV n))) ∧
    (∃ (s : State) (n : Fin 2048) (ag : Agent) (k : Fin 8) (v : Word), Reaches s ag (R.EV_DST n k) ∧
      s.start.on (F.EV_CTL_LOCK n) = false ∧ s.now.dstValid s.hw v.toNat = false) ∧
    (∃ (s : State) (n : Fin 2048) (ag : Agent) (k : Fin 8) (v : Word) (i : Input), Reaches s ag (R.EV_DST n k) ∧
      s.start.on (F.EV_CTL_LOCK n) = false ∧ s.now.dstValid s.hw v.toNat = true ∧ forkOf v.toNat = some i ∧ ag ≠ .boot ∧
      s.now.inputOwner i ≠ s.now.owner (ownEV n)) :=
  ⟨⟨at0 fun b => { b with flights := [⟨2047, 1000, 3, some 17, [⟨.eg, 95, 2⟩, ⟨.task, 300, 0⟩]⟩] }, 2047,
        ⟨2047, 1000, 3, some 17, [⟨.eg, 95, 2⟩, ⟨.task, 300, 0⟩]⟩, ⟨.task, 300, 0⟩, by decide +kernel⟩,
    ⟨at0 fun b => { b with flights := [⟨2047, 1000, 3, some 17, [⟨.eg, 95, 2⟩]⟩] }, 2047, ⟨2047, 1000, 3, some 17, [⟨.eg, 95, 2⟩]⟩,
        ⟨.eg, 95, 2⟩, by decide +kernel⟩,
    ⟨st 1000 (fun b => { b with flights := [⟨7, 1000, 3, some 17, [⟨.dm, 63, 0⟩]⟩] }) (act ⟨.dm, 63, 0⟩), 7,
        ⟨7, 1000, 3, some 17, [⟨.dm, 63, 0⟩]⟩, ⟨.dm, 63, 0⟩, by decide +kernel⟩,
    ⟨at0 fun b => ((b.put (F.EV_CTL_EN 2047) 1).wr (R.EV_DST 2047 3) 0x82000500).wr (R.EV_CNT 2047) 0xFFFF, 2047, .engine 0, 1,
        by decide +kernel⟩,
    ⟨at0 id, 2047, .engine 0, 1, by decide +kernel⟩,
    ⟨at0 id, 2047, .engine 0, 0x04005F02, by decide +kernel⟩,
    ⟨at0 id, 2047, .engine 0, 0x04006002, by decide +kernel⟩,
    ⟨at0 id, 2047, .engine 0, 7, 0x8200FF01, ⟨.cc, 255, 1⟩, by decide +kernel⟩,
    ⟨at0 id, 2047, .engine 0, 7, 0x82040001, by decide +kernel⟩,
    ⟨at0 fun b => { b with own := [(0x33FC, 5)] }, 2047, .engine 0, 7, 0x8200FF01, ⟨.cc, 255, 1⟩, by decide +kernel⟩⟩

theorem test_hyp_InterruptControllerEffects :
    (∃ (s : State) (d : Fin 2) (n : Fin 1024), ((s.now.edges.any fun x => x.die == d.val && x.src == n.val && x.due ≤ s.tick) =
        true) ∧
      s.start.on (F.IC_SRC_CFG_EN d n) = true ∧ (s.now.icSt d n).edgeAt ≠ some s.tick ∧ (s.now.icSt d n).clrAt ≠ some s.tick ∧
      s.now.on (F.IC_SRC_STAT_PEND d n) = false) ∧
    (∃ (s : State) (d : Fin 2) (n : Fin 1024), ((s.now.edges.any fun x => x.die == d.val && x.src == n.val && x.due ≤ s.tick) =
        true) ∧
      s.start.on (F.IC_SRC_CFG_EN d n) = true ∧ (s.now.icSt d n).edgeAt ≠ some s.tick ∧ (s.now.icSt d n).clrAt ≠ some s.tick ∧
      s.now.on (F.IC_SRC_STAT_PEND d n) = true) ∧
    (∃ (s : State) (d : Fin 2) (n : Fin 1024), s.start.on (F.IC_SRC_CFG_EN d n) = false) ∧
    (∃ (s : State) (d : Fin 2) (n : Fin 1024) (ag : Agent) (v : Word), Reaches s ag (R.IC_SRC_CMD d n) ∧ bit v.toNat 0 = true ∧
      bit v.toNat 1 = false ∧ s.start.on (F.IC_SRC_CFG_EN d n) = true ∧ (s.now.icSt d n).edgeAt ≠ some s.tick ∧
      (s.now.icSt d n).clrAt ≠ some s.tick ∧ s.now.on (F.IC_SRC_STAT_PEND d n) = false) ∧
    (∃ (s : State) (d : Fin 2) (n : Fin 1024) (ag : Agent) (v : Word), Reaches s ag (R.IC_SRC_CMD d n) ∧ bit v.toNat 0 = true ∧
      bit v.toNat 1 = false ∧ (s.now.icSt d n).edgeAt = some s.tick) ∧
    (∃ (s : State) (d : Fin 2) (n : Fin 1024), s.now.on (F.IC_SRC_STAT_PEND d n) = true ∧
      s.now.on (F.IC_SRC_STAT_DUE d n) = false ∧ s.start.get (F.IC_SRC_CFG_CTIM d n) ≠ 0 ∧
      (s.now.icSt d n).p + s.start.get (F.IC_SRC_CFG_CTIM d n) * 1024 = s.tick) ∧
    (∃ (s : State) (d : Fin 2) (n : Fin 1024) (u : Fin 64) (k : Fin 8) (late : Bool), nextDue
        (s.now.get (F.IC_SET_LAST_SRC d u)) (s.now.icDue s.ctx d u) = some n.val ∧
      nextAfter 8 (s.now.get (F.IC_SET_CTL_PTR d u)) ((List.range 8).filter (s.now.icTarget s.ctx d u)) = some k.val ∧
      d.val < nDies s.hw ∧ (s.start.on (F.IC_CTL_GDIS d) = false ∨ s.now.on (F.IC_CTL_GDIS d) = false) ∧
      s.now.icLast.find? (d * 64 + u) ≠ some s.tick ∧
      late = (s.start.on (F.IC_SRC_STAT_DUE d n) && (s.now.icSt d n).edgeAt == some s.tick)) ∧
    (∃ (s : State) (d : Fin 2), (s.start.on (F.IC_CTL_GDIS d) && s.now.on (F.IC_CTL_GDIS d)) = true) ∧
    (∃ (s : State) (d : Fin 2) (n : Fin 1024) (ag : Agent) (v : Word), Reaches s ag (R.IC_SRC_CMD d n) ∧ bit v.toNat 0 = false ∧
      bit v.toNat 1 = true ∧ (s.now.icSt d n).edgeAt ≠ some s.tick) ∧
    (∃ (s : State) (d : Fin 2) (n : Fin 1024) (ag : Agent) (v : Word), Reaches s ag (R.IC_SRC_CMD d n) ∧ bit v.toNat 0 = false ∧
      bit v.toNat 1 = true ∧ (s.now.icSt d n).edgeAt = some s.tick) ∧
    (∃ (s : State) (d : Fin 2) (ag : Agent), Reaches s ag (R.IC_CTL d)) ∧
    (∃ (s : State) (d : Fin 2) (ag : Agent) (u : Fin 64) (k : Fin 8) (v : Word), Reaches s ag (R.IC_SET_T d u k) ∧
      s.start.on (F.IC_CTL_LOCK d) = false ∧ s.now.icEntryOk s.hw d v.toNat = true) ∧
    (∃ (s : State) (d : Fin 2) (ag : Agent) (u : Fin 64) (k : Fin 8) (v : Word), Reaches s ag (R.IC_SET_T d u k) ∧
      s.now.icEntryOk s.hw d v.toNat = false) :=
  ⟨⟨at0 fun b => { b.wr (R.IC_SRC_CFG 1 1023) 0x80040000 with edges := [⟨1000, 1, 1023⟩] }, 1, 1023, by decide +kernel⟩,
    ⟨at0 fun b => { (b.wr (R.IC_SRC_CFG 1 1023) 0x80040000).wr (R.IC_SRC_STAT 1 1023) 0x800000FF with edges := [⟨1000, 1, 1023⟩] },
        1, 1023, by decide +kernel⟩,
    ⟨at0 fun b => { b with edges := [⟨1000, 1, 1023⟩] }, 1, 1023, by decide +kernel⟩,
    ⟨at0 fun b => b.wr (R.IC_SRC_CFG 1 1023) 0x80010000, 1, 1023, .engine 0, 1, by decide +kernel⟩,
    ⟨at0 fun b => (b.wr (R.IC_SRC_CFG 1 1023) 0x80010000).setIc 1 1023 { edgeAt := some 1000 }, 1, 1023, .engine 0, 1,
        by decide +kernel⟩,
    ⟨st 2048 (fun b => ((b.wr (R.IC_SRC_CFG 1 1023) 0x80040002).wr (R.IC_SRC_STAT 1 1023) 0x80000003)) id, 1, 1023,
        by decide +kernel⟩,
    ⟨at0 fun b =>
        { ((((((b.wr (R.IC_SRC_CFG 0 5) 0x83000000).wr (R.IC_SRC_STAT 0 5) 0xC0000003).wr (R.IC_CTL 0) 0).wr (R.IC_SET_T 0 3 2) 0x80410000).wr (R.IC_EMSKL 0 1) 2)).setIc 0 5 { p := 7 } with nt := [(1, 4)] }, 0, 5, 3, 2, false, by decide +kernel⟩,
    ⟨at0 id, 0, by decide +kernel⟩,
    ⟨at0 fun b => b.wr (R.IC_SRC_STAT 1 1023) 0xE0000007, 1, 1023, .engine 0, 2, by decide +kernel⟩,
    ⟨at0 fun b => (b.wr (R.IC_SRC_STAT 1 1023) 0xE0000007).setIc 1 1023 { edgeAt := some 1000 }, 1, 1023, .engine 0, 2,
        by decide +kernel⟩,
    ⟨at0 id, 1, .engine 0, by decide +kernel⟩,
    ⟨at0 fun b => { b with nt := [(255, 64)] }, 1, .engine 0, 63, 7, 0xBFFF0000, by decide +kernel⟩,
    ⟨at0 id, 0, .engine 0, 63, 7, 0xBFFF0000, by decide +kernel⟩⟩

theorem test_hyp_DmaControlEffects :
    (∃ (s : State) (n : Fin 64), Waits s (dmRunIn n) ∧ s.now.acted (dmHaltIn n) = false ∧ s.now.dmState n = 0) ∧
    (∃ (s : State) (n : Fin 64), Waits s (dmRunIn n) ∧ s.now.acted (dmHaltIn n) = false ∧
      (s.now.dmState n = 1 ∨ s.now.dmState n = 2)) ∧
    (∃ (s : State) (n : Fin 64), Waits s (dmRunIn n) ∧ s.now.acted (dmHaltIn n) = false ∧ s.now.dmState n = 3) ∧
    (∃ (s : State) (n : Fin 64) (ag : Agent) (v : Word), Reaches s ag (R.DM_CTL n) ∧ bits v.toNat 2 0 = 1 ∧
      s.now.acted (dmRunIn n) = false ∧ s.now.acted (dmHaltIn n) = false ∧ s.now.dmState n = 0 ∧ s.now.dmBadCfg s.hw n = false) ∧
    (∃ (s : State) (n : Fin 64), Waits s (dmHaltIn n) ∧
      ((s.now.fc.latched.any fun x => x.input == dmRunIn n && x.done) = false) ∧ (s.now.dmState n = 1 ∨ s.now.dmState n = 2) ∧
      (s.now.dmSt n).move = none) ∧
    (∃ (s : State) (n : Fin 64), Waits s (dmHaltIn n) ∧
      ((s.now.fc.latched.any fun x => x.input == dmRunIn n && x.done) = false) ∧ s.now.dmState n = 1 ∧
      (s.now.dmSt n).move.isSome = true) ∧
    (∃ (s : State) (n : Fin 64), Waits s (dmHaltIn n) ∧
      ((s.now.fc.latched.any fun x => x.input == dmRunIn n && x.done) = true) ∧ s.start.dmState n = 0) ∧
    (∃ (s : State) (n : Fin 64) (ag : Agent) (v : Word), Reaches s ag (R.DM_CTL n) ∧ bits v.toNat 2 0 = 2 ∧
      s.now.acted (dmRunIn n) = false ∧ s.now.acted (dmHaltIn n) = false ∧ (s.now.dmState n = 1 ∨ s.now.dmState n = 2) ∧
      (s.now.dmSt n).move = none) ∧
    (∃ (s : State) (n : Fin 64) (ag : Agent) (v : Word), Reaches s ag (R.DM_CTL n) ∧ bits v.toNat 2 0 = 4 ∧ s.now.dmState n ≠ 0) :=
  ⟨⟨st 1000 (fun b => b.wr (R.DM_RBASE 63) 0x20000000) (act (dmRunIn 63)), 63, by decide +kernel⟩,
    ⟨st 1000 (fun b => b.put (F.DM_STAT_STATE 63) 2) (act (dmRunIn 63)), 63, by decide +kernel⟩,
    ⟨st 1000 (fun b => b.put (F.DM_STAT_STATE 63) 3) (act (dmRunIn 63)), 63, by decide +kernel⟩,
    ⟨at0 fun b => b.wr (R.DM_RBASE 63) 0x10000000, 63, .engine 0, 1, by decide +kernel⟩,
    ⟨st 1000 (fun b => b.put (F.DM_STAT_STATE 63) 2) (act (dmHaltIn 63)), 63, by decide +kernel⟩,
    ⟨st 1000 (fun b => (b.put (F.DM_STAT_STATE 63) 1).setDm 63 { move := some { reads := [], writes := [(0x20000040, 2)] } })
        (act (dmHaltIn 63)), 63, by decide +kernel⟩,
    ⟨st 1000 id
        (fun
        b =>
        act (dmHaltIn 63) { b.put (F.DM_STAT_STATE 63) 1 with fc := { b.fc with latched := [⟨dmRunIn 63, 0, none, true⟩] } }),
        63, by decide +kernel⟩,
    ⟨at0 fun b => b.put (F.DM_STAT_STATE 63) 1, 63, .engine 0, 2, by decide +kernel⟩,
    ⟨at0 fun b => (b.put (F.DM_STAT_STATE 63) 2).setDm 63 { desc := some (0x20000000, [0]), acc := 1, pauseAt := some 900 }, 63,
        .engine 0, 4, by decide +kernel⟩⟩

theorem test_hyp_DmaTransferEffects :
    (∃ (s : State) (n : Fin 64) (a : Nat) (w : List Nat), n.val < nDM s.hw ∧ s.now.dmState n = 1 ∧ (s.now.dmSt n).desc = none ∧
      a = s.now.rd (R.DM_RBASE n) + s.now.get (F.DM_IDX_IDX n) * 32 ∧
      s.now.oddFree s.tick (dmAgent n) (oddSlots s.hw none a) = true ∧ s.start.granBad (a / 32) = false ∧
      (w = (List.range 8).map fun k => bits (s.start.granData (a / 32)) (32 * k + 31) (32 * k)) ∧ bit (w.getD 0 0) 31 = true) ∧
    (∃ (s : State) (n : Fin 64) (a : Nat), n.val < nDM s.hw ∧ s.now.dmState n = 1 ∧ (s.now.dmSt n).desc = none ∧
      a = s.now.rd (R.DM_RBASE n) + s.now.get (F.DM_IDX_IDX n) * 32 ∧
      s.now.oddFree s.tick (dmAgent n) (oddSlots s.hw none a) = true ∧ s.start.granBad (a / 32) = false ∧
      bit (s.start.granData (a / 32)) 31 = false) ∧
    (∃ (s : State) (n : Fin 64) (a : Nat), n.val < nDM s.hw ∧ s.now.dmState n = 1 ∧ (s.now.dmSt n).desc = none ∧
      a = s.now.rd (R.DM_RBASE n) + s.now.get (F.DM_IDX_IDX n) * 32 ∧
      s.now.oddFree s.tick (dmAgent n) (oddSlots s.hw none a) = true ∧ s.start.granBad (a / 32) = true) ∧
    (∃ (s : State) (n : Fin 64) (r : Nat) (w : List Nat) (x : Nat) (y : Nat) (k : Nat), s.now.dmState n = 1 ∧
      (s.now.dmSt n).desc = some (r, w) ∧ (s.now.dmSt n).fin = false ∧ (s.now.dmSt n).move = none ∧
      ((s.now.dmSt n).elemAt.all (fun u => u < s.tick) = true) ∧
      (if (s.now.dmSt n).fresh then s.start.dmMayRun n else !s.start.dmMustPause n) = true ∧ descSsp w = false ∧
      bit (w.getD 0 0) 23 = false ∧ k = descLen w ∧
      x = elemAddr 32 (descSrc w) (s.now.get (F.DM_PROG_I0 n)) (s.now.get (F.DM_PROG_I1 n)) (s.now.get (F.DM_PROG_I2 n))
        (descStep w 0) (descStep w 1) (descStep w 2) ∧
      y = elemAddr 32 (w.getD 2 0) (s.now.get (F.DM_PROG_I0 n)) (s.now.get (F.DM_PROG_I1 n)) (s.now.get (F.DM_PROG_I2 n))
        (descStep w 3) (descStep w 4) (descStep w 5) ∧
      (0x10000000 ≤ x ∧ x + k ≤ 0x10000000 + 0x100000 * nClusters s.hw) ∧ (0x20000000 ≤ y ∧
      y + k ≤ 0x20000000 + 0x1000000 * nDies s.hw) ∧ ((x + k - 1) / 32 = x / 32 ∧ (y + k - 1) / 32 = y / 32) ∧
      s.start.granBad (x / 32) = false ∧ s.now.oddFree s.tick (dmAgent n) (oddSlots s.hw none x) = true) ∧
    (∃ (s : State) (n : Fin 64) (r : Nat) (w : List Nat) (x : Nat) (y : Nat) (k : Nat), s.now.dmState n = 1 ∧
      (s.now.dmSt n).desc = some (r, w) ∧ (s.now.dmSt n).fin = false ∧ (s.now.dmSt n).move = none ∧
      ((s.now.dmSt n).elemAt.all (fun u => u < s.tick) = true) ∧
      (if (s.now.dmSt n).fresh then s.start.dmMayRun n else !s.start.dmMustPause n) = true ∧ descSsp w = false ∧
      bit (w.getD 0 0) 23 = false ∧ k = descLen w ∧
      x = elemAddr 32 (descSrc w) (s.now.get (F.DM_PROG_I0 n)) (s.now.get (F.DM_PROG_I1 n)) (s.now.get (F.DM_PROG_I2 n))
        (descStep w 0) (descStep w 1) (descStep w 2) ∧
      y = elemAddr 32 (w.getD 2 0) (s.now.get (F.DM_PROG_I0 n)) (s.now.get (F.DM_PROG_I1 n)) (s.now.get (F.DM_PROG_I2 n))
        (descStep w 3) (descStep w 4) (descStep w 5) ∧
      (0x10000000 ≤ x ∧ x + k ≤ 0x10000000 + 0x100000 * nClusters s.hw) ∧ (0x20000000 ≤ y ∧
      y + k ≤ 0x20000000 + 0x1000000 * nDies s.hw) ∧ (x + k - 1) / 32 ≠ x / 32 ∧ s.start.granBad (x / 32) = false ∧
      s.now.oddFree s.tick (dmAgent n) (oddSlots s.hw none x) = true) ∧
    (∃ (s : State) (n : Fin 64) (r : Nat) (w : List Nat) (y : Nat) (k : Nat) (m : DmMove), (s.now.dmSt n).desc = some (r, w) ∧
      (s.now.dmSt n).move = some m ∧ (m.reads = [] ∧ m.got = [] ∧ m.writes = [(y, k)] ∧ m.out.length = k ∧ k < 32) ∧
      (0x20000000 ≤ y ∧ y + k ≤ 0x20000000 + 0x1000000 * nDies s.hw) ∧ (m.out.any (fun z => z.bad) = false)) ∧
    (∃ (s : State) (n : Fin 64) (r : Nat) (w : List Nat), s.now.dmState n = 1 ∧ (s.now.dmSt n).desc = some (r, w) ∧
      (s.now.dmSt n).fin = false ∧ (s.now.dmSt n).move = none ∧ ((s.now.dmSt n).elemAt.all (fun u => u < s.tick) = true) ∧
      s.now.flashBusy s.ctx = false ∧ (if (s.now.dmSt n).fresh then !s.start.dmMayRun n else s.start.dmMustPause n) = true) ∧
    (∃ (s : State) (n : Fin 64), s.now.dmState n = 2 ∧ (s.now.dmSt n).fin = false ∧ s.start.dmMayRun n = true) ∧
    (∃ (s : State) (n : Fin 64) (p : Nat), s.now.dmState n = 2 ∧ (s.now.dmSt n).fin = false ∧ (s.now.dmSt n).pauseAt = some p ∧
      s.now.get (F.DM_PTMO_PTMO n) ≠ 0 ∧ p + s.now.get (F.DM_PTMO_PTMO n) * 1024 ≤ s.tick ∧ s.start.dmMayRun n = false) ∧
    (∃ (s : State) (n : Fin 64) (a : Nat) (w : List Nat), (s.now.dmSt n).desc = some (a, w) ∧ (s.now.dmSt n).fin = true ∧
      (s.now.dmSt n).move = none ∧ ((s.now.dmSt n).elemAt.all (fun u => u ≤ s.tick) = true) ∧
      s.now.oddFree s.tick (dmAgent n) (oddSlots s.hw none a) = true ∧ (a % 32 = 0 ∧ a < 0x80000000)) :=
  ⟨⟨at0 fun b =>
        { ((b.wr (R.DM_RBASE 63) 0x20000000).wr (R.DM_IDX 63) 3).put (F.DM_STAT_STATE 63) 1 with mem := [(0x20000061, 3), (0x20000063, 0x80), (0x20000067, 0x10), (0x2000006B, 0x20)] }, 63, 0x20000060, [0x80000300, 0x10000000, 0x20000000, 0, 0, 0, 0, 0], by decide +kernel⟩,
    ⟨at0 fun b => (b.wr (R.DM_RBASE 63) 0x20000000).put (F.DM_STAT_STATE 63) 1, 63, 0x20000000, by decide +kernel⟩,
    ⟨at0 fun b => { (b.wr (R.DM_RBASE 63) 0x20000000).put (F.DM_STAT_STATE 63) 1 with syn := [(0x1000000, 0xFFFF)] }, 63,
        0x20000000, by decide +kernel⟩,
    ⟨at0 fun b =>
        { (b.put (F.DM_STAT_STATE 63) 1).setDm 63 { desc := some (0x20000060, [0x81000300, 0x1000001C, 0x2000003C, 0x00100000, 0, 0, 0, 0]) } with mem := [(0x1000001C, 1), (0x1000001D, 2), (0x1000001E, 3), (0x1000001F, 4), (0x2000003D, 9)] }, 63, 0x20000060, [0x81000300, 0x1000001C, 0x2000003C, 0x00100000, 0, 0, 0, 0], 0x1000001C, 0x2000003C, 4, by decide +kernel⟩,
    ⟨at0 fun b =>
        { (b.put (F.DM_STAT_STATE 63) 1).setDm 63 { desc := some (0x20000060, [0x81000300, 0x1000001E, 0x2000003D, 0x00100000, 0, 0, 0, 0]) } with mem := [(0x1000001E, 1), (0x1000001F, 2), (0x10000020, 3), (0x10000021, 4), (0x20000041, 9)] }, 63, 0x20000060, [0x81000300, 0x1000001E, 0x2000003D, 0x00100000, 0, 0, 0, 0], 0x1000001E, 0x2000003D, 4, by decide +kernel⟩,
    ⟨at0 fun b =>
        (b.put
        (F.DM_STAT_STATE
        63)
        1).setDm
        63 { desc := some (0x20000060, [0x81000300]), move := some { reads := [], writes := [(0x20000040, 2)], out := [⟨7, false, 0⟩, ⟨8, false, 0⟩] }, halt := true }, 63, 0x20000060, [0x81000300], 0x20000040, 2, { reads := [], writes := [(0x20000040, 2)], out := [⟨7, false, 0⟩, ⟨8, false, 0⟩] }, by decide +kernel⟩,
    ⟨at0 fun b => ((b.put (F.DM_STAT_STATE 63) 1).setDm 63 { desc := some (0, [0x80000300]) }).wr (R.DM_CFG 63) 0x20000000 |>.wr
        (R.DM_PACE 63) 0x00010000, 63, 0, [0x80000300], by decide +kernel⟩,
    ⟨at0 fun b => b.put (F.DM_STAT_STATE 63) 2, 63, by decide +kernel⟩,
    ⟨st 4096 (fun b => (((b.put (F.DM_STAT_STATE 63) 2).wr (R.DM_CFG 63) 0x20000000).wr (R.DM_PACE 63) 0x00010000).wr (R.DM_PTMO 63)
        3 |>.setDm 63 { pauseAt := some 1024 }) id, 63, 1024, by decide +kernel⟩,
    ⟨at0 fun b => (((b.put (F.DM_STAT_STATE 63) 1).wr (R.DM_RLEN 63) 3).wr (R.DM_IDX 63) 3).setDm 63
        { desc := some (0x08010060, [0x88000300]), fin := true, acc := 1 }, 63, 0x08010060, [0x88000300], by decide +kernel⟩⟩

theorem test_hyp_CheckValueEffects :
    (∃ (s : State) (n : Fin 32) (ag : Agent), Reaches s ag (R.CV_CTL n)) ∧
    (∃ (s : State) (n : Fin 32) (ag : Agent) (v : Word), Reaches s ag (R.CV_CTL n) ∧ s.now.cvq = [] ∧ bits v.toNat 3 2 = 1 ∧
      (s.now.on (F.CV_STAT_OPEN n) = false ∨ (s.now.cvSt n).client = none)) ∧
    (∃ (s : State) (n : Fin 32) (ag : Agent), Reaches s ag (R.CV_DATA n)) ∧
    (∃ (s : State) (n : Fin 32) (ag : Agent), Reaches s ag (R.CV_DATA n) ∧ s.now.cvq = [] ∧ s.now.on (F.CV_STAT_OPEN n) = true ∧
      (s.now.cvSt n).client = none) ∧
    (∃ (s : State) (n : Fin 32) (ag : Agent), Reaches s ag (R.CV_DATA n) ∧ s.now.cvq = [] ∧ s.now.on (F.CV_STAT_OPEN n) = false) ∧
    (∃ (s : State) (n : Fin 32) (ag : Agent), Reaches s ag (R.CV_CTL n)) ∧
    (∃ (s : State) (n : Fin 32) (ag : Agent) (v : Word), Reaches s ag (R.CV_CTL n) ∧ s.now.cvq = [] ∧ bits v.toNat 3 2 = 2 ∧
      s.now.on (F.CV_STAT_OPEN n) = true ∧ (s.now.cvSt n).client = none) ∧
    (∃ (s : State) (n : Fin 32) (ag : Agent) (v : Word), Reaches s ag (R.CV_CTL n) ∧ s.now.cvq = [] ∧ bits v.toNat 3 2 = 2 ∧
      s.now.on (F.CV_STAT_OPEN n) = false) ∧
    (∃ (s : State) (n : Fin 32) (ag : Agent), Reaches s ag (R.CV_RUN n)) ∧
    (∃ (s : State) (n : Fin 32) (ag : Agent), Reaches s ag (R.CV_RUN n) ∧ s.now.cvq = [] ∧
      (s.now.on (F.CV_STAT_OPEN n) = false ∨ (s.now.cvSt n).client = none)) ∧
    (∃ (s : State) (n : Fin 32) (f : Fin 24) (x : FbFrame), s.now.fbCv s.hw f = some n.val ∧ (s.now.fbSt f).frame = some x ∧
      x.wait = true ∧ x.left ≠ [] ∧ (s.now.fbSt f).shown = 0 ∧ (s.now.fbSt f).cvGone = false ∧
      s.now.on (F.CV_STAT_OPEN n) = false) ∧
    (∃ (s : State) (n : Fin 32) (f : Fin 24) (x : FbFrame), s.now.fbCv s.hw f = some n.val ∧ (s.now.fbSt f).frame = some x ∧
      x.wait = true ∧ x.left ≠ [] ∧ (s.now.fbSt f).shown ≠ 0 ∧ (s.now.fbSt f).cvGone = false ∧ s.now.cvHas n (.fb f) = true) :=
  ⟨⟨at0 id, 31, .engine 0, by decide +kernel⟩,
    ⟨at0 fun b => b.wr (R.CV_INIT 31) 0xFFFFFFFF, 31, .engine 0, 6, by decide +kernel⟩,
    ⟨at0 id, 31, .engine 0, by decide +kernel⟩,
    ⟨at0 fun b => (((b.wr (R.CV_POLY 31) 0x04C11DB7).put (F.CV_STAT_OPEN 31) 1).wr (R.CV_RUN 31) 0xFFFFFFFF).put (F.CV_CTL_DW 31) 2,
        31, .engine 0, by decide +kernel⟩,
    ⟨at0 id, 31, .engine 0, by decide +kernel⟩,
    ⟨at0 id, 31, .engine 0, by decide +kernel⟩,
    ⟨at0 fun b => ((b.put (F.CV_STAT_OPEN 31) 1).wr (R.CV_RUN 31) 0x12345678).put (F.CV_CFG_REFOUT 31) 1 |>.wr (R.CV_XOR 31)
        0xFFFFFFFF, 31, .engine 0, 8, by decide +kernel⟩,
    ⟨at0 id, 31, .engine 0, 8, by decide +kernel⟩,
    ⟨at0 id, 31, .engine 0, by decide +kernel⟩,
    ⟨at0 fun b => b.put (F.CV_CFG_WIDTH 31) 16, 31, .engine 0, by decide +kernel⟩,
    ⟨at0 fun b => (((b.wr (R.FB_CRC 23) 0x1F000000).wr (R.CV_POLY 31) 0x04C11DB7).wr (R.CV_INIT 31) 0xFFFFFFFF).put
        (F.FB_CRC_CVU 23) 31 |>.put (F.FB_CRC_CW 23) 3 |>.put (F.FB_CRC_CRCEN 23) 1 |>.setFb 23
        { frame := some ⟨1004, 5, 0, true, [(0x31, false), (0x32, false), (1, true), (2, true)]⟩ }, 31, 23,
        ⟨1004, 5, 0, true, [(0x31, false), (0x32, false), (1, true), (2, true)]⟩, by decide +kernel⟩,
    ⟨at0 fun b => (((b.wr (R.FB_CRC 23) 0x1F000000).wr (R.CV_POLY 31) 0x04C11DB7).wr (R.CV_INIT 31) 0xFFFFFFFF).put
        (F.FB_CRC_CVU 23) 31 |>.put (F.FB_CRC_CW 23) 3 |>.put (F.FB_CRC_CRCEN 23) 1 |>.setFb 23
        { frame := some ⟨1004, 5, 0, true, [(0x31, false), (0x32, false), (1, true), (2, true)]⟩, shown := 2 } |>.put
        (F.CV_STAT_OPEN 31) 1 |>.wr (R.CV_RUN 31) 0x77 |>.setCv 31 { client := some (.fb 23) }, 31, 23,
        ⟨1004, 5, 0, true, [(0x31, false), (0x32, false), (1, true), (2, true)]⟩, by decide +kernel⟩⟩

theorem test_hyp_ArithmeticLogicResults : [
    (let rd : Reg := 3; let ra : Reg := 1; let rb : Reg := 2; takes { uses := [ra, rb], writes := [rd] } (rr ra rb (addTags false) fun _ _ t x y => byTag t (numOf t x + numOf t y))),
    (let rd : Reg := 3; let ra : Reg := 1; let rb : Reg := 2; takes { uses := [ra, rb], writes := [rd] } (rr ra rb (addTags true) fun _ _ t x y => byTag t (numOf t x - numOf t y))),
    (let rd : Reg := 3; let ra : Reg := 1; let rb : Reg := 2; takes { uses := [ra, rb], writes := [rd] } (rr ra rb numTags fun _ _ t x y => minMax false t x y)),
    (let rd : Reg := 3; let ra : Reg := 1; let rb : Reg := 2; takes { uses := [ra, rb], writes := [rd] } (rr ra rb numTags fun _ _ t x y => minMax true t x y)),
    (let rd : Reg := 3; let ra : Reg := 1; takes { uses := [ra], writes := [rd] } (r1 ra (among [Tag.int, Tag.frac, Tag.fix, Tag.ang]) fun _ t x => byTag t (-numOf t x))),
    (let rd : Reg := 3; let ra : Reg := 1; takes { uses := [ra], writes := [rd] } (r1 ra (among [Tag.int, Tag.frac, Tag.fix]) fun _ t x => byTag t (numOf t x).natAbs)),
    (let rd : Reg := 3; let ra : Reg := 1; let rb : Reg := 2; takes { uses := [ra, rb], writes := [rd] } (rr ra rb (logicTags true) fun _ _ t x y => logic .and t x y)),
    (let rd : Reg := 3; let ra : Reg := 1; let rb : Reg := 2; takes { uses := [ra, rb], writes := [rd] } (rr ra rb (logicTags true) fun _ _ t x y => logic .or t x y)),
    (let rd : Reg := 3; let ra : Reg := 1; let rb : Reg := 2; takes { uses := [ra, rb], writes := [rd] } (rr ra rb (logicTags false) fun _ _ t x y => logic .xor t x y)),
    (let rd : Reg := 3; let ra : Reg := 1; let rb : Reg := 2; takes { uses := [ra, rb], writes := [rd] } (rr ra rb (logicTags false) fun _ _ t x y => logic .andn t x y)),
    (let rd : Reg := 3; let ra : Reg := 1; takes { uses := [ra], writes := [rd] } (r1 ra (among [Tag.raw, Tag.int, Tag.uns, Tag.bool]) fun _ t x => logicNot t x)),
    (let rd : Reg := 3; let ra : Reg := 1; let rb : Reg := 2; takes { uses := [ra, rb], writes := [rd] } (rs .sll ra rb)),
    (let rd : Reg := 3; let ra : Reg := 1; let rb : Reg := 2; takes { uses := [ra, rb], writes := [rd] } (rs .srl ra rb)),
    (let rd : Reg := 3; let ra : Reg := 1; let rb : Reg := 2; takes { uses := [ra, rb], writes := [rd] } (rs .sra ra rb)),
    (let rd : Reg := 3; let ra : Reg := 1; let rb : Reg := 2; takes { uses := [ra, rb], writes := [rd] } (rs .ror ra rb)),
    (let rd : Reg := 3; let ra : Reg := 1; takes { uses := [ra], writes := [rd] } (r1 ra (amongTo [Tag.raw, Tag.int, Tag.uns] Tag.int) fun _ t x => word (clz x) t)),
    (let rd : Reg := 3; let ra : Reg := 1; takes { uses := [ra], writes := [rd] } (r1 ra (amongTo [Tag.raw, Tag.int, Tag.uns] Tag.int) fun _ t x => wordI (toSigned 8 x) t)),
    (let rd : Reg := 3; let ra : Reg := 1; takes { uses := [ra], writes := [rd] } (r1 ra (amongTo [Tag.raw, Tag.int, Tag.uns] Tag.int) fun _ t x => wordI (toSigned 16 x) t)),
    (let rd : Reg := 3; let ra : Reg := 1; takes { uses := [ra], writes := [rd] } (r1 ra (amongTo [Tag.raw, Tag.int, Tag.uns] Tag.uns) fun _ t x => word (x % 2 ^ 8) t)),
    (let rd : Reg := 3; let ra : Reg := 1; takes { uses := [ra], writes := [rd] } (r1 ra (amongTo [Tag.raw, Tag.int, Tag.uns] Tag.uns) fun _ t x => word (x % 2 ^ 16) t)),
    (let rd : Reg := 3; let ra : Reg := 1; let rb : Reg := 2; takes { uses := [ra, rb], writes := [rd] } (rr ra rb eqTags fun _ _ t x y => word (b2n (eqVals t x y)) Tag.bool)),
    (let rd : Reg := 3; let ra : Reg := 1; let rb : Reg := 2; takes { uses := [ra, rb], writes := [rd] } (rr ra rb ltTags fun _ _ t x y => word (b2n (ltVals t x y)) Tag.bool)),
    (let rd : Reg := 3; let ra : Reg := 1; let rb : Reg := 2; takes { uses := [ra, rb], writes := [rd] } (rr ra rb ltuTags fun _ _ _ x y => word (b2n (decide (x < y))) Tag.bool)),
    (let rd : Reg := 3; let ra : Reg := 1; takes { moves := [ra], writes := [rd] } (fun t => .ok (t.reg ra))),
    (let rd : Reg := 3; let ra : Reg := 1; takes { moves := [ra], writes := [rd] } (fun t =>
      .ok (word (t.reg ra).t.toNat Tag.int))),
    (let rd : Reg := 3; let ra : Reg := 1; let n : TagNo := 1; takes { uses := [ra], writes := [rd], bad := (if plainTag n then none else some 1) } (r1 ra (fun a => (anyTag a).map fun _ => n) fun _ t x => word x t)),
    (let rd : Reg := 3; let ra : Reg := 1; let i : BitVec 11 := 0; takes { uses := [ra], writes := [rd] } (r1 ra (fun a => addTags false a (if a = Tag.uns then Tag.uns else Tag.int)) fun _ t x => byTag t (numOf t x + imm11 i.toNat))),
    (let rd : Reg := 3; let ra : Reg := 1; let i : BitVec 11 := 0; takes { uses := [ra], writes := [rd] } (r1 ra (logicImmTags true) fun _ t x => logic .and t x (ofSigned 32 (imm11 i.toNat)))),
    (let rd : Reg := 3; let ra : Reg := 1; let i : BitVec 11 := 0; takes { uses := [ra], writes := [rd] } (r1 ra (logicImmTags true) fun _ t x => logic .or t x (ofSigned 32 (imm11 i.toNat)))),
    (let rd : Reg := 3; let ra : Reg := 1; let i : BitVec 11 := 0; takes { uses := [ra], writes := [rd] } (r1 ra (logicImmTags false) fun _ t x => logic .xor t x (ofSigned 32 (imm11 i.toNat)))),
    (let rd : Reg := 3; let ra : Reg := 1; let i : BitVec 11 := 0; takes { uses := [ra], writes := [rd], bad := (if bits i.toNat 10 7 = 0 then none else some 1) } (r1 ra (among (shiftTags (shiftKind (bits i.toNat 6 5)))) fun _ t x => shift (shiftKind (bits i.toNat 6 5)) t x (bits i.toNat 4 0))),
    (let rd : Reg := 3; let n : TagNo := 1; let i : BitVec 16 := 0; takes { writes := [rd], bad := (if plainTag n then none else some 1) } (fun _ => .ok (word i.toNat n))),
    (let rd : Reg := 3; let i : BitVec 16 := 0; takes { uses := [rd], writes := [rd] } (r1 rd anyTag fun _ t x => word (x % 2 ^ 16 + i.toNat * 2 ^ 16) t))].all id = true := by
  decide +kernel

theorem test_hyp_ShortFormResults : [
    (let rd : Reg := 3; let ra : Reg := 1; takes { len := 2, moves := [ra], writes := [rd] } (fun t => .ok (t.reg ra))),
    (let rd : ShortReg := 3; let ra : ShortReg := 1; let rb : ShortReg := 2; takes { len := 2, uses := [short ra, short rb], writes := [short rd] } (rr (short ra) (short rb) (addTags false) fun _ _ t x y => byTag t (numOf t x + numOf t y))),
    (let rd : ShortReg := 3; let ra : ShortReg := 1; let rb : ShortReg := 2; takes { len := 2, uses := [short ra, short rb], writes := [short rd] } (rr (short ra) (short rb) (addTags true) fun _ _ t x y => byTag t (numOf t x - numOf t y))),
    (let rd : ShortReg := 3; let ra : ShortReg := 1; let rb : ShortReg := 2; takes { len := 2, uses := [short ra, short rb], writes := [short rd] } (rr (short ra) (short rb) (logicTags true) fun _ _ t x y => logic .and t x y)),
    (let rd : ShortReg := 3; let ra : ShortReg := 1; let rb : ShortReg := 2; takes { len := 2, uses := [short ra, short rb], writes := [short rd] } (rr (short ra) (short rb) (logicTags true) fun _ _ t x y => logic .or t x y)),
    (let rd : ShortReg := 3; let ra : ShortReg := 1; let rb : ShortReg := 2; takes { len := 2, uses := [short ra, short rb], writes := [short rd] } (rr (short ra) (short rb) (logicTags false) fun _ _ t x y => logic .xor t x y)),
    (let rd : ShortReg := 3; let ra : ShortReg := 1; let rb : ShortReg := 2; takes { len := 2, uses := [short ra, short rb], writes := [short rd] } (rr (short ra) (short rb) mulTags fun ta tz t x y => mulLow ta tz t x y)),
    (let rd : ShortReg := 3; let ra : ShortReg := 1; let rb : ShortReg := 2; takes { len := 2, uses := [short ra, short rb], writes := [short rd] } (rr (short ra) (short rb) numTags fun _ _ t x y => minMax false t x y)),
    (let rd : ShortReg := 3; let ra : ShortReg := 1; let rb : ShortReg := 2; takes { len := 2, uses := [short ra, short rb], writes := [short rd] } (rr (short ra) (short rb) numTags fun _ _ t x y => minMax true t x y)),
    (let rd : ShortReg := 3; let i : BitVec 8 := 0; takes { len := 2, uses := [short rd], writes := [short rd] } (r1 (short rd) (fun a => addTags false a (if a = Tag.uns then Tag.uns else Tag.int)) fun _ t x => byTag t (numOf t x + imm8 i.toNat))),
    (let rd : ShortReg := 3; let i : BitVec 8 := 0; takes { len := 2, writes := [short rd] } (fun _ => .ok (wordI (imm8 i.toNat) Tag.int))),
    (let rd : ShortReg := 3; let q : Fin 4 := 0; let i : Fin 32 := 0; takes { len := 2, uses := [short rd], writes := [short rd] } (r1 (short rd) (among (shiftTags (shiftKind q))) fun _ t x => shift (shiftKind q) t x i))].all id = true := by
  decide +kernel

theorem test_hyp_ProductAndFloatResults : [
    (let rd : Reg := 3; let ra : Reg := 1; let rb : Reg := 2; takes { uses := [ra, rb], writes := [rd] } (rr ra rb mulTags fun ta tz t x y => mulLow ta tz t x y)),
    (let rd : Reg := 3; let ra : Reg := 1; let rb : Reg := 2; takes { uses := [ra, rb], writes := [rd] } (rr ra rb wholeTags fun _ _ t x y => mulHigh t x y)),
    (let rd : Reg := 3; let ra : Reg := 1; let rb : Reg := 2; takes { uses := [ra, rb], writes := [rd] } (rr ra rb fltTags fun _ _ _ x y => word (F32.add x y) Tag.flt)),
    (let rd : Reg := 3; let ra : Reg := 1; let rb : Reg := 2; takes { uses := [ra, rb], writes := [rd] } (rr ra rb fltTags fun _ _ _ x y => word (F32.sub x y) Tag.flt)),
    (let rd : Reg := 3; let ra : Reg := 1; let rb : Reg := 2; takes { uses := [ra, rb], writes := [rd] } (rr ra rb fltTags fun _ _ _ x y => word (F32.mul x y) Tag.flt)),
    (let rd : Reg := 3; let ra : Reg := 1; let rb : Reg := 2; takes { uses := [ra, rb], writes := [rd] } (rr ra rb fltTags fun _ _ _ x y => word (F32.min x y) Tag.flt)),
    (let rd : Reg := 3; let ra : Reg := 1; let rb : Reg := 2; takes { uses := [ra, rb], writes := [rd] } (rr ra rb fltTags fun _ _ _ x y => word (F32.max x y) Tag.flt)),
    (let rd : Reg := 3; let ra : Reg := 1; takes { uses := [ra], writes := [rd] } (r1 ra (among [Tag.flt]) fun _ t x => word (F32.neg x) t)),
    (let rd : Reg := 3; let ra : Reg := 1; takes { uses := [ra], writes := [rd] } (r1 ra (among [Tag.flt]) fun _ t x => word (F32.abs x) t)),
    (let rd : Reg := 3; let n : AccNo := 1; let i : TagNo := 0; takes { moves := [accReg n], writes := [rd] } (fun t =>
      .ok ((t.acc n).readOut (toSigned 4 i)))),
    (takes { uses := [1], writes := [3] } (r1 1 (among [Tag.int, Tag.uns, Tag.frac, Tag.fix, Tag.flt]) fun _ t x => convert t x
        4)),
    (takes { uses := [1, 2] } fun t =>
      (pairUp numTags (t.opd 1) (t.opd 2)).bind fun x => if (t.acc 1).kind = 0 then .ok x else .error { code := 0 }),
    (takes { len := 2, uses := [short 1, short 2] } fun t =>
      (pairUp numTags (t.opd (short 1)) (t.opd (short 2))).bind fun x => if (t.acc 1).kind = 0 then .ok x else .error
        { code := 0 }),
    (Issues (tagged 0) 7 5 {})].all id = true := by
  decide +kernel

theorem test_hyp_BranchResults :
    (∃ (s : State) (e : Fin 256) (k : Nat) (ra : Reg) (rb : Reg) (x : Nat × Nat × Nat), Issues s e k
        { uses := [ra, rb], branch := true } = true ∧
      (pairUp eqTags ((s.now.taskSt e k).opd ra) ((s.now.taskSt e k).opd rb)).toOption = some x) ∧
    (∃ (s : State) (e : Fin 256) (k : Nat) (ra : Reg) (rb : Reg) (x : Nat × Nat × Nat), Issues s e k
        { uses := [ra, rb], branch := true } = true ∧
      (pairUp eqTags ((s.now.taskSt e k).opd ra) ((s.now.taskSt e k).opd rb)).toOption = some x) ∧
    (∃ (s : State) (e : Fin 256) (k : Nat) (ra : Reg) (rb : Reg) (x : Nat × Nat × Nat), Issues s e k
        { uses := [ra, rb], branch := true } = true ∧
      (pairUp ltTags ((s.now.taskSt e k).opd ra) ((s.now.taskSt e k).opd rb)).toOption = some x) ∧
    (∃ (s : State) (e : Fin 256) (k : Nat) (ra : Reg) (rb : Reg) (x : Nat × Nat × Nat), Issues s e k
        { uses := [ra, rb], branch := true } = true ∧
      (pairUp ltTags ((s.now.taskSt e k).opd ra) ((s.now.taskSt e k).opd rb)).toOption = some x) ∧
    (∃ (s : State) (e : Fin 256) (k : Nat) (ra : Reg) (rb : Reg) (x : Nat × Nat × Nat), Issues s e k
        { uses := [ra, rb], branch := true } = true ∧
      (pairUp ltuTags ((s.now.taskSt e k).opd ra) ((s.now.taskSt e k).opd rb)).toOption = some x) ∧
    (∃ (s : State) (e : Fin 256) (k : Nat) (ra : Reg) (rb : Reg) (x : Nat × Nat × Nat), Issues s e k
        { uses := [ra, rb], branch := true } = true ∧
      (pairUp ltuTags ((s.now.taskSt e k).opd ra) ((s.now.taskSt e k).opd rb)).toOption = some x) ∧
    (∃ (s : State) (e : Fin 256) (k : Nat) (ra : ShortReg), Issues s e k { len := 2, uses := [short ra], branch := true } = true
        ∧
      plainTag ((s.now.taskSt e k).opd (short ra)).t = true) ∧
    (∃ (s : State) (e : Fin 256) (k : Nat) (ra : ShortReg), Issues s e k { len := 2, uses := [short ra], branch := true } = true
        ∧
      plainTag ((s.now.taskSt e k).opd (short ra)).t = true) ∧
    (∃ (s : State) (e : Fin 256) (k : Nat) (rd : Reg), Issues s e k { writes := [rd], branch := true } = true) ∧
    (∃ (s : State) (e : Fin 256) (k : Nat), Issues s e k { len := 2, branch := true } = true) ∧
    (∃ (s : State) (e : Fin 256) (k : Nat) (rd : Reg) (ra : Reg), Issues s e k { uses := [ra], writes := [rd], branch := true }
        = true ∧
      ((s.now.taskSt e k).opd ra).t = Tag.cptr) ∧
    (∃ (s : State) (e : Fin 256) (k : Nat) (ra : Reg), Issues s e k { len := 2, uses := [ra], branch := true } = true ∧
      ((s.now.taskSt e k).opd ra).t = Tag.cptr) :=
  ⟨⟨run [(1, ⟨5, 1⟩), (2, ⟨0xFFFFFFFB, 1⟩)], 7, 5, 1, 2, (1, 1, 1), by decide +kernel⟩,
    ⟨run [(1, ⟨5, 1⟩), (2, ⟨0xFFFFFFFB, 1⟩)], 7, 5, 1, 2, (1, 1, 1), by decide +kernel⟩,
    ⟨run [(1, ⟨5, 1⟩), (2, ⟨0xFFFFFFFB, 1⟩)], 7, 5, 1, 2, (1, 1, 1), by decide +kernel⟩,
    ⟨run [(1, ⟨5, 1⟩), (2, ⟨0xFFFFFFFB, 1⟩)], 7, 5, 1, 2, (1, 1, 1), by decide +kernel⟩,
    ⟨run [(1, ⟨5, 2⟩), (2, ⟨0xFFFFFFFB, 2⟩)] id (fun s => { s with modeP := true }), 7, 5, 1, 2, (2, 2, 2), by decide +kernel⟩,
    ⟨run [(1, ⟨5, 2⟩), (2, ⟨0xFFFFFFFB, 2⟩)] id (fun s => { s with modeP := true }), 7, 5, 1, 2, (2, 2, 2), by decide +kernel⟩,
    ⟨run [(15, ⟨0, 11⟩)], 7, 5, 7, by decide +kernel⟩,
    ⟨run [(15, ⟨0, 11⟩)], 7, 5, 7, by decide +kernel⟩,
    ⟨run [], 7, 5, 31, by decide +kernel⟩,
    ⟨run [], 7, 5, by decide +kernel⟩,
    ⟨run [(1, ⟨0x7FFF, 9⟩)], 7, 5, 1, 1, by decide +kernel⟩,
    ⟨run [(1, ⟨0x7FFF, 9⟩)] id (fun s => { s with modeP := true, btb := [(0x100, 0x7FFE)] }), 7, 5, 1, by decide +kernel⟩⟩

theorem test_hyp_SystemInstructionResults :
    (∃ (s : State) (e : Fin 256) (k : Nat), Issues s e k { len := 4 } = true) ∧
    (∃ (s : State) (e : Fin 256) (k : Nat), Issues s e k { len := 2 } = true) ∧
    (∃ (s : State) (e : Fin 256) (k : Nat), Issues s e k { len := 4, alone := true } = true ∧
      (k ≠ 0 ∨ (s.now.engSt e).act = false) ∧ (s.now.taskSt e k).apend = false) ∧
    (∃ (s : State) (e : Fin 256) (k : Nat), Issues s e k { len := 4, alone := true } = true ∧
      (k ≠ 0 ∨ (s.now.engSt e).act = false) ∧ (s.now.taskSt e k).apend = true) ∧
    (∃ (s : State) (e : Fin 256) (k : Nat), Issues s e k { len := 2, alone := true } = true ∧
      (k ≠ 0 ∨ (s.now.engSt e).act = false) ∧ (s.now.taskSt e k).apend = false) ∧
    (∃ (s : State) (e : Fin 256) (k : Nat), Issues s e k { len := 2, alone := true } = true ∧
      (k ≠ 0 ∨ (s.now.engSt e).act = false) ∧ (s.now.taskSt e k).apend = true) ∧
    (∃ (s : State) (e : Fin 256) (k : Nat), Issues s e k { len := 4, mem := true } = true) ∧
    (∃ (s : State) (e : Fin 256) (k : Nat), Issues s e k { len := 2, mem := true } = true) ∧
    (∃ (s : State) (e : Fin 256) (k : Nat), Issues s e 0 { len := 4, cost := 4, alone := true, priv := true } = true ∧
      (s.now.engSt e).act = true ∧ k = (s.now.engSt e).etask ∧ k ≠ 0 ∧ (s.now.taskSt e k).st = .held ∧
      (s.now.engSt e).ewait = false) ∧
    (∃ (s : State) (e : Fin 256) (k : Nat), Issues s e 0 { len := 2, cost := 4, alone := true, priv := true } = true ∧
      (s.now.engSt e).act = true ∧ k = (s.now.engSt e).etask ∧ k ≠ 0 ∧ (s.now.taskSt e k).st = .held ∧
      (s.now.engSt e).ewait = false) ∧
    (∃ (s : State) (e : Fin 256) (k : Nat), Issues s e k { len := 4, alone := true } = true ∧ k ≠ 0) ∧
    (∃ (s : State) (e : Fin 256) (k : Nat), Issues s e k { len := 2, alone := true } = true ∧ k ≠ 0) ∧
    (∃ (s : State) (e : Fin 256) (k : Nat), Issues s e k { alone := true } = true ∧ k ≠ 0) ∧
    (∃ (s : State) (e : Fin 256) (k : Nat) (ra : Reg), Issues s e k { uses := [ra], mem := true } = true ∧
      ((s.now.taskSt e k).opd ra).t = Tag.dptr) ∧
    (∃ (s : State) (e : Fin 256) (k : Nat), Issues s e k { mem := true, priv := true } = true) ∧
    (∃ (s : State) (e : Fin 256) (k : Nat) (ra : Reg), Issues s e k { uses := [ra], mem := true } = true ∧
      (((s.now.taskSt e k).opd ra).t = Tag.dptr ∨ ((s.now.taskSt e k).opd ra).t = Tag.cptr)) ∧
    (∃ (s : State) (e : Fin 256) (k : Nat), Issues s e k { mem := true, priv := true } = true) ∧
    (∃ (s : State) (e : Fin 256) (k : Nat) (ra : Reg) (n : Nat) (a : Nat), Issues s e k { uses := [ra], mem := true } = true ∧
      (s.now.taskSt e k).opd ra = ⟨ra, n, Tag.evh⟩ ∧ n < 2048 ∧ (s.now.engSt e).stores.length < 8 ∧ a = R.EV_SW n) ∧
    (∃ (s : State) (e : Fin 256) (k : Nat) (ra : Reg) (n : Nat), Issues s e k { uses := [ra], mem := true } = true ∧
      (s.now.taskSt e k).opd ra = ⟨ra, n, Tag.evh⟩ ∧ 2048 ≤ n) :=
  ⟨⟨run [(31, ⟨7, 1⟩)], 7, 5, by decide +kernel⟩,
    ⟨run [(31, ⟨7, 1⟩)], 7, 5, by decide +kernel⟩,
    ⟨run [(31, ⟨7, 1⟩)] (fun t => { t with deadline := some 4000, waited := false }), 7, 5, by decide +kernel⟩,
    ⟨run [(31, ⟨7, 1⟩)] (fun t => { t with apend := true, pendKind := 4, pendIrq := 0x3FF, dln := 640 }), 7, 5, by decide +kernel⟩,
    ⟨run [(31, ⟨7, 1⟩)] (fun t => { t with deadline := some 4000, waited := false }), 7, 5, by decide +kernel⟩,
    ⟨run [(31, ⟨7, 1⟩)] (fun t => { t with apend := true, pendKind := 4, pendIrq := 0x3FF, dln := 640 }), 7, 5, by decide +kernel⟩,
    ⟨run [] id (fun s => { s with stores := [⟨5, 0x20000000, 4, ⟨1, 0⟩, false, some 1044, false⟩] }), 7, 5, by decide +kernel⟩,
    ⟨run [] id (fun s => { s with stores := [⟨5, 0x20000000, 4, ⟨1, 0⟩, false, some 1044, false⟩] }), 7, 5, by decide +kernel⟩,
    ⟨run [] id (fun
        s =>
        { s with tasks := [(0, { st := .run, pc := 0x200 }), (5, { st := .held, ceil := true, pc := 0x10C })], run := some 0, act := true, etask := 5, epc := 0x110 }), 7, 5, by decide +kernel⟩,
    ⟨run [] id (fun
        s =>
        { s with tasks := [(0, { st := .run, pc := 0x200 }), (5, { st := .held, ceil := true, pc := 0x10C })], run := some 0, act := true, etask := 5, epc := 0x110 }), 7, 5, by decide +kernel⟩,
    ⟨run [], 7, 5, by decide +kernel⟩,
    ⟨run [], 7, 5, by decide +kernel⟩,
    ⟨run [], 7, 5, by decide +kernel⟩,
    ⟨run [(1, ⟨0x20000047, 8⟩)] id (fun s => { s with modeP := true, dcache := [(2, [(0x1000002, 5)])] }), 7, 5, 1,
        by decide +kernel⟩,
    ⟨run [] id (fun s => { s with modeP := true, dcache := [(2, [(0x1000002, 5)])] }), 7, 5, by decide +kernel⟩,
    ⟨run [(1, ⟨0x20000047, 9⟩)] id (fun s => { s with modeP := true, icache := [(1, [(0x800001, 5)])], lbuf := [(0x800001, 5)] }),
        7, 5, 1, by decide +kernel⟩,
    ⟨run [] id (fun s => { s with modeP := true, icache := [(1, [(0x800001, 5)])] }), 7, 5, by decide +kernel⟩,
    ⟨run [(1, ⟨2047, 10⟩)], 7, 5, 1, 2047, 0x5100FFC4, by decide +kernel⟩,
    ⟨run [(1, ⟨2048, 10⟩)], 7, 5, 1, 2048, by decide +kernel⟩⟩

theorem test_hyp_ControlRegisterResults :
    (∃ (s : State) (e : Fin 256) (k : Nat) (rd : Reg) (n : BitVec 11) (i : CsrInfo), csrInfo n.toNat = some i ∧
      Issues s e k { writes := [rd], alone := true } = true ∧ (i.t00 = false ∨ k = 0) ∧
      (i.rdS = false ∨ (s.now.taskSt e k).priv = false) ∧ (n ≠ 0x003 ∧ n ≠ 0x008 ∧ n ≠ 0x010 ∧ n ≠ 0x029)) ∧
    (∃ (s : State) (e : Fin 256) (k : Nat) (rd : Reg), Issues s e k { writes := [rd], alone := true } = true) ∧
    (∃ (s : State) (e : Fin 256) (k : Nat) (rd : Reg), Issues s e k { writes := [rd], alone := true } = true) ∧
    (∃ (s : State) (e : Fin 256) (k : Nat) (ra : Reg), Issues s e k { uses := [ra], alone := true } = true ∧
      (s.now.taskSt e k).priv = false ∧ plainTag ((s.now.taskSt e k).opd ra).t = true) ∧
    (∃ (s : State) (e : Fin 256) (k : Nat) (ra : Reg), Issues s e k { uses := [ra], alone := true } = true ∧
      (s.now.taskSt e k).priv = false ∧ ((s.now.taskSt e k).opd ra).t = Tag.dptr) ∧
    (∃ (s : State) (e : Fin 256) (ra : Reg), Issues s e 0 { uses := [ra], alone := true } = true ∧
      (s.now.taskSt e 0).priv = false ∧ plainTag ((s.now.taskSt e 0).opd ra).t = true) ∧
    (∃ (s : State) (e : Fin 256) (k : Nat) (rd : Reg) (ra : Reg), Issues s e k { uses := [ra], writes := [rd], alone := true } =
        true ∧
      (s.now.taskSt e k).priv = false ∧ plainTag ((s.now.taskSt e k).opd ra).t = true ∧ (s.now.engSt e).mpb.length = 8 ∧
      (s.now.engSt e).mplock = false) ∧
    (∃ (s : State) (e : Fin 256) (k : Nat) (rd : Reg) (ra : Reg), Issues s e k { uses := [ra], writes := [rd], alone := true } =
        true ∧
      (s.now.taskSt e k).priv = false ∧ plainTag ((s.now.taskSt e k).opd ra).t = true) ∧
    (∃ (s : State) (e : Fin 256) (k : Nat) (ra : Reg), Issues s e k { uses := [ra], alone := true } = true ∧
      plainTag ((s.now.taskSt e k).opd ra).t = true ∧ bits ((s.now.taskSt e k).opd ra).d 5 0 < s.now.nt.getD 0 e) ∧
    (∃ (s : State) (e : Fin 256) (k : Nat) (rd : Reg) (n : BitVec 11) (i : CsrInfo), csrInfo n.toNat = some i ∧
      Issues s e k { writes := [rd], alone := true } = true ∧ i.t00 = false ∧ i.rdS = true ∧ (s.now.taskSt e k).priv = true ∧
      k ≠ 0) ∧
    (∃ (s : State) (e : Fin 256) (k : Nat) (rd : Reg), Issues s e k { len := 4, writes := [rd] } = true) ∧
    (∃ (s : State) (e : Fin 256) (k : Nat) (rd : Reg), Issues s e k { len := 2, writes := [rd] } = true) ∧
    (∃ (s : State) (e : Fin 256) (k : Nat) (ra : Reg) (i : LaneReg), Issues s e k { len := 4, uses := [ra] } = true ∧
      plainTag ((s.now.taskSt e k).opd ra).t = true ∧ (3 < i.val ∨ (i.val < 3 ∧ ((s.now.taskSt e k).opd ra).t = Tag.frac)) ∧
      s.now.laneOfTask s.hw e k = none) ∧
    (∃ (s : State) (e : Fin 256) (k : Nat) (ra : Reg) (i : LaneReg) (n : Nat), Issues s e k { len := 4, uses := [ra] } = true ∧
      (i.val < 3 ∧ ((s.now.taskSt e k).opd ra).t = Tag.frac) ∧ s.now.laneOfTask s.hw e k = some n ∧
      s.now.get (F.LL_CFG_CMT n) = i.val) ∧
    (∃ (s : State) (e : Fin 256) (k : Nat) (ra : Reg) (i : LaneReg), Issues s e k { len := 2, uses := [ra] } = true ∧
      plainTag ((s.now.taskSt e k).opd ra).t = true ∧ (3 < i.val ∨ (i.val < 3 ∧ ((s.now.taskSt e k).opd ra).t = Tag.frac)) ∧
      s.now.laneOfTask s.hw e k = none) ∧
    (∃ (s : State) (e : Fin 256) (k : Nat) (ra : Reg) (i : LaneReg) (n : Nat), Issues s e k { len := 2, uses := [ra] } = true ∧
      (i.val < 3 ∧ ((s.now.taskSt e k).opd ra).t = Tag.frac) ∧ s.now.laneOfTask s.hw e k = some n ∧
      s.now.get (F.LL_CFG_CMT n) = i.val) :=
  ⟨⟨run [] id (fun s => { s with vbase := 0x11000 }), 7, 5, 3, 0x020, ⟨false, true, true⟩, by decide +kernel⟩,
    ⟨run [] (fun t => { t with alost := 255 }), 7, 5, 3, by decide +kernel⟩,
    ⟨run [], 7, 5, 3, by decide +kernel⟩,
    ⟨run [(1, ⟨0xFFFFFFFF, 2⟩)], 7, 5, 1, by decide +kernel⟩,
    ⟨run [(1, ⟨0x1107F, 8⟩)], 7, 5, 1, by decide +kernel⟩,
    ⟨run [] id (fun s => { s with tasks := [(0, { st := .run, pc := 0x100, g := [(1, ⟨0xFFFFFFFF, 2⟩)] })], run := some 0 }), 7, 1,
        by decide +kernel⟩,
    ⟨run [(1, ⟨0x1007F, 2⟩)], 7, 5, 2, 1, by decide +kernel⟩,
    ⟨run [(1, ⟨0xFF, 2⟩)] (fun t => { t with dln := 0x1234 }), 7, 5, 2, 1, by decide +kernel⟩,
    ⟨run [(1, ⟨9, 2⟩)], 7, 5, 1, by decide +kernel⟩,
    ⟨run [] (fun t =>
      { t with priv := true })
        (fun s => { s with mpb := [0x00000087, 0, 0, 0, 0, 0, 0, 0], mpl := [0xFFFFFF00, 0, 0, 0, 0, 0, 0, 0] }), 7, 5, 3,
        0x020, ⟨false, true, true⟩, by decide +kernel⟩,
    ⟨run [] (fun t => { t with lin := [1, 2, 3, 4, 5, 6, 7] }), 7, 5, 3, by decide +kernel⟩,
    ⟨run [] (fun t => { t with lin := [1, 2, 3, 4, 5, 6, 7] }), 7, 5, 3, by decide +kernel⟩,
    ⟨run [(1, ⟨9, 3⟩)], 7, 5, 1, 2, by decide +kernel⟩,
    ⟨run [(1, ⟨9, 3⟩)] id id (fun b => ((((b.put (F.LL_CFG_EN 4) 1).put (F.LL_CFG_LAW 4) 1).put (F.LL_CFG_ENG 4) 7).put
        (F.LL_CFG_TASK 4) 5).put (F.LL_CFG_CMT 4) 2), 7, 5, 1, 2, 4, by decide +kernel⟩,
    ⟨run [(1, ⟨9, 3⟩)], 7, 5, 1, 2, by decide +kernel⟩,
    ⟨run [(1, ⟨9, 3⟩)] id id (fun b => ((((b.put (F.LL_CFG_EN 4) 1).put (F.LL_CFG_LAW 4) 1).put (F.LL_CFG_ENG 4) 7).put
        (F.LL_CFG_TASK 4) 5).put (F.LL_CFG_CMT 4) 2), 7, 5, 1, 2, 4, by decide +kernel⟩⟩

theorem test_hyp_LoadStoreResults :
    (∃ (s : State) (e : Fin 256) (k : Nat) (a : Nat) (rd : Reg) (ra : Reg) (h : TagNo) (i : BitVec 11), Issues s e k
        { uses := [ra], writes := [rd], mem := true, bad := (if plainTag h then none else some 1) } = true ∧
      ((s.now.taskSt e k).opd ra).t = Tag.dptr ∧ a = ofSigned 32 ((((s.now.taskSt e k).opd ra).d : Int) + imm11 i.toNat) ∧
      mpJudge (s.now.engSt e) (s.now.taskSt e k).priv false a 1 = none ∧ (s.now.engSt e).lastMeeting e a 1 = none ∧
      (ownTcm e a = true ∧ firstPart a 1 = 1) ∧
      ((granulesOf (unalias e a) 1).any s.start.granBad || (taggedWord s.hw (unalias e a) 1 && s.start.granBad
        (tagByteAddr (unalias e a) / 32))) = false) ∧
    (∃ (s : State) (e : Fin 256) (k : Nat) (a : Nat) (rd : Reg) (ra : Reg) (h : TagNo) (i : BitVec 11), Issues s e k
        { uses := [ra], writes := [rd], mem := true, bad := (if plainTag h then none else some 1) } = true ∧
      ((s.now.taskSt e k).opd ra).t = Tag.dptr ∧ a = ofSigned 32 ((((s.now.taskSt e k).opd ra).d : Int) + imm11 i.toNat) ∧
      mpJudge (s.now.engSt e) (s.now.taskSt e k).priv false a 1 = none ∧ (s.now.engSt e).lastMeeting e a 1 = none ∧
      (s.now.engSt e).modeP = false ∧ ownTcm e a = false ∧ (s.now.engSt e).loads.length < 4) ∧
    (∃ (s : State) (e : Fin 256) (k : Nat) (a : Nat) (rd : Reg) (ra : Reg) (h : TagNo) (i : BitVec 11), Issues s e k
        { uses := [ra], writes := [rd], mem := true, bad := (if plainTag h then none else some 1) } = true ∧
      ((s.now.taskSt e k).opd ra).t = Tag.dptr ∧ a = ofSigned 32 ((((s.now.taskSt e k).opd ra).d : Int) + imm11 i.toNat) ∧
      mpJudge (s.now.engSt e) (s.now.taskSt e k).priv false a 1 = none ∧ (s.now.engSt e).lastMeeting e a 1 = none ∧
      (ownTcm e a = true ∧ firstPart a 1 = 1) ∧
      ((granulesOf (unalias e a) 1).any s.start.granBad || (taggedWord s.hw (unalias e a) 1 && s.start.granBad
        (tagByteAddr (unalias e a) / 32))) = false) ∧
    (∃ (s : State) (e : Fin 256) (k : Nat) (a : Nat) (rd : Reg) (ra : Reg) (h : TagNo) (i : BitVec 11), Issues s e k
        { uses := [ra], writes := [rd], mem := true, bad := (if plainTag h then none else some 1) } = true ∧
      ((s.now.taskSt e k).opd ra).t = Tag.dptr ∧ a = ofSigned 32 ((((s.now.taskSt e k).opd ra).d : Int) + imm11 i.toNat) ∧
      mpJudge (s.now.engSt e) (s.now.taskSt e k).priv false a 1 = none ∧ (s.now.engSt e).lastMeeting e a 1 = none ∧
      (s.now.engSt e).modeP = false ∧ ownTcm e a = false ∧ (s.now.engSt e).loads.length < 4) ∧
    (∃ (s : State) (e : Fin 256) (k : Nat) (a : Nat) (rd : Reg) (ra : Reg) (h : TagNo) (i : BitVec 11), Issues s e k
        { uses := [ra], writes := [rd], mem := true, bad := (if plainTag h then none else some 1) } = true ∧
      ((s.now.taskSt e k).opd ra).t = Tag.dptr ∧ a = ofSigned 32 ((((s.now.taskSt e k).opd ra).d : Int) + imm11 i.toNat) ∧
      mpJudge (s.now.engSt e) (s.now.taskSt e k).priv false a 2 = none ∧ (s.now.engSt e).lastMeeting e a 2 = none ∧
      (ownTcm e a = true ∧ firstPart a 2 = 2) ∧
      ((granulesOf (unalias e a) 2).any s.start.granBad || (taggedWord s.hw (unalias e a) 2 && s.start.granBad
        (tagByteAddr (unalias e a) / 32))) = false) ∧
    (∃ (s : State) (e : Fin 256) (k : Nat) (a : Nat) (rd : Reg) (ra : Reg) (h : TagNo) (i : BitVec 11), Issues s e k
        { uses := [ra], writes := [rd], mem := true, bad := (if plainTag h then none else some 1) } = true ∧
      ((s.now.taskSt e k).opd ra).t = Tag.dptr ∧ a = ofSigned 32 ((((s.now.taskSt e k).opd ra).d : Int) + imm11 i.toNat) ∧
      mpJudge (s.now.engSt e) (s.now.taskSt e k).priv false a 2 = none ∧ (s.now.engSt e).lastMeeting e a 2 = none ∧
      (s.now.engSt e).modeP = false ∧ ownTcm e a = false ∧ (s.now.engSt e).loads.length < 4) ∧
    (∃ (s : State) (e : Fin 256) (k : Nat) (a : Nat) (rd : Reg) (ra : Reg) (h : TagNo) (i : BitVec 11), Issues s e k
        { uses := [ra], writes := [rd], mem := true, bad := (if plainTag h then none else some 1) } = true ∧
      ((s.now.taskSt e k).opd ra).t = Tag.dptr ∧ a = ofSigned 32 ((((s.now.taskSt e k).opd ra).d : Int) + imm11 i.toNat) ∧
      mpJudge (s.now.engSt e) (s.now.taskSt e k).priv false a 2 = none ∧ (s.now.engSt e).lastMeeting e a 2 = none ∧
      (ownTcm e a = true ∧ firstPart a 2 = 2) ∧
      ((granulesOf (unalias e a) 2).any s.start.granBad || (taggedWord s.hw (unalias e a) 2 && s.start.granBad
        (tagByteAddr (unalias e a) / 32))) = false) ∧
    (∃ (s : State) (e : Fin 256) (k : Nat) (a : Nat) (rd : Reg) (ra : Reg) (h : TagNo) (i : BitVec 11), Issues s e k
        { uses := [ra], writes := [rd], mem := true, bad := (if plainTag h then none else some 1) } = true ∧
      ((s.now.taskSt e k).opd ra).t = Tag.dptr ∧ a = ofSigned 32 ((((s.now.taskSt e k).opd ra).d : Int) + imm11 i.toNat) ∧
      mpJudge (s.now.engSt e) (s.now.taskSt e k).priv false a 2 = none ∧ (s.now.engSt e).lastMeeting e a 2 = none ∧
      (s.now.engSt e).modeP = false ∧ ownTcm e a = false ∧ (s.now.engSt e).loads.length < 4) ∧
    (∃ (s : State) (e : Fin 256) (k : Nat) (a : Nat) (rd : Reg) (ra : Reg) (h : TagNo) (i : BitVec 11), Issues s e k
        { uses := [ra], writes := [rd], mem := true, bad := (if plainTag h then none else some 1) } = true ∧
      ((s.now.taskSt e k).opd ra).t = Tag.dptr ∧ a = ofSigned 32 ((((s.now.taskSt e k).opd ra).d : Int) + imm11 i.toNat) ∧
      mpJudge (s.now.engSt e) (s.now.taskSt e k).priv false a 4 = none ∧ (s.now.engSt e).lastMeeting e a 4 = none ∧
      (ownTcm e a = true ∧ firstPart a 4 = 4) ∧
      ((granulesOf (unalias e a) 4).any s.start.granBad || (taggedWord s.hw (unalias e a) 4 && s.start.granBad
        (tagByteAddr (unalias e a) / 32))) = false) ∧
    (∃ (s : State) (e : Fin 256) (k : Nat) (a : Nat) (rd : Reg) (ra : Reg) (h : TagNo) (i : BitVec 11), Issues s e k
        { uses := [ra], writes := [rd], mem := true, bad := (if plainTag h then none else some 1) } = true ∧
      ((s.now.taskSt e k).opd ra).t = Tag.dptr ∧ a = ofSigned 32 ((((s.now.taskSt e k).opd ra).d : Int) + imm11 i.toNat) ∧
      mpJudge (s.now.engSt e) (s.now.taskSt e k).priv false a 4 = none ∧ (s.now.engSt e).lastMeeting e a 4 = none ∧
      (s.now.engSt e).modeP = false ∧ ownTcm e a = false ∧ (s.now.engSt e).loads.length < 4) ∧
    (∃ (s : State) (e : Fin 256) (k : Nat) (a : Nat) (x : StoreEnt) (rd : Reg) (ra : Reg) (h : TagNo) (i : BitVec 11), Issues s
        e k { uses := [ra], writes := [rd], mem := true, bad := (if plainTag h then none else some 1) } = true ∧
      ((s.now.taskSt e k).opd ra).t = Tag.dptr ∧ a = ofSigned 32 ((((s.now.taskSt e k).opd ra).d : Int) + imm11 i.toNat) ∧
      mpJudge (s.now.engSt e) (s.now.taskSt e k).priv false a 4 = none ∧ (s.now.engSt e).lastMeeting e a 4 = some x ∧
      x.covers e a 4 = true ∧ ownTcm e a = true) ∧
    (∃ (s : State) (e : Fin 256) (k : Nat) (a : Nat) (rd : ShortReg) (ra : ShortReg) (i : Fin 32), Issues s e k
        { len := 2, uses := [short ra], writes := [short rd], mem := true } = true ∧
      ((s.now.taskSt e k).opd (short ra)).t = Tag.dptr ∧
      a = ofSigned 32 ((((s.now.taskSt e k).opd (short ra)).d : Int) + ((4 * i.val : Nat) : Int)) ∧
      mpJudge (s.now.engSt e) (s.now.taskSt e k).priv false a 4 = none ∧ (s.now.engSt e).lastMeeting e a 4 = none ∧
      (ownTcm e a = true ∧ firstPart a 4 = 4) ∧
      ((granulesOf (unalias e a) 4).any s.start.granBad || (taggedWord s.hw (unalias e a) 4 && s.start.granBad
        (tagByteAddr (unalias e a) / 32))) = false) ∧
    (∃ (s : State) (e : Fin 256) (k : Nat) (a : Nat) (rd : ShortReg) (ra : ShortReg) (i : Fin 32), Issues s e k
        { len := 2, uses := [short ra], writes := [short rd], mem := true } = true ∧
      ((s.now.taskSt e k).opd (short ra)).t = Tag.dptr ∧
      a = ofSigned 32 ((((s.now.taskSt e k).opd (short ra)).d : Int) + ((4 * i.val : Nat) : Int)) ∧
      mpJudge (s.now.engSt e) (s.now.taskSt e k).priv false a 4 = none ∧ (s.now.engSt e).lastMeeting e a 4 = none ∧
      (s.now.engSt e).modeP = false ∧ ownTcm e a = false ∧ (s.now.engSt e).loads.length < 4) ∧
    (∃ (s : State) (e : Fin 256) (k : Nat) (a : Nat) (rs : Reg) (ra : Reg) (i : BitVec 11), Issues s e k
        { uses := [ra], moves := [rs], mem := true } = true ∧
      ((s.now.taskSt e k).opd ra).t = Tag.dptr ∧ plainTag ((s.now.taskSt e k).opd rs).t = true ∧
      a = ofSigned 32 ((((s.now.taskSt e k).opd ra).d : Int) + imm11 i.toNat) ∧
      mpJudge (s.now.engSt e) (s.now.taskSt e k).priv true a 1 = none ∧ (s.now.engSt e).stores.length < 8 ∧ (ownTcm e a = true ∧
      ownTcm e ((a + 0) % 2 ^ 32) = true ∧ firstPart a 1 = 1)) ∧
    (∃ (s : State) (e : Fin 256) (k : Nat) (a : Nat) (rs : Reg) (ra : Reg) (i : BitVec 11), Issues s e k
        { uses := [ra], moves := [rs], mem := true } = true ∧
      ((s.now.taskSt e k).opd ra).t = Tag.dptr ∧ plainTag ((s.now.taskSt e k).opd rs).t = true ∧
      a = ofSigned 32 ((((s.now.taskSt e k).opd ra).d : Int) + imm11 i.toNat) ∧
      mpJudge (s.now.engSt e) (s.now.taskSt e k).priv true a 1 = none ∧ (s.now.engSt e).stores.length < 8 ∧
      ((s.now.engSt e).modeP = false ∧ ownTcm e a = false ∧ inFlash a = false)) ∧
    (∃ (s : State) (e : Fin 256) (k : Nat) (a : Nat) (rs : Reg) (ra : Reg) (i : BitVec 11), Issues s e k
        { uses := [ra], moves := [rs], mem := true } = true ∧
      ((s.now.taskSt e k).opd ra).t = Tag.dptr ∧ plainTag ((s.now.taskSt e k).opd rs).t = true ∧
      a = ofSigned 32 ((((s.now.taskSt e k).opd ra).d : Int) + imm11 i.toNat) ∧
      mpJudge (s.now.engSt e) (s.now.taskSt e k).priv true a 2 = none ∧ (s.now.engSt e).stores.length < 8 ∧ (ownTcm e a = true ∧
      ownTcm e ((a + 1) % 2 ^ 32) = true ∧ firstPart a 2 = 2)) ∧
    (∃ (s : State) (e : Fin 256) (k : Nat) (a : Nat) (rs : Reg) (ra : Reg) (i : BitVec 11), Issues s e k
        { uses := [ra], moves := [rs], mem := true } = true ∧
      ((s.now.taskSt e k).opd ra).t = Tag.dptr ∧ plainTag ((s.now.taskSt e k).opd rs).t = true ∧
      a = ofSigned 32 ((((s.now.taskSt e k).opd ra).d : Int) + imm11 i.toNat) ∧
      mpJudge (s.now.engSt e) (s.now.taskSt e k).priv true a 2 = none ∧ (s.now.engSt e).stores.length < 8 ∧
      ((s.now.engSt e).modeP = false ∧ ownTcm e a = false ∧ inFlash a = false)) ∧
    (∃ (s : State) (e : Fin 256) (k : Nat) (a : Nat) (rs : Reg) (ra : Reg) (i : BitVec 11), Issues s e k
        { uses := [ra], moves := [rs], mem := true } = true ∧
      ((s.now.taskSt e k).opd ra).t = Tag.dptr ∧ plainTag ((s.now.taskSt e k).opd rs).t = true ∧
      a = ofSigned 32 ((((s.now.taskSt e k).opd ra).d : Int) + imm11 i.toNat) ∧
      mpJudge (s.now.engSt e) (s.now.taskSt e k).priv true a 4 = none ∧ (s.now.engSt e).stores.length < 8 ∧ (ownTcm e a = true ∧
      ownTcm e ((a + 3) % 2 ^ 32) = true ∧ firstPart a 4 = 4)) ∧
    (∃ (s : State) (e : Fin 256) (k : Nat) (a : Nat) (rs : Reg) (ra : Reg) (i : BitVec 11), Issues s e k
        { uses := [ra], moves := [rs], mem := true } = true ∧
      ((s.now.taskSt e k).opd ra).t = Tag.dptr ∧ plainTag ((s.now.taskSt e k).opd rs).t = true ∧
      a = ofSigned 32 ((((s.now.taskSt e k).opd ra).d : Int) + imm11 i.toNat) ∧
      mpJudge (s.now.engSt e) (s.now.taskSt e k).priv true a 4 = none ∧ (s.now.engSt e).stores.length < 8 ∧
      ((s.now.engSt e).modeP = false ∧ ownTcm e a = false ∧ inFlash a = false)) ∧
    (∃ (s : State) (e : Fin 256) (k : Nat) (a : Nat) (rs : ShortReg) (ra : ShortReg) (i : Fin 32), Issues s e k
        { len := 2, uses := [short ra], moves := [short rs], mem := true } = true ∧
      ((s.now.taskSt e k).opd (short ra)).t = Tag.dptr ∧ plainTag ((s.now.taskSt e k).opd (short rs)).t = true ∧
      a = ofSigned 32 ((((s.now.taskSt e k).opd (short ra)).d : Int) + ((4 * i.val : Nat) : Int)) ∧
      mpJudge (s.now.engSt e) (s.now.taskSt e k).priv true a 4 = none ∧ (s.now.engSt e).stores.length < 8 ∧ (ownTcm e a = true ∧
      ownTcm e ((a + 3) % 2 ^ 32) = true ∧ firstPart a 4 = 4)) ∧
    (∃ (s : State) (e : Fin 256) (k : Nat) (a : Nat) (rs : ShortReg) (ra : ShortReg) (i : Fin 32), Issues s e k
        { len := 2, uses := [short ra], moves := [short rs], mem := true } = true ∧
      ((s.now.taskSt e k).opd (short ra)).t = Tag.dptr ∧ plainTag ((s.now.taskSt e k).opd (short rs)).t = true ∧
      a = ofSigned 32 ((((s.now.taskSt e k).opd (short ra)).d : Int) + ((4 * i.val : Nat) : Int)) ∧
      mpJudge (s.now.engSt e) (s.now.taskSt e k).priv true a 4 = none ∧ (s.now.engSt e).stores.length < 8 ∧
      ((s.now.engSt e).modeP = false ∧ ownTcm e a = false ∧ inFlash a = false)) :=
  ⟨⟨run [(1, ⟨65572,
        8⟩)]
        id id
        (fun
        b => { b with mem := [(0x080F0020, 0x80), (0x080F0021, 0x81), (0x080F0022, 2), (0x080F0023, 3), (0x080F8004, 0x46)] }),
        7, 5, 0x10020, 3, 1, 5, 0x7FC, by decide +kernel⟩,
    ⟨run [(1, ⟨536870948, 8⟩)], 7, 5, 0x20000020, 3, 1, 5, 0x7FC, by decide +kernel⟩,
    ⟨run [(1, ⟨65572,
        8⟩)]
        id id
        (fun
        b => { b with mem := [(0x080F0020, 0x80), (0x080F0021, 0x81), (0x080F0022, 2), (0x080F0023, 3), (0x080F8004, 0x46)] }),
        7, 5, 0x10020, 3, 1, 5, 0x7FC, by decide +kernel⟩,
    ⟨run [(1, ⟨536870948, 8⟩)], 7, 5, 0x20000020, 3, 1, 5, 0x7FC, by decide +kernel⟩,
    ⟨run [(1, ⟨65572,
        8⟩)]
        id id
        (fun
        b => { b with mem := [(0x080F0020, 0x80), (0x080F0021, 0x81), (0x080F0022, 2), (0x080F0023, 3), (0x080F8004, 0x46)] }),
        7, 5, 0x10020, 3, 1, 5, 0x7FC, by decide +kernel⟩,
    ⟨run [(1, ⟨536870948, 8⟩)], 7, 5, 0x20000020, 3, 1, 5, 0x7FC, by decide +kernel⟩,
    ⟨run [(1, ⟨65572,
        8⟩)]
        id id
        (fun
        b => { b with mem := [(0x080F0020, 0x80), (0x080F0021, 0x81), (0x080F0022, 2), (0x080F0023, 3), (0x080F8004, 0x46)] }),
        7, 5, 0x10020, 3, 1, 5, 0x7FC, by decide +kernel⟩,
    ⟨run [(1, ⟨536870948, 8⟩)], 7, 5, 0x20000020, 3, 1, 5, 0x7FC, by decide +kernel⟩,
    ⟨run [(1, ⟨65572,
        8⟩)]
        id id
        (fun
        b => { b with mem := [(0x080F0020, 0x80), (0x080F0021, 0x81), (0x080F0022, 2), (0x080F0023, 3), (0x080F8004, 0x46)] }),
        7, 5, 0x10020, 3, 1, 5, 0x7FC, by decide +kernel⟩,
    ⟨run [(1, ⟨536870948, 8⟩)], 7, 5, 0x20000020, 3, 1, 5, 0x7FC, by decide +kernel⟩,
    ⟨run [(1, ⟨65572, 8⟩)] id (fun s => { s with stores := [⟨5, 0x10020, 4, ⟨0x84838281, 3⟩, true, some 1002, false⟩] }), 7, 5,
        0x10020, ⟨5, 0x10020, 4, ⟨0x84838281, 3⟩, true, some 1002, false⟩, 3, 1, 5, 0x7FC, by decide +kernel⟩,
    ⟨run [(10, ⟨65444,
        8⟩)]
        id id
        (fun
        b => { b with mem := [(0x080F0020, 0x80), (0x080F0021, 0x81), (0x080F0022, 2), (0x080F0023, 3), (0x080F8004, 0x46)] }),
        7, 5, 0x10020, 1, 2, 31, by decide +kernel⟩,
    ⟨run [(10, ⟨536870820, 8⟩)], 7, 5, 0x20000020, 1, 2, 31, by decide +kernel⟩,
    ⟨run [(1, ⟨65572, 8⟩), (3, ⟨0xFEDCBA98, 6⟩)], 7, 5, 65568, 3, 1, 0x7FC, by decide +kernel⟩,
    ⟨run [(1, ⟨536870948, 8⟩), (3, ⟨0xFEDCBA98, 6⟩)], 7, 5, 536870944, 3, 1, 0x7FC, by decide +kernel⟩,
    ⟨run [(1, ⟨65572, 8⟩), (3, ⟨0xFEDCBA98, 6⟩)], 7, 5, 65568, 3, 1, 0x7FC, by decide +kernel⟩,
    ⟨run [(1, ⟨536870948, 8⟩), (3, ⟨0xFEDCBA98, 6⟩)], 7, 5, 536870944, 3, 1, 0x7FC, by decide +kernel⟩,
    ⟨run [(1, ⟨65572, 8⟩), (3, ⟨0xFEDCBA98, 6⟩)], 7, 5, 65568, 3, 1, 0x7FC, by decide +kernel⟩,
    ⟨run [(1, ⟨536870948, 8⟩), (3, ⟨0xFEDCBA98, 6⟩)], 7, 5, 536870944, 3, 1, 0x7FC, by decide +kernel⟩,
    ⟨run [(9, ⟨0xFEDCBA98, 6⟩), (10, ⟨65444, 8⟩)], 7, 5, 65568, 1, 2, 31, by decide +kernel⟩,
    ⟨run [(9, ⟨0xFEDCBA98, 6⟩), (10, ⟨536870820, 8⟩)], 7, 5, 536870944, 1, 2, 31, by decide +kernel⟩⟩

theorem test_hyp_TransformResults : [
    (let rd : Reg := 4; let ra : Reg := 8; let rb : Reg := 10; takesAll { uses := [ra, rb], writes := regsFrom rd 2, cost := 6, bad := regRules (regsFrom rd 2) true [ra, rb] } (fun t =>
      (fracPair (t.opd ra) (t.opd rb)).map fun _ => [(rd, word (t.opd ra).d Tag.frac),
        (rd + 1, clarkeBeta (t.opd ra).d (t.opd rb).d)])),
    (let rd : Reg := 4; let ra : Reg := 8; let rb : Reg := 10; takesAll { uses := regsFrom ra 2 ++ regsFrom rb 2, writes := regsFrom rd 2, cost := 6, bad := regRules (regsFrom rd 2) true (regsFrom ra 2 ++ regsFrom rb 2) } (fun t =>
      (fracPair (t.opd ra) (t.opd (ra + 1))).bind fun _ => (fracPair (t.opd rb) (t.opd (rb + 1))).map fun _ =>
        [(rd, parkD (t.opd ra).d (t.opd (ra + 1)).d (t.opd rb).d (t.opd (rb + 1)).d),
        (rd + 1, parkQ (t.opd ra).d (t.opd (ra + 1)).d (t.opd rb).d (t.opd (rb + 1)).d)])),
    (let rd : Reg := 4; let ra : Reg := 8; let rb : Reg := 10; takesAll { uses := regsFrom ra 2 ++ regsFrom rb 2, writes := regsFrom rd 2, cost := 6, bad := regRules (regsFrom rd 2) true (regsFrom ra 2 ++ regsFrom rb 2) } (fun t =>
      (fracPair (t.opd ra) (t.opd (ra + 1))).bind fun _ => (fracPair (t.opd rb) (t.opd (rb + 1))).map fun _ =>
        [(rd, iparkAlpha (t.opd ra).d (t.opd (ra + 1)).d (t.opd rb).d (t.opd (rb + 1)).d),
        (rd + 1, iparkBeta (t.opd ra).d (t.opd (ra + 1)).d (t.opd rb).d (t.opd (rb + 1)).d)])),
    (let rd : Reg := 4; let ra : Reg := 8; takesAll { uses := [ra], writes := regsFrom rd 2, cost := 18, bad := regRules (regsFrom rd 2) true [ra] } (fun t =>
      (single (among [Tag.ang]) (t.opd ra)).map fun _ => [(rd, sincosOut 0 (t.opd ra).d), (rd + 1, sincosOut 1 (t.opd ra).d)])),
    (let rd : Reg := 4; let ra : Reg := 8; let rb : Reg := 10; takesAll { uses := [ra, rb], writes := regsFrom rd 2, cost := 22, bad := regRules (regsFrom rd 2) true [ra, rb] } (fun t =>
      (pairUp (fun u v => if u = v ∧
      (u = Tag.int ∨ u = Tag.frac ∨ u = Tag.fix) then some u else none) (t.opd ra) (t.opd rb)).map fun x =>
        [(rd, atanAngle (t.opd ra).d (t.opd rb).d), (rd + 1, atanMag x.2.2 (t.opd ra).d (t.opd rb).d)])),
    (let rd : Reg := 4; let ra : Reg := 8; let rb : Reg := 10; takesAll { uses := [ra, rb], writes := [rd], cost := 18, bad := regRules [rd] false [ra, rb] } (fun t =>
      (pairUp numTags (t.opd ra) (t.opd rb)).bind fun x => if (t.opd rb).d = 0 then .error { code := excDivz } else .ok
        [(rd, quotient x.2.2 (t.opd ra).d (t.opd rb).d)])),
    (let rd : Reg := 4; let ra : Reg := 8; let rb : Reg := 10; takesAll { uses := [ra, rb], writes := [rd], cost := 18, bad := regRules [rd] false [ra, rb] } (fun t =>
      (pairUp wholeTags (t.opd ra) (t.opd rb)).bind fun x => if (t.opd rb).d = 0 then .error { code := excDivz } else .ok
        [(rd, remainder x.2.2 (t.opd ra).d (t.opd rb).d)])),
    (let rd : Reg := 4; let ra : Reg := 8; takesAll { uses := [ra], writes := [rd], cost := 20, bad := regRules [rd] false [ra] } (fun t =>
      (single (among [Tag.uns, Tag.frac, Tag.fix, Tag.flt]) (t.opd ra)).map fun x => [(rd, root x (t.opd ra).d)]))].all id = true := by
  decide +kernel

theorem test_hyp_BlockMoveResults :
    (∃ (s : State) (e : Fin 256) (k : Nat) (ra : Reg) (rb : Reg) (b : Nat) (m : Nat) (n : Nat), ((s.now.taskSt e k).opd ra) =
        ⟨ra, b, Tag.dptr⟩ ∧
      ((s.now.taskSt e k).opd rb).d = m ∧ (((s.now.taskSt e k).opd rb).t = Tag.int ∨ ((s.now.taskSt e k).opd rb).t = Tag.uns) ∧
      n = (maskRegs m).length ∧ Issues s e k (moving [ra, rb] [] (maskRegs m) (2 + n)) = true ∧
      (s.now.taskSt e k).rsmV = false ∧ s.now.microPlain e = true ∧ (bit m 0 = false ∧ bit m ra = false ∧ bit m rb = false) ∧
      ownWords e b n = true ∧
      (∀ j ∈ List.range (n), mpJudge (s.now.engSt e) (s.now.taskSt e k).priv false (b + 4 * j) 4 = none)) ∧
    (∃ (s : State) (e : Fin 256) (k : Nat) (ra : Reg) (rb : Reg) (b : Nat) (m : Nat) (n : Nat), ((s.now.taskSt e k).opd ra) =
        ⟨ra, b, Tag.dptr⟩ ∧
      ((s.now.taskSt e k).opd rb).d = m ∧ (((s.now.taskSt e k).opd rb).t = Tag.int ∨ ((s.now.taskSt e k).opd rb).t = Tag.uns) ∧
      n = (maskRegs m).length ∧ Issues s e k (moving [ra, rb] (maskRegs m) [] (1 + n)) = true ∧
      (s.now.taskSt e k).rsmV = false ∧ s.now.microPlain e = true ∧ (bit m 0 = false ∧ b % 4 = 0) ∧ ownWords e b n = true ∧
      (∀ j ∈ List.range (n), mpJudge (s.now.engSt e) (s.now.taskSt e k).priv true (b + 4 * j) 4 = none) ∧
      (∀ j ∈ List.range (n), s.now.granBad (unalias e (b + 4 * j) / 32) = false ∧
      s.now.granBad (tagByteAddr (unalias e (b + 4 * j)) / 32) = false) ∧ s.now.unwritten 0 (unalias e b) (4 * n) = true) ∧
    (∃ (s : State) (e : Fin 256) (k : Nat) (ra : Reg) (rb : Reg) (b : Nat) (m : Nat) (n : Nat), ((s.now.taskSt e k).opd ra) =
        ⟨ra, b, Tag.dptr⟩ ∧
      ((s.now.taskSt e k).opd rb).d = m ∧ m < 64 ∧
      (((s.now.taskSt e k).opd rb).t = Tag.int ∨ ((s.now.taskSt e k).opd rb).t = Tag.uns) ∧
      (n = ((List.range 41).filter fun j => (s.now.taskSt e k).saves m j).length) ∧
      Issues s e k (moving [ra, rb] (wordRegs ((s.now.taskSt e k).saves m)) [] (1 + n)) = true ∧
      (s.now.taskSt e k).rsmV = false ∧ s.now.microPlain e = true ∧ b % 4 = 0 ∧ ownWords e b 41 = true ∧
      (∀ j ∈ List.range (41), mpJudge (s.now.engSt e) (s.now.taskSt e k).priv true (b + 4 * j) 4 = none) ∧
      (∀ j ∈ List.range (41), s.now.granBad (unalias e (b + 4 * j) / 32) = false ∧
      s.now.granBad (tagByteAddr (unalias e (b + 4 * j)) / 32) = false) ∧ s.now.unwritten 0 (unalias e b) 164 = true) ∧
    (∃ (s : State) (e : Fin 256) (k : Nat) (ra : Reg) (rb : Reg) (b : Nat) (m : Nat) (n : Nat), ((s.now.taskSt e k).opd ra) =
        ⟨ra, b, Tag.dptr⟩ ∧
      ((s.now.taskSt e k).opd rb).d = m ∧ m < 16 ∧
      (((s.now.taskSt e k).opd rb).t = Tag.int ∨ ((s.now.taskSt e k).opd rb).t = Tag.uns) ∧
      (n = ((List.range 41).filter fun j => bit m (wordGroup j)).length) ∧
      (Issues s e k (moving [ra, rb] [] (wordRegs fun j => bit m (wordGroup j)) (1 + n)) = true) ∧
      (s.now.taskSt e k).rsmV = false ∧ s.now.microPlain e = true ∧ (bit m (wordGroup (ra.val - 1)) = false ∧
      bit m (wordGroup (rb.val - 1)) = false ∧ ra ≠ 0) ∧ ownWords e b 41 = true ∧
      (∀ j ∈ List.range (41), mpJudge (s.now.engSt e) (s.now.taskSt e k).priv false (b + 4 * j) 4 = none)) ∧
    (∃ (s : State) (e : Fin 256) (k : Nat) (rd : Reg) (ra : Reg) (rb : Reg) (y : Nat) (x : Nat) (g : Nat),
        ((s.now.taskSt e k).opd rd) = ⟨rd, y, Tag.dptr⟩ ∧
      ((s.now.taskSt e k).opd ra) = ⟨ra, x, Tag.dptr⟩ ∧ ((s.now.taskSt e k).opd rb).d = g ∧
      (((s.now.taskSt e k).opd rb).t = Tag.int ∨ ((s.now.taskSt e k).opd rb).t = Tag.uns) ∧ (1 ≤ g ∧ g ≤ 1024) ∧
      Issues s e k (moving [rd, ra, rb] [] [] (2 + 2 * g)) = true ∧ (s.now.taskSt e k).rsmV = false ∧
      s.now.microPlain e = true ∧ (y % 32 = 0 ∧ x % 32 = 0 ∧ ownWords e y (8 * g) = true ∧ ownWords e x (8 * g) = true) ∧
      (unalias e x + 32 * g ≤ unalias e y ∨ unalias e y + 32 * g ≤ unalias e x) ∧ (∀ j, j < g →
      mpJudge (s.now.engSt e) (s.now.taskSt e k).priv false (x + 32 * j) 4 = none ∧
      mpJudge (s.now.engSt e) (s.now.taskSt e k).priv true (y + 32 * j) 4 = none) ∧ (∀ j, j < 8 * g →
      (s.now.wideSrc s.ctx [unalias e x / 32 + j / 8]).granBad (tagByteAddr (unalias e (x + 4 * j)) / 32) = false ∧
      s.now.granBad (tagByteAddr (unalias e (y + 4 * j)) / 32) = false) ∧ s.now.unwritten 0 (unalias e y) (32 * g) = true) ∧
    (∃ (s : State) (e : Fin 256) (k : Nat) (rd : Reg) (ra : Reg) (rb : Reg) (q : AccNo) (x : Nat) (y : Nat) (n : Nat) (g : Nat),
        ((s.now.taskSt e k).opd rd).d = n ∧
      (((s.now.taskSt e k).opd rd).t = Tag.int ∨ ((s.now.taskSt e k).opd rd).t = Tag.uns) ∧
      ((s.now.taskSt e k).opd ra) = ⟨ra, x, Tag.dptr⟩ ∧ ((s.now.taskSt e k).opd rb) = ⟨rb, y, Tag.dptr⟩ ∧ (1 ≤ n ∧ n ≤ 256) ∧
      Issues s e k (moving [rd, ra, rb] [] [] (3 + n)) = true ∧ (s.now.taskSt e k).rsmV = false ∧ s.now.microPlain e = true ∧
      (ownWords e x n = true ∧ ownWords e y n = true) ∧
      (∀ j ∈ List.range (n), mpJudge (s.now.engSt e) (s.now.taskSt e k).priv false (x + 4 * j) 4 = none) ∧
      (∀ j ∈ List.range (n), mpJudge (s.now.engSt e) (s.now.taskSt e k).priv false (y + 4 * j) 4 = none) ∧ (1 ≤ g ∧ g ≤ 4) ∧
      (ra ≠ 0 ∧ rb ≠ 0) ∧ (∀ j, j < n → ((wideLoad s.ctx e (x + 4 * j) s.now).1).t.toNat = g ∧
      ((wideLoad s.ctx e (y + 4 * j) s.now).1).t.toNat = g) ∧
      (((s.now.taskSt e k).acc q).kind = 0 ∨ ((s.now.taskSt e k).acc q).kind = g)) ∧
    (∃ (s : State) (e : Fin 256) (k : Nat) (rd : Reg) (ra : Reg) (rb : Reg) (b : Nat) (n : Nat) (h : Nat) (c : Nat) (v : TWord),
        ((s.now.taskSt e k).opd ra).t = Tag.frac ∧
      ((s.now.taskSt e k).opd rb) = ⟨rb, b, Tag.dptr⟩ ∧ v = (wideRead s.ctx e (b) s.now).1 ∧ (v.d.toNat < 2 ^ 14 ∧
      bits v.d.toNat 7 6 = 0 ∧ v.t ≠ 15) ∧ n = bits v.d.toNat 5 0 + 1 ∧ bits v.d.toNat 13 8 < n ∧
      h = (bits v.d.toNat 13 8 + 1) % n ∧ c = 2 * n + 1 ∧ b % 4 = 0 ∧
      Issues s e k { moving [ra, rb] [] [rd] (4 + n) with bad := regRules [rd] false [ra, rb] } = true ∧
      (s.now.taskSt e k).rsmV = false ∧ s.now.microPlain e = true ∧ rb ≠ 0 ∧ ownWords e b c = true ∧
      (∀ j ∈ List.range (c), mpJudge (s.now.engSt e) (s.now.taskSt e k).priv false (b + 4 * j) 4 = none) ∧
      (∀ j ∈ List.range (c), mpJudge (s.now.engSt e) (s.now.taskSt e k).priv true (b + 4 * j) 4 = none) ∧
      (∀ j ∈ List.range (c), s.now.granBad (unalias e (b + 4 * j) / 32) = false ∧
      s.now.granBad (tagByteAddr (unalias e (b + 4 * j)) / 32) = false) ∧ (∀ j ∈ List.range c, j ≠ 0 → j ≠ n + 1 + h →
      ((wideRead s.ctx e (b + 4 * j) s.now).1).t.toNat = Tag.frac) ∧
      (∀ j ∈ List.range c, (wideRead s.ctx e (b + 4 * j) s.start).1 = (wideRead s.ctx e (b + 4 * j) s.now).1) ∧
      (s.now.unwritten 0 (unalias e b) 4 = true ∧ s.now.unwritten 0 (unalias e (b + 4 * (n + 1 + h))) 4 = true)) ∧
    (∃ (s : State) (e : Fin 256) (k : Nat) (rd : Reg) (ra : Reg) (rb : Reg) (b : Nat) (g : Nat), ((s.now.taskSt e k).opd ra) =
        ⟨ra, b, Tag.dptr⟩ ∧
      (g = Tag.frac ∨ g = Tag.fix) ∧ (∀ i ∈ List.range 3, ((s.now.taskSt e k).opd (rb + i)).t = g) ∧
      Issues
        s e
        k { moving (ra :: regsFrom rb 3) [] (regsFrom rd 3) 6 with bad := regRules (regsFrom rd 3) true (ra :: regsFrom rb 3) }
        = true ∧
      (s.now.taskSt e k).rsmV = false ∧ s.now.microPlain e = true ∧ ownWords e b 9 = true ∧
      (∀ j ∈ List.range (9), mpJudge (s.now.engSt e) (s.now.taskSt e k).priv false (b + 4 * j) 4 = none) ∧
      (∀ j ∈ List.range 9, ((wideLoad s.ctx e (b + 4 * j) s.now).1).t.toNat = g)) ∧
    (∃ (s : State) (e : Fin 256) (k : Nat) (rd : Reg) (ra : Reg) (rb : Reg) (j : Nat) (x : Nat × Nat × Nat), (0 < j ∧ j < 9) ∧
      (pairUp numTags ((s.now.taskSt e k).opd ra) ((s.now.taskSt e k).opd rb)).toOption = some x ∧
      ((s.now.taskSt e k).opd rb).d ≠ 0 ∧
      Issues s e k { uses := [ra, rb], writes := [rd], micro := true, cost := 18, bad := regRules [rd] false [ra, rb] } = true ∧
      (s.now.taskSt e k).rsmV = false ∧ s.now.microPlain e = true) ∧
    (∃ (s : State) (e : Fin 256) (k : Nat) (rd : Reg) (ra : Reg) (rb : Reg) (j : Nat) (x : Nat × Nat × Nat) (w : Nat), (0 < j ∧
      j < 9) ∧ (pairUp numTags ((s.now.taskSt e k).opd ra) ((s.now.taskSt e k).opd rb)).toOption = some x ∧
      ((s.now.taskSt e k).opd rb).d ≠ 0 ∧
      Issues
        s e
        k { uses := [ra, rb], writes := [rd], micro := true, elems := 9, cost := 18 - 2 * j, bad := regRules [rd] false [ra, rb] } = true ∧
      ((s.now.taskSt e k).rsmV = true ∧ (s.now.taskSt e k).rsmIdx = j) ∧
      w = Config.midWord MicroKind.div.num j [((s.now.taskSt e k).opd ra).d, ((s.now.taskSt e k).opd rb).d, x.2.2] ∧
      (s.now.taskSt e k).rsw = word w (w / 2 ^ 32 % 12) ∧ s.now.microPlain e = true) :=
  ⟨⟨run [(1, ⟨0x10040,
        8⟩), (2, ⟨0x80000108, 2⟩)] id id (fun b => { b with mem := [(0x080F0040, 7), (0x080F0047, 0x80), (0x080F8008, 0x61)] }),
        7, 5, 1, 2, 0x10040, 0x80000108, 3, by decide +kernel⟩,
    ⟨run [(1, ⟨0x10040, 8⟩), (2, ⟨0x80000106, 2⟩), (8, ⟨0x12345678, 3⟩), (31, ⟨5, 15⟩)] id id
        (fun
        b => { b with mem := [(0x080F0040, 7), (0x080F0047, 0x80), (0x080F0050, 1), (0x080F8008, 0x61), (0x080F800A, 0x33)] }),
        7, 5, 1, 2, 0x10040, 0x80000106, 4, by decide +kernel⟩,
    ⟨run [(1, ⟨0x10040, 8⟩), (2, ⟨0x33, 2⟩), (8, ⟨0x12345678, 3⟩)] (fun t =>
      { t with ds := 0x13, acc0 := ⟨0x123456789ABCDEF01234#80, 3⟩ }), 7, 5, 1, 2, 0x10040, 0x33, 25, by decide +kernel⟩,
    ⟨run [(1, ⟨0x10040, 8⟩), (2, ⟨6, 2⟩), (8, ⟨0x12345678, 3⟩)] (fun t =>
      { t with ds := 0x13 }) id (fun b => { b with mem := [(0x080F005C, 7), (0x080F0097, 0x80), (0x080F800B, 0x61)] }), 7, 5, 1,
        2, 0x10040, 6, 16, by decide +kernel⟩,
    ⟨run [(1, ⟨0x10040, 8⟩), (2, ⟨0x080F0080, 8⟩), (3, ⟨2, 2⟩)] id id (fun b =>
        { b with mem := [(0x080F0044, 7), (0x080F0063, 0x80), (0x080F0090, 1), (0x080F8008, 0x61), (0x080F800A, 0x33)], syn := [(0x407803, 0xFFFF)] }), 7, 5, 2, 1, 3, 0x080F0080, 0x10040, 2, by decide +kernel⟩,
    ⟨run [(1, ⟨0x10040, 8⟩), (2, ⟨0x10048, 8⟩), (3, ⟨2, 2⟩)] (fun t =>
      { t with acc1 := ⟨5#80, 3⟩ })
        id (fun
        b =>
        { b with mem := [(0x080F0043, 0x40), (0x080F0047, 0x20), (0x080F004B, 0x80), (0x080F004C, 3), (0x080F8008, 0x33), (0x080F8009, 0x33)] }), 7, 5, 3, 1, 2, 1, 0x10040, 0x10048, 2, 3, by decide +kernel⟩,
    ⟨run [(1, ⟨0x40000000,
        3⟩),
        (2,
        ⟨0x10040,
        8⟩)]
        id id
        (fun
        b =>
        { b with mem := [(0x080F0040, 2), (0x080F0041, 2), (0x080F0047, 0x40), (0x080F004B, 0x20), (0x080F004F, 0x10), (0x080F0053, 0x08), (0x080F0057, 0x70), (0x080F005B, 0xC0), (0x080F8008, 0x32), (0x080F8009, 0x33), (0x080F800A, 0x33), (0x080F800B, 0x3)] }), 7, 5, 4, 1, 2, 0x10040, 3, 0, 7, ⟨0x202, 2⟩, by decide +kernel⟩,
    ⟨run [(1, ⟨0x10040, 8⟩), (2, ⟨0x40000000, 3⟩), (3, ⟨0x20000000, 3⟩), (4, ⟨0x80000000, 3⟩)] id id
        (fun
        b =>
        { b with mem := [(0x080F0043, 0x40), (0x080F0053, 0x40), (0x080F0063, 0x80), (0x080F8008, 0x33), (0x080F8009, 0x33), (0x080F800A, 0x33), (0x080F800B, 0x33), (0x080F800C, 0x3)] }), 7, 5, 8, 1, 2, 0x10040, 3, by decide +kernel⟩,
    ⟨run [(1, ⟨100, 1⟩), (2, ⟨7, 1⟩)], 7, 5, 3, 1, 2, 4, (1, 1, 1), by decide +kernel⟩,
    ⟨run [(1, ⟨100, 1⟩), (2, ⟨7, 1⟩)] (fun t =>
      { t with rsmV := true, rsmIdx := 4, rsw := word (Config.midWord 6 4 [100, 7, 1]) (Config.midWord 6 4 [100, 7, 1] / 2 ^ 32 % 12) }), 7, 5, 3, 1, 2, 4, (1, 1, 1), Config.midWord 6 4 [100, 7, 1], ⟨by decide, by decide +kernel, by decide +kernel, by decide +kernel, by decide +kernel, rfl, rfl, by decide +kernel⟩⟩⟩

theorem test_hyp_TaskActivationEffects :
    (∃ (s : State) (e : Fin 256) (k : Fin 64) (l : List (Nat × Nat)), l = s.now.arrivals s.tick e k ∧ (l ≠ [] ∧
      k.val < s.now.nt.getD 0 e) ∧ s.now.alive s.ctx e = true ∧ (s.now.engSt e).takeAt = none ∧ (s.now.taskSt e k).st = .wait) ∧
    (∃ (s : State) (e : Fin 256) (k : Fin 64) (l : List (Nat × Nat)), l = s.now.arrivals s.tick e k ∧ (l ≠ [] ∧
      k.val < s.now.nt.getD 0 e) ∧ s.now.alive s.ctx e = true ∧ ((s.now.taskSt e k).st ≠ .wait ∧
      (s.now.taskSt e k).st ≠ .parked) ∧ (s.now.taskSt e k).apend = false) ∧
    (∃ (s : State) (e : Fin 256) (k : Fin 64), (s.now.arrivals s.tick e k ≠ [] ∧ k.val < s.now.nt.getD 0 e) ∧
      s.now.alive s.ctx e = true ∧ (s.now.taskSt e k).st ≠ .wait ∧
      ((s.now.taskSt e k).apend = true ∨ (s.now.taskSt e k).st = .parked)) ∧
    (∃ (s : State) (e : Fin 256) (x : Sel), (s.now.engSt e).sel = some x ∧ x.first ≤ s.tick ∧ s.now.alive s.ctx e = true ∧
      (s.now.taskSt e x.task).st = .ready ∧ (s.now.engSt e).run = none) ∧
    (∃ (s : State) (e : Fin 256) (x : Sel) (k : Nat), (s.now.engSt e).sel = some x ∧ x.first ≤ s.tick ∧
      s.now.alive s.ctx e = true ∧ (s.now.taskSt e x.task).st = .ready ∧ ((s.now.engSt e).run = some k ∧ k ≠ x.task) ∧
      (s.now.taskSt e k).drain = none) ∧
    (∃ (s : State) (e : Fin 256) (k : Fin 64), k.val < s.now.nt.getD 0 e) ∧
    (∃ (s : State) (e : Fin 256) (k : Nat), (s.now.engSt e).run = some k) ∧
    (∃ (s : State) (e : Fin 256) (k : Fin 64) (d : Nat), k ≠ 0 ∧ (s.now.taskSt e k).deadline = some d ∧
      ((s.now.taskSt e k).st = .ready ∧ d ≤ s.tick ∨ (s.now.taskSt e k).st = .run ∧
      max (d + 1) (s.now.engSt e).holdEnd ≤ s.tick ∧ s.now.fetchHeld e (s.now.taskSt e k).priv (s.now.taskSt e k).pc = false) ∧
      s.now.engOff s.hw e = false) ∧
    (∃ (s : State) (e : Fin 256), (s.now.taskSt e 0).deadline = some s.tick ∧ (s.now.taskSt e 0).st = .ready ∧
      s.now.engOff s.hw e = false) ∧
    (∃ (s : State) (e : Fin 256) (k : Nat), k = bits (s.now.engSt e).tsel 13 8 ∧ (k ≠ 0 ∧ k < s.now.nt.getD 0 e) ∧
      ((s.now.taskSt e k).st ≠ .run ∧ (s.now.taskSt e k).st ≠ .parked)) ∧
    (∃ (s : State) (e : Fin 256) (k : Nat), k = bits (s.now.engSt e).tsel 13 8 ∧ (k ≠ 0 ∧ k < s.now.nt.getD 0 e) ∧
      (s.now.taskSt e k).st ≠ .run) :=
  ⟨⟨at0 fun b =>
        { b with nt := [(7, 10)], pendActs := [⟨1000, 7 * 64 + 5, 4, 0x33⟩, ⟨1000, 7 * 64 + 5, 4, 0x21⟩, ⟨1001, 7 * 64 + 5, 8, 0⟩, ⟨1000, 7 * 64 + 6, 8, 0⟩], eng := [(7, { tasks := [(5, { dln := 100, waited := true })] })], fc := { b.fc with taskAct := [(7 * 64 + 5, 1, 0)] } }, 7, 5, [(1, 0), (4, 0x33), (4, 0x21)], by decide +kernel⟩,
    ⟨run [] id id (fun b => { b with pendActs := [⟨1000, 7 * 64 + 5, 4, 0x33⟩] }), 7, 5, [(4, 0x33)], by decide +kernel⟩,
    ⟨run [] (fun t =>
      { t with apend := true, alost := 255 }) id (fun b => { b with pendActs := [⟨1000, 7 * 64 + 5, 4, 0x33⟩] }), 7, 5,
        by decide +kernel⟩,
    ⟨run [] (fun t =>
      { t with st := .ready }) (fun u => { u with run := none, sel := some ⟨5, 996, 997, 1000⟩, issueAt := 4 }), 7,
        ⟨5, 996, 997, 1000⟩, by decide +kernel⟩,
    ⟨run [] id (fun u => { u with tasks := u.tasks ++ [(6, { st := .ready })], sel := some ⟨6, 996, 997, 1000⟩ }), 7,
        ⟨6, 996, 997, 1000⟩, 5, by decide +kernel⟩,
    ⟨run [], 7, 9, by decide +kernel⟩,
    ⟨{ run [] with tick := 0x300000005 }, 7, 5, by decide +kernel⟩,
    ⟨run [] (fun t => { t with deadline := some 990, dln := 7 }), 7, 5, 990, by decide +kernel⟩,
    ⟨run [] id (fun u => { u with tasks := [(0, { st := .ready, deadline := some 1000 })], run := some 0 }), 7, by decide +kernel⟩,
    ⟨run [] (fun t =>
      { t with st := .ready, apend := true, deadline := some 3 }) (fun u =>
        { u with run := none, tsel := 0x500, sel := some ⟨5, 998, 999, 1003⟩ }), 7, 5, by decide +kernel⟩,
    ⟨run [] (fun t =>
      { t with st := .held, apend := true, deadline := some 3, entry := 0x40, rsmV := true })
        (fun u => { u with run := none, tsel := 0x500 }), 7, 5, by decide +kernel⟩⟩

theorem test_hyp_FabricAndExceptionEffects :
    (∃ (s : State) (e : Fin 256) (i : Nat) (x : LoadEnt) (v : TWord), (s.now.engSt e).loads[i]? = some x ∧ (x.got = some v ∧
      x.due.all (fun d => d ≤ s.tick) = true)) ∧
    (∃ (s : State) (e : Fin 256) (i : Nat) (x : LoadEnt) (err : Fin 3), (s.now.engSt e).loads[i]? = some x ∧
      (x.due.all (fun d => d ≤ s.tick) = true ∧ x.got.isSome = true) ∧ (err ≠ 0 ∧ x.task ≠ 0) ∧
      ((s.now.taskSt e x.task).st ≠ .held ∧ (s.now.taskSt e x.task).st ≠ .parked)) ∧
    (∃ (s : State) (e : Fin 256) (i : Nat) (x : StoreEnt) (c : Nat), (s.now.engSt e).stores[i]? = some x ∧ (x.own = false ∧
      x.written = false ∧ (s.now.engSt e).iso = false ∧ x.due.all (fun d => d ≤ s.tick) = true) ∧
      (((s.now.engSt e).stores.take i).all (fun y => y.written || storeTarget s.hw e y.addr != storeTarget s.hw e x.addr) =
        true) ∧
      (x.n = 1 ∨ x.n = 2 ∨ x.n = 4) ∧ x.addr / 32 = (x.addr + x.n - 1) / 32 ∧ (0x10000000 ≤ x.addr ∧ x.addr < 0x12000000 ∧
      memSpace s.hw x.addr = some (.cluster c)) ∧
      ((s.now.engSt e).loads.all (fun l => l.got.isSome || !x.meets e l.addr l.n) = true) ∧
      (x.due.isSome = true ∨ s.now.oddFree s.tick e (oddSlots s.hw (some (regionOf e)) x.addr) = true) ∧
      s.now.granBad (x.addr / 32) = false ∧ x.v.d.toNat < 256 ^ x.n ∧
      s.now.unwritten (portRank (.engine e) x.addr s.now) x.addr x.n = true ∧ s.now.deadWriter s.hw (.engine e) x.addr = none) ∧
    (∃ (s : State) (e : Fin 256) (k : Fin 64) (a : Word) (h : Bool) (i : Nat) (x : StoreEnt), (k ≠ 0 ∧
      k.val < s.now.nt.getD 0 e ∧ s.now.engOff s.hw e = false) ∧
      ((s.now.engSt e).stores.findIdx? (fun y => y.task == k.val && y.addr == a.toNat && !y.own && !y.written) = some i) ∧
      (s.now.engSt e).stores[i]? = some x ∧ ((s.now.engSt e).storeReady s.ctx e i x = true ∧ x.due.isSome = true) ∧
      (firstPart x.addr x.n = x.n ∧ h = false) ∧ ((s.now.taskSt e k).st ≠ .held ∧ (s.now.taskSt e k).st ≠ .parked) ∧
      ((s.now.engSt e).queue.all (fun x => x.task != k.val) = true) ∧ (s.now.engSt e).run ≠ some k.val) ∧
    (∃ (s : State) (e : Fin 256) (k : Fin 64) (a : Word) (h : Bool) (i : Nat) (x : StoreEnt),
        ((s.now.engSt e).stores.findIdx? (fun y => y.task == k.val && y.addr == a.toNat && !y.own && !y.written) = some i) ∧
      (s.now.engSt e).stores[i]? = some x ∧ ((s.now.engSt e).storeReady s.ctx e i x = true ∧ x.due.isSome = true) ∧
      (firstPart x.addr x.n = x.n ∧ h = false) ∧ (s.now.engSt e).run = some k.val) ∧
    (∃ (s : State) (e : Fin 256) (k : Fin 64) (a : Word) (i : Nat) (j : Nat) (x : StoreEnt),
        ((s.now.engSt e).stores.findIdx? (fun y => y.task == k.val && y.addr == a.toNat && !y.own && !y.written) = some i) ∧
      (s.now.engSt e).stores[i]? = some x ∧ ((s.now.engSt e).storeReady s.ctx e i x = true ∧ x.due.isSome = true) ∧
      (s.now.engSt e).run = some k.val ∧ (x.n = 2 ∨ x.n = 4) ∧ (j = firstPart x.addr x.n ∧ j < x.n) ∧
      s.now.unwritten (portRank (.engine e) x.addr s.now) x.addr x.n = true ∧ (0x10000000 ≤ x.addr ∧
      x.addr + x.n < 0x10000000 + 0x100000 * nClusters s.hw) ∧ (s.now.granBad (x.addr / 32) = false ∧
      s.now.granBad (x.addr / 32 + 1) = false) ∧ s.now.deadWriter s.hw (.engine e) x.addr = none) ∧
    (∃ (s : State) (e : Fin 256) (k : Fin 64) (a : Word), ((s.now.engSt e).stores.any
        (fun y => y.task == k.val && y.addr == a.toNat && !y.own && !y.written) = false)) ∧
    (∃ (s : State) (e : Fin 256) (d : Nat) (k : Nat) (a : Nat) (h : Bool), (s.now.engSt e).serrs = [(d, k, a, h)] ∧ (k ≠ 0 ∧
      s.now.engOff s.hw e = false) ∧ ((s.now.taskSt e k).st ≠ .held ∧ (s.now.taskSt e k).st ≠ .parked) ∧
      ((s.now.engSt e).queue.all (fun x => x.task != k) = true)) ∧
    (∃ (s : State) (e : Fin 256) (k : Fin 64) (a : Word) (h : Bool) (i : Nat) (x : StoreEnt), (k.val < s.now.nt.getD 0 e ∧
      s.now.engOff s.hw e = false) ∧
      ((s.now.engSt e).stores.findIdx? (fun y => y.task == k.val && y.addr == a.toNat && !y.own && !y.written) = some i) ∧
      (s.now.engSt e).stores[i]? = some x ∧ ((s.now.engSt e).storeReady s.ctx e i x = true ∧ x.due.isSome = true) ∧
      (firstPart x.addr x.n = x.n ∧ h = false) ∧ (s.now.engSt e).run ≠ some k.val ∧
      ((s.now.taskSt e k).st = .held ∨ (s.now.taskSt e k).st = .parked ∨ (s.now.engSt e).queue.any (fun x => x.task == k.val) =
        true)) ∧
    (∃ (s : State) (e : Fin 256) (x : Exc) (l : List Exc) (v : Nat) (w : Nat), (s.now.engSt e).queue = x :: l ∧
      ((s.now.engSt e).act = false ∧ (s.now.taskSt e 0).st = .wait) ∧ ((s.now.engSt e).sel.any (fun y => y.task == 0) = true) ∧
      s.now.engOff s.hw e = false ∧ v = unalias e ((s.now.engSt e).vbase + 4 * x.code) ∧ (inDtcm e v = true ∧ v % 4 = 0) ∧
      (s.start.granBad (v / 32) = false ∧ s.start.granBad (tagByteAddr v / 32) = false ∧ s.start.tagOf v = 9) ∧
      w = numFrom s.start.goodByte v 4 ∧ (fetchable (s.now.engSt e).modeP e w = true ∧
      (s.now.engSt e).mpAllows (s.now.taskSt e 0).priv 2 w = true)) ∧
    (∃ (s : State) (e : Fin 256) (x : Exc) (l : List Exc), (s.now.engSt e).queue = x :: l ∧ ((s.now.engSt e).act = false ∧
      (s.now.taskSt e 0).st = .wait) ∧ ((s.now.engSt e).sel.any (fun y => y.task == 0) = true) ∧ s.now.engOff s.hw e = false ∧
      inDtcm e (unalias e ((s.now.engSt e).vbase + 4 * x.code)) = false) ∧
    (∃ (s : State) (e : Fin 256), e.val < nEngines s.hw) :=
  ⟨⟨run [] id (fun
        u =>
        { u with loads := [⟨5, 0, 9, 0x10000000, 4, false, 0, none, none, none, false⟩, ⟨5, 0x80, 12, 0x10000010, 4, false, 2, some 990, some 1000, some ⟨77, 2⟩, true⟩] }), 7, 1, ⟨5, 0x80, 12, 0x10000010, 4, false, 2, some 990, some 1000, some ⟨77, 2⟩, true⟩, ⟨77, 2⟩, by decide +kernel⟩,
    ⟨run [] id (fun u => { u with loads := [⟨5, 0x80, 12, 0x10000010, 4, false, 2, some 990, some 1000, some ⟨77, 2⟩, true⟩] }), 7,
        0, ⟨5, 0x80, 12, 0x10000010, 4, false, 2, some 990, some 1000, some ⟨77, 2⟩, true⟩, 2, by decide +kernel⟩,
    ⟨run [] id (fun
        u =>
        { u with stores := [⟨5, 0x10000010, 4, ⟨0x89ABCDEF, 0⟩, false, some 1000, true⟩, ⟨5, 0x10000012, 2, ⟨0xCDEF, 0⟩, false, some 1000, false⟩] }) (fun b => { b with mem := [(0x10000011, 8), (0x10000013, 9), (0x10000014, 3)], syn := [(0x800000, 4)] }), 7, 1, ⟨5, 0x10000012, 2, ⟨0xCDEF, 0⟩, false, some 1000, false⟩, 0, by decide +kernel⟩,
    ⟨run [] (fun t =>
      { t with st := .wait })
        (fun
        u =>
        { u with run := none, stores := [⟨5, 0x10000010, 4, ⟨1, 0⟩, false, some 1000, true⟩, ⟨5, 0x12345678, 4, ⟨1, 0⟩, false, some 1000, false⟩], queue := [⟨1000, 9, 0, 0, 0, 0, false⟩, ⟨1000, 3, 0, 0, 0, 0, false⟩] }), 7, 5, 0x12345678, false, 1, ⟨5, 0x12345678, 4, ⟨1, 0⟩, false, some 1000, false⟩, by decide +kernel⟩,
    ⟨run [] id (fun
        u =>
        { u with stores := [⟨5, 0x10000010, 4, ⟨1, 0⟩, false, some 1000, true⟩, ⟨5, 0x12345678, 4, ⟨1, 0⟩, false, some 1000, false⟩], holdEnd := 1018 }), 7, 5, 0x12345678, false, 1, ⟨5, 0x12345678, 4, ⟨1, 0⟩, false, some 1000, false⟩, by decide +kernel⟩,
    ⟨run [] id (fun u => { u with stores := [⟨5, 0x1000001E, 4, ⟨0x89ABCDEF, 0⟩, false, some 1000, false⟩] }), 7, 5, 0x1000001E, 0,
        2, ⟨5, 0x1000001E, 4, ⟨0x89ABCDEF, 0⟩, false, some 1000, false⟩, by decide +kernel⟩,
    ⟨run [], 7, 5, 0x12345678, by decide +kernel⟩,
    ⟨run [] id (fun u => { u with serrs := [(1018, 5, 0x12345678, true)] }), 7, 1018, 5, 0x12345678, true, by decide +kernel⟩,
    ⟨run [] (fun t =>
      { t with st := .parked })
        (fun
        u =>
        { u with run := none, stores := [⟨5, 0x10000010, 4, ⟨1, 0⟩, false, some 1000, true⟩, ⟨5, 0x12345678, 4, ⟨1, 0⟩, false, some 1000, false⟩] }), 7, 5, 0x12345678, false, 1, ⟨5, 0x12345678, 4, ⟨1, 0⟩, false, some 1000, false⟩, by decide +kernel⟩,
    ⟨run [] id (fun
        u =>
        { u with tasks := u.tasks ++ [(6, { priv := true })], run := none, vbase := 0x10000, sel := some ⟨0, 998, 999, 1004⟩, queue := [⟨990, 6, 3, 0x44, 5, 6, true⟩, ⟨991, 5, 1, 0x44, 5, 6, true⟩] }) (fun b => { b with mem := [(0x080F000D, 2), (0x080F8001, 0x90)] }), 7, ⟨990, 6, 3, 0x44, 5, 6, true⟩, [⟨991, 5, 1, 0x44, 5, 6, true⟩], 0x080F000C, 0x200, by decide +kernel⟩,
    ⟨run [] id (fun
        u =>
        { u with run := none, vbase := 0x8000, sel := some ⟨0, 998, 999, 1004⟩, queue := [⟨990, 6, 3, 0x44, 5, 6, true⟩, ⟨991, 5, 1, 0x44, 5, 6, true⟩] }), 7, ⟨990, 6, 3, 0x44, 5, 6, true⟩, [⟨991, 5, 1, 0x44, 5, 6, true⟩], by decide +kernel⟩,
    ⟨run [] id (fun u => { u with badMatch := [3] }), 7, by decide +kernel⟩⟩

theorem test_hyp_MemoryErrorEffects :
    (∃ (s : State) (g : BitVec 27) (m : Nat), m < 272 ∧ (32 * g.toNat < 0x80000000 ∧
      (memSpace s.hw (g.toNat * 32)).isSome = true) ∧ s.now.granSyn g.toNat = 0) ∧
    (∃ (s : State) (g : BitVec 27) (m : Nat) (n : Nat), (m < n ∧ n < 272) ∧ (32 * g.toNat < 0x80000000 ∧
      (memSpace s.hw (g.toNat * 32)).isSome = true) ∧ s.now.granSyn g.toNat = 0) ∧
    (∃ (s : State) (e : Fin 256) (i : Fin 64), e.val < nEngines s.hw ∧ parityBad (s.now.engSt e).badMicro i = false) ∧
    (∃ (s : State) (e : Fin 256) (i : Fin 64), e.val < nEngines s.hw ∧ parityBad (s.now.engSt e).badMicro i = false) ∧
    (∃ (s : State) (e : Fin 256) (i : Fin 64), e.val < nEngines s.hw ∧ parityBad (s.now.engSt e).badMicro i = false) ∧
    (∃ (s : State) (e : Fin 256) (i : Fin 32), e.val < nEngines s.hw ∧ isKd2 s.hw = false ∧
      parityBad (s.now.engSt e).badNano i = false) ∧
    (∃ (s : State) (d : Fin 2) (g : Nat) (m : Nat), (d.val < nDies s.hw ∧ s.now.on (F.SUM_SCR_CTL_EN d) = true) ∧
      (s.now.scrubSt d).pend = none ∧ (s.now.scrubSt d).nextAt ≤ s.tick ∧ g = s.now.scrubPos d ∧
      s.now.oddFree s.tick (320 + d) (oddSlots s.hw none (g * 32)) = true ∧ decodeSyn (s.start.granSyn g) = .one m) ∧
    (∃ (s : State) (d : Fin 2) (g : Nat), (d.val < nDies s.hw ∧ s.now.on (F.SUM_SCR_CTL_EN d) = true) ∧
      (s.now.scrubSt d).pend = none ∧ (s.now.scrubSt d).nextAt ≤ s.tick ∧ g = s.now.scrubPos d ∧
      s.now.oddFree s.tick (320 + d) (oddSlots s.hw none (g * 32)) = true ∧ s.start.granSyn g = 0) ∧
    (∃ (s : State) (d : Fin 2) (g : Nat) (v : Nat) (y : Nat), (s.now.scrubSt d).pend = some (g, v, y) ∧
      (s.now.scrubSt d).cancel = false ∧ (y = 0 ∨ y = poisonSyn) ∧
      s.now.oddFree s.tick (320 + d) (oddSlots s.hw none (g * 32)) = true ∧ (v < 2 ^ 256 ∧ 32 * g < 0x80000000)) ∧
    (∃ (s : State) (d : Fin 2) (x : Nat × Nat × Nat), (s.now.scrubSt d).pend = some x ∧ (s.now.scrubSt d).cancel = true) :=
  ⟨⟨at0 (fun b => { b with mem := [(0x10000011, 8), (0x10000013, 9), (0x10000014, 3)] }), 0x800000, 157, by decide +kernel⟩,
    ⟨at0 (fun b => { b with mem := [(0x10000011, 8), (0x10000013, 9), (0x10000014, 3)] }), 0x800000, 15, 270, by decide +kernel⟩,
    ⟨run [], 7, 63, by decide +kernel⟩,
    ⟨run [], 7, 63, by decide +kernel⟩,
    ⟨run [], 7, 63, by decide +kernel⟩,
    ⟨run [], 7, 31, by decide +kernel⟩,
    ⟨at0 fun b =>
        { (((b.put (F.SUM_SCR_CTL_EN 0) 1).wr (R.SUM_SCR_POS 0) (0x08000000 + 3 * 0x20000 + 0x10020)).put (F.SUM_RG_MEC_CORR 0 0) 7) with mem := [(0x08070021, 8)], syn := [(0x8070020 / 32, 4)] }, 0, 0x8070020 / 32, 2, by decide +kernel⟩,
    ⟨at0 fun b => ((b.put (F.SUM_SCR_CTL_EN 1) 1).wr (R.SUM_SCR_POS 1) 0x21FFFFE0).put (F.SUM_SCR_STAT_PASS 1) 3, 1, 0x21FFFFE0 /
        32, by decide +kernel⟩,
    ⟨at0 fun b =>
        { b with mem := [(0x08070021, 8)], syn := [(0x8070020 / 32, 4)], scrub := [(0, { pend := some (0x8070020 / 32, 5, 0) })] }, 0, 0x8070020 / 32, 5, 0, by decide +kernel⟩,
    ⟨at0 fun b =>
        { b with mem := [(0x08070021, 8)], syn := [(0x8070020 / 32, 4)], scrub := [(0, { pend := some (0x8070020 / 32, 5, 0), cancel := true })] }, 0, (0x8070020 / 32, 5, 0), by decide +kernel⟩⟩

theorem test_hyp_OperandExceptions : [
    (let rd : Reg := 3; let ra : Reg := 1; let rb : Reg := 2; refuses { uses := [ra, rb], writes := [rd] } (rr ra rb (addTags false) fun _ _ t x y => byTag t (numOf t x + numOf t y))),
    (let rd : Reg := 3; let ra : Reg := 1; let rb : Reg := 2; refuses { uses := [ra, rb], writes := [rd] } (rr ra rb (addTags true) fun _ _ t x y => byTag t (numOf t x - numOf t y))),
    (let rd : Reg := 3; let ra : Reg := 1; let rb : Reg := 2; refuses { uses := [ra, rb], writes := [rd] } (rr ra rb numTags fun _ _ t x y => minMax false t x y)),
    (let rd : Reg := 3; let ra : Reg := 1; let rb : Reg := 2; refuses { uses := [ra, rb], writes := [rd] } (rr ra rb numTags fun _ _ t x y => minMax true t x y)),
    (let rd : Reg := 3; let ra : Reg := 1; refuses { uses := [ra], writes := [rd] } (r1 ra (among [Tag.int, Tag.frac, Tag.fix, Tag.ang]) fun _ t x => byTag t (-numOf t x))),
    (let rd : Reg := 3; let ra : Reg := 1; refuses { uses := [ra], writes := [rd] } (r1 ra (among [Tag.int, Tag.frac, Tag.fix]) fun _ t x => byTag t (numOf t x).natAbs)),
    (let rd : Reg := 3; let ra : Reg := 1; let rb : Reg := 2; refuses { uses := [ra, rb], writes := [rd] } (rr ra rb (logicTags true) fun _ _ t x y => logic .and t x y)),
    (let rd : Reg := 3; let ra : Reg := 1; let rb : Reg := 2; refuses { uses := [ra, rb], writes := [rd] } (rr ra rb (logicTags true) fun _ _ t x y => logic .or t x y)),
    (let rd : Reg := 3; let ra : Reg := 1; let rb : Reg := 2; refuses { uses := [ra, rb], writes := [rd] } (rr ra rb (logicTags false) fun _ _ t x y => logic .xor t x y)),
    (let rd : Reg := 3; let ra : Reg := 1; let rb : Reg := 2; refuses { uses := [ra, rb], writes := [rd] } (rr ra rb (logicTags false) fun _ _ t x y => logic .andn t x y)),
    (let rd : Reg := 3; let ra : Reg := 1; refuses { uses := [ra], writes := [rd] } (r1 ra (among [Tag.raw, Tag.int, Tag.uns, Tag.bool]) fun _ t x => logicNot t x)),
    (let rd : Reg := 3; let ra : Reg := 1; let rb : Reg := 2; refuses { uses := [ra, rb], writes := [rd] } (rs .sll ra rb)),
    (let rd : Reg := 3; let ra : Reg := 1; let rb : Reg := 2; refuses { uses := [ra, rb], writes := [rd] } (rs .srl ra rb)),
    (let rd : Reg := 3; let ra : Reg := 1; let rb : Reg := 2; refuses { uses := [ra, rb], writes := [rd] } (rs .sra ra rb)),
    (let rd : Reg := 3; let ra : Reg := 1; let rb : Reg := 2; refuses { uses := [ra, rb], writes := [rd] } (rs .ror ra rb)),
    (let rd : Reg := 3; let ra : Reg := 1; refuses { uses := [ra], writes := [rd] } (r1 ra (amongTo [Tag.raw, Tag.int, Tag.uns] Tag.int) fun _ t x => word (clz x) t)),
    (let rd : Reg := 3; let ra : Reg := 1; refuses { uses := [ra], writes := [rd] } (r1 ra (amongTo [Tag.raw, Tag.int, Tag.uns] Tag.int) fun _ t x => wordI (toSigned 8 x) t)),
    (let rd : Reg := 3; let ra : Reg := 1; refuses { uses := [ra], writes := [rd] } (r1 ra (amongTo [Tag.raw, Tag.int, Tag.uns] Tag.int) fun _ t x => wordI (toSigned 16 x) t)),
    (let rd : Reg := 3; let ra : Reg := 1; refuses { uses := [ra], writes := [rd] } (r1 ra (amongTo [Tag.raw, Tag.int, Tag.uns] Tag.uns) fun _ t x => word (x % 2 ^ 8) t)),
    (let rd : Reg := 3; let ra : Reg := 1; refuses { uses := [ra], writes := [rd] } (r1 ra (amongTo [Tag.raw, Tag.int, Tag.uns] Tag.uns) fun _ t x => word (x % 2 ^ 16) t)),
    (let rd : Reg := 3; let ra : Reg := 1; let rb : Reg := 2; refuses { uses := [ra, rb], writes := [rd] } (rr ra rb eqTags fun _ _ t x y => word (b2n (eqVals t x y)) Tag.bool)),
    (let rd : Reg := 3; let ra : Reg := 1; let rb : Reg := 2; refuses { uses := [ra, rb], writes := [rd] } (rr ra rb ltTags fun _ _ t x y => word (b2n (ltVals t x y)) Tag.bool)),
    (let rd : Reg := 3; let ra : Reg := 1; let rb : Reg := 2; refuses { uses := [ra, rb], writes := [rd] } (rr ra rb ltuTags fun _ _ _ x y => word (b2n (decide (x < y))) Tag.bool)),
    (let rd : Reg := 3; let ra : Reg := 1; let n : TagNo := 1; refuses { uses := [ra], writes := [rd], bad := (if plainTag n then none else some 1) } (r1 ra (fun a => (anyTag a).map fun _ => n) fun _ t x => word x t)),
    (let rd : Reg := 3; let ra : Reg := 1; let i : BitVec 11 := 0; refuses { uses := [ra], writes := [rd] } (r1 ra (fun a => addTags false a (if a = Tag.uns then Tag.uns else Tag.int)) fun _ t x => byTag t (numOf t x + imm11 i.toNat))),
    (let rd : Reg := 3; let ra : Reg := 1; let i : BitVec 11 := 0; refuses { uses := [ra], writes := [rd] } (r1 ra (logicImmTags true) fun _ t x => logic .and t x (ofSigned 32 (imm11 i.toNat)))),
    (let rd : Reg := 3; let ra : Reg := 1; let i : BitVec 11 := 0; refuses { uses := [ra], writes := [rd] } (r1 ra (logicImmTags true) fun _ t x => logic .or t x (ofSigned 32 (imm11 i.toNat)))),
    (let rd : Reg := 3; let ra : Reg := 1; let i : BitVec 11 := 0; refuses { uses := [ra], writes := [rd] } (r1 ra (logicImmTags false) fun _ t x => logic .xor t x (ofSigned 32 (imm11 i.toNat)))),
    (let rd : Reg := 3; let ra : Reg := 1; let i : BitVec 11 := 0; refuses { uses := [ra], writes := [rd], bad := (if bits i.toNat 10 7 = 0 then none else some 1) } (r1 ra (among (shiftTags (shiftKind (bits i.toNat 6 5)))) fun _ t x => shift (shiftKind (bits i.toNat 6 5)) t x (bits i.toNat 4 0))),
    (let rd : Reg := 3; let i : BitVec 16 := 0; refuses { uses := [rd], writes := [rd] } (r1 rd anyTag fun _ t x => word (x % 2 ^ 16 + i.toNat * 2 ^ 16) t)),
    (let rd : ShortReg := 3; let ra : ShortReg := 1; let rb : ShortReg := 2; refuses { len := 2, uses := [short ra, short rb], writes := [short rd] } (rr (short ra) (short rb) (addTags false) fun _ _ t x y => byTag t (numOf t x + numOf t y))),
    (let rd : ShortReg := 3; let ra : ShortReg := 1; let rb : ShortReg := 2; refuses { len := 2, uses := [short ra, short rb], writes := [short rd] } (rr (short ra) (short rb) (addTags true) fun _ _ t x y => byTag t (numOf t x - numOf t y))),
    (let rd : ShortReg := 3; let ra : ShortReg := 1; let rb : ShortReg := 2; refuses { len := 2, uses := [short ra, short rb], writes := [short rd] } (rr (short ra) (short rb) (logicTags true) fun _ _ t x y => logic .and t x y)),
    (let rd : ShortReg := 3; let ra : ShortReg := 1; let rb : ShortReg := 2; refuses { len := 2, uses := [short ra, short rb], writes := [short rd] } (rr (short ra) (short rb) (logicTags true) fun _ _ t x y => logic .or t x y)),
    (let rd : ShortReg := 3; let ra : ShortReg := 1; let rb : ShortReg := 2; refuses { len := 2, uses := [short ra, short rb], writes := [short rd] } (rr (short ra) (short rb) (logicTags false) fun _ _ t x y => logic .xor t x y)),
    (let rd : ShortReg := 3; let ra : ShortReg := 1; let rb : ShortReg := 2; refuses { len := 2, uses := [short ra, short rb], writes := [short rd] } (rr (short ra) (short rb) mulTags fun ta tz t x y => mulLow ta tz t x y)),
    (let rd : ShortReg := 3; let ra : ShortReg := 1; let rb : ShortReg := 2; refuses { len := 2, uses := [short ra, short rb], writes := [short rd] } (rr (short ra) (short rb) numTags fun _ _ t x y => minMax false t x y)),
    (let rd : ShortReg := 3; let ra : ShortReg := 1; let rb : ShortReg := 2; refuses { len := 2, uses := [short ra, short rb], writes := [short rd] } (rr (short ra) (short rb) numTags fun _ _ t x y => minMax true t x y)),
    (let rd : ShortReg := 3; let i : BitVec 8 := 0; refuses { len := 2, uses := [short rd], writes := [short rd] } (r1 (short rd) (fun a => addTags false a (if a = Tag.uns then Tag.uns else Tag.int)) fun _ t x => byTag t (numOf t x + imm8 i.toNat))),
    (let rd : ShortReg := 3; let q : Fin 4 := 0; let i : Fin 32 := 0; refuses { len := 2, uses := [short rd], writes := [short rd] } (r1 (short rd) (among (shiftTags (shiftKind q))) fun _ t x => shift (shiftKind q) t x i)),
    (let rd : Reg := 3; let ra : Reg := 1; let rb : Reg := 2; refuses { uses := [ra, rb], writes := [rd] } (rr ra rb mulTags fun ta tz t x y => mulLow ta tz t x y)),
    (let rd : Reg := 3; let ra : Reg := 1; let rb : Reg := 2; refuses { uses := [ra, rb], writes := [rd] } (rr ra rb wholeTags fun _ _ t x y => mulHigh t x y)),
    (let rd : Reg := 3; let ra : Reg := 1; let rb : Reg := 2; refuses { uses := [ra, rb], writes := [rd] } (rr ra rb fltTags fun _ _ _ x y => word (F32.add x y) Tag.flt)),
    (let rd : Reg := 3; let ra : Reg := 1; let rb : Reg := 2; refuses { uses := [ra, rb], writes := [rd] } (rr ra rb fltTags fun _ _ _ x y => word (F32.sub x y) Tag.flt)),
    (let rd : Reg := 3; let ra : Reg := 1; let rb : Reg := 2; refuses { uses := [ra, rb], writes := [rd] } (rr ra rb fltTags fun _ _ _ x y => word (F32.mul x y) Tag.flt)),
    (let rd : Reg := 3; let ra : Reg := 1; let rb : Reg := 2; refuses { uses := [ra, rb], writes := [rd] } (rr ra rb fltTags fun _ _ _ x y => word (F32.min x y) Tag.flt)),
    (let rd : Reg := 3; let ra : Reg := 1; let rb : Reg := 2; refuses { uses := [ra, rb], writes := [rd] } (rr ra rb fltTags fun _ _ _ x y => word (F32.max x y) Tag.flt)),
    (let rd : Reg := 3; let ra : Reg := 1; refuses { uses := [ra], writes := [rd] } (r1 ra (among [Tag.flt]) fun _ t x => word (F32.neg x) t)),
    (let rd : Reg := 3; let ra : Reg := 1; refuses { uses := [ra], writes := [rd] } (r1 ra (among [Tag.flt]) fun _ t x => word (F32.abs x) t))].all id = true := by
  decide +kernel

theorem test_hyp_IssueExceptions :
    (∃ (s : State) (e : Fin 256) (k : Nat), k ≠ 0 ∧ (Fetches s e k { len := 4 } = true ∧ (s.now.taskSt e k).rsmV = false)) ∧
    (∃ (s : State) (e : Fin 256) (k : Nat), k ≠ 0 ∧ (Fetches s e k { len := 2 } = true ∧ (s.now.taskSt e k).rsmV = false)) ∧
    (∃ (s : State) (e : Fin 256) (k : Nat) (ra : Reg) (n : TagNo), Issues s e k { uses := [ra] } = true ∧
      (((s.now.taskSt e k).opd ra).t = n.val ∧ n.val < 12)) ∧
    (∃ (s : State) (e : Fin 256) (k : Nat) (ra : Reg) (n : TagNo), k ≠ 0 ∧ Issues s e k { uses := [ra] } = true ∧
      ((s.now.taskSt e k).opd ra).t ≠ n.val) ∧
    (∃ (s : State) (e : Fin 256) (k : Nat) (rd : Reg) (ra : Reg) (rb : Reg), k ≠ 0 ∧
      Fetches s e k { uses := [ra, rb], writes := [rd] } = true ∧ (s.now.taskSt e k).rsmV = true) ∧
    (∃ (s : State) (e : Fin 256) (k : Nat), k ≠ 0 ∧ Fetches s e k { cost := 4, alone := true, priv := true } = true ∧
      ((s.now.taskSt e k).rsmV = false ∧ (s.now.taskSt e k).priv = true)) ∧
    (∃ (s : State) (e : Fin 256) (k : Nat) (rd : Reg) (ra : Reg) (rb : Reg), k ≠ 0 ∧
      Fetches s e k { uses := [ra, rb], writes := [rd] } = true ∧ (s.now.taskSt e k).rsmV = false ∧
      ((s.now.taskSt e k).reg ra).t = 15) ∧
    (∃ (s : State) (e : Fin 256) (k : Nat) (rd : Reg) (ra : Reg) (rb : Reg), k ≠ 0 ∧ (s.now.engSt e).run = some k ∧
      s.now.mayIssue s.ctx e k { uses := [ra, rb], writes := [rd] } = true ∧
      (s.now.engSt e).mpAllows (s.now.taskSt e k).priv 2 (s.now.taskSt e k).pc = true ∧
      fetchable (s.now.engSt e).modeP e (s.now.taskSt e k).pc = false ∧ absent s.hw (unalias e (s.now.taskSt e k).pc) = false) ∧
    (∃ (s : State) (e : Fin 256) (k : Nat) (rd : Reg) (ra : Reg) (rb : Reg), k ≠ 0 ∧ (s.now.engSt e).run = some k ∧
      s.now.mayIssue s.ctx e k { uses := [ra, rb], writes := [rd] } = true ∧
      (s.now.engSt e).mpAllows (s.now.taskSt e k).priv 2 (s.now.taskSt e k).pc = true ∧
      fetchable (s.now.engSt e).modeP e (s.now.taskSt e k).pc = false ∧ absent s.hw (unalias e (s.now.taskSt e k).pc) = true) ∧
    (∃ (s : State) (e : Fin 256) (k : Nat) (rd : Reg) (ra : Reg) (rb : Reg), k ≠ 0 ∧ (s.now.engSt e).run = some k ∧
      s.now.mayIssue s.ctx e k { uses := [ra, rb], writes := [rd] } = true ∧
      (s.now.engSt e).mpAllows (s.now.taskSt e k).priv 2 (s.now.taskSt e k).pc = false) ∧
    (∃ (s : State) (e : Fin 256), Fetches s e 0 { len := 4 } = true) ∧
    (∃ (s : State) (e : Fin 256) (x : LateRes), (s.now.engSt e).late = [x]) :=
  ⟨⟨run [], 7, 5, by decide +kernel⟩,
    ⟨run [], 7, 5, by decide +kernel⟩,
    ⟨run [(1, ⟨5, 11⟩)], 7, 5, 1, 11, by decide +kernel⟩,
    ⟨run [(1, ⟨5, 11⟩)], 7, 5, 1, 10, by decide +kernel⟩,
    ⟨run [(1, ⟨5, 1⟩)] (fun t => { t with rsmV := true }), 7, 5, 3, 1, 0, by decide +kernel⟩,
    ⟨run [] (fun t =>
      { t with priv := true }) (fun u => { u with mpb := [0xB4, 0, 0, 0, 0, 0, 0, 0], mpl := [0x100, 0, 0, 0, 0, 0, 0, 0] }), 7,
        5, by decide +kernel⟩,
    ⟨run [(1, ⟨0, 15⟩), (2, ⟨0, 15⟩)], 7, 5, 3, 1, 2, by decide +kernel⟩,
    ⟨run [] (fun t => { t with pc := 0x10000 }), 7, 5, 3, 1, 2, by decide +kernel⟩,
    ⟨run [] (fun t => { t with pc := 0x8000 }), 7, 5, 3, 1, 2, by decide +kernel⟩,
    ⟨run [] (fun t => { t with pc := 0x100, priv := true }), 7, 5, 3, 1, 2, by decide +kernel⟩,
    ⟨run [] id (fun u => { u with tasks := [(0, { st := .run })], run := some 0 }), 7, by decide +kernel⟩,
    ⟨run [] id (fun u => { u with late := [⟨5, 9, ⟨3, 6⟩, 1003⟩] }), 7, ⟨5, 9, ⟨3, 6⟩, 1003⟩, by decide +kernel⟩⟩

theorem test_hyp_PackageResetEffects :
    (∃ (s : State) (r : Fin 10), r ≠ 9 ∧ s.now.always.sleeping = false ∧ s.now.flCmd = none) ∧
    (∃ (s : State), s.now.flCmd = none) ∧
    (∃ (s : State) (n : Nat), 100 ≤ n ∧ s.now.always.sleeping = false ∧ s.now.flCmd = none) ∧
    (∃ (n : Nat), n < 20) ∧
    (∃ (s : State), s.now.pv.twinRst = true ∧ s.now.flCmd = none) ∧
    (∃ (s : State), (s.now.inHold = true ∧ s.now.retry = false) ∧ s.now.flCmd = none) ∧
    (∃ (s : State) (x : FlCmd), (s.now.inHold = true ∧ s.now.retry = false) ∧ s.now.flCmd = some x) ∧
    (∃ (s : State) (k : Nat), (s.pending = [] ∧ s.now.pllF = true) ∧ ((endFc s.ctx s.now).resetDue = some k ∧ k < 8)) ∧
    (∃ (s : State), (s.pending = [] ∧ s.now.pllF = true) ∧ ((endFc s.ctx s.now).resetDue = none ∧
      (endFc s.ctx s.now).retry = true ∧ (endFc s.ctx s.now).flCmd = none)) :=
  ⟨⟨run [] id id
        (fun
        b =>
        { ((b.put F.BOOT_STATUS_STATE 1).wr R.PW_WAKE 7).wr (R.LU_ALO 3) 9 with mem := [(0x10000011, 8), (0x80000020, 3)], flashInc := [77], balls := [(7, 1)] }), 3, by decide +kernel⟩,
    ⟨run [] id id
        (fun
        b =>
        { ((b.put F.BOOT_STATUS_STATE 1).wr R.PW_WAKE 7).wr (R.LU_ALO 3) 9 with mem := [(0x10000011, 8), (0x80000020, 3)], flashInc := [77], balls := [(7, 1)] }), by decide +kernel⟩,
    ⟨run [] id id
        (fun
        b =>
        { ((b.put F.BOOT_STATUS_STATE 2).wr R.PW_WAKE 7).wr (R.LU_ALO 3) 9 with mem := [(0x10000011, 8), (0x80000020, 3)], flashInc := [77], balls := [(7, 1)] }), 100, by decide +kernel⟩,
    ⟨19, by decide +kernel⟩,
    ⟨run [] id id
        (fun
        b =>
        { (b.put F.BOOT_STATUS_STATE 1).wr (R.LU_ALO 3) 9 with mem := [(0x10000011, 8), (0x80000020, 3)], pv := { b.pv with twinRst := true } }), by decide +kernel⟩,
    ⟨at0 (fun b
        => { ((b.put F.BOOT_STATUS_STATE 2).put F.BOOT_STATUS_CAUSE 5).wr (R.LU_ALO 3) 9 with mem := [(0x10000011, 8), (0x80000020, 3)] }), by decide +kernel⟩,
    ⟨at0 (fun b => { b.put F.BOOT_STATUS_STATE 2 with flCmd := some ⟨2, 0x10000, 0, true, 990, false, 0⟩ }),
        ⟨2, 0x10000, 0, true, 990, false, 0⟩, by decide +kernel⟩,
    ⟨run [] id id (fun b => { (b.put F.BOOT_STATUS_STATE 1).put F.PW_PLL_F 1 with resetDue := some 3 }), 3, by decide +kernel⟩,
    ⟨run [] id id (fun b => { (b.put F.BOOT_STATUS_STATE 2).put F.PW_PLL_F 1 with retry := true }), by decide +kernel⟩⟩

theorem test_hyp_BootAndMaintenanceEffects :
    (∃ (s : State), s.mayBoot = true) ∧
    (∃ (s : State) (q : Fin 4) (n : Nat), s.mayBoot = true ∧ (n = 1 ∧ q = 2 ∨ n = 2 ∧ q = 3 ∨ n = 3 ∧ q.val < 2 ∧
      s.now.selection = none)) ∧
    (∃ (s : State) (g : Nat) (d : Nat), s.mayBoot = true ∧ s.now.selection = some (g, d) ∧
      (bootMinver s.hw s.now (if bits d 64 64 = 0 then 0x10000 else 0x210000)).toOption.isSome = true) ∧
    (∃ (s : State) (a : Word) (c : Nat), (0x10000000 ≤ a.toNat ∧ memSpace s.hw a.toNat = some (.cluster c)) ∧ (a.toNat % 4 = 0 ∧
      s.start.granSyn (a.toNat / 32) = 0) ∧ (s.now.inHold = false ∨ s.now.retry = false ∧ s.now.hp.cfgs = [] ∧
      s.now.hp.later = [])) ∧
    (∃ (s : State) (a : Word) (c : Nat), (s.now.mntReady = true ∧ s.now.deadWriter s.hw .mnt a.toNat = none) ∧
      (0x10000000 ≤ a.toNat ∧ memSpace s.hw a.toNat = some (.cluster c)) ∧ (a.toNat % 4 = 0 ∧
      s.now.granBad (a.toNat / 32) = false ∧ s.now.unwritten (portRank .mnt a.toNat s.now) a.toNat 4 = true)) ∧
    (∃ (s : State), s.now.fcS = none) ∧
    (∃ (s : State) (j : Fin 4), (s.now.inHold = true ∧ s.now.retry = false ∧ s.now.hp.cfgs = [] ∧ s.now.hp.later = []) ∧
      s.now.always.elock = false ∧ (s.now.always.keys.getD j {}).st = 0) ∧
    (∃ (s : State) (j : Fin 4), (s.now.inHold = false ∨ s.now.retry = true ∨ s.now.hp.cfgs = [] ∧ s.now.hp.later = [] ∧
      (s.now.always.elock = true ∨ (s.now.always.keys.getD j {}).st ≠ 0))) ∧
    (∃ (s : State), (s.now.inHold = true ∧ s.now.retry = false) ∧ (s.now.hp.cfgs ≠ [] ∨ s.now.hp.later ≠ [])) ∧
    (∃ (s : State), (s.now.inHold = true ∧ s.now.retry = false) ∧ (s.now.hp.cfgs ≠ [] ∨ s.now.hp.later ≠ [])) :=
  ⟨⟨State.reset, by decide +kernel⟩,
    ⟨State.reset, 0, 3, by decide +kernel⟩,
    ⟨at0 fun b => flashPut (flashGran 0) (selData 0 1 1 7) (flashPut (flashGran (682 * 32)) (selData 0 1 1 7) b), 0, selData 0 1 1
        7, by decide +kernel⟩,
    ⟨st 1000 (fun b => { b with mem := [(0x10000011, 8), (0x10000013, 9)] }) (fun b => { b with mem := [] }), 0x10000010, 0,
        by decide +kernel⟩,
    ⟨at0 (fun b => { b with mem := [(0x10000011, 8), (0x10000013, 9)], fcS := some 3, syn := [(0x10000010 / 32, 4)] }), 0x10000010,
        0, by decide +kernel⟩,
    ⟨State.reset, by decide +kernel⟩,
    ⟨at0 fun b => b.put F.BOOT_STATUS_STATE 2, 3, by decide +kernel⟩,
    ⟨State.reset, 0, by decide +kernel⟩,
    ⟨at0 fun b => { b.put F.BOOT_STATUS_STATE 2 with hp := { b.hp with later := [.read 0x60000000] } }, by decide +kernel⟩,
    ⟨at0 fun b => { b.put F.BOOT_STATUS_STATE 2 with hp := { b.hp with later := [.enrol 0 []] } }, by decide +kernel⟩⟩

theorem test_hyp_FlashCommandEffects :
    (∃ (s : State) (ag : Agent), Reaches s ag R.FL_CMD ∧ (s.now.on F.FL_STAT_BUSY = false ∧ s.start.on F.FL_STAT_BUSY = false) ∧
      s.now.flRefusal (ag == .boot) 1 (s.now.rd R.FL_ADDR) = none) ∧
    (∃ (s : State) (ag : Agent), Reaches s ag R.FL_CMD ∧ (s.now.on F.FL_STAT_BUSY = false ∧ s.start.on F.FL_STAT_BUSY = false) ∧
      s.now.flRefusal (ag == .boot) 2 (s.now.rd R.FL_ADDR) = none) ∧
    (∃ (s : State) (ag : Agent), Reaches s ag R.FL_CMD ∧ (s.now.on F.FL_STAT_BUSY = false ∧ s.start.on F.FL_STAT_BUSY = false) ∧
      s.now.flRefusal (ag == .boot) 3 (s.now.rd R.FL_ADDR) = none) ∧
    (∃ (s : State) (ag : Agent) (g : Nat) (d : Nat), Reaches s ag R.FL_CMD ∧ (s.now.on F.FL_STAT_BUSY = false ∧
      s.start.on F.FL_STAT_BUSY = false) ∧ s.now.flRefusal (ag == .boot) 4 (s.now.rd R.FL_ADDR) = none ∧
      s.now.selection = some (g, d)) ∧
    (∃ (s : State) (ag : Agent) (g : Nat) (d : Nat), Reaches s ag R.FL_CMD ∧ (s.now.on F.FL_STAT_BUSY = false ∧
      s.start.on F.FL_STAT_BUSY = false) ∧ s.now.flRefusal (ag == .boot) 5 (s.now.rd R.FL_ADDR) = none ∧
      s.now.selection = some (g, d)) ∧
    (∃ (s : State) (ag : Agent), Reaches s ag R.FL_CMD ∧ (s.now.on F.FL_STAT_BUSY = false ∧ s.start.on F.FL_STAT_BUSY = false) ∧
      s.now.flRefusal (ag == .boot) 6 (s.now.rd R.FL_ADDR) = none) ∧
    (∃ (s : State) (ag : Agent) (op : BitVec 4), Reaches s ag R.FL_CMD ∧ (s.now.on F.FL_STAT_BUSY = false ∧
      s.start.on F.FL_STAT_BUSY = false) ∧ (op = 0 ∨ 6 < op.toNat)) ∧
    (∃ (s : State) (ag : Agent) (r : Nat), Reaches s ag R.FL_CMD ∧ (s.now.on F.FL_STAT_BUSY = false ∧
      s.start.on F.FL_STAT_BUSY = false) ∧ s.now.flRefusal (ag == .boot) 1 (s.now.rd R.FL_ADDR) = some r) ∧
    (∃ (s : State) (ag : Agent), Reaches s ag R.FL_CMD ∧ (s.now.on F.FL_STAT_BUSY = true ∨ s.start.on F.FL_STAT_BUSY = true)) :=
  ⟨⟨st 1000 (fun b => b) (fun b => ((((flashPut (flashGran 0x3420040) 5 b).put F.BOOT_STATUS_STATE 1).put F.FL_PROT_UA 1).wr
        R.FL_ADDR 0x3420040).wr (R.FL_DATA 7) 0x89ABCDEF), .engine 0, by decide +kernel⟩,
    ⟨st 1000 (fun b => b) (fun b => (((b.put F.BOOT_STATUS_STATE 1).put F.FL_PROT_UA 1).wr R.FL_ADDR 0x3420040).wr (R.FL_DATA 7)
        0x89ABCDEF), .engine 0, by decide +kernel⟩,
    ⟨st 1000 (fun b => b) (fun b => (((b.put F.BOOT_STATUS_STATE 1).put F.FL_PROT_UA 1).wr R.FL_ADDR 0x3420040).wr (R.FL_DATA 7)
        0x89ABCDEF), .engine 0, by decide +kernel⟩,
    ⟨at0 (fun b => ((flashPut (flashGran 0) (selData 0 1 1 7) (flashPut (flashGran (682 * 32)) (selData 0 1 1 7) b)).wr R.FL_SEL
        0xAA900101).put F.BOOT_STATUS_STATE 0), .engine 0, 0, selData 0 1 1 7, by decide +kernel⟩,
    ⟨at0 (fun b => ((flashPut (flashGran 0) (selData 0 1 1 7) (flashPut (flashGran (682 * 32)) (selData 0 1 1 7) b)).wr R.FL_SEL
        0xAA900101).put F.BOOT_STATUS_STATE 0), .engine 0, 0, selData 0 1 1 7, by decide +kernel⟩,
    ⟨at0 (fun b => b.wr (R.FL_DATA 0) 0x100), .engine 0, by decide +kernel⟩,
    ⟨at0 (fun b => b.wr (R.FL_DATA 0) 0x100), .engine 0, 15, by decide +kernel⟩,
    ⟨at0 (fun b => (b.put F.BOOT_STATUS_STATE 1).wr R.FL_ADDR 0x3420040), .engine 0, 2, by decide +kernel⟩,
    ⟨at0 (fun b => (b.put F.FL_STAT_BUSY 1).wr R.FL_ADDR 0x3420040), .engine 0, by decide +kernel⟩⟩

theorem test_hyp_FlashEndEffects :
    (∃ (s : State) (x : FlCmd), (s.now.flCmd = some x ∧ x.host = false ∧ s.now.retry = false) ∧ (x.op = 1 ∧
      x.notBlank = false) ∧ (x.addr < 2 ^ 26 ∧ x.addr % 32 = 0 ∧ x.data < 2 ^ 256) ∧ x.addr / 0x10000 ∉ s.now.flashInc) ∧
    (∃ (s : State) (x : FlCmd), (s.now.flCmd = some x ∧ x.host = false ∧ s.now.retry = false) ∧ (x.op = 1 ∧
      x.notBlank = false) ∧ (x.addr < 2 ^ 26 ∧ x.addr % 32 = 0 ∧ x.data < 2 ^ 256)) ∧
    (∃ (s : State) (x : FlCmd), (s.now.flCmd = some x ∧ x.host = false ∧ s.now.retry = false) ∧ (x.op = 2 ∧
      x.notBlank = false) ∧ x.addr < 2 ^ 26) ∧
    (∃ (s : State) (x : FlCmd), (s.now.flCmd = some x ∧ x.host = false ∧ s.now.retry = false) ∧ (x.op = 3 ∧
      x.notBlank = false) ∧ (x.addr < 2 ^ 26 ∧ x.addr / 0x10000 ∉ s.now.flashInc) ∧ (Memory.wf s.now.mem = true ∧
      Assoc.Canon (fun _ => 0xFFFF) s.now.flashChk = true)) ∧
    (∃ (s : State) (x : FlCmd), (s.now.flCmd = some x ∧ x.host = false ∧ s.now.retry = false) ∧ (x.op = 4 ∧
      x.notBlank = false) ∧ (x.gen < 682 ∧ x.data < 2 ^ 256 ∧ 0 ∉ s.now.flashInc) ∧ flDirtyCopy x s.now = none) ∧
    (∃ (s : State) (x : FlCmd), (s.now.flCmd = some x ∧ x.host = false ∧ s.now.retry = false) ∧ (x.op = 5 ∧
      x.notBlank = false) ∧ (x.gen < 682 ∧ x.data < 2 ^ 256 ∧ 0 ∉ s.now.flashInc) ∧ flDirtyCopy x s.now = none) ∧
    (∃ (s : State) (x : FlCmd), (s.now.flCmd = some x ∧ x.host = false ∧ s.now.retry = false) ∧ (x.op = 6 ∧
      x.notBlank = false) ∧ (x.addr = 0 ∧ x.gen = 0 ∧
      (x.data = selData 0 0 0 0 ∨ x.data = selData 0 0 1 0 ∨ x.data = selData 0 1 0 0 ∨ x.data = selData 0 1 1 0))) ∧
    (∃ (s : State) (x : FlCmd), (s.now.flCmd = some x ∧ x.host = false ∧ s.now.retry = false) ∧ x.op = 2) ∧
    (∃ (s : State) (x : FlCmd), (s.now.flCmd = some x ∧ x.host = false ∧ s.now.retry = false) ∧ (x.op = 1 ∧ x.notBlank = false ∧
      x.addr < 2 ^ 26)) ∧
    (∃ (s : State) (x : FlCmd), (s.now.flCmd = some x ∧ x.host = false ∧ s.now.retry = false) ∧ (x.op = 1 ∧ x.notBlank = true ∧
      x.at_ + 2 ≤ s.tick)) :=
  ⟨⟨at0 (fun b => { (id b).put F.FL_STAT_BUSY 1 with flCmd := some ⟨1, 0x3420040, 0x89ABCDEF0123, false, 500, false, 0⟩ }),
        ⟨1, 0x3420040, 0x89ABCDEF0123, false, 500, false, 0⟩, by decide +kernel⟩,
    ⟨at0 (fun b => { (id b).put F.FL_STAT_BUSY 1 with flCmd := some ⟨1, 0x3420040, 0x89ABCDEF0123, false, 500, false, 0⟩ }),
        ⟨1, 0x3420040, 0x89ABCDEF0123, false, 500, false, 0⟩, by decide +kernel⟩,
    ⟨at0 (fun b
        => { ((fun b => { flashPut (flashGran 0x3420060) 5 (flashPut (flashGran 0x3430060) 5 b) with flashInc := [77, 834] }) b).put F.FL_STAT_BUSY 1 with flCmd := some ⟨2, 0x3420040, 0, false, 500, false, 0⟩ }), ⟨2, 0x3420040, 0, false, 500, false, 0⟩, by decide +kernel⟩,
    ⟨at0 (fun b
        => { ((fun b => { flashPut (flashGran 0x3420060) 5 (flashPut (flashGran 0x3430060) 5 b) with flashInc := [77] }) b).put F.FL_STAT_BUSY 1 with flCmd := some ⟨3, 0x3420040, 0, false, 500, false, 0⟩ }), ⟨3, 0x3420040, 0, false, 500, false, 0⟩, by decide +kernel⟩,
    ⟨at0 (fun b
        => { ((fun b => ((flashPut (flashGran 0) (selData 0 1 1 7) (flashPut (flashGran (682 * 32)) (selData 0 1 1 7) b)).wr R.FL_SEL 0xAA900101).put F.BOOT_STATUS_STATE 0) b).put F.FL_STAT_BUSY 1 with flCmd := some ⟨4, 0, (selData 1 0 1 8), false, 500, false, 1⟩ }), ⟨4, 0, (selData 1 0 1 8), false, 500, false, 1⟩, by decide +kernel⟩,
    ⟨at0 (fun b
        => { ((fun b => ((flashPut (flashGran 0) (selData 0 1 1 7) (flashPut (flashGran (682 * 32)) (selData 0 1 1 7) b)).wr R.FL_SEL 0xAA900101).put F.BOOT_STATUS_STATE 0) b).put F.FL_STAT_BUSY 1 with flCmd := some ⟨5, 0, (selData 1 0 1 8), false, 500, false, 1⟩ }), ⟨5, 0, (selData 1 0 1 8), false, 500, false, 1⟩, by decide +kernel⟩,
    ⟨at0 (fun b
        => { ((fun b => { flashPut (flashGran 0) 5 b with flashInc := [0] }) b).put F.FL_STAT_BUSY 1 with flCmd := some ⟨6, 0, (selData 0 1 0 0), false, 500, false, 0⟩ }), ⟨6, 0, (selData 0 1 0 0), false, 500, false, 0⟩, by decide +kernel⟩,
    ⟨at0 (fun b => { (id b).put F.FL_STAT_BUSY 1 with flCmd := some ⟨2, 0x3420040, 0, false, 500, false, 0⟩ }),
        ⟨2, 0x3420040, 0, false, 500, false, 0⟩, by decide +kernel⟩,
    ⟨at0 (fun b => { (id b).put F.FL_STAT_BUSY 1 with flCmd := some ⟨1, 0x3420040, 0x89ABCDEF0123, false, 500, false, 0⟩ }),
        ⟨1, 0x3420040, 0x89ABCDEF0123, false, 500, false, 0⟩, by decide +kernel⟩,
    ⟨at0 (fun b => { (id b).put F.FL_STAT_BUSY 1 with flCmd := some ⟨1, 0x3420040, 0x89ABCDEF0123, false, 998, true, 0⟩ }),
        ⟨1, 0x3420040, 0x89ABCDEF0123, false, 998, true, 0⟩, by decide +kernel⟩⟩

theorem test_hyp_LinkStateEffects :
    (∃ (s : State) (n : Fin 8) (ag : Agent) (v : Word), Reaches s ag (R.GL_CTL n) ∧ bits v.toNat 1 0 = 1 ∧
      (s.now.glCells n = true ∧ s.now.get (F.GL_STAT_LSTATE n) = 0)) ∧
    (∃ (s : State) (n : Fin 8) (ag : Agent) (v : Word), Reaches s ag (R.GL_CTL n) ∧ bits v.toNat 1 0 = 0) ∧
    (∃ (s : State) (n : Fin 8) (ag : Agent) (v : Word), Reaches s ag (R.GL_CTL n) ∧ bits v.toNat 1 0 = 3 ∧
      (s.now.glCells n = true ∧ s.now.get (F.GL_STAT_LSTATE n) ≠ 0)) ∧
    (∃ (s : State) (n : Fin 8), s.now.get (F.GL_STAT_LSTATE n) = 1) ∧
    (∃ (s : State) (n : Fin 8), s.now.get (F.GL_STAT_LSTATE n) = 2) ∧
    (∃ (s : State) (n : Fin 8), s.now.get (F.GL_STAT_LSTATE n) = 3 ∧ s.now.glTwin n = false) ∧
    (∃ (s : State) (n : Fin 8), s.now.get (F.GL_STAT_LSTATE n) = 3 ∧ (s.now.glTwin n = true ∧
      s.now.get (F.GL_STAT_LSTATE (1 - n)) = 4 ∧ n ≠ 0)) ∧
    (∃ (s : State) (n : Fin 8), s.now.get (F.GL_STAT_LSTATE n) = 4 ∧ (4 ≤ (s.now.glSt n).badCw ∨ 8 ≤ (s.now.glSt n).badHead)) ∧
    (∃ (s : State) (n : Fin 8), (s.now.get (F.GL_STAT_LSTATE n) ≠ 4 ∨ (s.now.glSt n).badCw < 4 ∧ (s.now.glSt n).badHead < 8)) ∧
    (∃ (s : State) (n : Fin 8), (s.now.on (F.GL_STAT_TXRDY n) = true ∧ s.now.glCells n = true) ∧ s.tick % 4096 = 0) ∧
    (∃ (s : State) (n : Fin 8) (u : Nat), (s.now.get (F.GL_STAT_LSTATE n) = 4 ∧ s.start.get (F.GL_CFG_SYNCTO n) ≠ 0) ∧
      (s.now.glSt n).base = some u ∧ u + 4096 * s.start.get (F.GL_CFG_SYNCTO n) ≤ s.tick) :=
  ⟨⟨at0 fun b => (b.put (F.GL_CFG_ROLE 2) 2).setGl 2 { snum := 5, syncDue := true }, 2, .engine 0, 1, by decide +kernel⟩,
    ⟨at0 fun b => ((b.put (F.GL_CFG_ROLE 2) 2).put (F.GL_STAT_LSTATE 2) 4).put (F.GL_STAT_TV 2) 1, 2, .engine 0, 0,
        by decide +kernel⟩,
    ⟨at0 fun b => ((b.put (F.GL_CFG_ROLE 2) 2).put (F.GL_STAT_LSTATE 2) 4).put (F.GL_STAT_TV 2) 1, 2, .engine 0, 3,
        by decide +kernel⟩,
    ⟨at0 fun b => b.put (F.GL_STAT_LSTATE 2) 1, 2, by decide +kernel⟩,
    ⟨at0 fun b => b.put (F.GL_STAT_LSTATE 2) 2, 2, by decide +kernel⟩,
    ⟨at0 fun b => ((b.put (F.GL_CFG_ROLE 2) 2).put (F.GL_STAT_LSTATE 2) 3).setGl 2 { snum := 5, seq := [(3, 4)] }, 2,
        by decide +kernel⟩,
    ⟨at0 fun b => (((b.put (F.GL_CFG_ROLE 1) 1).put (F.GL_STAT_LSTATE 1) 3).put (F.GL_STAT_LSTATE 0) 4).setGl 0
        { snum := 5, seq := [(3, 4)] }, 1, by decide +kernel⟩,
    ⟨at0 fun b => (((b.put (F.GL_STAT_LSTATE 2) 4).put (F.GL_STAT_TV 2) 1).put (F.GL_ERR1_LOL 2) 255).setGl 2 { badCw := 4 }, 2,
        by decide +kernel⟩,
    ⟨at0 fun b => (b.put (F.GL_STAT_LSTATE 2) 4).setGl 2 { badCw := 3, badHead := 7 }, 2, by decide +kernel⟩,
    ⟨st 8192 (fun b => (b.put (F.GL_CFG_ROLE 2) 2).put (F.GL_STAT_TXRDY 2) 1) id, 2, by decide +kernel⟩,
    ⟨st 8192 (fun b => ((b.put (F.GL_CFG_SYNCTO 2) 1).put (F.GL_STAT_LSTATE 2) 4).setGl 2 { base := some 4096 })
        (fun b => ((b.put (F.GL_CFG_SYNCTO 2) 1).put (F.GL_STAT_LSTATE 2) 4).setGl 2 { base := some 4096 }), 2, 4096,
        by decide +kernel⟩⟩

theorem test_hyp_LinkCellEffects :
    (∃ (s : State) (n : Fin 8) (a : Nat), (s.now.headUp n = true ∧ tickOf a + 88 = s.tick)) ∧
    (∃ (s : State) (n : Fin 8) (h : Word) (x : BitVec 16) (a : Nat), (s.now.headUp n = true ∧ tickOf a + 88 = s.tick) ∧
      headCrc h.toNat ≠ x.toNat) ∧
    (∃ (s : State) (n : Fin 8) (h : Word) (x : BitVec 16) (p : BitVec 256) (y : BitVec 16) (a : Nat), (s.now.headUp n = true ∧
      tickOf a + 88 = s.tick) ∧ headCrc h.toNat = x.toNat ∧ decodeSyn (k272 p.toNat ^^^ y.toNat) = .bad) ∧
    (∃ (s : State) (n : Fin 8) (h : Word) (x : BitVec 16) (p : BitVec 256) (y : BitVec 16) (a : Nat), (s.now.headUp n = true ∧
      tickOf a + 88 = s.tick) ∧ cellGood h x p y = true ∧ (bits h.toNat 31 28 = 8 ∨ bits h.toNat 31 28 = 7 ∧
      s.now.on (F.GL_CFG_CVEN n) = false) ∧
      (((s.now.glSt n).rx.find? (bits h.toNat 27 20)).all (fun e => e == bits h.toNat 19 12) = true)) ∧
    (∃ (s : State) (n : Fin 8) (h : Word) (x : BitVec 16) (p : BitVec 256) (y : BitVec 16) (a : Nat) (e : Nat),
        (s.now.headUp n = true ∧
      tickOf a + 88 = s.tick) ∧ cellGood h x p y = true ∧ bits h.toNat 31 28 = 8 ∧ ((s.now.glSt n).fifo.length = 64 ∧
      (s.now.glSt n).lapse = false) ∧ ((s.now.glSt n).rx.find? (bits h.toNat 27 20) = some e ∧ e ≠ bits h.toNat 19 12)) ∧
    (∃ (s : State) (n : Fin 8) (h : Word) (x : BitVec 16) (p : BitVec 256) (y : BitVec 16) (a : Nat), (s.now.headUp n = true ∧
      tickOf a + 88 = s.tick) ∧ (headCrc h.toNat = x.toNat ∧ bits h.toNat 31 28 = 15) ∧
      decodeSyn (k272 p.toNat ^^^ y.toNat) ≠ .bad) ∧
    (∃ (s : State) (n : Fin 8) (h : Word) (x : BitVec 16) (p : BitVec 256) (y : BitVec 16) (a : Nat) (m : Nat),
        (s.now.headUp n = true ∧
      tickOf a + 88 = s.tick) ∧ (headCrc h.toNat = x.toNat ∧ typeReceived false (bits h.toNat 31 28) = false ∧
      bits h.toNat 31 28 ≠ 15) ∧ decodeSyn (k272 p.toNat ^^^ y.toNat) = .one m) ∧
    (∃ (s : State) (n : Fin 8) (h : Word) (x : BitVec 16) (p : BitVec 256) (y : BitVec 16) (a : Nat) (u : Nat),
        (s.now.headUp n = true ∧
      tickOf a + 88 = s.tick) ∧ (cellGood h x p y = true ∧ bits h.toNat 31 28 = 3) ∧
      ((s.now.glSt n).sent.find? (fun z => z.1 == bits p.toNat 167 160) = some (bits p.toNat 167 160, u)) ∧
      bit p.toNat 191 = true) ∧
    (∃ (s : State) (n : Fin 8) (h : Word) (x : BitVec 16) (p : BitVec 256) (y : BitVec 16) (a : Nat), (s.now.glTwin n = true ∧
      s.now.get (F.GL_STAT_LSTATE n) = 4 ∧ tickOf a + 88 = s.tick) ∧ cellGood h x p y = true ∧ (4 ≤ bits h.toNat 31 28 ∧
      bits h.toNat 31 28 ≤ 8) ∧ bits p.toNat 255 224 < s.now.rd R.PV_EPOCH) ∧
    (∃ (s : State) (n : Fin 8) (h : Word) (x : BitVec 16) (p : BitVec 256) (y : BitVec 16) (a : Nat) (z : RxCell)
        (l : List RxCell), (n = 0 ∧
      s.now.glTwin n = true ∧ s.now.get (F.GL_STAT_LSTATE n) = 4 ∧ tickOf a + 88 = s.tick) ∧ (cellGood h x p y = true ∧
      bits h.toNat 31 28 = 8 ∧ s.now.rd R.PV_EPOCH ≤ bits p.toNat 255 224) ∧
      s.now.seenOnOther n (bits h.toNat 27 20) (bits h.toNat 19 12) = true ∧
      s.start.seenOnOther n (bits h.toNat 27 20) (bits h.toNat 19 12) = false ∧ ((s.now.glSt 1).fifo = l ++ [z] ∧
      z.head = h.toNat ∧ z.payload = p.toNat)) ∧
    (∃ (s : State) (n : Fin 8), (s.now.on (F.GL_STAT_TXRDY n) = true ∧ s.now.glCells n = true) ∧ (s.now.glSt n).syncDue = true) ∧
    (∃ (s : State) (n : Fin 8) (x : SentCell), (s.now.on (F.GL_STAT_TXRDY n) = true ∧ s.now.glHead n = true) ∧
      ((s.now.glSt n).syncDue = false ∧ s.now.laneQueue n = [] ∧ (s.now.glSt n).sw = some x)) ∧
    (∃ (s : State) (n : Fin 8) (x : TwinCell), (s.now.on (F.GL_STAT_TXRDY n) = true ∧ s.now.glTwin n = true) ∧
      ((s.now.glSt n).syncDue = false ∧ firstTwin (s.now.glSt n).tq = some x)) ∧
    (∃ (s : State) (n : Fin 8), (s.now.on (F.GL_STAT_TXRDY n) = true ∧ s.now.glCells n = true) ∧
      ((s.now.glSt n).syncDue = false ∧ s.now.laneQueue n = [] ∧ (s.now.glSt n).sw = none ∧ (s.now.glSt n).tq = [])) ∧
    (∃ (s : State) (n : Fin 8) (ag : Agent) (v : Word), Reaches s ag (R.GL_TXH n) ∧
      ((bits v.toNat 31 28 = 7 ∨ bits v.toNat 31 28 = 8) ∧ bits v.toNat 27 20 ≤ 0xFD) ∧ (s.now.on (F.GL_STAT_TXBUSY n) = false ∧
      s.start.on (F.GL_STAT_TXBUSY n) = false ∧ s.now.glHead n = true)) ∧
    (∃ (s : State) (n : Fin 8) (ag : Agent) (v : Word), Reaches s ag (R.GL_TXH n) ∧
      ((bits v.toNat 31 28 = 7 ∨ bits v.toNat 31 28 = 8) ∧ bits v.toNat 27 20 ≤ 0xFD) ∧ (s.now.on (F.GL_STAT_TXBUSY n) = false ∧
      s.start.on (F.GL_STAT_TXBUSY n) = false ∧ s.now.glTwin n = true)) ∧
    (∃ (s : State) (n : Fin 8) (ag : Agent) (v : Word), Reaches s ag (R.GL_TXH n) ∧ s.now.glCells n = true ∧
      (bits v.toNat 31 28 ≠ 7 ∧
      bits v.toNat 31 28 ≠ 8 ∨ 0xFD < bits v.toNat 27 20 ∨ s.now.on (F.GL_STAT_TXBUSY n) = true ∨ s.start.on
        (F.GL_STAT_TXBUSY n) = true)) ∧
    (∃ (s : State) (n : Fin 8) (ag : Agent), Reaches s ag (R.GL_TXH n) ∧ s.now.glCells n = false) ∧
    (∃ (s : State) (n : Fin 8) (x : RxCell) (l : List RxCell), (s.now.glCells n = true ∧
      (locate s.hw (R.GL_RXS n)).isSome = true) ∧ ((s.now.glSt n).fifo = x :: l ∧ (s.start.glSt n).fifo ≠ [])) ∧
    (∃ (s : State) (n : Fin 8), (s.now.glCells n = true ∧ (locate s.hw (R.GL_RXS n)).isSome = true) ∧
      (s.start.glSt n).fifo = []) :=
  ⟨⟨at0 fun b => ((b.put (F.GL_CFG_ROLE 2) 2).put (F.GL_STAT_LSTATE 2) 4).setGl 2 { badCw := 2 }, 2, 58373, by decide +kernel⟩,
    ⟨at0 fun b => (b.put (F.GL_CFG_ROLE 2) 2).put (F.GL_STAT_LSTATE 2) 4, 2, 0x70500000, BitVec.ofNat 16 (headCrc 0x70500001),
        58373, by decide +kernel⟩,
    ⟨at0 fun b => (b.put (F.GL_CFG_ROLE 2) 2).put (F.GL_STAT_LSTATE 2) 4, 2, 0x70500000, BitVec.ofNat 16 (headCrc 0x70500000), 77,
        BitVec.ofNat 16 (k272 77 ^^^ 0xFFFF), 58373, by decide +kernel⟩,
    ⟨at0 fun b => ((b.put (F.GL_CFG_ROLE 2) 2).put (F.GL_STAT_LSTATE 2) 4).setGl 2 { rx := [(5, 255)], badHead := 3 }, 2,
        0x705FF000, BitVec.ofNat 16 (headCrc 0x705FF000), 77, BitVec.ofNat 16 (k272 77), 58373, by decide +kernel⟩,
    ⟨at0 fun b => ((b.put (F.GL_CFG_ROLE 2) 2).put (F.GL_STAT_LSTATE 2) 4).setGl 2
        { rx := [(5, 255)], fifo := List.replicate 64 ⟨1, 2, false, 0⟩ }, 2, 0x80503000, BitVec.ofNat 16 (headCrc 0x80503000),
        77, BitVec.ofNat 16 (k272 77), 58373, 255, by decide +kernel⟩,
    ⟨at0 fun b => (b.put (F.GL_CFG_ROLE 2) 2).put (F.GL_STAT_LSTATE 2) 4, 2, 0xF0000000, BitVec.ofNat 16 (headCrc 0xF0000000), 0, 4,
        58373, by decide +kernel⟩,
    ⟨at0 fun b => (b.put (F.GL_CFG_ROLE 2) 2).put (F.GL_STAT_LSTATE 2) 4, 2, 0xE0000000, BitVec.ofNat 16 (headCrc 0xE0000000), 0, 4,
        58373, 2, by decide +kernel⟩,
    ⟨at0 fun b => ((b.put (F.GL_CFG_ROLE 2) 2).put (F.GL_STAT_LSTATE 2) 4).setGl 2 { sent := [(4, 900), (3, 800)] }, 2, 0x3FF00000,
        BitVec.ofNat 16 (headCrc 0x3FF00000), BitVec.ofNat 256 (payloadOf [20, 0, 0x00070508, 15, 0, 0x80000003, 0, 0]),
        BitVec.ofNat 16 (k272 (payloadOf [20, 0, 0x00070508, 15, 0, 0x80000003, 0, 0])), 58373, 800, by decide +kernel⟩,
    ⟨at0 fun b => ((b.put (F.GL_CFG_ROLE 1) 1).put (F.GL_STAT_LSTATE 1) 4).wr R.PV_EPOCH 2, 1, 0x70500000, BitVec.ofNat 16
        (headCrc 0x70500000), 1 <<< 224, BitVec.ofNat 16 (k272 (2 ^ 224)), 58373, by decide +kernel⟩,
    ⟨st 1000 (fun b => (b.put (F.GL_CFG_ROLE 0) 1).put (F.GL_STAT_LSTATE 0) 4)
        (fun b => (b.setGl 0 { unseen := [(1, 5, 9)] }).setGl 1 { fifo := [⟨1, 2, false, 0⟩, ⟨0x80509000, 77, false, 0⟩] }), 0,
        0x80509000, BitVec.ofNat 16 (headCrc 0x80509000), 77, BitVec.ofNat 16 (k272 77), 58373, ⟨0x80509000, 77, false, 0⟩,
        [⟨1, 2, false, 0⟩], by decide +kernel⟩,
    ⟨at0 fun b => ((b.put (F.GL_CFG_ROLE 2) 2).put (F.GL_STAT_TXRDY 2) 1).setGl 2
        { syncDue := true, snum := 255, sw := some ⟨0x70500000, 5, false⟩ }, 2, by decide +kernel⟩,
    ⟨at0 fun b => ((b.put (F.GL_CFG_ROLE 2) 2).put (F.GL_STAT_TXRDY 2) 1).setGl 2
        { seq := [(5, 255)], sw := some ⟨0x70500000, 5, false⟩ }, 2, ⟨0x70500000, 5, false⟩, by decide +kernel⟩,
    ⟨at0 fun b => (((b.put (F.GL_CFG_ROLE 1) 1).put (F.GL_STAT_TXRDY 1) 1).wr R.PV_EPOCH 7).setGl 1
        { tq := [⟨3, 2, 0x5FF00000, 1, false⟩, ⟨2, 1, 0x70500000, 5, false⟩] }, 1, ⟨2, 1, 0x70500000, 5, false⟩,
        by decide +kernel⟩,
    ⟨at0 fun b => (b.put (F.GL_CFG_ROLE 2) 2).put (F.GL_STAT_TXRDY 2) 1, 2, by decide +kernel⟩,
    ⟨at0 fun b => (b.put (F.GL_CFG_ROLE 2) 2).wr (R.GL_TXW 2 7) 9, 2, .engine 0, 0x7FDFF123, by decide +kernel⟩,
    ⟨at0 fun b => ((b.put (F.GL_CFG_ROLE 0) 1).put (F.GL_CFG_ROLE 1) 1).wr (R.GL_TXW 1 7) 9, 1, .engine 0, 0x7FDFF123,
        by decide +kernel⟩,
    ⟨at0 fun b => (b.put (F.GL_CFG_ROLE 2) 2).wr (R.GL_TXW 2 7) 9, 2, .engine 0, 0x7FEFF123, by decide +kernel⟩,
    ⟨at0 fun b => b.put (F.GL_CFG_ROLE 2) 0, 2, .engine 0, by decide +kernel⟩,
    ⟨at0 fun b => (b.put (F.GL_CFG_ROLE 2) 2).setGl 2 { fifo := [⟨1, 2, true, 2⟩, ⟨1, 2, false, 0⟩] }, 2, ⟨1, 2, true, 2⟩,
        [⟨1, 2, false, 0⟩], by decide +kernel⟩,
    ⟨st 1000 (fun b => b.put (F.GL_CFG_ROLE 2) 2) (fun b => b.setGl 2 { fifo := [⟨1, 2, true, 2⟩] }), 2, by decide +kernel⟩⟩

theorem test_hyp_HostPortEffects :
    (∃ (s : State) (q : Bool), s.now.hostLane s.hw q = true ∧ (s.now.on F.HP_STAT_LINK) = (s.now.hp.up6 || s.now.hp.up7)) ∧
    (∃ (s : State) (j : Word), s.now.hostOn = true ∧ j.toNat = s.now.hostIp s.hw) ∧
    (∃ (s : State) (j : Word), s.now.hostOn = true ∧ j.toNat ≠ s.now.hostIp s.hw) ∧
    (∃ (s : State), s.now.hostOn = true) ∧
    (∃ (s : State), s.now.hostOn = true) ∧
    (∃ (s : State), s.now.hostOn = true) ∧
    (∃ (s : State), (s.now.hostOn = true ∧ s.now.inRun = true)) ∧
    (∃ (s : State), s.now.hostOn = false) ∧
    (∃ (s : State) (h : KspHead), (HostTakes s h.ip = true ∧ h.good = true ∧ h.typ = 1 ∧ h.flags = 0 ∧ h.sess = 0) ∧
      (s.now.hp.sess.all (fun x => x.ip != h.ip || x.port != h.port) = true ∧ s.now.hp.sess.length < 4)) ∧
    (∃ (s : State) (h : KspHead), (HostTakes s h.ip = true ∧ h.good = true ∧ h.typ = 1 ∧ h.flags = 0 ∧ h.sess = 0) ∧
      (s.now.hp.sess.any (fun x => x.ip == h.ip && x.port == h.port) = true ∧ s.now.hp.sess.length ≤ 4)) ∧
    (∃ (s : State) (h : KspHead) (o : Nat), (HostTakes s h.ip = true ∧ h.good = true ∧ h.typ = 1 ∧ h.flags = 0 ∧ h.sess = 0) ∧
      (s.now.hp.sess.all (fun x => x.ip != h.ip || x.port != h.port) = true ∧ s.now.hp.sess.length = 4) ∧
      oldestSess s.now.hp.sess = some o) ∧
    (∃ (s : State) (m : Word) (x : KspSess), s.start.get F.HP_CFG_SESTO ≠ 0 ∧ (x ∈ s.now.hp.sess ∧ x.num = m.toNat ∧
      x.last + s.start.get F.HP_CFG_SESTO * 2 ^ 24 ≤ s.tick) ∧ s.now.hp.sess.length < 8) ∧
    (∃ (s : State) (m : Word), (s.now.hp.sess.all (fun y => y.num != m.toNat || s.tick < y.last + s.start.get F.HP_CFG_SESTO * 2
        ^ 24) = true)) ∧
    (∃ (s : State) (h : KspHead) (x : KspSess) (l : List Nat), Admits s h 4 false x = true ∧ (1 ≤ l.length ∧ l.length ≤ 256) ∧
      (s.now.hp.mail.length < 16 ∧ s.now.on F.HP_MBCFG_EN = true)) ∧
    (∃ (s : State) (h : KspHead) (x : KspSess) (l : List Nat), Admits s h 4 false x = true ∧ (1 ≤ l.length ∧ l.length ≤ 256) ∧
      (16 ≤ s.now.hp.mail.length ∨ s.now.on F.HP_MBCFG_EN = false)) ∧
    (∃ (s : State) (h : KspHead) (x : KspSess) (l : List Nat) (m : List Nat), (HostTakes s h.ip = true ∧ s.now.inRun = true ∧
      h.good = true ∧ h.typ = 4 ∧ h.flags = 0) ∧ (1 ≤ l.length ∧ l.length ≤ 256) ∧
      (s.now.hp.sess.find? (fun y => y.num == h.sess && y.ip == h.ip && y.port == h.port) = some x) ∧
      (x.results.find? (fun r => r.1 == h.seq) = some (h.seq, some m))) ∧
    (∃ (s : State) (h : KspHead) (l : List Nat), (HostTakes s h.ip = true ∧ s.now.inRun = true ∧ h.good = true ∧ h.typ = 4 ∧
      h.flags = 0) ∧ (1 ≤ l.length ∧ l.length ≤ 256) ∧
      (s.now.hp.sess.find? (fun y => y.num == h.sess && y.ip == h.ip && y.port == h.port) = none)) ∧
    (∃ (s : State) (ag : Agent) (v : Word) (x : MbEnt) (l : List MbEnt), Reaches s ag R.HP_MBRC ∧ (s.now.hp.mail = x :: l ∧
      x.tag = v.toNat % 65536) ∧ s.now.rd (R.HP_MBR 63) % 512 ≤ 252) ∧
    (∃ (s : State) (ag : Agent) (v : Word), Reaches s ag R.HP_MBRC ∧
      (s.now.hp.mail.head?.all (fun x => x.tag != v.toNat % 65536) = true)) ∧
    (∃ (s : State) (x : MbEnt) (l : List MbEnt), s.now.hp.mail = x :: l ∧
      s.now.hp.headAt + s.start.get F.HP_CFG_MBTO * 1024 ≤ s.tick) ∧
    (∃ (s : State), (s.now.hp.mail = [] ∨ s.tick < s.now.hp.headAt + s.start.get F.HP_CFG_MBTO * 1024)) ∧
    (∃ (s : State) (h : KspHead) (x : KspSess), Admits s h 5 true x = true) ∧
    (∃ (s : State) (h : KspHead) (x : KspSess), Admits s h 5 true x = true ∧ peMask s.hw ≠ 0) ∧
    (∃ (s : State) (h : KspHead) (x : KspSess) (l : List Nat), Admits s h 8 true x = true ∧ l.length = 32) ∧
    (∃ (s : State), (s.now.inHold = true ∧ s.now.retry = false) ∧ (s.now.hp.cfgs ≠ [] ∨ s.now.hp.later ≠ [])) ∧
    (∃ (s : State) (h : KspHead) (x : KspSess), Admits s h 9 true x = true ∧ (s.now.inRun = true ∧
      s.now.on F.HP_CFG_RSTEN = true)) ∧
    (∃ (s : State) (h : KspHead) (x : KspSess), Admits s h 9 true x = true ∧ (s.now.inRun = true ∧
      s.now.on F.HP_CFG_RSTEN = false)) ∧
    (∃ (s : State) (h : KspHead) (x : KspSess), Admits s h 9 true x = true ∧ s.now.inHold = true) :=
  ⟨⟨at0 fun b => (b.put F.BOOT_STATUS_STATE 1).put (F.GL_CFG_ROLE 7) 3, true, by decide +kernel⟩,
    ⟨at0 fun b => ((b.put F.BOOT_STATUS_STATE 1).put F.HP_STAT_LINK 1).wr R.HP_IPA 0x0A000001, 0x0A000001, by decide +kernel⟩,
    ⟨at0 fun b => ((b.put F.BOOT_STATUS_STATE 1).put F.HP_STAT_LINK 1).wr R.HP_IPA 0x0A000001, 0x0A000002, by decide +kernel⟩,
    ⟨at0 fun b => (b.put F.BOOT_STATUS_STATE 2).put F.HP_STAT_LINK 1, by decide +kernel⟩,
    ⟨at0 fun b => ((b.put F.BOOT_STATUS_STATE 1).put F.HP_STAT_LINK 1).put F.HP_CNT0_FCS 255, by decide +kernel⟩,
    ⟨at0 fun b => (b.put F.BOOT_STATUS_STATE 2).put F.HP_STAT_LINK 1, by decide +kernel⟩,
    ⟨at0 fun b => ((b.put F.BOOT_STATUS_STATE 1).put F.HP_STAT_LINK 1).put F.HP_CNT0_ACL 3, by decide +kernel⟩,
    ⟨State.reset, by decide +kernel⟩,
    ⟨hostRun, ⟨0xA000001, 5001, 1, 0, 0, 7, true⟩, by decide +kernel⟩,
    ⟨hostRun, ⟨0xA000001, 5000, 1, 0, 0, 7, true⟩, by decide +kernel⟩,
    ⟨hostRun fun
        b =>
        { b with hp := { b.hp with sess := [⟨1, 5000, 1, 500, []⟩, ⟨2, 5000, 9, 400, []⟩, ⟨3, 5000, 4, 400, []⟩, ⟨4, 5000, 7, 600, []⟩] } }, ⟨0xA000001, 5000, 1, 0, 0, 7, true⟩, 9, by decide +kernel⟩,
    ⟨{ hostRun fun b => b.put F.HP_CFG_SESTO 1 with tick := 2 ^ 24 + 500 }, 1, ⟨0xA000001, 5000, 1, 500, [(6, some [])]⟩,
        by decide +kernel⟩,
    ⟨{ hostRun fun b => b.put F.HP_CFG_SESTO 1 with tick := 2 ^ 24 + 499 }, 1, by decide +kernel⟩,
    ⟨hostRun, ⟨0xA000001, 5000, 4, 0, 1, 7, true⟩, ⟨0xA000001, 5000, 1, 500, [(6, some [])]⟩, [1, 2, 3], by decide +kernel⟩,
    ⟨hostRun fun b => b.put F.HP_MBCFG_EN 0, ⟨0xA000001, 5000, 4, 0, 1, 7, true⟩, ⟨0xA000001, 5000, 1, 500, [(6, some [])]⟩,
        [1, 2, 3], by decide +kernel⟩,
    ⟨hostRun, ⟨0xA000001, 5000, 4, 0, 1, 6, true⟩, ⟨0xA000001, 5000, 1, 500, [(6, some [])]⟩, [1, 2, 3], [], by decide +kernel⟩,
    ⟨hostRun, ⟨0xA000001, 5000, 4, 0, 2, 7, true⟩, [1, 2, 3], by decide +kernel⟩,
    ⟨hostRun fun
        b =>
        { ((b.wr (R.HP_MBR 63) 5).wr (R.HP_MBR 1) 0x89ABCDEF).put F.HP_CFG_MBTO 1 with hp := { b.hp with headAt := 900, mail := [⟨3, ⟨1, 7, 0xA000001, 5000, 4⟩, [1, 2]⟩, ⟨4, ⟨1, 8, 0xA000001, 5000, 4⟩, [1, 2, 3, 4, 5]⟩] } }, .engine 0, 0x00030003, ⟨3, ⟨1, 7, 0xA000001, 5000, 4⟩, [1, 2]⟩, [⟨4, ⟨1, 8, 0xA000001, 5000, 4⟩, [1, 2, 3, 4, 5]⟩], by decide +kernel⟩,
    ⟨hostRun fun
        b =>
        { ((b.wr (R.HP_MBR 63) 5).wr (R.HP_MBR 1) 0x89ABCDEF).put F.HP_CFG_MBTO 1 with hp := { b.hp with headAt := 900, mail := [⟨3, ⟨1, 7, 0xA000001, 5000, 4⟩, [1, 2]⟩, ⟨4, ⟨1, 8, 0xA000001, 5000, 4⟩, [1, 2, 3, 4, 5]⟩] } }, .engine 0, 0x00030004, by decide +kernel⟩,
    ⟨{ hostRun fun b => { ((b.wr (R.HP_MBR 63) 5).wr (R.HP_MBR 1) 0x89ABCDEF).put F.HP_CFG_MBTO 1 with hp := { b.hp with headAt := 900, mail := [⟨3, ⟨1, 7, 0xA000001, 5000, 4⟩, [1, 2]⟩, ⟨4, ⟨1, 8, 0xA000001, 5000, 4⟩, [1, 2, 3, 4, 5]⟩] } } with tick := 2024 }, ⟨3, ⟨1, 7, 0xA000001, 5000, 4⟩, [1, 2]⟩, [⟨4, ⟨1, 8, 0xA000001, 5000, 4⟩, [1, 2, 3, 4, 5]⟩], by decide +kernel⟩,
    ⟨{ hostRun fun b => { ((b.wr (R.HP_MBR 63) 5).wr (R.HP_MBR 1) 0x89ABCDEF).put F.HP_CFG_MBTO 1 with hp := { b.hp with headAt := 900, mail := [⟨3, ⟨1, 7, 0xA000001, 5000, 4⟩, [1, 2]⟩, ⟨4, ⟨1, 8, 0xA000001, 5000, 4⟩, [1, 2, 3, 4, 5]⟩] } } with tick := 1923 }, by decide +kernel⟩,
    ⟨hostRun, ⟨0xA000001, 5000, 5, 0, 1, 7, true⟩, ⟨0xA000001, 5000, 1, 500, [(6, some [])]⟩, by decide +kernel⟩,
    ⟨jobRun, ⟨0xA000001, 5000, 5, 0, 1, 7, true⟩, ⟨0xA000001, 5000, 1, 500, [(6, some [])]⟩, by decide +kernel⟩,
    ⟨hostRun, ⟨0xA000001, 5000, 8, 0, 1, 7, true⟩, ⟨0xA000001, 5000, 1, 500, [(6, some [])]⟩, List.replicate 32 7,
        by decide +kernel⟩,
    ⟨at0 fun b => { b.put F.BOOT_STATUS_STATE 2 with hp := { b.hp with later := [.enrol 0 []] } }, by decide +kernel⟩,
    ⟨hostRun fun b => b.put F.HP_CFG_RSTEN 1, ⟨0xA000001, 5000, 9, 0, 1, 7, true⟩, ⟨0xA000001, 5000, 1, 500, [(6, some [])]⟩,
        by decide +kernel⟩,
    ⟨hostRun, ⟨0xA000001, 5000, 9, 0, 1, 7, true⟩, ⟨0xA000001, 5000, 1, 500, [(6, some [])]⟩, by decide +kernel⟩,
    ⟨hostRun fun b => b.put F.BOOT_STATUS_STATE 2, ⟨0xA000001, 5000, 9, 0, 1, 7, true⟩, ⟨0xA000001, 5000, 1, 500, [(6, some [])]⟩,
        by decide +kernel⟩⟩

theorem test_hyp_HostSpoolAndFlashRequests :
    (∃ (s : State) (h : KspHead) (x : KspSess) (j : BitVec 16) (ofs : BitVec 64) (n : Word) (l : List Nat)
        (ps : List (Nat × Nat)) (k : Nat), Admits s h 2 false x = true ∧
      (j.toNat < 256 ∧ ofs.toNat % 4096 = 0 ∧ l.length = n.toNat ∧ (n = 4096 ∨ n = 8192 ∨ h.flags = 1 ∧ n.toNat % 32 = 0 ∧
      32 ≤ n.toNat ∧ n.toNat ≤ 8192)) ∧ (peMask s.hw ≠ 0 ∧ s.start.get (F.JOB_CTL_STATE j.toNat) = 1) ∧
      ofs.toNat + n.toNat ≤ extentBytes (s.now.extents j.toNat) ∧
      ((s.now.spanUnits j.toNat ofs.toNat ((n.toNat + 4095) / 4096 * 4096)).map (fun a => a.bind (s.now.spoolMap s.hw)) = ps.map
        some ∧
      ps.all (fun p => s.now.get (F.PE_STAT_STATE p.1) == 2) = true) ∧
      ((List.range (s.now.get F.HP_WBSZ_SZ)).find? (fun i => !(s.now.hp.writes.map (·.slot)).contains i) = some k) ∧
      (0x10000000 ≤ s.now.rd R.HP_WBUF ∧ s.now.rd R.HP_WBUF + (k + 1) * 8192 ≤ 0x12000000 ∧ s.now.rd R.HP_WBUF % 32 = 0)) ∧
    (∃ (s : State) (h : KspHead) (x : KspSess) (j : BitVec 16) (ofs : BitVec 64) (n : Word) (l : List Nat), Admits s h 2 false x
        = true ∧
      (j.toNat < 256 ∧ ofs.toNat % 4096 = 0 ∧ l.length = n.toNat ∧ (n = 4096 ∨ n = 8192 ∨ h.flags = 1 ∧ n.toNat % 32 = 0 ∧
      32 ≤ n.toNat ∧ n.toNat ≤ 8192)) ∧ (peMask s.hw = 0 ∨ s.start.get (F.JOB_CTL_STATE j.toNat) ≠ 1)) ∧
    (∃ (s : State) (h : KspHead) (x : KspSess) (j : BitVec 16) (ofs : BitVec 64) (n : Word) (l : List Nat), Admits s h 2 false x
        = true ∧
      (j.toNat < 256 ∧ ofs.toNat % 4096 = 0 ∧ l.length = n.toNat ∧ (n = 4096 ∨ n = 8192 ∨ h.flags = 1 ∧ n.toNat % 32 = 0 ∧
      32 ≤ n.toNat ∧ n.toNat ≤ 8192)) ∧ (peMask s.hw ≠ 0 ∧ s.start.get (F.JOB_CTL_STATE j.toNat) = 1) ∧
      extentBytes (s.now.extents j.toNat) < ofs.toNat + n.toNat) ∧
    (∃ (s : State) (h : KspHead) (x : KspSess) (j : BitVec 16) (ofs : BitVec 64) (n : Word) (l : List Nat), Admits s h 2 false x
        = true ∧
      (j.toNat < 256 ∧ ofs.toNat % 4096 = 0 ∧ l.length = n.toNat ∧ (n = 4096 ∨ n = 8192 ∨ h.flags = 1 ∧ n.toNat % 32 = 0 ∧
      32 ≤ n.toNat ∧ n.toNat ≤ 8192)) ∧ (peMask s.hw ≠ 0 ∧ s.start.get (F.JOB_CTL_STATE j.toNat) = 1) ∧
      ofs.toNat + n.toNat ≤ extentBytes (s.now.extents j.toNat) ∧
      ((s.now.spanUnits j.toNat ofs.toNat ((n.toNat + 4095) / 4096 * 4096)).any
        (fun a => (a.bind (s.now.spoolMap s.hw)).all fun p => s.now.get (F.PE_STAT_STATE p.1) != 2) = true) ∧
      ((s.now.spanUnits j.toNat ofs.toNat ((n.toNat + 4095) / 4096 * 4096)).all (fun a => a.isSome) = true)) ∧
    (∃ (s : State) (a : Word) (b : Word) (x : KspWrite), (s.now.hp.writes.find?
        (fun y => y.who.sess == a.toNat && y.who.seq == b.toNat && y.cmds.isEmpty) = some x) ∧
      s.now.hp.commits = []) ∧
    (∃ (s : State) (a : Word) (b : Word) (x : KspWrite) (y : KspCommit) (d : Nat),
        (s.now.hp.writes.find? (fun y => y.who.sess == a.toNat && y.who.seq == b.toNat && y.cmds.isEmpty) = some x) ∧
      (s.now.hp.commits = [y] ∧ y.before = [x.who] ∧ y.issued = false) ∧ (s.now.jobDrives s.hw y.job = [d] ∧
      s.now.get (F.PE_STAT_STATE d) = 2)) ∧
    (∃ (s : State) (h : KspHead) (x : KspSess) (j : BitVec 16) (n : BitVec 64), Admits s h 3 false x = true ∧ (j.toNat < 256 ∧
      peMask s.hw ≠ 0 ∧ s.start.get (F.JOB_CTL_STATE j.toNat) = 1) ∧ n.toNat ≤ extentBytes (s.now.extents j.toNat) ∧
      (s.now.hp.writes.all (fun y => y.job != j.toNat) = true ∧ s.now.hp.commits.all (fun y => y.who != kspWho h) = true) ∧
      ((s.now.jobDrives s.hw j.toNat).all (fun d => s.now.get (F.PE_STAT_STATE d) == 2) = true)) ∧
    (∃ (s : State) (h : KspHead) (x : KspSess) (j : BitVec 16) (n : BitVec 64), Admits s h 3 false x = true ∧ (j.toNat < 256 ∧
      peMask s.hw ≠ 0 ∧ s.start.get (F.JOB_CTL_STATE j.toNat) = 1) ∧ n.toNat ≤ extentBytes (s.now.extents j.toNat) ∧
      (s.now.hp.writes.any (fun y => y.job == j.toNat) = true ∧ s.now.hp.commits.all (fun y => y.who != kspWho h) = true)) ∧
    (∃ (s : State) (h : KspHead) (x : KspSess) (j : BitVec 16), Admits s h 3 false x = true ∧ (j.toNat < 256 ∧
      (peMask s.hw = 0 ∨ s.start.get (F.JOB_CTL_STATE j.toNat) ≠ 1))) ∧
    (∃ (s : State) (a : Word) (b : Word) (x : KspCommit), (s.now.hp.commits.find?
        (fun y => y.who.sess == a.toNat && y.who.seq == b.toNat && y.issued && y.cmds.isEmpty) = some x) ∧
      (x.failed = false ∧ x.job < 256 ∧ x.len < 2 ^ 64)) ∧
    (∃ (s : State) (a : Word) (b : Word) (x : KspCommit), (s.now.hp.commits.find?
        (fun y => y.who.sess == a.toNat && y.who.seq == b.toNat && y.issued && y.cmds.isEmpty) = some x) ∧
      x.failed = true) ∧
    (∃ (s : State) (h : KspHead) (x : KspSess) (g : BitVec 8) (ofs : Word) (r : Nat × Nat), Admits s h 6 true x = true ∧
      (s.now.cfgArea g.toNat = some r ∧ ofs.toNat < r.2)) ∧
    (∃ (s : State) (h : KspHead) (x : KspSess) (g : BitVec 8) (n : Word) (ofs : Word) (l : List Nat) (r : Nat × Nat), Admits s h
        6 true x = true ∧
      (s.now.cfgArea g.toNat = some r ∧ ofs.toNat + n.toNat ≤ r.2) ∧ (l.length = n.toNat ∧ n.toNat % 32 = 0 ∧ 0 < n.toNat ∧
      n.toNat ≤ 8192 ∧ ofs.toNat % 32 = 0)) ∧
    (∃ (s : State) (h : KspHead) (x : KspSess) (g : BitVec 8), Admits s h 7 true x = true ∧ g.toNat < 2) :=
  ⟨⟨jobRun fun b => { b with hp := { b.hp with writes := [⟨⟨9, 3, 0xA000002, 5000, 2⟩, 3, 0, [4], false⟩] } },
        ⟨0xA000001, 5000, 2, 1, 1, 7, true⟩, ⟨0xA000001, 5000, 1, 500, [(6, some [])]⟩, 3, 4096, 4128, (List.range 4128).map
        (· * 7), [(0, 16 * 4096 + 4096), (0, 16 * 4096 + 8192)], 1, by decide +kernel⟩,
    ⟨jobRun, ⟨0xA000001, 5000, 2, 0, 1, 7, true⟩, ⟨0xA000001, 5000, 1, 500, [(6, some [])]⟩, 4, 4096, 4096, List.replicate 4096 1,
        by decide +kernel⟩,
    ⟨jobRun, ⟨0xA000001, 5000, 2, 0, 1, 7, true⟩, ⟨0xA000001, 5000, 1, 500, [(6, some [])]⟩, 3, 0x8000, 4096, List.replicate 4096 1,
        by decide +kernel⟩,
    ⟨jobRun fun b => b.put (F.PE_STAT_STATE 0) 3, ⟨0xA000001, 5000, 2, 0, 1, 7, true⟩, ⟨0xA000001, 5000, 1, 500, [(6, some [])]⟩, 3,
        0x1000, 4096, List.replicate 4096 1, by decide +kernel⟩,
    ⟨hostRun fun
        b =>
        { b with hp := { b.hp with writes := [⟨⟨1, 8, 0xA000001, 5000, 2⟩, 3, 1, [], true⟩, ⟨⟨1, 7, 0xA000001, 5000, 2⟩, 3, 0, [], true⟩], sess := [⟨0xA000001, 5000, 1, 500, [(7, none), (6, some [])]⟩] } }, 1, 7, ⟨⟨1, 7, 0xA000001, 5000, 2⟩, 3, 0, [], true⟩, by decide +kernel⟩,
    ⟨jobRun fun
        b =>
        { b with hp := { b.hp with writes := [⟨⟨1, 7, 0xA000001, 5000, 2⟩, 3, 0, [], true⟩], commits := [⟨⟨9, 3, 0xA000002, 5000, 3⟩, 3, 5, [⟨1, 7, 0xA000001, 5000, 2⟩], false, [], false⟩] } }, 1, 7, ⟨⟨1, 7, 0xA000001, 5000, 2⟩, 3, 0, [], true⟩, ⟨⟨9, 3, 0xA000002, 5000, 3⟩, 3, 5, [⟨1, 7, 0xA000001, 5000, 2⟩], false, [], false⟩, 0, by decide +kernel⟩,
    ⟨jobRun, ⟨0xA000001, 5000, 3, 0, 1, 7, true⟩, ⟨0xA000001, 5000, 1, 500, [(6, some [])]⟩, 3, 0x8000, by decide +kernel⟩,
    ⟨jobRun fun b => { b with hp := { b.hp with writes := [⟨⟨9, 3, 0xA000002, 5000, 2⟩, 3, 0, [4], false⟩] } },
        ⟨0xA000001, 5000, 3, 0, 1, 7, true⟩, ⟨0xA000001, 5000, 1, 500, [(6, some [])]⟩, 3, 0x8000, by decide +kernel⟩,
    ⟨jobRun, ⟨0xA000001, 5000, 3, 0, 1, 7, true⟩, ⟨0xA000001, 5000, 1, 500, [(6, some [])]⟩, 4, by decide +kernel⟩,
    ⟨at0 fun b =>
        { (b.setDm 40 { stream := [⟨3, true, false⟩] }) with hp := { b.hp with commits := [⟨⟨1, 7, 0xA000001, 5000, 2⟩, 3, 0x500000000, [], true, [], false⟩], sess := [⟨0xA000001, 5000, 1, 500, [(7, none), (6, some [])]⟩] } }, 1, 7, ⟨⟨1, 7, 0xA000001, 5000, 2⟩, 3, 0x500000000, [], true, [], false⟩, by decide +kernel⟩,
    ⟨at0 fun b =>
        { b with hp := { b.hp with commits := [⟨⟨1, 7, 0xA000001, 5000, 2⟩, 3, 0x500000000, [], true, [], true⟩], sess := [⟨0xA000001, 5000, 1, 500, [(7, none), (6, some [])]⟩] } }, 1, 7, ⟨⟨1, 7, 0xA000001, 5000, 2⟩, 3, 0x500000000, [], true, [], true⟩, by decide +kernel⟩,
    ⟨hostRun, ⟨0xA000001, 5000, 6, 0, 1, 7, true⟩, ⟨0xA000001, 5000, 1, 500, [(6, some [])]⟩, 2, 0xBE0000,
        (833 * 0x10000, 191 * 0x10000), by decide +kernel⟩,
    ⟨hostRun fun b => b.put F.FL_PROT_UA 1, ⟨0xA000001, 5000, 6, 0, 1, 7, true⟩, ⟨0xA000001, 5000, 1, 500, [(6, some [])]⟩, 2, 64,
        0xBEFFC0, (List.range 64).map (· * 5), (833 * 0x10000, 191 * 0x10000), by decide +kernel⟩,
    ⟨hostRun, ⟨0xA000001, 5000, 7, 0, 1, 7, true⟩, ⟨0xA000001, 5000, 1, 500, [(6, some [])]⟩, 1, by decide +kernel⟩⟩

theorem test_hyp_SpoolEffects :
    (∃ (s : State) (n : Fin 2), (bit (peMask s.hw) n = true ∧ s.now.get (F.PE_STAT_STATE n) = 0)) ∧
    (∃ (s : State) (n : Fin 2), (bit (peMask s.hw) n = false ∨ s.now.get (F.PE_STAT_STATE n) ≠ 0)) ∧
    (∃ (s : State), (s.now.sp.nv.map (·.id)).Nodup) ∧
    (∃ (s : State) (n : Nat), (s.now.sp.nv.all (fun x => x.drive != n ||
        (x.kind == .trim || x.kind == .smart || x.kind == .admin)) = true)) ∧
    (∃ (s : State) (n : Fin 2), (bit (peMask s.hw) n = true ∧ s.now.get (F.PE_STAT_STATE n) = 1)) ∧
    (∃ (s : State) (n : Fin 2), (bit (peMask s.hw) n = true ∧ s.now.get (F.PE_STAT_STATE n) = 1)) ∧
    (∃ (s : State) (ag : Agent) (n : Fin 2) (v : Word), Reaches s ag (R.PE_CTL n) ∧ (bit v.toNat 0 = true ∧
      2 ≤ s.now.get (F.PE_STAT_STATE n) ∧ s.now.get (F.PE_STAT_STATE n) ≤ 4)) ∧
    (∃ (s : State) (ag : Agent) (n : Fin 2) (v : Word), Reaches s ag (R.PE_CTL n) ∧
      (bit v.toNat 0 = false ∨ s.now.get (F.PE_STAT_STATE n) < 2 ∨ 4 < s.now.get (F.PE_STAT_STATE n))) ∧
    (∃ (s : State) (i : Nat) (x : NvCmd) (q : Nat) (k : Nat), (s.now.sp.nv.find? (fun y => y.id == i) = some x) ∧
      x.kind = .read q k) ∧
    (∃ (s : State) (i : Nat) (x : NvCmd) (q : Nat) (k : Nat), (s.now.sp.nv.find? (fun y => y.id == i) = some x) ∧
      (x.kind = .write q k ∨ x.kind = .flush q k)) ∧
    (∃ (s : State) (i : Nat) (x : NvCmd) (q : Nat) (k : Nat), (s.now.sp.nv.find? (fun y => y.id == i) = some x) ∧
      (x.kind = .read q k ∨ x.kind = .trim ∨ x.kind = .smart ∨ x.kind = .admin)) ∧
    (∃ (s : State) (i : Nat) (x : NvCmd), (s.now.sp.nv.find? (fun y => y.id == i) = some x) ∧
      (x.at_ + max 1 (s.start.get F.SP_CFG_TMO) * 2 ^ 20 ≤ s.tick ∧ s.now.sp.lapse = [])) ∧
    (∃ (s : State) (i : Nat), (s.now.sp.nv.all (fun x => x.id != i || s.tick < x.at_ + max 1 (s.start.get F.SP_CFG_TMO) * 2 ^
        20) = true)) ∧
    (∃ (s : State) (n : Fin 2), (bit (peMask s.hw) n = true ∧ s.now.get (F.PE_STAT_STATE n) = 2) ∧
      ((s.now.sp.polled.find? n).all (fun u => u + 2 ^ 30 ≤ s.tick) = true)) ∧
    (∃ (s : State) (q : Fin 64) (k : Nat) (y : StreamBlk), (y ∈ (s.now.dmSt q).stream ∧ y.blk = k ∧ y.ready = false) ∧
      (0x10000000 ≤ s.now.streamAddr q k ∧ s.now.streamAddr q k + 65536 ≤ 0x80000000)) ∧
    (∃ (s : State) (ag : Agent) (j : Fin 256) (v : Word), Reaches s ag (R.JOB_CTL j) ∧ (s.now.get (F.JOB_CTL_STATE j) = 0 ∧
      bits v.toNat 31 28 = 4) ∧ (1 ≤ bits v.toNat 4 0 ∧ bits v.toNat 4 0 ≤ 16) ∧
      ((List.range (bits v.toNat 4 0)).all (fun k => s.now.inSpool s.hw (s.now.rd (R.JOB_XS j k) * 4096)
        (s.now.rd (R.JOB_XL j k) * 4096)) = true)) ∧
    (∃ (s : State) (ag : Agent) (j : Fin 256) (v : Word), Reaches s ag (R.JOB_CTL j) ∧ (s.now.get (F.JOB_CTL_STATE j) = 0 ∧
      bits v.toNat 31 28 = 4) ∧ (bits v.toNat 4 0 = 0 ∨ 16 < bits v.toNat 4 0)) ∧
    (∃ (s : State) (ag : Agent) (j : Fin 256) (v : Word), Reaches s ag (R.JOB_CTL j) ∧ (s.now.get (F.JOB_CTL_STATE j) = 0 ∧
      bits v.toNat 31 28 = 4) ∧ (1 ≤ bits v.toNat 4 0 ∧ bits v.toNat 4 0 ≤ 16) ∧
      ((List.range (bits v.toNat 4 0)).all (fun k => s.now.inSpool s.hw (s.now.rd (R.JOB_XS j k) * 4096)
        (s.now.rd (R.JOB_XL j k) * 4096)) = false)) ∧
    (∃ (s : State) (ag : Agent) (j : Fin 256) (v : Word), Reaches s ag (R.JOB_CTL j) ∧ (s.now.get (F.JOB_CTL_STATE j) ≠ 0 ∧
      bits v.toNat 31 30 = 0 ∧ bit v.toNat 28 = false) ∧ bits v.toNat 4 0 = s.now.get (F.JOB_CTL_NX j)) ∧
    (∃ (s : State) (ag : Agent) (j : Fin 256) (v : Word), Reaches s ag (R.JOB_CTL j) ∧
      (bits v.toNat 31 30 ≠ s.now.get (F.JOB_CTL_STATE j) ∧ bits v.toNat 31 30 ≠ 0) ∧ (s.now.get (F.JOB_CTL_STATE j) = 0 →
      bits v.toNat 31 30 ≠ 1)) ∧
    (∃ (s : State) (n : Fin 2), (bit (peMask s.hw) n = true ∧ s.now.get (F.PE_STAT_STATE n) ≠ 0)) ∧
    (∃ (s : State) (n : Fin 2), (bit (peMask s.hw) n = false ∨ s.now.get (F.PE_STAT_STATE n) = 0)) :=
  ⟨⟨State.reset, 1, by decide +kernel⟩,
    ⟨at0 fun b => b.put (F.PE_STAT_STATE 1) 2, 1, by decide +kernel⟩,
    ⟨at0 fun b =>
        { b with sp := { nv := [⟨0, 1, 900, .admin, 0, 0⟩, ⟨1, 0, 900, .read 40 3, 0, 0⟩, ⟨2, 1, 900, .write 1 7, 0, 0⟩], nextId := 3 } }, by decide +kernel⟩,
    ⟨at0 fun b => { b with sp := { nv := [⟨0, 1, 900, .admin, 0, 0⟩, ⟨1, 0, 900, .read 40 3, 0, 0⟩], nextId := 3 } }, 1,
        by decide +kernel⟩,
    ⟨at0 fun b =>
        { b.put (F.PE_STAT_STATE 1) 1 with sp := { nv := [⟨0, 1, 900, .admin, 0, 0⟩, ⟨1, 0, 900, .admin, 0, 0⟩], nextId := 2 } }, 1, by decide +kernel⟩,
    ⟨at0 fun b => { b.put (F.PE_STAT_STATE 1) 1 with sp := { nv := [⟨0, 1, 900, .admin, 0, 0⟩], nextId := 2 } }, 1,
        by decide +kernel⟩,
    ⟨at0 fun b => b.put (F.PE_STAT_STATE 0) 3, .engine 0, 0, 1, by decide +kernel⟩,
    ⟨at0 fun b => b.put (F.PE_STAT_STATE 0) 1, .engine 0, 0, 1, by decide +kernel⟩,
    ⟨at0 fun b =>
        { b.setDm 40 { stream := [⟨3, false, false⟩, ⟨4, false, false⟩] } with sp := { nv := [⟨6, 1, 900, .trim, 0, 0⟩, ⟨7, 1, 900, .read 40 3, 0, 65536⟩], nextId := 8 } }, 7, ⟨7, 1, 900, .read 40 3, 0, 65536⟩, 40, 3, by decide +kernel⟩,
    ⟨at0 fun b =>
        { b with sp := { nv := [⟨7, 1, 900, .write 1 7, 0, 65536⟩], nextId := 8 }, hp := { b.hp with writes := [⟨⟨1, 7, 0xA000001, 5000, 2⟩, 3, 0, [7, 8], false⟩] } }, 7, ⟨7, 1, 900, .write 1 7, 0, 65536⟩, 1, 7, by decide +kernel⟩,
    ⟨at0 fun b => { b with sp := { nv := [⟨6, 0, 900, .smart, 0, 0⟩, ⟨7, 1, 900, .trim, 0, 65536⟩], nextId := 8 } }, 7,
        ⟨7, 1, 900, .trim, 0, 65536⟩, 0, 0, by decide +kernel⟩,
    ⟨{ at0 (fun b => { b.put (F.PE_STAT_STATE 1) 2 with sp := { nv := [⟨7, 1, 900, .trim, 0, 65536⟩], nextId := 8 } }) with tick := 2 ^ 21 }, 7, ⟨7, 1, 900, .trim, 0, 65536⟩, by decide +kernel⟩,
    ⟨at0 (fun b => { b.put (F.PE_STAT_STATE 1) 2 with sp := { nv := [⟨7, 1, 900, .trim, 0, 65536⟩], nextId := 8 } }), 7,
        by decide +kernel⟩,
    ⟨at0 fun b => b.put (F.PE_STAT_STATE 1) 2, 1, by decide +kernel⟩,
    ⟨at0 fun b =>
        { (b.setDm 40 { stream := [⟨3, false, false⟩, ⟨4, false, false⟩] }).put (F.SP_RB_BASE 1) 0x802 with sp := { nv := [⟨7, 1, 900, .read 40 3, 0, 65536⟩], nextId := 8 } }, 40, 3, ⟨3, false, false⟩, by decide +kernel⟩,
    ⟨at0 fun b => ((b.wr (R.PE_CAP 0) 0x100).wr (R.JOB_XS 255 0) 0xFE).wr (R.JOB_XL 255 0) 2, .engine 0, 255, 0x40000001,
        by decide +kernel⟩,
    ⟨at0 fun b => b, .engine 0, 255, 0x40000011, by decide +kernel⟩,
    ⟨at0 fun b => ((b.wr (R.PE_CAP 0) 0x100).wr (R.JOB_XS 255 0) 0xFE).wr (R.JOB_XL 255 0) 3, .engine 0, 255, 0x40000001,
        by decide +kernel⟩,
    ⟨jobRun, .engine 0, 3, 0x20000001, by decide +kernel⟩,
    ⟨jobRun, .engine 0, 3, 0x80000001, by decide +kernel⟩,
    ⟨at0 fun b =>
        { b.put (F.PE_STAT_STATE 1) 3 with sp := { nv := [⟨7, 1, 900, .write 1 7, 0, 65536⟩], nextId := 8 }, hp := { b.hp with writes := [⟨⟨1, 7, 0xA000001, 5000, 2⟩, 3, 0, [7, 8], false⟩] } }, 1, by decide +kernel⟩,
    ⟨State.reset, 1, by decide +kernel⟩⟩

theorem test_hyp_SpareEffects :
    (∃ (s : State) (ag : Agent) (q : Fin 32) (k : Fin 8), Reaches s ag (R.CL_HB q k)) ∧
    (∃ (s : State) (q : Fin 32) (k : Fin 8) (e : Nat) (x : Nat), s.now.declares s.ctx q k = some x ∧ e = s.now.watchedEng q k ∧
      (s.now.on (F.CL_CFG_SPV q) = false ∨ s.now.on (F.CL_STAT_TKO q) = true)) ∧
    (∃ (s : State) (q : Fin 32) (k : Fin 8) (e : Nat) (x : Nat) (z : Nat), s.now.declares s.ctx q k = some x ∧
      (e = s.now.watchedEng q k ∧ z = 8 * q + s.now.get (F.CL_CFG_SPARE q)) ∧ (s.now.on (F.CL_CFG_SPV q) = true ∧
      s.now.on (F.CL_STAT_TKO q) = false ∧ z ≠ e)) ∧
    (∃ (s : State) (q : Fin 32) (d : Nat) (e : Nat) (z : Nat), ((s.now.suSt q).takeover = some (d, e, z) ∧
      (s.now.suSt q).begun = false) ∧ d + 2048 ≤ s.tick) ∧
    (∃ (s : State) (e : Fin 256) (u : Nat), ((s.now.suSt (clusterOf e)).isoDue = [(e.val, u)] ∧ u ≤ s.tick)) ∧
    (∃ (s : State) (e : Fin 256) (k : Fin 64) (p : Nat), (p = s.now.get (F.CL_CKP_CKP (clusterOf e)) ∧ p ≠ 0) ∧
      (s.now.on (F.CL_CFG_EN (clusterOf e)) = true ∧
      ((List.range 8).any fun j => bit (s.now.get (F.CL_CFG_HBEN (clusterOf e))) j && s.now.watchedEng (clusterOf e) j == e.val)
        = true) ∧
      (((s.start.engSt e).late.any fun x => x.task == k.val) = false ∧
      ((s.start.engSt e).loads.any fun x => x.task == k.val) = false) ∧
      (s.now.suSt (clusterOf e)).period.find? (e.val % 8 * 64 + k) ≠ some (s.tick / p) ∧ ((s.start.taskSt e k).resting = true ∧
      (s.now.taskSt e k).resting = true ∧ (s.start.taskSt e k).dc ≠ 0 ∧ k.val < s.now.nt.getD 0 e)) ∧
    (∃ (s : State) (q : Fin 32) (x : Snap) (l : List Snap) (a : Nat), (s.now.suSt q).snaps = x :: l ∧ (x.eng < 8 ∧ x.task < 64 ∧
      x.groups < 64 ∧ x.words.length = 41) ∧ a = s.now.recordAddr q x.eng x.task ∧ (s.now.unwritten 100 a 192 = true ∧
      s.now.sporeSends q = false)) ∧
    (∃ (s : State) (q : Fin 32) (x : Snap) (l : List Snap) (a : Nat), (s.now.suSt q).snaps = x :: l ∧ (x.eng < 8 ∧ x.task < 64 ∧
      x.groups < 64 ∧ x.words.length = 41) ∧ a = s.now.recordAddr q x.eng x.task ∧ (s.now.unwritten 100 a 192 = true ∧
      s.now.sporeSends q = true ∧ s.now.glTwin 0 = true)) :=
  ⟨⟨at0 fun b => b, .engine 0, 0, 3, by decide +kernel⟩,
    ⟨run [] id id (fun b => { (b.wr (R.CL_CFG 0) 0x80FF0000).put (F.CL_HBW_HBW 0) 256 with fcS := some 700 }), 0, 7, 7, 0,
        by decide +kernel⟩,
    ⟨run [] id (fun
        u =>
        { u with vbase := 0x10040 })
        (fun
        b =>
        { (b.wr (R.CL_CFG 0) 0xA0FF0000).put (F.CL_HBW_HBW 0) 256 with fcS := some 700, own := [(ownKey .eg 5, 7), (ownKey .eg 6, 9)] }), 0, 7, 7, 0, 0, by decide +kernel⟩,
    ⟨st 2048 (fun
        b =>
        { b.setSu 0 { takeover := some (0, 7, 1) } with nt := [(1, 4)], eng := [(1, { takeAt := some 0, tasks := [(2, { apend := true, pendKind := 4 })] })] }) id, 0, 0, 7, 1, by decide +kernel⟩,
    ⟨run [] id id (fun b => b.setSu 0 { isoDue := [(7, 1000)] }), 7, 1000, by decide +kernel⟩,
    ⟨run [(3, ⟨77, 2⟩)] (fun t =>
      { t with st := .ready, dc := 0x21 }) (fun u => { u with run := none })
        (fun b => ((b.wr (R.CL_CFG 0) 0x80FF0000).put (F.CL_HBW_HBW 0) 256).wr (R.CL_CKP 0) 512), 7, 5, 512, by decide +kernel⟩,
    ⟨at0 fun b =>
        { b.setSu 3 { snaps := [⟨7, 5, true, 0x21, (List.range 41).map fun j => ⟨BitVec.ofNat 32 (j * 0x1234567), BitVec.ofNat 4 j⟩⟩] } with mem := [(0x10300000 + (64 * 7 + 5) * 192, 0xFF), (0x10300000 + (64 * 7 + 5) * 192 + 1, 0xFF), (0x10300000 + (64 * 7 + 5) * 192 + 80, 0x55)] }, 3, ⟨7, 5, true, 0x21, (List.range 41).map fun j => ⟨BitVec.ofNat 32 (j * 0x1234567), BitVec.ofNat 4 j⟩⟩, [], 0x10300000 + (64 * 7 + 5) * 192, by decide +kernel⟩,
    ⟨at0 fun b =>
        { ((((((b.put F.PV_CFG_PAIR 1).put (F.GL_CFG_ROLE 0) 1).put (F.GL_CFG_ROLE 1) 1).put F.PV_STAT_ROLE 2).wr R.PV_CKCL 8).setSu 3 { snaps := [⟨7, 5, true, 0x21, (List.range 41).map fun j => ⟨BitVec.ofNat 32 (j * 0x1234567), BitVec.ofNat 4 j⟩⟩] }) with mem := [(0x10300000 + (64 * 7 + 5) * 192, 0xFF)] }, 3, ⟨7, 5, true, 0x21, (List.range 41).map fun j => ⟨BitVec.ofNat 32 (j * 0x1234567), BitVec.ofNat 4 j⟩⟩, [], 0x10300000 + (64 * 7 + 5) * 192, by decide +kernel⟩⟩

theorem test_hyp_PairEffects :
    (∃ (s : State), (s.now.on F.PV_CFG_PAIR = true ∧ s.now.twinReady = true) ∧ s.tick % 4096 = 0) ∧
    (∃ (s : State) (u : Nat) (l : List Nat), (s.now.pv.epochDue = u :: l ∧ u ≤ s.tick ∧ s.now.twinReady = true)) ∧
    (∃ (s : State) (n : Fin 96) (u : Nat), s.tick % 65536 = 0 ∧ (s.now.on (F.LL_CFG_EN n) = true ∧
      s.now.on (F.LL_CFG_LAW n) = false ∧ u = s.now.get (F.LL_CFG_LU n)) ∧
      (s.now.sporeSends (clusterOf (s.now.owner (ownLU u))) = true ∧ s.now.glTwin 0 = true)) ∧
    (∃ (s : State), s.now.pvReady = true ∧ max (s.now.fcS.getD 0) (s.now.pv.lastHb.getD 0) + 16384 ≤ s.tick ∧
      (s.now.pv.lanes = [] ∧ s.now.rd R.PV_CKCL = 0)) ∧
    (∃ (s : State) (e : Nat) (k : Nat) (n : Nat) (u : Nat) (a : Nat) (w : List Nat), s.now.pvReady = true ∧
      max (s.now.fcS.getD 0) (s.now.pv.lastHb.getD 0) + 16384 ≤ s.tick ∧ (s.now.pv.lanes = [(n, w)] ∧ w.length = 14 ∧
      n < nEG s.hw ∧ s.now.on (F.LL_CFG_LAW n) = false ∧ u = s.now.get (F.LL_CFG_LU n)) ∧ (e ∈ s.now.sporeEngines s.hw ∧
      k < s.now.nt.getD 0 e) ∧ (a = s.now.recordAddr (clusterOf e) (e % 8) k ∧
      bit ((s.start.recordWords a).getD 0 0) 31 = true)) ∧
    (∃ (s : State), s.now.pvSilent s.ctx = false) ∧
    (∃ (s : State), (s.now.role = 1 ∧ s.now.takingSince.any (fun u => u + 2048 ≤ s.tick) = true) ∧
      (s.now.pv.pinSince.all (fun p => p + s.now.get F.PV_CFG_HOLD ≤ s.tick) = true)) ∧
    (∃ (s : State), (s.now.on F.PV_CFG_PAIR = true ∧ s.now.on F.PV_STAT_PERM = true)) ∧
    (∃ (s : State), (s.now.on F.PV_STAT_PERM = false ∨ s.now.on F.PV_CFG_PAIR = false)) ∧
    (∃ (s : State) (u : Nat) (p : Nat), (s.now.role = 1 ∧ s.now.on F.PV_CFG_PREF = false ∧ s.now.on F.PV_STAT_PIN = true) ∧
      (s.now.takingSince = some u ∧ s.now.pv.pinSince = some p ∧ max u p + 4 * s.now.get F.PV_CFG_HOLD ≤ s.tick) ∧
      s.now.pv.saved < 2 ^ 32) ∧
    (∃ (s : State) (ag : Agent) (v : Word), Reaches s ag R.PV_CTL ∧ bits v.toNat 1 0 = 1) ∧
    (∃ (s : State) (ag : Agent) (v : Word) (q : Nat) (e : Nat) (k : Nat) (a : Nat), Reaches s ag R.PV_CTL ∧
      bits v.toNat 1 0 = 2 ∧ (List.range (nClusters s.hw)).filter s.now.sporeSends = [q] ∧
      ((List.range 256).filter (fun x => s.now.nt.getD 0 x != 0) = [8 * q + e] ∧ e < 8 ∧ s.now.nt.getD 0 (8 * q + e) = 1 ∧
      k = 0) ∧ (a = s.now.recordAddr q e 0 ∧ bit ((s.start.recordWords a).getD 0 0) 31 = true) ∧ s.now.glTwin 0 = true) ∧
    (∃ (s : State), (s.now.role ≠ 0 ∧ s.now.takingSince.any (fun u => u + 2048 ≤ s.tick) = true)) :=
  ⟨⟨st 8192 (fun
        b =>
        { ((((b.put F.PV_CFG_PAIR 1).put (F.GL_CFG_ROLE 0) 1).put (F.GL_CFG_ROLE 1) 1).put (F.GL_STAT_TXRDY 1) 1) with pv := { b.pv with rstReq := true, hbNum := 7 } }) id, by decide +kernel⟩,
    ⟨at0 fun b =>
        { ((((b.put F.PV_CFG_PREF 1).put (F.GL_CFG_ROLE 0) 1).put (F.GL_CFG_ROLE 1) 1).put (F.GL_STAT_TXRDY 1) 1) with takingSince := some 900, pv := { b.pv with epochDue := [900, 4996] } }, 900, [4996], by decide +kernel⟩,
    ⟨st 65536 (fun
        b =>
        ((((((((b.put F.PV_CFG_PAIR 1).put (F.GL_CFG_ROLE 0) 1).put (F.GL_CFG_ROLE 1) 1).put (F.GL_STAT_TXRDY 1) 1).put
        F.PV_STAT_ROLE 2).wr R.PV_CKCL 1).put (F.LL_CFG_EN 9) 1).put (F.LL_CFG_LU 9) 4).wr (R.LU_S 4 7) 99) id, 9, 4,
        by decide +kernel⟩,
    ⟨st 20000 (fun
        b =>
        { ((b.put F.PV_CFG_PAIR 1).put (F.GL_CFG_ROLE 1) 1).put (F.GL_STAT_TXRDY 1) 1 with fcS := some 100, pv := { b.pv with lastHb := some 3616 } }) id, by decide +kernel⟩,
    ⟨st 20000 (fun
        b =>
        { (b.put F.PV_CFG_PAIR 1).wr R.PV_CKCL 4 with fcS := some 100, nt := [(19, 3), (20, 1)], pv := { b.pv with lanes := [(9, (List.range 14).map (· + 5))] }, mem := [(0x10200000 + (64 * 3 + 2) * 192 + 3, 0xC3), (0x10200000 + (64 * 3 + 2) * 192 + 16, 0x55)] }) id, 19, 2, 9, 0, 0x10200000 + (64 * 3 + 2) * 192, (List.range 14).map (· + 5), by decide +kernel⟩,
    ⟨at0 fun b => b.put F.PV_CFG_PAIR 1, by decide +kernel⟩,
    ⟨st 20000 (fun
        b =>
        { (b.put F.PV_STAT_ROLE 1).put F.PV_CFG_HOLD 500 with takingSince := some 17952, pvWait := some 20001, pv := { b.pv with pinSince := some 19400 } }) id, by decide +kernel⟩,
    ⟨at0 fun b => ((b.put F.PV_CFG_PAIR 1).put F.PV_STAT_PERM 1).put F.PV_STAT_ROLE 2, by decide +kernel⟩,
    ⟨at0 fun b => b.put F.PV_STAT_ROLE 1, by decide +kernel⟩,
    ⟨st 20000 (fun
        b =>
        { ((b.put F.PV_STAT_ROLE 1).put F.PV_CFG_HOLD 500).put F.PV_STAT_PIN 1 with takingSince := some 17952, pv := { b.pv with pinSince := some 18000, saved := 4 } }) id, 17952, 18000, by decide +kernel⟩,
    ⟨at0 id, .engine 0, 1, by decide +kernel⟩,
    ⟨at0 (fun b
        => { (((((b.put F.PV_CFG_PAIR 1).put (F.GL_CFG_ROLE 0) 1).put (F.GL_CFG_ROLE 1) 1).put (F.GL_STAT_TXRDY 1) 1).put F.PV_STAT_ROLE 2).wr R.PV_CKCL 4 with nt := [(19, 1)], mem := [(0x10200000 + 64 * 3 * 192 + 3, 0x80), (0x10200000 + 64 * 3 * 192 + 77, 0x55)] }), .engine 0, 2, 2, 3, 0, 0x10200000 + 64 * 3 * 192, by decide +kernel⟩,
    ⟨st 20000 (fun
        b =>
        { ((b.put F.PV_STAT_ROLE 1).wr R.PV_CKCL 1) with takingSince := some 17952, nt := [(7, 10)], eng := [(7, { tasks := [(5, { st := .ready })] })] }) id, by decide +kernel⟩⟩

theorem test_hyp_ClockAndSleepEffects :
    (∃ (s : State) (k : Fin 7), (k ≠ 0 ∨ s.now.always.sleeping = false ∧ s.now.always.rstLow = false ∧ s.now.always.low = []) ∧
      s.now.pllUsed s.hw k = true) ∧
    (∃ (s : State) (k : Fin 7), (k = 0 ∧
      (s.now.always.sleeping = true ∨ s.now.always.rstLow = true ∨ s.now.always.low ≠ []) ∨ s.now.pllUsed s.hw k = false)) ∧
    (∃ (s : State), s.now.pllF = true ∧ s.now.flCmd = none) ∧
    (∃ (s : State) (k : Fin 7), (k = 1 ∨ k = 2 ∨ k = 3) ∧ s.now.on ⟨R.PW_PLL, k, k⟩ = true ∧
      (s.now.get (F.GL_STAT_LSTATE (2 * (k - 1))) = 4 ∧ s.now.get (F.GL_STAT_LSTATE (2 * (k - 1) + 1)) ≠ 4)) ∧
    (∃ (s : State), s.now.always.lclkDone = false) ∧
    (∃ (s : State), s.now.on F.PW_LSTAT_LSRC = false) ∧
    (∃ (s : State) (r : Fin 8) (u : Nat), (r.val < nRegions s.hw ∧ bit (s.start.get F.PW_DOZE_EN) r = true) ∧
      ((s.now.dozeSt r).asleep = false ∧ (s.now.dozeSt r).idleSince = some u) ∧
      u + (if s.start.get F.PW_DOZE_DLY = 0 then 16 else s.start.get F.PW_DOZE_DLY) ≤ s.tick) ∧
    (∃ (s : State) (r : Fin 8), ((s.now.fc.taskAct.any fun a => regionOf (a.1 / 64) == r.val) = true ∨ bit
        (s.now.get F.PW_DOZE_EN) r = false) ∧
      ((s.now.dozeSt r).asleep = true ∧ (s.now.dozeSt r).wake = none)) ∧
    (∃ (s : State) (r : Fin 8) (u : Nat), ((s.now.dozeSt r).wake = some u ∧ u + 12 ≤ s.tick)) ∧
    (∃ (s : State) (ag : Agent) (v : Word), Reaches s ag R.PW_CTL ∧ (bits v.toNat 31 16 = 0x534C ∧ bit v.toNat 0 = true) ∧
      (s.now.wakeAsserted s.now.always.wake = false ∧ s.now.timerDue = false ∧
      (s.now.on F.PV_CFG_PAIR && s.now.on F.PV_STAT_PERM) = false)) ∧
    (∃ (s : State) (ag : Agent) (v : Word), Reaches s ag R.PW_CTL ∧ (bits v.toNat 31 16 = 0x534C ∧ bit v.toNat 0 = true ∧
      s.now.resetDue = none) ∧
      (s.now.wakeAsserted s.now.always.wake = true ∨ s.now.timerDue = true ∨ (s.now.on F.PV_CFG_PAIR && s.now.on F.PV_STAT_PERM)
        = true)) ∧
    (∃ (s : State), (s.pending = [] ∧ s.now.pllF = true) ∧ (endFc s.ctx s.now).resetDue = some 16) ∧
    (∃ (s : State) (k : Fin 5), s.now.wakeEvent k = true) :=
  ⟨⟨at0 fun b => b.put (F.GL_CTL_EN 2) 1, 2, by decide +kernel⟩,
    ⟨at0 fun b => { b with always := { b.always with low := [3] } }, 0, by decide +kernel⟩,
    ⟨at0 fun b => { (b.put F.PW_PLL_F 1).put F.BOOT_STATUS_STATE 1 with mem := [(0x10000000, 4)] }, by decide +kernel⟩,
    ⟨at0 fun b => (b.wr R.PW_PLL 0x7F).put (F.GL_STAT_LSTATE 2) 4, 2, by decide +kernel⟩,
    ⟨State.reset, by decide +kernel⟩,
    ⟨State.reset, by decide +kernel⟩,
    ⟨at0 fun b => { b.put F.PW_DOZE_EN 0x80 with doze := [(7, { idleSince := some 984 })] }, 7, 984, by decide +kernel⟩,
    ⟨at0 fun b => { b with doze := [(7, { asleep := true })] }, 7, by decide +kernel⟩,
    ⟨at0 fun b => { b with doze := [(7, { asleep := true, wake := some 988 })] }, 7, 988, by decide +kernel⟩,
    ⟨at0 fun b => { ((b.put F.PW_PLL_F 1).put F.BOOT_STATUS_STATE 1).put F.BOOT_RESET_CAUSE 2 with mem := [(0x10000000, 4)] },
        .engine 0, 0x534C0001, by decide +kernel⟩,
    ⟨at0 fun b => b.put F.PW_WAKE_WKEN 1, .engine 0, 0x534C0001, by decide +kernel⟩,
    ⟨run [] id id (fun b => { ((b.put F.BOOT_STATUS_STATE 1).put F.PW_PLL_F 1).wr R.PW_WKTL 77 with resetDue := some 16 }),
        by decide +kernel⟩,
    ⟨at0 fun b =>
        { (b.put F.PW_WAKE_EN 8).put F.PW_WAKE_POL 8 with always := { b.always with sleeping := true, wake := 8, wakePrev := 8 } }, 3, by decide +kernel⟩⟩

theorem test_hyp_SupervisionAndScanEffects :
    (∃ (s : State) (ag : Agent) (v : Word), Reaches s ag R.PW_WDT_KICK ∧ v = 0x4B49) ∧
    (∃ (s : State) (ag : Agent) (v : Word), Reaches s ag R.PW_WDT_KICK ∧ v ≠ 0x4B49) ∧
    (∃ (s : State), (s.now.inRun = true ∧ s.now.on F.PW_WDT_CTL_EN = true ∧ s.now.wdHalf = false) ∧
      s.now.wdtTo / 2 ≤ s.now.rd R.PW_WDT_CNT) ∧
    (∃ (s : State), (s.now.inRun = true ∧ s.now.on F.PW_WDT_CTL_EN = true) ∧
      max 16 (s.now.get F.PW_WDT_TO_TO) ≤ s.now.rd R.PW_WDT_CNT) ∧
    (∃ (s : State) (r : Fin 10), (s.now.always.sleeping = false ∨ r = 9)) ∧
    (∃ (s : State) (k : Fin 16) (v : BitVec 16), (tsPresent s.hw k = true ∧ s.tick % 65536 = 0) ∧
      toSigned 16 (s.now.get (F.PW_TS_THR_HI k)) ≤ v.toInt) ∧
    (∃ (s : State) (k : Fin 16) (v : BitVec 16), (tsPresent s.hw k = true ∧ s.tick % 65536 = 0) ∧
      v.toInt < toSigned 16 (s.now.get (F.PW_TS_THR_HI k))) ∧
    (∃ (s : State), s.now.always.rstLow = true) ∧
    (∃ (s : State), s.now.always.rstLow = true) ∧
    (∃ (s : State), s.now.always.rstLow = true) ∧
    (∃ (s : State), s.now.always.rstLow = false) :=
  ⟨⟨at0 fun b => b.wr R.PW_WDT_CNT 77, .engine 0, 0x4B49, by decide +kernel⟩,
    ⟨at0 fun b => b.wr R.PW_WDT_CNT 77, .engine 0, 0x14B49, by decide +kernel⟩,
    ⟨at0 fun b => ((b.put F.BOOT_STATUS_STATE 1).put F.PW_WDT_CTL_EN 1).wr R.PW_WDT_CNT 0x10000000 |> fun b => b.put F.PW_WDT_TO_TO
        100, by decide +kernel⟩,
    ⟨at0 fun b => ((b.put F.BOOT_STATUS_STATE 1).put F.PW_WDT_CTL_EN 1).wr R.PW_WDT_CNT 0x10000000 |> fun b => b.put F.PW_WDT_TO_TO
        3, by decide +kernel⟩,
    ⟨at0 fun b => { b with always := { b.always with sleeping := true } }, 9, by decide +kernel⟩,
    ⟨st 65536 (fun b => b.put (F.PW_TS_THR_HI 15) 0xFFFE) id, 15, 0xFFFE, by decide +kernel⟩,
    ⟨st 65536 (fun b => ((b.put (F.PW_TS_THR_HI 15) 0x100).put (F.PW_TS_THR_HYS 15) 16).put (F.PW_TS_ABOVE 15) 1) id, 15, 0xEF,
        by decide +kernel⟩,
    ⟨at0 fun b => { b with always := { b.always with rstLow := true }, tap := { b.tap with cells := [(3, 2)] } }, by decide +kernel⟩,
    ⟨at0 fun b => { b with always := { b.always with rstLow := true }, tap := { b.tap with cells := [(3, 2)] } }, by decide +kernel⟩,
    ⟨at0 fun b => { b with always := { b.always with rstLow := true }, tap := { b.tap with cells := [(3, 2)] } }, by decide +kernel⟩,
    ⟨State.reset, by decide +kernel⟩⟩

theorem test_hyp_CommitUnderTripDiscarded :
    (∃ (s : State) (n : Fin 96) (y : LaneCommit) (rest : List LaneCommit), (s.now.llSt n).commits = y :: rest ∧
      (y.due ≤ s.tick ∧ y.eng = s.now.laneEng n) ∧ (∃ p ∈ s.now.laneOuts n, s.now.egHeld p.2 = true)) :=
  ⟨at0 fun b =>
        ((((((b.put (F.LL_CFG_ENG 5) 7).put (F.LL_OUT_V0 5) 1).put (F.LL_OUT_EG0 5) 95).put (F.TG_STAT_TRIPPED 31) 1).wr
        (R.TG_MEG 31 2) 0x80000000).wr (R.LL_STAT 5) 0x00FE0000).setLl 5
        { commits := [⟨7, 1000, [1, 2, 3], [4, 5, 6, 7]⟩, ⟨7, 1001, [1, 2, 3], [4, 5, 6, 7]⟩] }, 5,
        ⟨7, 1000, [1, 2, 3], [4, 5, 6, 7]⟩, [⟨7, 1001, [1, 2, 3], [4, 5, 6, 7]⟩], by decide +kernel⟩

theorem test_hyp_LandingPairSetsNew :
    (∃ (s : State) (n : Fin 128) (x : BallEdge), cpTakes s.ctx n false x = true ∧ s.start.on (F.CP_STAT_OPEN n) = true ∧
      s.now.fc.reads.contains (R.CP_RISE n) = false) ∧
    (∃ (s : State) (n : Fin 128) (x : BallEdge), cpTakes s.ctx n false x = true ∧ s.start.on (F.CP_STAT_OPEN n) = true ∧
      s.now.fc.reads.contains (R.CP_RISE n) = true) :=
  ⟨⟨st 1001 (fun b => ((({ b with pinMap := [(0, 9)] }.put (F.CP_CTL_EN 0) 1).put (F.CP_STAT_OPEN 0) 1).put (F.CP_STAT_NEW 0)
        1).setCp 0 { openRise := 5, rise := 1, fall := 2, width := 1 }) id, 0, ⟨63850, 4, 0⟩, by decide +kernel⟩,
    ⟨st 1001 (fun b => ({ b with pinMap := [(0, 9)] }.put (F.CP_CTL_EN 0) 1).put (F.CP_STAT_OPEN 0) 1) fun b =>
        { b with fc := { b.fc with reads := [R.CP_RISE 0] } }, 0, ⟨63850, 4, 0⟩, by decide +kernel⟩⟩

theorem test_hyp_Lout3WriteIgnored :
    (∃ (s : State) (e : Fin 256) (k : Nat) (ra : Reg), Issues s e k { len := 4, uses := [ra] } = true ∧
      plainTag ((s.now.taskSt e k).opd ra).t = true) ∧
    (∃ (s : State) (e : Fin 256) (k : Nat) (ra : Reg), Issues s e k { len := 2, uses := [ra] } = true ∧
      plainTag ((s.now.taskSt e k).opd ra).t = true) :=
  ⟨⟨run [(1, ⟨9, 3⟩)] id id (fun b => ((((b.put (F.LL_CFG_EN 4) 1).put (F.LL_CFG_LAW 4) 1).put (F.LL_CFG_ENG 4) 7).put
        (F.LL_CFG_TASK 4) 5).put (F.LL_CFG_CMT 4) 3), 7, 5, 1, by decide +kernel⟩,
    ⟨run [(1, ⟨9, 1⟩)], 7, 5, 1, by decide +kernel⟩⟩

/-! ### Every check refuses an ill-formed term -/

theorem test_wf_engine_number : WellFormed (.registerWrite (.engine 256) 0 0) = false := by decide
theorem test_wf_dma_number : WellFormed (.absentRead (.dma 64) 0) = false := by decide
theorem test_wf_no_host_access : WellFormed (.rcRead .host 0) = false := by decide
theorem test_wf_no_boot_access : WellFormed (.tbLoRead .boot) = false := by decide
theorem test_wf_no_supervisor_access : WellFormed (.ccCmplRead (.supervisor 0) 0) = false := by decide
theorem test_wf_ksp_header : WellFormed (.kspHello ⟨0, 0x10000, 0, 0, 0, 0, true⟩) = false := by decide
theorem test_wf_ksp_header_ip : WellFormed (.kspReset ⟨2 ^ 32, 0, 0, 0, 0, 0, true⟩ 0) = false := by decide
theorem test_wf_ksp_header_type : WellFormed (.kspHello ⟨0, 0, 256, 0, 0, 0, true⟩) = false := by decide
theorem test_wf_ksp_header_flags : WellFormed (.kspHello ⟨0, 0, 0, 0x10000, 0, 0, true⟩) = false := by decide
theorem test_wf_ksp_header_session : WellFormed (.kspHello ⟨0, 0, 0, 0, 2 ^ 32, 0, true⟩) = false := by decide
theorem test_wf_ksp_header_seq : WellFormed (.kspHello ⟨0, 0, 0, 0, 0, 2 ^ 32, true⟩) = false := by decide
theorem test_wf_flash_image_byte : WellFormed (.bootSequence 0 (some [256]) none) = false := by decide
theorem test_wf_enrolled_hash_byte : WellFormed (.mntEnrol 0 [0, 256]) = false := by decide
theorem test_wf_echo_byte : WellFormed (.hpIcmpEcho 0 0 [300]) = false := by decide
theorem test_wf_job_data_byte : WellFormed (.kspJobcmd ⟨0, 0, 0, 0, 0, 0, true⟩ [256]) = false := by decide
theorem test_wf_nonce_byte : WellFormed (.kspAttest ⟨0, 0, 0, 0, 0, 0, true⟩ [256]) = false := by decide
theorem test_wf_spool_block : WellFormed (.spBlockArrival 0 0 (2 ^ 524288)) = false := by decide +kernel
theorem test_wf_scan_cell : WellFormed (.tapSamplePreload [(0, 3)]) = false := by decide
theorem test_wf_bit_of_a_granule : WellFormed (.memoryBitError (.micro 0 0) [272]) = false := by decide

/-! ### Figures of the worked examples of spec/ -/

/-- The state a command answers. -/
def got : Host.Outcome State Fault Refusal → State
  | .next t => t
  | _ => State.reset

/-- Task 5 of engine 7 in the middle of the PI step of spec/11: error, gains, integrator, product, integrator scaled. -/
def pi : State :=
  run [(16, ⟨0x028FCCCD, Tag.frac⟩), (20, ⟨0x60000000, Tag.frac⟩), (21, ⟨0x00200000, Tag.frac⟩), (17, ⟨0x01EBD99A, Tag.frac⟩),
    (18, ⟨0x0200A3F3, Tag.frac⟩)] (fun t => { t with acc0 := ⟨0x02000000 * 2 ^ 31, Tag.frac⟩ })

-- spec/11, "a PI step, encoded"
theorem test_pi_mac : ((got (execMac 7 0 16 21 pi)).now.taskSt 7 5).acc0.v = 0x02000000 * 2 ^ 31 + 42978509 * 2097152 := by
  decide +kernel
theorem test_pi_mul : ((got (execMul 7 17 16 20 pi)).now.taskSt 7 5).reg 17 = ⟨0x01EBD99A, Tag.frac⟩ := by decide +kernel
theorem test_pi_rda : ((got (execRda 7 18 0 0 (got (execMac 7 0 16 21 pi) |> fun s => { s with tick := 1001 }))).now.taskSt 7
    5).reg 18 = ⟨0x0200A3F3, Tag.frac⟩ := by decide +kernel
theorem test_pi_add : ((got (execAdd 7 19 17 18 pi)).now.taskSt 7 5).reg 19 = ⟨0x03EC7D8D, Tag.frac⟩ := by decide +kernel

-- spec/03, "resuming a 3 kHz grid after a late write"
def grid : State := st 11200001 (fun b => ((b.put (F.CC_CTL_EN 41) 1).put (F.CC_CTL_AA 41) 1 |>.put (F.CC_IVL_IVL 41)
  0x02155555).setCc 41 { val := 640000040 }) id
theorem test_grid_value : ((got (execCcLateMatch 41 grid)).now.ccSt 41).val = 744857639 := by decide +kernel
theorem test_grid_misses : (got (execCcLateMatch 41 grid)).now.get (F.CC_MISS_MISS 41) = 2 := by decide +kernel

-- spec/04, "a 20 kHz blower leg": widths
theorem test_blower_width : fracWidth 0x4CCCCCCD 5242880 = 3145728 := by decide
theorem test_blower_width_short : fracWidth 0x4CCCCCCD 3145728 = 1887437 := by decide

-- spec/14, "one granule of cluster SRAM"
theorem test_granule_check : k272 3 = 0x000A := by decide +kernel

-- spec/17, "a stale frame with a good CRC"
theorem test_frame_crc : [0x01, 0x02].foldl (crcByte 8 0x07 false) 0 = 0x1B := by decide +kernel

-- spec/22, "CE137 stalls": the record of T05
theorem test_record_address : ((at0 fun b => b.put (F.CL_CKB_OFS 17) 0x7400).now.recordAddr 17 1 5) = 0x111EB3C0 := by
  decide +kernel

-- spec/02, "a three-phase current loop", hardware form: phase a
def loop : State := at0 fun b =>
  (((((List.range 15).zip [0x100000A0, 0x14800070, 0x101000A0, 0x15900070, 0x42401800, 0x43501900, 0x10400082, 0x16200030, 0x3C602000,
      0x10500082, 0x17300030, 0x3D702100, 0x10C000E0, 0x14D00070, 0x3E402200]).foldl (fun b x => b.wr (R.LU_P 5 x.1) x.2) b)
    |>.put (F.LU_CFG_LEN 5) 15).wr (R.LU_S 5 0) 0x0CCCCCCD).wr (R.LU_S 5 2) 0x02000000
    |>.setLu 5 { kAct := [(0, 0x60000000), (1, 0x00200000), (2, 0x86666666), (3, 0x7999999A)] }
theorem test_loop_integrator : (loop.now.lawResult 20 5 15 [0x0A3D0000]).s.getD 2 0 = 0x0200A3F3 := by decide +kernel
theorem test_loop_sum : (loop.now.lawResult 20 5 15 [0x0A3D0000]).s.getD 6 0 = 0x09B00A5B := by decide +kernel
theorem test_loop_output : (loop.now.lawResult 20 5 15 [0x0A3D0000]).y.getD 0 0 = 0x09B00A5B := by decide +kernel
theorem test_loop_duty : mapDuty true 0x09B00A5B = 0x44D8052D := by decide +kernel

-- spec/07, "a media-feed roller": interpolation in three fcs
theorem test_roller : [873728, 873792, 873856].map (fun g => interp g 4 6990507 false) = [32765, 32767, 32770] := by decide +kernel

/-! ### Words of instructions, written out from the tables of R469 -/

theorem test_code_alu : spells 0x0880C030 (.add 7 3 1 2) = true ∧ spells 0x27FFC250 (.addi 7 5 4 (-1)) = true ∧
    (LongWord.of 0x0880C030).name = some "ADD" := by decide
theorem test_code_branch : spells 0x1000A013 (.cbeq 7 1 2 3) = true ∧ spells 0x1000A013 (.cbeq 7 2 1 3) = false := by decide
theorem test_code_load : spells 0x0808E824 (.lw 7 2 1 4 8) = true ∧ (LongWord.of 0x0808E824).name = some "LW" := by decide
theorem test_code_mac : spells 0x4240D410 (.mac 7 1 8 9) = true ∧ (LongWord.of 0x4240D420).undefined = true := by decide
theorem test_code_system : spells 0x1923DC01 (.csrw 7 0x123 3) = true ∧ spells 0x07C5DE05 (.sys 7 0x1F5) = true := by decide
theorem test_code_short : spells 0x094C (.addS 7 1 2 3) = true ∧ spells 0x1BFF (.lis 7 3 0xFF) = true ∧
    spells 0x5694 (.msuS 7 1 4 5) = true ∧ spells 0x7314 (.rdlS 7 20 6) = true := by decide
theorem test_code_undefined : spells 0x00008000 (.sopReserved 7 true) = true ∧ spells 0x0000DE10 (.sopReserved 7 true) = true ∧
    spells 0x7800 (.sopReserved 7 false) = true ∧ spells 0x0000DE00 (.sopReserved 7 true) = false := by decide

/-! ### The package (spec/24): its worked example, the counts under R797 -/

theorem test_ball_fb00 : upperBand[208]? = some (.fb 0 0) ∧ upperSite 208 = (9, 41) ∧ rowName 9 = ['J'] := by decide
theorem test_ball_refclk : lowerBand[274]? = some (.refclk 0) ∧ lowerSite 274 = (43, 33) ∧ rowName 43 = ['B', 'E'] := by decide +kernel
theorem test_ball_sl0 : lowerBand[344]? = some (.sl 0 0) ∧ lowerSite 344 = (46, 32) ∧ rowName 46 = ['B', 'H'] := by decide +kernel
theorem test_ball_map : (List.range 376).all (fun p =>
    ballAt (upperSite p).1 (upperSite p).2 == .signal (upperBand.getD p .rstN) &&
    ballAt (lowerSite p).1 (lowerSite p).2 == .signal (lowerBand.getD p .rstN)) = true := by decide +kernel

/-- The balls of the array of one use. -/
def countBalls (f : BallUse → Bool) : Nat :=
  (List.range 47).foldl (fun n i => n + ((List.range 47).filter fun j => f (ballAt (i + 1) (j + 1))).length) 0

theorem test_ball_count_supplies : countBalls (fun x => match x with | .supply _ => true | _ => false) = 632 := by decide +kernel
theorem test_ball_count_vssa : countBalls (· == .vssa) = 15 := by decide +kernel
theorem test_rail_good : Rail.vddF.good false 1560000 = false ∧ Rail.vddF.good true 1560000 = true ∧
    Rail.vddF.warns 1700000 1600000 = true := by decide

end
end

section
/-! What issuing an instruction leaves: its booking, its fetch, its effect, one frame each (R407–R427, R509, R566); and the write
of LOUT3, which has no effect (R96). -/

namespace Sys2Proof.Machine

/-! ### The registers that count memory errors -/

/-- The engine, cluster or die that a memory belongs to is one of the largest package. -/
def MemSpace.InPackage : MemSpace → Prop
  | .itcm e | .dtcm e | .tag e => e < 256
  | .cluster n => n < 32
  | .die d => d < 2
  | .flash => True

theorem pick_le (hw : Hw) {x y z : Nat} (hy : y ≤ x) (hz : z ≤ x) : pick hw x y z ≤ x := by
  unfold pick
  cases hw.variant
  · exact Nat.le_refl x
  · exact hy
  · exact hz

theorem memSpace_inPackage {hw : Hw} {a : Nat} {m : MemSpace} (h : memSpace hw a = some m) : m.InPackage := by
  have he : nEngines hw ≤ 256 := pick_le hw (by decide) (by decide)
  have hc : nClusters hw ≤ 32 := pick_le hw (by decide) (by decide)
  have hd : nDies hw ≤ 2 := pick_le hw (by decide) (by decide)
  unfold memSpace at h
  simp only at h
  (repeat' split at h) <;> cases h <;> simp only [MemSpace.InPackage] <;> omega

theorem sumRegs_region {r o : Nat} (h : r < 8) (ho : o < 0x20) : sumRegs (R.baseSUM (r / 4) + o + r % 4 * 0x20) := by
  unfold sumRegs block R.baseSUM
  omega

theorem sumRegs_die {d o : Nat} (h : d < 2) (ho : o < 0x10000) : sumRegs (R.baseSUM d + o) := by
  unfold sumRegs block R.baseSUM
  omega

/-- Every register in which a memory error is counted is one of those of `sumRegs` (R566). -/
theorem sumRegs_of_eccRegs {hw : Hw} {a : Nat} {unc corr : Fld} {mua mca : Nat} (h : eccRegs hw a = some (unc, corr, mua, mca)) :
    sumRegs unc.addr ∧ sumRegs corr.addr ∧ sumRegs mua ∧ sumRegs mca := by
  have region {r : Nat} (hr : r < 8) : sumRegs (R.SUM_RG_MEC (r / 4) (r % 4)) ∧ sumRegs (R.SUM_RG_MEC (r / 4) (r % 4)) ∧
      sumRegs (R.SUM_RG_MUA (r / 4) (r % 4)) ∧ sumRegs (R.SUM_RG_MCA (r / 4) (r % 4)) :=
    ⟨sumRegs_region hr (by decide), sumRegs_region hr (by decide), sumRegs_region hr (by decide), sumRegs_region hr (by decide)⟩
  unfold eccRegs at h
  cases hm : memSpace hw a with
  | none => simp [hm] at h
  | some m =>
    have hp := memSpace_inPackage hm
    cases m with
    | flash => simp [hm] at h
    | die d =>
      simp only [hm, Option.some.injEq, Prod.mk.injEq] at h
      obtain ⟨rfl, rfl, rfl, rfl⟩ := h
      exact ⟨sumRegs_die hp (by decide), sumRegs_die hp (by decide), sumRegs_die hp (by decide), sumRegs_die hp (by decide)⟩
    | itcm e | dtcm e | tag e =>
      simp only [hm, Option.some.injEq, Prod.mk.injEq] at h
      obtain ⟨rfl, rfl, rfl, rfl⟩ := h
      exact region (Nat.div_lt_of_lt_mul hp)
    | cluster n =>
      simp only [hm, Option.some.injEq, Prod.mk.injEq] at h
      obtain ⟨rfl, rfl, rfl, rfl⟩ := h
      exact region (Nat.div_lt_of_lt_mul hp)

/-! ### What a fetch leaves -/

/-- `d` is `b` but for what a fetch by engine e may change: its I-cache and line buffer, the memory error counts and their edges. -/
structure FetchFrame (e : Nat) (b d : Block) : Prop where
  only : ∃ r fc ed en, d = { b with regs := r, fc := fc, edges := ed, eng := en }
  rd : ∀ a, ¬ sumRegs a → d.rd a = b.rd a
  others : ∀ n, n ≠ e → d.engSt n = b.engSt n
  own : ∃ ic lb, d.engSt e = { b.engSt e with icache := ic, lbuf := lb }

namespace FetchFrame

variable {e : Nat} {a b d : Block}

theorem refl (e : Nat) (b : Block) : FetchFrame e b b :=
  ⟨⟨_, _, _, _, rfl⟩, fun _ _ => rfl, fun _ _ => rfl, ⟨_, _, rfl⟩⟩

theorem trans (h : FetchFrame e a b) (g : FetchFrame e b d) : FetchFrame e a d := by
  obtain ⟨_, _, _, _, hb⟩ := h.only
  obtain ⟨r, fc, ed, en, hd⟩ := g.only
  obtain ⟨_, _, hib⟩ := h.own
  obtain ⟨ic, lb, hid⟩ := g.own
  exact ⟨⟨r, fc, ed, en, by rw [hd, hb]⟩, fun x hx => (g.rd x hx).trans (h.rd x hx),
    fun n hn => (g.others n hn).trans (h.others n hn), ⟨ic, lb, by rw [hid, hib]⟩⟩

theorem foldl {α : Type} {f : Block → α → Block} (hf : ∀ b x, FetchFrame e b (f b x)) (l : List α) :
    ∀ b, FetchFrame e b (l.foldl f b) := by
  induction l with
  | nil => exact fun b => refl e b
  | cons x t ih => exact fun b => (hf b x).trans (ih _)

theorem wr (b : Block) {x : Nat} (v : Nat) (h : sumRegs x) : FetchFrame e b (b.wr x v) :=
  ⟨⟨_, _, _, _, rfl⟩, fun _ ha => Block.rd_wr_other b v fun hx => ha (hx ▸ h), fun _ _ => rfl, ⟨_, _, rfl⟩⟩

theorem bump (b : Block) (f : Fld) (k : Nat) (h : sumRegs f.addr) : FetchFrame e b (b.bump f k) :=
  ⟨⟨_, _, _, _, rfl⟩, fun _ ha => Block.rd_put_other b f _ fun hx => ha (hx ▸ h), fun _ _ => rfl, ⟨_, _, rfl⟩⟩

theorem raiseEdge (c : Ctx) (n : Nat) (b : Block) : FetchFrame e b (raiseEdge c n b) :=
  ⟨⟨_, _, _, _, rfl⟩, fun _ _ => rfl, fun _ _ => rfl, ⟨_, _, rfl⟩⟩

theorem setLines (b : Block) (ic : Assoc (List (Nat × Nat))) (lb : List (Nat × Nat)) :
    FetchFrame e b (b.setEng e { b.engSt e with icache := ic, lbuf := lb }) :=
  ⟨⟨_, _, _, _, rfl⟩, fun _ _ => rfl, fun _ hn => Block.engSt_setEng_other b _ hn, ⟨ic, lb, Block.engSt_setEng_same ..⟩⟩

theorem task (h : FetchFrame e b d) (k : Nat) : d.taskSt e k = b.taskSt e k := by
  obtain ⟨_, _, hd⟩ := h.own
  simp only [Block.taskSt, hd]

theorem booked (h : FetchFrame e b d) : d.engSt e = (d.engSt e).booked (b.engSt e) := by
  obtain ⟨_, _, hd⟩ := h.own
  rw [hd]
  rfl

theorem issueAt (h : FetchFrame e b d) : (d.engSt e).issueAt = (b.engSt e).issueAt := by
  obtain ⟨_, _, hd⟩ := h.own
  rw [hd]

end FetchFrame

section

variable {e : Nat}

/-- A read that is counted. -/
theorem eccCount_frame (c : Ctx) (g : Nat) (st : GranState) (b : Block) : FetchFrame e b (eccCount c g st b) := by
  unfold eccCount
  split
  · obtain ⟨hunc, _, hmua, _⟩ := sumRegs_of_eccRegs ‹_›
    have hcount := (FetchFrame.bump (e := e) b _ 1 hunc).trans (.wr _ (g * 32) hmua)
    unfold when
    split
    · exact hcount.trans (.raiseEdge ..)
    · exact hcount
  · obtain ⟨_, hcorr, _, hmca⟩ := sumRegs_of_eccRegs ‹_›
    exact (FetchFrame.bump b _ 1 hcorr).trans (.wr _ _ hmca)
  · exact .refl e b

theorem memRead_frame (c : Ctx) (src : Block) (a n : Nat) (b : Block) : FetchFrame e b (memRead c src a n b).2.2 :=
  FetchFrame.foldl (fun b g => eccCount_frame c g _ b) _ b

theorem readLine_frame (c : Ctx) (l : Nat) (b : Block) : FetchFrame e b (readLine c l b).2.2.2 :=
  (eccCount_frame c (2 * l) _ b).trans (eccCount_frame c (2 * l + 1) _ _)

theorem prefetchLine_frame (c : Ctx) (l : Nat) (b : Block) : FetchFrame e b (prefetchLine c e l b) := by
  have hr := readLine_frame (e := e) c l b
  unfold prefetchLine
  simp only
  split
  · exact .refl e b
  · split
    · exact hr
    · exact hr.trans (.setLines ..)

theorem fetchLine_frame (c : Ctx) (a : Nat) (b : Block) : FetchFrame e b (fetchLine c e a b).2 := by
  have hr := readLine_frame (e := e) c (a / 64) b
  unfold fetchLine
  simp only
  split
  · exact (FetchFrame.setLines ..).trans (prefetchLine_frame ..)
  · split
    · exact hr
    · exact hr.trans ((FetchFrame.setLines ..).trans (prefetchLine_frame ..))

/-- The fetch of a halfword that raises nothing. -/
theorem fetchHalf_frame {c : Ctx} {u second got : Bool} {a : Nat} {b d : Block}
    (h : fetchHalf c e u second got a b = .done d) : FetchFrame e b d := by
  have hm := memRead_frame (e := e) c c.start (unalias e a) 2 b
  have hl := fetchLine_frame (e := e) c a b
  unfold fetchHalf at h
  simp only at h
  split at h
  · cases h
  split at h
  · cases h
  split at h
  · cases h
    exact .refl e _
  split at h
  · split at h
    · cases h
    · cases h
      exact hm
  split at h
  · cases h
  split at h
  · cases h
  · cases h
    exact hl

/-- The fetch of an instruction that raises nothing. -/
theorem fetchAll_frame {c : Ctx} {u : Bool} {pc len : Nat} {b d : Block} (h : fetchAll c e u pc len b = .done d) :
    FetchFrame e b d := by
  unfold fetchAll at h
  cases hf : fetchHalf c e u false false pc b with
  | done x =>
    rw [hf, Eff.andThen] at h
    split at h
    · cases h
      exact fetchHalf_frame hf
    · exact (fetchHalf_frame hf).trans (fetchHalf_frame h)
  | trap x y => rw [hf] at h; cases h
  | late n x y => rw [hf] at h; cases h
  | hold n => rw [hf] at h; cases h

end

/-! ### What the booking of an issue leaves -/

theorem Block.taskSt_setEng (b : Block) (e k : Nat) (v : EngSt) : (b.setEng e v).taskSt e k = v.tasks.getD {} k := by
  rw [Block.taskSt, Block.engSt_setEng_same]

/-- Two bookings of an engine in turn are one. -/
theorem EngSt.booked_trans {x y z : EngSt} (h : x = x.booked y) (g : y = y.booked z) : x = x.booked z :=
  calc x = x.booked y := h
    _ = x.booked (y.booked z) := congrArg x.booked g
    _ = x.booked z := rfl

/-- The booking changes of its engine what `EngSt.booked` names. -/
theorem engSt_bookIssue (c : Ctx) (e k : Nat) (m : Meta) (b : Block) :
    (bookIssue c e k m b).engSt e = ((bookIssue c e k m b).engSt e).booked (b.engSt e) := by
  unfold bookIssue Block.setTask
  simp only [Block.engSt_setEng_same]
  rfl

theorem engSt_bookIssue_other (c : Ctx) {e n : Nat} (k : Nat) (m : Meta) (b : Block) (h : n ≠ e) :
    (bookIssue c e k m b).engSt n = b.engSt n := by
  unfold bookIssue
  rw [Block.engSt_setTask_other _ _ _ h, Block.engSt_setEng_other _ _ h]

/-- The booking changes the engine alone. -/
theorem bookIssue_only (c : Ctx) (e k : Nat) (m : Meta) (b : Block) : ∃ en, bookIssue c e k m b = { b with eng := en } :=
  ⟨_, rfl⟩

theorem rd_bookIssue (c : Ctx) (e k : Nat) (m : Meta) (b : Block) (a : Nat) : (bookIssue c e k m b).rd a = b.rd a := rfl

/-- In mode D the next issue is the instruction's cost later (R407). -/
theorem issueAt_bookIssue (c : Ctx) (e k : Nat) (m : Meta) (b : Block) (h : (b.engSt e).modeP = false) :
    ((bookIssue c e k m b).engSt e).issueAt = c.tick + m.cost := by
  unfold bookIssue Block.setTask
  simp [h]

/-- The task's group CT is dirty, and a DRAIN it waited in has ended (R444, R509). -/
theorem taskSt_bookIssue_same (c : Ctx) (e k : Nat) (m : Meta) (b : Block) :
    (bookIssue c e k m b).taskSt e k = { (b.taskSt e k).dirty 5 with drain := none } := by
  unfold bookIssue
  rw [Block.taskSt_setTask_same, Block.taskSt_setEng, Block.taskSt]

theorem taskSt_bookIssue_other (c : Ctx) (e : Nat) {k j : Nat} (m : Meta) (b : Block) (h : j ≠ k) :
    (bookIssue c e k m b).taskSt e j = b.taskSt e j := by
  unfold bookIssue
  rw [Block.taskSt_setTask_other _ _ _ h, Block.taskSt_setEng, Block.taskSt]

/-! ### What a hold leaves -/

@[simp] theorem EngSt.holdTo_holdEnd (s : EngSt) (tick k n : Nat) : (s.holdTo tick k n).holdEnd = n := by
  unfold EngSt.holdTo
  simp only
  split <;> rfl

@[simp] theorem EngSt.holdTo_issueAt (s : EngSt) (tick k n : Nat) : (s.holdTo tick k n).issueAt = s.issueAt := by
  unfold EngSt.holdTo
  simp only
  split <;> rfl

@[simp] theorem EngSt.holdTo_tasks (s : EngSt) (tick k n : Nat) : (s.holdTo tick k n).tasks = s.tasks := by
  unfold EngSt.holdTo
  simp only
  split <;> rfl

/-- A hold puts off the same in an engine whatever has been booked in it (R499). -/
theorem EngSt.holdTo_booked {x s : EngSt} (h : x = x.booked s) (tick k n : Nat) :
    x.holdTo tick k n = (x.holdTo tick k n).booked (s.holdTo tick k n) := by
  rw [h]
  unfold EngSt.holdTo
  simp only
  split <;> rfl

/-! ### An instruction without an effect -/

/-- The part once task k of engine e has issued an instruction of `len` bytes that does nothing and whose fetch has left `b`. -/
def passBlock (tick e k len : Nat) (b : Block) : Block :=
  let d := jump e k ((b.taskSt e k).pc + len) b
  d.setEng e ((d.engSt e).holdTo tick k (d.engSt e).holdEnd)

theorem engSt_jump (e k a : Nat) (b : Block) : (jump e k a b).engSt e = ((jump e k a b).engSt e).booked (b.engSt e) := by
  unfold jump Block.setTask
  simp only [Block.engSt_setEng_same]
  rfl

theorem taskSt_passBlock_same (tick e k len : Nat) (b : Block) :
    (passBlock tick e k len b).taskSt e k = { b.taskSt e k with pc := ((b.taskSt e k).pc + len) % 2 ^ 32 } := by
  rw [passBlock, Block.taskSt_setEng, EngSt.holdTo_tasks]
  exact Block.taskSt_setTask_same ..

theorem taskSt_passBlock_other (tick e len : Nat) {k j : Nat} (b : Block) (h : j ≠ k) :
    (passBlock tick e k len b).taskSt e j = b.taskSt e j := by
  rw [passBlock, Block.taskSt_setEng, EngSt.holdTo_tasks]
  exact Block.taskSt_setTask_other _ _ _ h

theorem engSt_passBlock_other (tick k len : Nat) {e n : Nat} (b : Block) (h : n ≠ e) :
    (passBlock tick e k len b).engSt n = b.engSt n := by
  rw [passBlock, Block.engSt_setEng_other _ _ h, jump, Block.engSt_setTask_other _ _ _ h]

theorem passBlock_only (tick e k len : Nat) (b : Block) : ∃ en, passBlock tick e k len b = { b with eng := en } :=
  ⟨_, rfl⟩

theorem rd_passBlock (tick e k len : Nat) (b : Block) (a : Nat) : (passBlock tick e k len b).rd a = b.rd a := rfl

theorem issueAt_passBlock (tick e k len : Nat) (b : Block) :
    ((passBlock tick e k len b).engSt e).issueAt = (b.engSt e).issueAt := by
  rw [passBlock, Block.engSt_setEng_same, EngSt.holdTo_issueAt, jump, Block.setTask, Block.engSt_setEng_same]

section

variable {s : State} {e k : Nat} {m : Meta} {b : Block}

/-- The task once the issue is booked and the fetch done. -/
theorem taskSt_fetched (hb : fetched s e k m = .done b) :
    b.taskSt e k = { (s.now.taskSt e k).dirty 5 with drain := none } :=
  ((fetchAll_frame hb).task k).trans (taskSt_bookIssue_same ..)

/-- Where an instruction issues and its own effect is none, the part passes it. -/
theorem issue_nothing {body : Nat → Nat → Block → Eff} (h : Issues s e k m = true) (hb : fetched s e k m = .done b)
    (hn : ∀ pc d, (∀ r, (d.taskSt e k).reg r = (s.now.taskSt e k).reg r) → body k pc d = .done d) :
    issue s.ctx e m body s.now = passBlock s.tick e k m.len b := by
  have ht := taskSt_fetched hb
  have hr (r : Nat) : ((jump e k ((s.now.taskSt e k).pc + m.len) b).taskSt e k).reg r = (s.now.taskSt e k).reg r := by
    rw [jump, Block.taskSt_setTask_same, ht]
    rfl
  rw [issue_eq body h hb, hn _ _ hr, passBlock, ht]
  rfl

/-- An issue that does nothing moves the PC on, dirties CT alone, and takes the instruction's cost. -/
theorem passed_passBlock (hb : fetched s e k m = .done b) :
    Passed s { s with now := passBlock s.tick e k m.len b } e k m.len m.cost 0 := by
  have ht := taskSt_fetched hb
  refine ⟨?_, ?_, ?_, fun hd => ?_⟩
  · rw [taskSt_passBlock_same, ht]
    rfl
  · rw [taskSt_passBlock_same, ht, Nat.or_zero]
    rfl
  · rw [taskSt_passBlock_same, ht, Nat.or_zero]
    rfl
  · rw [issueAt_passBlock, (fetchAll_frame hb).issueAt]
    exact issueAt_bookIssue _ _ _ _ _ hd

/-- What an issue that does nothing may change of the part. -/
theorem passBlock_fetched (hb : fetched s e k m = .done b) (tick len : Nat) : ∃ r fc ed en,
    passBlock tick e k len b = { s.now with regs := r, fc := fc, edges := ed, eng := en } := by
  obtain ⟨_, hbook⟩ := bookIssue_only s.ctx e k m s.now
  obtain ⟨r, fc, ed, _, hfetch⟩ := (fetchAll_frame hb).only
  obtain ⟨en, hpass⟩ := passBlock_only tick e k len b
  exact ⟨r, fc, ed, en, by rw [hpass, hfetch, hbook]⟩

/-- What an issue that does nothing may change of its engine: what `EngSt.booked` names and what a hold puts off. -/
theorem engSt_passBlock (hb : fetched s e k m = .done b) (tick len : Nat) :
    (passBlock tick e k len b).engSt e = ((passBlock tick e k len b).engSt e).booked
      ((s.now.engSt e).holdTo tick k ((passBlock tick e k len b).engSt e).holdEnd) := by
  have hx := EngSt.booked_trans (engSt_jump e k ((b.taskSt e k).pc + len) b)
    (EngSt.booked_trans (fetchAll_frame hb).booked (engSt_bookIssue s.ctx e k m s.now))
  rw [passBlock, Block.engSt_setEng_same, EngSt.holdTo_holdEnd]
  exact EngSt.holdTo_booked hx ..

/-- An issue that does nothing changes nothing but what it books. -/
theorem frame_passBlock (hb : fetched s e k m = .done b) :
    Frame.instr (fun _ s => s) (fun _ s => s) (fun _ => False) e k s { s with now := passBlock s.tick e k m.len b } := by
  have hf := fetchAll_frame hb
  have ht := taskSt_fetched hb
  obtain ⟨_, _, _, _, honly⟩ := passBlock_fetched hb s.tick m.len
  refine ⟨fun n hn => ?_, fun j hj => ?_, engSt_passBlock hb _ _, ?_, fun r _ => ?_, ⟨rfl, rfl, rfl, rfl⟩,
    ⟨fun a => ?_, ?_⟩, fun a ha => ?_, ?_⟩
  · rw [engSt_passBlock_other _ _ _ _ hn, hf.others n hn, engSt_bookIssue_other _ _ _ _ hn]
  · rw [taskSt_passBlock_other _ _ _ _ hj, hf.task j, taskSt_bookIssue_other _ _ _ _ hj]
  · rw [taskSt_passBlock_same, ht]
    rfl
  · rw [taskSt_passBlock_same, ht]
    rfl
  · simp only [Block.memByte, honly]
  · simp only [honly]
  · exact (rd_passBlock ..).trans ((hf.rd a ha).trans (rd_bookIssue ..))
  · simp only [honly, Block.shared]

/-! ### WRL of LOUT3 -/

/-- WRL of LOUT3 does nothing, whatever lane commits with it (R96). -/
theorem wrlOp_lout3 {ra len : Nat} (h : Issues s e k { len := len, uses := [ra] } = true)
    (hp : plainTag ((s.now.taskSt e k).opd ra).t = true) (hb : fetched s e k { len := len, uses := [ra] } = .done b) :
    wrlOp s.ctx e 3 ra len s.now = passBlock s.tick e k len b := by
  refine issue_nothing h hb fun pc d hr => ?_
  have ho : plainTag ((d.taskSt e k).opd ra).t = true := by
    rwa [TaskSt.opd, hr ra]
  simp [ho]

/-- The part that WRL of LOUT3 leaves. -/
theorem wrlOp_lout3_passes {ra len : Nat} (h : Issues s e k { len := len, uses := [ra] } = true)
    (hp : plainTag ((s.now.taskSt e k).opd ra).t = true) :
    Passed s { s with now := wrlOp s.ctx e 3 ra len s.now } e k len 1 0 ∧
      Frame.instr (fun _ s => s) (fun _ s => s) (fun _ => False) e k s { s with now := wrlOp s.ctx e 3 ra len s.now } := by
  obtain ⟨b, hb⟩ := fetched_of_issues h
  have hpassed := passed_passBlock hb
  have hframe := frame_passBlock hb
  rw [wrlOp_lout3 h hp hb]
  exact ⟨hpassed, hframe⟩

end

end Sys2Proof.Machine

namespace Sys2Proof

open Machine

/-- Settles O60: both forms of WRL are `wrlOp`, which passes LOUT3 without an effect. -/
theorem lout3WriteIgnored : Obligations.Lout3WriteIgnored := by
  unfold Obligations.Lout3WriteIgnored
  intro s e k
  constructor
  · intro ra h hp
    exact ⟨_, rfl, wrlOp_lout3_passes h hp⟩
  · intro ra h hp
    exact ⟨_, rfl, wrlOp_lout3_passes h hp⟩

end Sys2Proof
end

section
/-! What a capture pair leaves: the flags of a pair that lands, the stamps it holds, its frame, now or put off by a read
(R134–R142). -/

namespace Sys2Proof.Machine

/-! ### An emission leaves the reads of the fc -/

theorem carry_reads (c : Ctx) (n hop : Nat) (fine : Option Nat) (own : Bool) (b : Block) :
    (carry c n hop fine own b).fc.reads = b.fc.reads := by
  unfold carry
  simp only
  split <;> rfl

theorem emitOn_reads (c : Ctx) (u : EvUnit) (inst hop : Nat) (fine : Option Nat) (b : Block) (n : Nat) :
    (emitOn c u inst hop fine b n).fc.reads = b.fc.reads := by
  unfold emitOn
  split
  · rfl
  · exact carry_reads ..

@[simp] theorem emit_reads (c : Ctx) (u : EvUnit) (inst e : Nat) (fine : Option Nat) (b : Block) :
    (emit c u inst e fine b).fc.reads = b.fc.reads := by
  have hfold (l : List Nat) (hop : Nat) : ∀ d : Block, (l.foldl (emitOn c u inst hop fine) d).fc.reads = d.fc.reads := by
    induction l with
    | nil => exact fun _ => rfl
    | cons m t ih => exact fun d => (ih _).trans (emitOn_reads ..)
  exact hfold _ _ _

/-! ### The frame of one pair -/

/-- `d` is `b` but for what capture pair n may change: its own state and registers, and what an emission changes. -/
structure CpFrame (n : Nat) (b d : Block) : Prop where
  only : ∃ r fc fl m cp, d = { b with regs := r, fc := fc, flights := fl, marks := m, cp := cp }
  rd : ∀ a, ¬ blockOr (R.baseCP n) 0x20 a → d.rd a = b.rd a
  others : ∀ m, m ≠ n → d.cpSt m = b.cpSt m

/-- A register of a pair is one of its block. -/
theorem cpBlock_reg (n : Nat) {o : Nat} (h : o < 0x20) : blockOr (R.baseCP n) 0x20 (R.baseCP n + o) :=
  .inl ⟨Nat.le_add_right .., Nat.add_lt_add_left h _⟩

/-- A pair's status register is none of those an emission may change. -/
theorem not_evRegion_cpStat {n : Nat} (h : n < 128) : ¬ evRegion (R.CP_STAT n) := by
  unfold evRegion R.CP_STAT R.baseCP
  omega

namespace CpFrame

variable {n : Nat} {a b d : Block}

theorem refl (n : Nat) (b : Block) : CpFrame n b b := ⟨⟨_, _, _, _, _, rfl⟩, fun _ _ => rfl, fun _ _ => rfl⟩

theorem trans (h : CpFrame n a b) (g : CpFrame n b d) : CpFrame n a d := by
  obtain ⟨_, _, _, _, _, hb⟩ := h.only
  obtain ⟨r, fc, fl, m, cp, hd⟩ := g.only
  exact ⟨⟨r, fc, fl, m, cp, by rw [hd, hb]⟩, fun x hx => (g.rd x hx).trans (h.rd x hx),
    fun k hk => (g.others k hk).trans (h.others k hk)⟩

theorem emit (c : Ctx) (u : EvUnit) (inst e : Nat) (fine : Option Nat) (b : Block) : CpFrame n b (emit c u inst e fine b) := by
  have hf := emit_frame c u inst e fine b
  obtain ⟨r, fc, fl, m, ho⟩ := hf.only
  exact ⟨⟨r, fc, fl, m, b.cp, ho⟩, fun x hx => hf.rd x fun he => hx (.inr he), fun k _ => by simp [Block.cpSt]⟩

theorem put (b : Block) (f : Fld) (v : Nat) (h : blockOr (R.baseCP n) 0x20 f.addr) : CpFrame n b (b.put f v) :=
  ⟨⟨_, _, _, _, _, rfl⟩, fun _ hx => Block.rd_put_other b f v fun he => hx (he ▸ h), fun _ _ => rfl⟩

theorem flag (b : Block) (f : Fld) (h : blockOr (R.baseCP n) 0x20 f.addr) : CpFrame n b (b.flag f) :=
  ⟨⟨_, _, _, _, _, rfl⟩, fun _ hx => Block.rd_put_other b f 1 fun he => hx (he ▸ h), fun _ _ => rfl⟩

theorem setCp (b : Block) (v : CpSt) : CpFrame n b (b.setCp n v) :=
  ⟨⟨_, _, _, _, _, rfl⟩, fun _ _ => rfl, fun _ hk => Block.cpSt_setCp_other b v hk⟩

/-- The frame of a command of pair n, as the claims state it. -/
theorem frame_cp {s : State} (h : CpFrame n s.now d) : Frame.cp n (blockOr (R.baseCP n) 0x20) s { s with now := d } := by
  obtain ⟨_, _, _, _, _, hd⟩ := h.only
  refine ⟨h.others, ⟨rfl, rfl, rfl, rfl⟩, ⟨fun a => ?_, ?_⟩, h.rd, ?_⟩
  · simp only [Block.memByte, hd]
  · simp only [hd]
  · simp only [hd, Block.shared]

end CpFrame

/-! ### The flags of a landing -/

/-- A one-bit field just written. -/
theorem Block.on_put_same (b : Block) (a i v : Nat) (h : i < 32) : (b.put ⟨a, i, i⟩ v).on ⟨a, i, i⟩ = (v % 2 != 0) := by
  simp [Block.on, Block.get_put_same b ⟨a, i, i⟩ v h]

/-- Another bit of the register written. -/
theorem Block.on_put_other (b : Block) (a v : Nat) {i j : Nat} (h : i < 32) (hd : i ≠ j) :
    (b.put ⟨a, j, j⟩ v).on ⟨a, i, i⟩ = b.on ⟨a, i, i⟩ := by
  rw [Block.on, Block.get_put_other _ _ _ _ h (.inr (Nat.lt_or_gt_of_ne hd)), Block.on]

/-- NEW and OVR as a landing pair sets them (R138). -/
def cpMark (n : Nat) (b : Block) : Block :=
  let d := b.put (F.CP_STAT_NEW n) 1
  if b.on (F.CP_STAT_NEW n) then d.flag (F.CP_STAT_OVR n) else d

/-- A landing: the pair's stamps, then its flags, then the close under ONE. -/
theorem cpLand_eq (n rise fall : Nat) (one : Bool) (b : Block) : cpLand n rise fall one b =
    let d := cpMark n (b.setCp n { b.cpSt n with rise := rise, fall := fall, width := min (fall - rise) 0xFFFFFFFF })
    if one then cpClose n d else d := rfl

section

variable (n : Nat) (b : Block)

theorem on_new_cpMark : (cpMark n b).on (F.CP_STAT_NEW n) = true := by
  have hput : (b.put (F.CP_STAT_NEW n) 1).on (F.CP_STAT_NEW n) = true := Block.on_put_same b _ 0 1 (by decide)
  unfold cpMark
  simp only
  split
  · exact (Block.on_put_other _ _ 1 (i := 0) (j := 1) (by decide) (by decide)).trans hput
  · exact hput

theorem on_ovr_cpMark :
    (cpMark n b).on (F.CP_STAT_OVR n) = (b.on (F.CP_STAT_OVR n) || b.on (F.CP_STAT_NEW n)) := by
  unfold cpMark
  simp only
  split
  case isTrue h =>
    rw [h, Bool.or_true]
    exact Block.on_put_same _ _ 1 1 (by decide)
  case isFalse h =>
    rw [Bool.eq_false_iff.mpr h, Bool.or_false]
    exact Block.on_put_other b _ 1 (i := 1) (j := 0) (by decide) (by decide)

/-- A close leaves the flags of the pair that has landed (R142). -/
theorem on_cpClose {f : Fld} (ha : f.addr = R.CP_STAT n) (hf : f.hi < 2) : (cpClose n b).on f = b.on f := by
  have hctl : f.addr ≠ R.CP_CTL n := by
    rw [ha, R.CP_STAT, R.CP_CTL]
    omega
  have h32 : f.hi < 32 := by omega
  rw [cpClose, Block.on, Block.get_put_other _ _ _ _ h32 (.inr (.inl hf)), Block.get_put_other _ _ _ _ h32 (.inl hctl), Block.on]

theorem cpMark_cp : (cpMark n b).cp = b.cp := by
  unfold cpMark
  simp only
  split <;> rfl

theorem CpFrame.cpMark : CpFrame n b (cpMark n b) := by
  have hput : CpFrame n b (b.put (F.CP_STAT_NEW n) 1) := .put b _ _ (cpBlock_reg n (by decide))
  unfold Machine.cpMark
  simp only
  split
  · exact hput.trans (.flag _ _ (cpBlock_reg n (by decide)))
  · exact hput

theorem CpFrame.cpClose : CpFrame n b (cpClose n b) :=
  (CpFrame.put b _ _ (cpBlock_reg n (by decide))).trans (.put _ _ _ (cpBlock_reg n (by decide)))

/-! ### A landing -/

variable (rise fall : Nat) (one : Bool)

/-- The flags that a landing leaves are those it sets, whether or not ONE closes the pair. -/
theorem on_cpLand {f : Fld} (ha : f.addr = R.CP_STAT n) (hf : f.hi < 2) : (cpLand n rise fall one b).on f =
    (cpMark n (b.setCp n { b.cpSt n with rise := rise, fall := fall, width := min (fall - rise) 0xFFFFFFFF })).on f := by
  rw [cpLand_eq]
  cases one with
  | true => exact on_cpClose n _ ha hf
  | false => rfl

/-- A landing sets NEW (R138). -/
theorem on_new_cpLand : (cpLand n rise fall one b).on (F.CP_STAT_NEW n) = true := by
  rw [on_cpLand n b rise fall one rfl Nat.zero_lt_two]
  exact on_new_cpMark ..

/-- A landing over an unread pair sets OVR (R138). -/
theorem on_ovr_cpLand :
    (cpLand n rise fall one b).on (F.CP_STAT_OVR n) = (b.on (F.CP_STAT_OVR n) || b.on (F.CP_STAT_NEW n)) := by
  rw [on_cpLand n b rise fall one rfl Nat.one_lt_two]
  exact on_ovr_cpMark ..

/-- The registers hold the pair that landed (R136, R138). -/
theorem cpSt_cpLand : (cpLand n rise fall one b).cpSt n =
    { b.cpSt n with rise := rise, fall := fall, width := min (fall - rise) 0xFFFFFFFF } := by
  have hmark (v : CpSt) : (cpMark n (b.setCp n v)).cpSt n = v := by
    rw [Block.cpSt, cpMark_cp]
    exact Block.cpSt_setCp_same ..
  rw [cpLand_eq]
  cases one with
  | true => exact hmark _
  | false => exact hmark _

theorem CpFrame.cpLand : CpFrame n b (cpLand n rise fall one b) := by
  have hmark (v : CpSt) : CpFrame n b (Machine.cpMark n (b.setCp n v)) := (CpFrame.setCp b v).trans (.cpMark n _)
  rw [cpLand_eq]
  cases one with
  | true => exact (hmark _).trans (.cpClose n _)
  | false => exact hmark _

end

/-! ### A pair made ready -/

/-- The part once a falling edge has closed pair n and raised its CAPTURE event (R137). -/
def cpCaptured (c : Ctx) (n : Nat) (b : Block) : Block := emit c .cp n 1 none (b.put (F.CP_STAT_OPEN n) 0)

section

variable (c : Ctx) {n : Nat} (b : Block)

/-- NEW and OVR are as before the capture. -/
theorem on_cpCaptured (hn : n < 128) {f : Fld} (ha : f.addr = R.CP_STAT n) (hf : f.hi < 2) :
    (cpCaptured c n b).on f = b.on f := by
  rw [cpCaptured, Block.on, emit_get _ _ _ _ _ _ (ha ▸ not_evRegion_cpStat hn),
    Block.get_put_other _ _ _ _ (by omega) (.inr (.inl hf)), Block.on]

theorem CpFrame.cpCaptured : CpFrame n b (cpCaptured c n b) :=
  (CpFrame.put b _ _ (cpBlock_reg n (by decide))).trans (.emit ..)

variable {c b} {x : BallEdge} (ht : cpTakes c n false x = true) (ho : c.start.on (F.CP_STAT_OPEN n) = true)

include ht ho

/-- A ready pair that no read meets lands now (R136). -/
theorem cpReady_lands (hr : b.fc.reads.contains (R.CP_RISE n) = false) : cpReady c n x b =
    cpLand n (c.start.cpSt n).openRise (edgeStamp x) (c.start.on (F.CP_CTL_ONE n)) (cpCaptured c n b) := by
  have hd : (cpCaptured c n b).fc.reads.contains (R.CP_RISE n) = false := by rwa [cpCaptured, emit_reads]
  rw [cpReady, ht, ho, Bool.and_self, when_true]
  exact if_neg (Bool.eq_false_iff.mp hd)

/-- A ready pair that meets a read of its fc is put off (R141). -/
theorem cpReady_putOff (hr : b.fc.reads.contains (R.CP_RISE n) = true) : cpReady c n x b =
    (cpCaptured c n b).setCp n
      { (cpCaptured c n b).cpSt n with putOff := some ((c.start.cpSt n).openRise, edgeStamp x) } := by
  have hd : (cpCaptured c n b).fc.reads.contains (R.CP_RISE n) = true := by rwa [cpCaptured, emit_reads]
  rw [cpReady, ht, ho, Bool.and_self, when_true]
  exact if_pos hd

end

/-- A pair put off lands as any other (R141). -/
theorem cpPutOffLands_some {b : Block} {n rise fall : Nat} (h : (b.cpSt n).putOff = some (rise, fall)) : cpPutOffLands b n =
    cpLand n rise fall (b.on (F.CP_CTL_ONE n)) (b.setCp n { b.cpSt n with putOff := none }) := by
  simp only [cpPutOffLands, h]

end Sys2Proof.Machine

namespace Sys2Proof

open Machine

/-- Settles O59: a ready pair lands by `cpLand`, in its own fc or, once a read has put it off, at that fc's end. -/
theorem landingPairSetsNew : Obligations.LandingPairSetsNew := by
  unfold Obligations.LandingPairSetsNew
  intro s n x
  have hcaptured := CpFrame.cpCaptured s.ctx (n := n) s.now
  constructor
  case left =>
    intro ht ho hr
    refine ⟨_, rfl, ?_⟩
    have hlands := cpReady_lands ht ho hr
    have hst := cpSt_cpLand n (cpCaptured s.ctx n s.now) (s.start.cpSt n).openRise (edgeStamp x) (s.start.on (F.CP_CTL_ONE n))
    simp only [hlands, State.ctx_start]
    refine ⟨on_new_cpLand .., ?_, ?_, (hcaptured.trans (.cpLand ..)).frame_cp⟩
    · rw [on_ovr_cpLand, on_cpCaptured _ _ n.isLt rfl Nat.one_lt_two, on_cpCaptured _ _ n.isLt rfl Nat.zero_lt_two]
    · rw [hst]
      exact ⟨rfl, rfl, rfl⟩
  case right =>
    intro ht ho hr
    refine ⟨_, rfl, ?_⟩
    have hputOff := cpReady_putOff ht ho hr
    simp only [hputOff]
    rw [cpPutOffLands_some (by rw [Block.cpSt_setCp_same])]
    refine ⟨on_new_cpLand .., ?_, ?_, (hcaptured.trans (.setCp ..)).frame_cp⟩
    · rw [on_ovr_cpLand]
      rfl
    · rw [cpSt_cpLand]
      exact ⟨rfl, rfl⟩

end Sys2Proof
end
